-- ==== Sys2Proof/Word.lean ====
section
/-!
DEFINITION. The word types of the Celre T9 and the sparse maps that hold its stores.

`SMap` is the one representation of every addressed store: a list of (key, value) pairs with strictly
rising keys and no pair whose value equals what an unlisted key reads as.  `Memory` is the byte-addressed
case (`Host.Cell` pairs).
-/

namespace Sys2Proof

/-- One byte (R2). -/
abbrev Byte := BitVec 8
/-- One 32-bit register word (R8). -/
abbrev Word := BitVec 32
/-- One 64-bit value: a register pair, a timeline value, a sample or block index. -/
abbrev DWord := BitVec 64

/-- A sparse store: strictly rising keys. -/
abbrev SMap (α : Type) := List (Nat × α)

namespace SMap

/-- The value at key `k`; `d` where no entry is listed. -/
def get {α : Type} (d : α) : SMap α → Nat → α
  | [], _ => d
  | (k', v) :: m, k => if k = k' then v else SMap.get d m k

/-- Put an entry at its place, replacing one of the same key. -/
def insert {α : Type} : SMap α → Nat → α → SMap α
  | [], k, v => [(k, v)]
  | (k', v') :: m, k, v =>
    if k < k' then (k, v) :: (k', v') :: m
    else if k = k' then (k, v) :: m
    else (k', v') :: SMap.insert m k v

/-- Take every entry of a key out. -/
def erase {α : Type} : SMap α → Nat → SMap α
  | [], _ => []
  | (k', v') :: m, k => if k = k' then SMap.erase m k else (k', v') :: SMap.erase m k

/-- Write `v` at `k` where an unlisted key reads as `d`: writing `d` removes the entry. -/
def set {α : Type} [DecidableEq α] (d : α) (m : SMap α) (k : Nat) (v : α) : SMap α :=
  if v = d then SMap.erase m k else SMap.insert m k v

/-- Every key of the list lies above `k`. -/
def above {α : Type} (k : Nat) : SMap α → Bool
  | [] => true
  | (k', _) :: m => decide (k < k') && SMap.above k m

/-- The canonical form of a store whose key `k` reads as `d k` where unlisted: keys strictly rising, and no
entry equal to what its key reads as. -/
def wf {α : Type} [DecidableEq α] (d : Nat → α) : SMap α → Bool
  | [] => true
  | (k, v) :: m => SMap.above k m && decide (v ≠ d k) && SMap.wf d m

end SMap

/-- Byte-addressed memory: (address, byte) pairs in canonical form; an unlisted address reads zero. -/
abbrev Memory := List (Nat × BitVec 8)

/-- The canonical form of a byte memory. -/
abbrev Memory.wf (m : Memory) : Bool := SMap.wf (fun _ => 0#8) m

/-- Bit `i` of a word. -/
abbrev bit {w : Nat} (x : BitVec w) (i : Nat) : Bool := x.getLsbD i

/-- Bits [lo + n − 1 : lo] of a word (R1). -/
abbrev field {w : Nat} (x : BitVec w) (lo n : Nat) : BitVec n := x.extractLsb' lo n

/-- Bits [lo + n − 1 : lo] of a word as a number. -/
abbrev fieldNat {w : Nat} (x : BitVec w) (lo n : Nat) : Nat := (x.extractLsb' lo n).toNat

end Sys2Proof
end

