-- ==== Sys2Proof/Syntax.lean ====
section
/-!
DEFINITION. The commands of the Celre T9: one constructor of `Instr` per row of spec/opcode_table.json, in
the table's order.  Each docstring opens with the row's mnemonic and rule.  The operand records of the
Stitch 3 rows are the slot layouts of R156.
-/

namespace Sys2Proof

/-- Who makes a register access (R319, R328, ERR_ACCESS_INFO.MASTER). -/
inductive Master where
  | f0 | f1 | legend | cartouche
  deriving DecidableEq, Repr

/-- The width of a register access (R325). -/
inductive Width where
  | b8 | b16 | b32 | b64 | wider
  deriving DecidableEq, Repr

/-- A side of a picot: neighbour link or output (R123, R156). -/
inductive Dir where
  | n | e | s | w
  deriving DecidableEq, Repr

/-- A logical pricking of a logical picot: `pic` is row × 32 + column (R133, R146). -/
structure At where
  pic : Fin 1024
  lg  : Fin 8
  deriving DecidableEq, Repr

/-- What an M-slot instruction takes from its bundle's header: who issues it and the predicate (R152, R155). -/
structure MHead where
  loc  : At
  psel : BitVec 4
  pneg : Bool
  deriving DecidableEq, Repr

/-- What a C-slot instruction takes from its bundle's header: who issues it and the end mark (R153, R155). -/
structure CHead where
  loc : At
  fin : Bool
  deriving DecidableEq, Repr

/-- Slot layout MV (R156). -/
structure MV where
  fmt : BitVec 4
  rnd : BitVec 2
  vd  : BitVec 5
  va  : BitVec 5
  vb  : BitVec 5
  vc  : BitVec 5
  ck  : BitVec 8
  gi  : BitVec 4
  sub : BitVec 4
  deriving DecidableEq, Repr

/-- Slot layout MM (R156): MMA. -/
structure MM where
  bank   : BitVec 2
  acc    : Bool
  scaled : Bool
  afmt   : BitVec 4
  va     : BitVec 5
  seg    : BitVec 3
  gs     : BitVec 4
  deriving DecidableEq, Repr

/-- Slot layout MQ (R156): ACCQ. -/
structure MQ where
  bank : BitVec 2
  vd   : BitVec 5
  seg  : BitVec 3
  rrow : BitVec 12
  ck   : BitVec 8
  gc   : BitVec 4
  rnd  : BitVec 2
  gi   : BitVec 4
  cks  : BitVec 8
  deriving DecidableEq, Repr

/-- Slot layout MT (R156): WLD. -/
structure MT where
  row  : BitVec 12
  wfmt : BitVec 4
  part : Bool
  deriving DecidableEq, Repr

/-- Slot layout MS (R156): WSC. -/
structure MS where
  word : BitVec 17
  part : Bool
  deriving DecidableEq, Repr

/-- Slot layout MA (R156): ACCX, ACCA, ACCZ. -/
structure MA where
  bank : BitVec 2
  half : Bool
  v    : BitVec 5
  nlog : BitVec 6
  deriving DecidableEq, Repr

/-- Slot layout MD (R156): VLD. -/
structure MD where
  vd   : BitVec 5
  word : BitVec 17
  deriving DecidableEq, Repr

/-- Slot layout LM (R156): LDW, STW. -/
structure LM where
  v    : BitVec 5
  seg  : BitVec 3
  word : BitVec 17
  deriving DecidableEq, Repr

/-- Slot layout LS (R156): SEND. -/
structure LS where
  dir  : Dir
  src  : BitVec 2
  v    : BitVec 5
  seg  : BitVec 3
  dq   : BitVec 4
  word : BitVec 17
  last : Bool
  deriving DecidableEq, Repr

/-- Slot layout LR (R156): RECV. -/
structure LR where
  dq     : BitVec 4
  toSram : Bool
  v      : BitVec 5
  seg    : BitVec 3
  word   : BitVec 17
  deriving DecidableEq, Repr

/-- Slot layout LQ (R156): QPUT. -/
structure LQ where
  dq   : BitVec 4
  v    : BitVec 5
  seg  : BitVec 3
  last : Bool
  deriving DecidableEq, Repr

/-- Slot layout LN (R156): MREQ. -/
structure LN where
  write : Bool
  ga    : BitVec 4
  gl    : BitVec 4
  word  : BitVec 17
  deriving DecidableEq, Repr

/-- Slot layout LH (R156): HATOM. -/
structure LH where
  aop : BitVec 2
  ga  : BitVec 4
  go  : BitVec 4
  deriving DecidableEq, Repr

/-- Slot layout LG (R156): ADD, SUB, MUL, AND, OR, XOR. -/
structure LG where
  gd : BitVec 4
  ga : BitVec 4
  gb : BitVec 4
  deriving DecidableEq, Repr

/-- Slot layout LI (R156): ADDI. -/
structure LI where
  gd   : BitVec 4
  ga   : BitVec 4
  imm  : BitVec 16
  pair : Bool
  deriving DecidableEq, Repr

/-- Slot layout LK (R156): SHLI, SHRI. -/
structure LK where
  gd    : BitVec 4
  ga    : BitVec 4
  shift : BitVec 5
  deriving DecidableEq, Repr

/-- Slot layout LV (R156): VTOG, GTOV. -/
structure LV where
  g    : BitVec 4
  v    : BitVec 5
  lane : BitVec 6
  deriving DecidableEq, Repr

/-- Slot layout LP (R156): CMPG. -/
structure LP where
  ga   : BitVec 4
  gb   : BitVec 4
  pbit : BitVec 4
  cond : BitVec 3
  deriving DecidableEq, Repr

/-- Where a hold request comes from (R201, R206, ARY_DEADLOCK). -/
inductive HoldSrc where
  | picotDq (p : Fin 1024) (q : Fin 16)
  | picotTq (p : Fin 1024) (q : Fin 8)
  | hbm (stack : Fin 12)
  | bridge (b : Fin 4)
  | cxl
  | legend
  | gate
  | stop
  deriving DecidableEq, Repr

/-- A source that arms and disarms (R220): a primitive unit or an external input. -/
inductive TrigSrc where
  | prim (u : Fin 1024)
  | input (n : Fin 16)
  deriving DecidableEq, Repr

/-- What a TDC capture read: the coarse count k of the TCLK edge and the thermometer code n (R227). -/
structure TdcCapture where
  k    : Nat
  code : Nat
  deriving DecidableEq, Repr

/-- One column of one window in the pass that forms a tensor's weight gradient (R267 to R269): the tensor and the window of the
minibatch, whether the activation gradients are the output gradient, the layer's inputs, and its activation gradients before their clamp
(all FP32). -/
structure GradCol where
  tensor : Nat
  win    : Nat
  out    : Bool
  x      : List (BitVec 32)
  d      : List (BitVec 32)
  deriving DecidableEq, Repr

/-- The three CXL protocols (R349, R369). -/
inductive CxlProto where
  | io | cache | mem
  deriving DecidableEq, Repr

/-- What an SPDM message asks of the responder (R369, R320). -/
inductive SpdmReq where
  | getMeasurements
  | ideKeyProgram (p : CxlProto)
  | ideKeyStop (p : CxlProto)
  | other
  deriving DecidableEq, Repr

/-- A place in a register space (R319): an offset in BAR0, or with `bar2` in BAR2 of function 0. -/
structure BarAddr where
  bar2 : Bool
  off  : BitVec 25
  deriving DecidableEq, Repr

/-- The level of an external input after an edge (R226), and the timeline units for which it lasts. -/
structure PinLevel where
  high  : Bool
  lasts : Nat
  deriving DecidableEq, Repr

/-- The buffer of a REPLAY (R333, R337): its bytes, and the number of the block, if any, whose transfer will end in error. -/
structure ReplayBuf where
  bytes : List (BitVec 8)
  lost  : Option Nat
  deriving DecidableEq, Repr

/-- The commands of the block, one per row of the table. -/
inductive Instr where
  /-- REGISTER_WRITE (R8, R325). A register write of any width that carries its master. -/
  | registerWrite (m : Master) (at' : BarAddr) (w : Width) (v : BitVec 64)
  /-- WIDE_OR_UNALIGNED_ACCESS (R325). -/
  | wideOrUnalignedAccess (m : Master) (off : BitVec 25) (w : Width) (wr : Bool) (v : BitVec 64)
  /-- LOW_WORD_READ (R326). A register read; a 32-bit or 64-bit read of a pair's low word fills the latch. -/
  | lowWordRead (m : Master) (at' : BarAddr) (w : Width)
  /-- THERMAL_SAMPLE (R402). The readings are the environment's: 1/16 °C, 1/16 °C, W. -/
  | thermalSample (tLogic tHbm power : BitVec 16)
  /-- HOT_SAMPLE_COUNT_EXPIRY (R403). -/
  | hotSampleCountExpiry
  /-- COOL_SAMPLE_COUNT_EXPIRY (R403). -/
  | coolSampleCountExpiry
  /-- STEP_CAP_WRITE (R403). -/
  | stepCapWrite (m : Master) (v : Word)
  /-- STEP_CHANGE_BEGIN (R20). -/
  | stepChangeBegin
  /-- ISLAND_RELOCK_COMPLETE (R20, R34). -/
  | islandRelockComplete
  /-- HBM_REQUEST_SERVE (R26). `late`: an array request cannot be served in its scheduled cycle; `bus` is what the
  environment adds to the stored line. -/
  | hbmRequestServe (stack : Fin 12) (late : Bool) (bus : BitVec 2048)
  /-- DDR5_REQUEST_SERVE (R27). -/
  | ddr5RequestServe (ch : Fin 8) (bus : BitVec 2048)
  /-- ING_LANE_CFG_WRITE (R74). -/
  | ingLaneCfgWrite (m : Master) (lane : Fin 64) (v : Word)
  /-- LANE_LOCK (R80). -/
  | laneLock (lane : Fin 64) (locked : Bool)
  /-- LANE_ALIGNED (R80). -/
  | laneAligned (lane : Fin 64)
  /-- LANE_ALIGNMENT_LOST (R80). -/
  | laneAlignmentLost (lane : Fin 64)
  /-- NOLER_FRAME_RECEIVE (R81). The 1,024 bits as they come from the wire and Meridian's stamp of the last bit. -/
  | nolerFrameReceive (lane : Fin 64) (wire : BitVec 1024) (stamp : DWord)
  /-- FILL_SAMPLE_TICK (R82). -/
  | fillSampleTick (lane : Fin 64)
  /-- JESD_LINK_CFG_WRITE (R85). -/
  | jesdLinkCfgWrite (m : Master) (link : Fin 16) (v : Word)
  /-- SYSREF_EDGE (R87). `off` marks the started links whose LEMC boundary the edge misses. -/
  | sysrefEdge (stamp : DWord) (off : BitVec 16)
  /-- JESD_MULTIBLOCK_RECEIVE (R88). `words` are the samples in the order index, converter; `badLanes` the lanes
  whose CRC-12 failed. -/
  | jesdMultiblockReceive (link : Fin 16) (words : List (BitVec 16)) (badLanes : BitVec 64)
  /-- JESD_SYNC_LOST (R88). -/
  | jesdSyncLost (lane : Fin 64)
  /-- FRONT_END_SAMPLE (R92). Takes the oldest raw sample that waits for the front end. -/
  | frontEndSample
  /-- RING_BLOCK_COMPLETE (R243). -/
  | ringBlockComplete
  /-- RING_READER_TAKEOVER (R98). -/
  | ringReaderTakeover
  /-- RING_READER_BLOCK (R98). -/
  | ringReaderBlock
  /-- EB_RESUME (R99). -/
  | ebResume
  /-- ING_REC_DATA_WRITE (R95). -/
  | ingRecDataWrite (m : Master) (v : Word)
  /-- REC_SWITCH_ARM (R95). -/
  | recSwitchArm (m : Master) (hi : Word)
  /-- REC_SWITCH_ACTIVATE (R95). -/
  | recSwitchActivate
  /-- STAGING_BANK_FREE (R96). -/
  | stagingBankFree
  /-- STAT_INTERVAL_CLOSE (R97). -/
  | statIntervalClose
  /-- DEBT_UPDATE (R100). -/
  | debtUpdate
  /-- SHED_LEVEL_UPDATE (R101). -/
  | shedLevelUpdate
  /-- OVERRUN_SKIP (R103). -/
  | overrunSkip
  /-- INPUT_PLAN_INJECT (R194). The k-th elastic-buffer entry of the block is injected at its planned port. -/
  | inputPlanInject (k : BitVec 16)
  /-- FLIT_ARRIVAL (R123). -/
  | flitArrival (p : Fin 1024) (inp : Dir) (data : BitVec 256) (side : BitVec 8) (check : BitVec 16)
  /-- TOKEN_ARRIVAL (R119). -/
  | tokenArrival (p : Fin 1024) (inp : Dir) (tok : BitVec 16) (par : Bool)
  /-- BRIDGE_RETRY (R122). -/
  | bridgeRetry (b : Fin 4)
  /-- BRIDGE_RETRY_COMPLETE (R122). -/
  | bridgeRetryComplete (b : Fin 4)
  /-- BRIDGE_RETRY_EXHAUSTED (R389). -/
  | bridgeRetryExhausted (b : Fin 4)
  /-- MEMLANE_REQUEST (R126). The controller takes the oldest request beat of picot p's tap. -/
  | memlaneRequest (p : Fin 1024)
  /-- MEMLANE_READ_BEAT (R199). -/
  | memlaneReadBeat (p : Fin 1024)
  /-- STEER_SPLIT_ITEM (R131). -/
  | steerSplitItem (p : Fin 1024) (u : Fin 4)
  /-- STEER_MERGE_ITEM (R131). -/
  | steerMergeItem (p : Fin 1024) (u : Fin 4)
  /-- STEER_SELECT_ITEM (R131). -/
  | steerSelectItem (p : Fin 1024) (u : Fin 4)
  /-- FILL_RECEIVE (R135). One FILL flit ejected to the fill machinery of picot p. -/
  | fillReceive (p : Fin 1024) (data : BitVec 256) (last : Bool)
  /-- FOLLOW_BIND (R137). -/
  | followBind (loc : At)
  /-- FLIP_ARM (R140). -/
  | flipArm (m : Master) (hi : Word)
  /-- FLIP_EXECUTE (R139). -/
  | flipExecute
  /-- REPAIR_BURN (R144). -/
  | repairBurn (m : Master) (v : Word)
  /-- PEEK_START (R145). -/
  | peekStart (m : Master) (p : Fin 1024) (v : Word)
  /-- PEEK_COMPLETE (R145). -/
  | peekComplete (p : Fin 1024)
  /-- NOPM (R157). -/
  | nopm (h : MHead)
  /-- WLD (R158). -/
  | wld (h : MHead) (a : MT)
  /-- WSC (R158). -/
  | wsc (h : MHead) (a : MS)
  /-- WSWAP (R158). -/
  | wswap (h : MHead)
  /-- MMA (R159). -/
  | mma (h : MHead) (a : MM)
  /-- ACCQ (R161). -/
  | accq (h : MHead) (a : MQ)
  /-- ACCX (R106). -/
  | accx (h : MHead) (a : MA)
  /-- ACCA (R169). -/
  | acca (h : MHead) (a : MA)
  /-- ACCZ (R160). -/
  | accz (h : MHead) (a : MA)
  /-- FADD (R107). -/
  | fadd (h : MHead) (a : MV)
  /-- FSUB (R107). -/
  | fsub (h : MHead) (a : MV)
  /-- FMUL (R107). -/
  | fmul (h : MHead) (a : MV)
  /-- FMA (R107). -/
  | fma (h : MHead) (a : MV)
  /-- FMIN (R107). -/
  | fmin (h : MHead) (a : MV)
  /-- FMAX (R107). -/
  | fmax (h : MHead) (a : MV)
  /-- RCP (R162). -/
  | rcp (h : MHead) (a : MV)
  /-- RSQ (R162). -/
  | rsq (h : MHead) (a : MV)
  /-- EXP2 (R162). -/
  | exp2 (h : MHead) (a : MV)
  /-- LOG2 (R162). -/
  | log2 (h : MHead) (a : MV)
  /-- IADD (R107). -/
  | iadd (h : MHead) (a : MV)
  /-- ISUB (R107). -/
  | isub (h : MHead) (a : MV)
  /-- IMUL (R107). -/
  | imul (h : MHead) (a : MV)
  /-- IMIN (R107). -/
  | imin (h : MHead) (a : MV)
  /-- IMAX (R107). -/
  | imax (h : MHead) (a : MV)
  /-- AND_VECTOR (R107). -/
  | andVector (h : MHead) (a : MV)
  /-- OR_VECTOR (R107). -/
  | orVector (h : MHead) (a : MV)
  /-- XOR_VECTOR (R107). -/
  | xorVector (h : MHead) (a : MV)
  /-- SHL (R107). -/
  | shl (h : MHead) (a : MV)
  /-- SHR (R107). -/
  | shr (h : MHead) (a : MV)
  /-- SAR (R107). -/
  | sar (h : MHead) (a : MV)
  /-- CMP (R163). -/
  | cmp (h : MHead) (a : MV)
  /-- VSEL (R107). -/
  | vsel (h : MHead) (a : MV)
  /-- CVT (R164). -/
  | cvt (h : MHead) (a : MV)
  /-- QNT (R165). -/
  | qnt (h : MHead) (a : MV)
  /-- DQT (R165). -/
  | dqt (h : MHead) (a : MV)
  /-- SCALE (R166). -/
  | scale (h : MHead) (a : MV)
  /-- BQNT (R167). -/
  | bqnt (h : MHead) (a : MV)
  /-- CSUM (R168). -/
  | csum (h : MHead) (a : MV)
  /-- VLD (R150). -/
  | vld (h : MHead) (a : MD)
  /-- XCVT (R169). -/
  | xcvt (h : MHead) (a : MV)
  /-- XADD (R169). -/
  | xadd (h : MHead) (a : MV)
  /-- XRND (R169). -/
  | xrnd (h : MHead) (a : MV)
  /-- VRSUM (R169). -/
  | vrsum (h : MHead) (a : MV)
  /-- VRMAX (R169). -/
  | vrmax (h : MHead) (a : MV)
  /-- VRNG (R172). -/
  | vrng (h : MHead) (a : MV)
  /-- NOPL (R157). -/
  | nopl (loc : At)
  /-- LDW (R150). -/
  | ldw (loc : At) (a : LM)
  /-- STW (R150). -/
  | stw (loc : At) (a : LM)
  /-- SEND (R173). -/
  | send (loc : At) (a : LS)
  /-- RECV (R174). -/
  | recv (loc : At) (a : LR)
  /-- QPUT (R174). -/
  | qput (loc : At) (a : LQ)
  /-- MREQ (R176). -/
  | mreq (loc : At) (a : LN)
  /-- HATOM (R177). -/
  | hatom (loc : At) (a : LH)
  /-- HATOM_EXECUTE (R342). `old` is the word the host memory held; none where the address is not host memory or the
  request ends in error. -/
  | hatomExecute (col : Fin 32) (old : Option Word)
  /-- RDTIME (R183). -/
  | rdtime (loc : At) (gd : BitVec 4)
  /-- RDSENS (R183). `reading` is the sensor's value. -/
  | rdsens (loc : At) (gd : BitVec 4) (sens : BitVec 4) (reading : Word)
  /-- QLEN (R183). -/
  | qlen (loc : At) (gd : BitVec 4) (tq : Bool) (q : BitVec 4)
  /-- RDROUND (R445). -/
  | rdround (loc : At) (gd : BitVec 4)
  /-- MOVI (R178). -/
  | movi (loc : At) (gd : BitVec 4) (imm : BitVec 24)
  /-- LDC (R146). -/
  | ldc (loc : At) (gd : BitVec 4) (ck : BitVec 8)
  /-- ADDI (R178). -/
  | addi (loc : At) (a : LI)
  /-- ADD (R178). -/
  | add (loc : At) (a : LG)
  /-- SUB (R178). -/
  | sub (loc : At) (a : LG)
  /-- MUL (R178). -/
  | mul (loc : At) (a : LG)
  /-- AND_SCALAR (R178). -/
  | andScalar (loc : At) (a : LG)
  /-- OR_SCALAR (R178). -/
  | orScalar (loc : At) (a : LG)
  /-- XOR_SCALAR (R178). -/
  | xorScalar (loc : At) (a : LG)
  /-- SHLI (R178). -/
  | shli (loc : At) (a : LK)
  /-- SHRI (R178). -/
  | shri (loc : At) (a : LK)
  /-- VTOG (R150). -/
  | vtog (loc : At) (a : LV)
  /-- GTOV (R151). -/
  | gtov (loc : At) (a : LV)
  /-- CMPG (R146). -/
  | cmpg (loc : At) (a : LP)
  /-- NOPC (R157). -/
  | nopc (h : CHead)
  /-- LCSET (R179). -/
  | lcset (h : CHead) (lc : Fin 8) (trip : BitVec 16)
  /-- LCTIM (R179). -/
  | lctim (h : CHead) (lc : Fin 8) (trip : BitVec 16)
  /-- LCTOK (R181). -/
  | lctok (h : CHead) (lc : Fin 8) (tq : Fin 8)
  /-- LCGP (R179). -/
  | lcgp (h : CHead) (lc : Fin 8) (gs : BitVec 4)
  /-- LOOP (R180). -/
  | loop (h : CHead) (lc : Fin 8) (len : BitVec 11)
  /-- WAITLC (R179). -/
  | waitlc (h : CHead) (lc : Fin 8)
  /-- WAITLC_RESUME (R179). -/
  | waitlcResume (loc : At)
  /-- LOOP_TIMER_EXPIRY (R179). -/
  | loopTimerExpiry (p : Fin 1024) (lc : Fin 8)
  /-- JMP (R153). -/
  | jmp (h : CHead) (target : BitVec 11)
  /-- BRP (R153). -/
  | brp (h : CHead) (pbit : BitVec 4) (neg : Bool) (target : BitVec 11)
  /-- TSENDI (R181). -/
  | tsendi (h : CHead) (dir : Dir) (tok : BitVec 16)
  /-- TSENDG (R181). -/
  | tsendg (h : CHead) (dir : Dir) (gs : BitVec 4)
  /-- TPUT (R181). -/
  | tput (h : CHead) (tq : Fin 8) (tok : BitVec 16)
  /-- TPOP (R181). -/
  | tpop (h : CHead) (gd : BitVec 4) (tq : Fin 8)
  /-- TPRD (R181). -/
  | tprd (h : CHead) (tq : Fin 8)
  /-- PSET (R146). -/
  | pset (h : CHead) (pbit : BitVec 4) (gs : BitVec 4) (b : BitVec 5)
  /-- STEER (R182). -/
  | steer (h : CHead) (u : Fin 4) (on : Bool)
  /-- BCLR (R154). -/
  | bclr (h : CHead)
  /-- HOLD_REQUEST_DEFERRED (R202). -/
  | holdRequestDeferred (cause : Fin 8) (src : HoldSrc)
  /-- HOLD_REQUEST_CANCELLING (R203). -/
  | holdRequestCancelling (cause : Fin 8) (src : HoldSrc)
  /-- HOLD_CAUSE_CLEAR (R202). -/
  | holdCauseClear (cause : Fin 8) (src : HoldSrc)
  /-- HOLD_LIMIT_DEADLOCK (R206). -/
  | holdLimitDeadlock (cause : Fin 8)
  /-- WAITLC_DEADLOCK (R207). -/
  | waitlcDeadlock (loc : At)
  /-- INPUT_GATE_CHECK (R208). -/
  | inputGateCheck
  /-- VERDICT_ARRIVAL (R230). -/
  | verdictArrival (stream : Fin 256) (flit : BitVec 256) (bad : Bool)
  /-- PRIMITIVE_SAMPLE (R216). The unit evaluates the oldest sample that waits at its input. -/
  | primitiveSample (u : Fin 1024)
  /-- PRIMITIVE_ENABLE (R219). -/
  | primitiveEnable (u : Fin 1024)
  /-- HOLDOFF_EXPIRY (R220). -/
  | holdoffExpiry (src : TrigSrc)
  /-- STUCK_DETECT (R222). -/
  | stuckDetect (src : TrigSrc)
  /-- MASK_POINT_TEST (R224). -/
  | maskPointTest (k : Fin 64)
  /-- MASK_REARM (R225). -/
  | maskRearm (m : Master) (v : Word)
  /-- EXTERNAL_INPUT_EDGE (R226). `level` is the pin level after the edge, `stamp` Meridian's line-clock stamp. -/
  | externalInputEdge (n : Fin 16) (level : PinLevel) (stamp : DWord) (tdc : Option TdcCapture)
  /-- TDC_ENABLE (R226). `t0` is Meridian's stamp of the anchor edge. -/
  | tdcEnable (m : Master) (v : Word) (t0 : DWord)
  /-- TDC_LINE_CALIBRATE (R228). `counts` is the histogram of codes. -/
  | tdcLineCalibrate (n : Fin 16) (counts : List Nat)
  /-- TDC_LINE_SWAP (R228). -/
  | tdcLineSwap (n : Fin 16)
  /-- THR_SWITCH_ARM (R231). -/
  | thrSwitchArm (m : Master) (hi : Word)
  /-- THR_SWITCH_ACTIVATE (R231). -/
  | thrSwitchActivate
  /-- CLASS_ENABLE (R237). -/
  | classEnable (c : Fin 64)
  /-- FAST_CLASS_EVALUATE (R233). -/
  | fastClassEvaluate (c : Fin 64)
  /-- SLOW_CLASS_EVALUATE (R233). -/
  | slowClassEvaluate (c : Fin 64)
  /-- TIMED_PULSE_START (R238). -/
  | timedPulseStart (o : Fin 16)
  /-- OUTPUT_PULSE_END (R238). -/
  | outputPulseEnd (o : Fin 16)
  /-- CAPTURE_EVENT_CLOSE (R246). -/
  | captureEventClose (c : Fin 64)
  /-- CAPTURE_COPY_START (R247). -/
  | captureCopyStart
  /-- CAPTURE_REFUSE_OVERSIZE (R248). -/
  | captureRefuseOversize
  /-- CAPTURE_COPY_COMPLETE (R250). -/
  | captureCopyComplete
  /-- STORE_RPTR_WRITE (R250). `survey` selects ACQ_SURVEY_RPTR. -/
  | storeRptrWrite (m : Master) (survey : Bool) (v : DWord)
  /-- AVERAGING_INTERVAL (R253). -/
  | averagingInterval
  /-- REDUCTION_INTERVAL (R254). -/
  | reductionInterval
  /-- SELECTION_FLIT_INJECT (R263). -/
  | selectionFlitInject
  /-- PARAMETER_FLIT_INJECT (R275). -/
  | parameterFlitInject
  /-- TRAINING_STEP_START (R267). `grads` are the weight gradients g of the step's elements (R269), which the
  image's own loss gives. -/
  | trainingStepStart (cols : List GradCol)
  /-- TRAINER_REPORT_RECEIVE (R279). -/
  | trainerReportReceive (flit : Option (BitVec 256))
  /-- THRESHOLD_POLICY_INTERVAL (R281). -/
  | thresholdPolicyInterval
  /-- RANGE_POLICY_INTERVAL (R282). -/
  | rangePolicyInterval
  /-- TRAIN_PERIOD_BOUNDARY (R283). -/
  | trainPeriodBoundary
  /-- TIMELINE_WRAP (R290). -/
  | timelineWrap
  /-- TIMELINE_SET_ABSOLUTE (R293). -/
  | timelineSetAbsolute (m : Master)
  /-- TIMELINE_SET_RELATIVE (R293). -/
  | timelineSetRelative (m : Master)
  /-- ETH_FRAME_RECEIVE (R294). The frame as it is on the wire, without FCS: its addresses, then what follows them; Meridian's
  capture; and whether the FCS is good. -/
  | ethFrameReceive (port : Fin 2) (addrs body : List Byte) (stamp : DWord) (fcsOk : Bool)
  /-- ETH_FRAME_TRANSMIT (R302). `stamp` is the egress capture. -/
  | ethFrameTransmit (port : Fin 2) (stamp : DWord)
  /-- TC_MATCH_ENTRY_EXPIRE (R300). -/
  | tcMatchEntryExpire
  /-- PTP_DELAY_REQ_SEND (R297). -/
  | ptpDelayReqSend (stamp : DWord)
  /-- SYNC_OFFSET_COMPUTE (R304). -/
  | syncOffsetCompute
  /-- DELAY_RESP_RECEIVE (R304). Master time t4 in 1/64 ns and the response's correction. -/
  | delayRespReceive (t4 : Int) (corr : DWord)
  /-- PDELAY_RESP_RECEIVE (R305). -/
  | pdelayRespReceive (port : Fin 2) (t1 : DWord) (t2 t3 : Int) (t4 : DWord) (corr : Int)
  /-- SERVO_QUIET_TIMEOUT (R308). -/
  | servoQuietTimeout
  /-- PPS_IN_EDGE (R311). `stamp` is the capture at the pin. -/
  | ppsInEdge (stamp : DWord)
  /-- PPS_OUT_EDGE (R312). -/
  | ppsOutEdge
  /-- PPS_OUT_PULSE_END (R312). -/
  | ppsOutPulseEnd
  /-- CLK10M_GATE (R313). `ppb` is the timeline's measured rate against the input. -/
  | clk10mGate (present : Bool) (ppb : Int)
  /-- LAUNCH_NOTICE_SEND (R317). `actual` is the timestamp at the first block boundary at which it could start. -/
  | launchNoticeSend (port : Fin 2) (actual : DWord)
  /-- SQ_TAIL_WRITE (R330). -/
  | sqTailWrite (m : Master) (r : Fin 16) (v : Word)
  /-- CQ_HEAD_WRITE (R330). -/
  | cqHeadWrite (m : Master) (r : Fin 16) (v : Word)
  /-- RING_ENABLE (R331). -/
  | ringEnable (m : Master) (r : Fin 16) (v : Word)
  /-- RING_DISABLE (R333). -/
  | ringDisable (m : Master) (r : Fin 16) (v : Word)
  /-- SUBMISSION_FETCH (R330). `entry` is the 64-byte submission entry that the read returned. -/
  | submissionFetch (r : Fin 16) (entry : BitVec 512)
  /-- FETCH_ERROR (R333). -/
  | fetchError (r : Fin 16)
  /-- COALESCE_TIMER_EXPIRY (R346). -/
  | coalesceTimerExpiry (r : Fin 16)
  /-- NOP (R332). -/
  | nop (r : Fin 16)
  /-- LOAD (R186). The bytes the reads of the image, the seed buffer and the host-queue table returned; `dma` names a
  transfer that failed (R333). -/
  | load (r : Fin 16) (image seeds hqTable : List Byte) (dma : Option (Fin 3))
  /-- START (R335). -/
  | start (r : Fin 16)
  /-- STOP (R374). -/
  | stop (r : Fin 16)
  /-- CTX_STOP_REGISTER (R350). -/
  | ctxStopRegister (m : Master) (v : Word)
  /-- READ_EVENTS (R336). -/
  | readEvents (r : Fin 16) (dma : Option (Fin 3))
  /-- READ_SURVEY (R336). -/
  | readSurvey (r : Fin 16) (dma : Option (Fin 3))
  /-- REPLAY (R337). -/
  | replay (r : Fin 16) (buf : ReplayBuf) (dma : Option (Fin 3))
  /-- REPLAY_BLOCK_FETCH (R337). -/
  | replayBlockFetch
  /-- LABEL (R338). -/
  | label (r : Fin 16) (records : List Byte) (dma : Option (Fin 3))
  /-- TRAIN_PARAM (R276). -/
  | trainParam (r : Fin 16)
  /-- POLICY (R286). -/
  | policy (r : Fin 16) (block : List Byte) (dma : Option (Fin 3))
  /-- SUB_JOIN (R343). -/
  | subJoin (r : Fin 16) (desc : List Byte) (dma : Option (Fin 3))
  /-- SUB_LEAVE (R344). -/
  | subLeave (r : Fin 16)
  /-- SUBSCRIBER_RECORD_WRITE (R343). -/
  | subscriberRecordWrite (n : Fin 1024)
  /-- HOST_QUEUE_PREFETCH (R340). -/
  | hostQueuePrefetch (q : BitVec 14)
  /-- HOST_QUEUE_INJECT (R340). -/
  | hostQueueInject (port : Fin 32)
  /-- HOST_QUEUE_EJECT (R341). -/
  | hostQueueEject (q : BitVec 14)
  /-- COUNT_WORD_WRITE (R341). -/
  | countWordWrite (i : Fin 32768) (bytes : Nat) (v : DWord)
  /-- HDM_READ (R323). `cached`: the request asks for cached state (R322). -/
  | hdmRead (dpa : BitVec 44) (len : Nat) (cached : Bool)
  /-- HDM_WRITE (R323). -/
  | hdmWrite (dpa : BitVec 44) (bytes : List Byte) (cached : Bool)
  /-- CTX_OPEN (R349). -/
  | ctxOpen (r : Fin 16) (ownerKey : List Byte) (dma : Option (Fin 3))
  /-- KEY_INSTALL_COMPLETE (R348). -/
  | keyInstallComplete
  /-- ATTEST (R361). -/
  | attest (r : Fin 16) (nonce : List Byte) (dma : Option (Fin 3))
  /-- KEY_RELEASE (R366). -/
  | keyRelease (r : Fin 16) (blob : List Byte) (dma : Option (Fin 3))
  /-- KEY_EXPORT (R373). -/
  | keyExport (r : Fin 16) (dma : Option (Fin 3))
  /-- GET_CERT (R355). `verifies`: the chain in flash verifies against the identity key. -/
  | getCert (r : Fin 16) (dma : Option (Fin 3))
  /-- PRIV_CHALLENGE (R380). -/
  | privChallenge (r : Fin 16) (dma : Option (Fin 3))
  /-- PRIV_GRANT (R380). `modulus` is the operator key the signature names. -/
  | privGrant (r : Fin 16) (signature modulus : List Byte) (dma : Option (Fin 3))
  /-- PRIV_EXPIRY (R380). -/
  | privExpiry
  /-- OPKEY_ENROL (R380). -/
  | opkeyEnrol (r : Fin 16) (m : Master) (modulus : List Byte) (dma : Option (Fin 3))
  /-- CAK_SET (R371). -/
  | cakSet (r : Fin 16) (m : Master) (cak : List Byte) (dma : Option (Fin 3))
  /-- MKA_MESSAGE (R371). -/
  | mkaMessage (port : Fin 2) (msg : List Byte) (valid : Bool)
  /-- SPDM_MESSAGE (R369). -/
  | spdmMessage (req : SpdmReq) (nonce : List Byte)
  /-- IDE_LOST (R369). -/
  | ideLost (p : CxlProto)
  /-- ENDING_COMPLETE (R374). -/
  | endingComplete
  /-- SCRUB_COMPLETE (R374). -/
  | scrubComplete
  /-- SPARE_KEY_READY (R354). -/
  | spareKeyReady
  /-- DRBG_RESEED (R352). -/
  | drbgReseed
  /-- ENTROPY_HEALTH_FAIL (R352). -/
  | entropyHealthFail
  /-- KEY_EXHAUSTED (R359). -/
  | keyExhausted
  /-- PATROL_READ (R387). -/
  | patrolRead (line : BitVec 36)
  /-- UNCORRECTABLE_ERROR (R396). -/
  | uncorrectableError (src : Byte) (loc : DWord)
  /-- FATAL_ERROR (R399). -/
  | fatalError (src : Byte) (loc : DWord)
  /-- ERR_LOG_POP (R392). -/
  | errLogPop (m : Master) (v : Word)
  /-- CXL_LINK_DOWN (R389). -/
  | cxlLinkDown
  /-- WATCHDOG_KICK (R401). -/
  | watchdogKick (m : Master) (v : Word)
  /-- WATCHDOG_EXPIRY (R401). -/
  | watchdogExpiry
  /-- LEGEND_RESTART_COMPLETE (R401). -/
  | legendRestartComplete
  /-- CARTOUCHE_WATCHDOG_EXPIRY (R401). -/
  | cartoucheWatchdogExpiry
  /-- THERMAL_TRIP_CHECK (R404). -/
  | thermalTripCheck (tLogic tHbm : BitVec 16)
  /-- AGEING_SAMPLE (R410). `y` is the metric of the day in units of 2^-32. -/
  | ageingSample (kind : Fin 5) (index : BitVec 16) (y : Int)
  /-- CAL_READ (R412). -/
  | calRead (r : Fin 16) (dma : Option (Fin 3))
  /-- CAL_WRITE (R412). -/
  | calWrite (r : Fin 16) (m : Master) (records : List Byte) (dma : Option (Fin 3))
  /-- CAL_SAVE (R412). -/
  | calSave (r : Fin 16) (m : Master)
  /-- ERR_INJECT (R412). -/
  | errInject (r : Fin 16) (m : Master)
  /-- COLD_RESET (R421). `cause`: 0 POWER_ON, 1 POR_L, 2 REGISTER. -/
  | coldReset (cause : Fin 3) (m : Master) (v : Word)
  /-- RAIL_EXCURSION (R415). `long`: outside tolerance for more than 10 µs. -/
  | railExcursion (rail : Fin 12) (long : Bool)
  /-- WARM_RESET (R421). `cause`: 3 PERST_L, 4 REGISTER, 5 TRIAL_TIMEOUT, 6 BOOT_TIMER, 7 DISCARD. -/
  | warmReset (cause : Fin 8) (m : Master) (v : Word)
  /-- CONTEXT_RESET (R426). `flr`: a Function Level Reset of function 0. -/
  | contextReset (flr : Bool) (m : Master) (v : Word)
  /-- ARRAY_RESET (R427). -/
  | arrayReset (m : Master) (v : Word)
  /-- FUNCTION1_FLR (R421). -/
  | function1Flr
  /-- FUSES_PHASE_COMPLETE (R428). `entropyOk`: the entropy health tests passed. -/
  | fusesPhaseComplete (entropyOk : Bool)
  /-- BIST_COMPLETE (R144). The physical picots that failed, each pillow × 272 + row × 17 + p. -/
  | bistComplete (failed : List Nat)
  /-- FIRMWARE_PHASE_COMPLETE (R435). -/
  | firmwarePhaseComplete
  /-- CALIBRATION_PHASE_COMPLETE (R407). -/
  | calibrationPhaseComplete
  /-- MEMORY_TRAINING_COMPLETE (R431). -/
  | memoryTrainingComplete (hbmOk : BitVec 12) (ddrOk : BitVec 8) (mismatch : Bool)
  /-- MEMORY_INIT_COMPLETE (R430). -/
  | memoryInitComplete
  /-- BOOT_TIMER_EXPIRY (R431). -/
  | bootTimerExpiry
  /-- TRIAL_TIMEOUT (R436). -/
  | trialTimeout
  /-- FW_WRITE (R438). -/
  | fwWrite (r : Fin 16) (m : Master) (data : List Byte) (dma : Option (Fin 3))
  /-- FW_STAGE (R438). -/
  | fwStage (r : Fin 16) (m : Master)
  /-- FW_CONFIRM (R436). -/
  | fwConfirm (r : Fin 16) (m : Master)
  /-- FW_DISCARD (R438). -/
  | fwDiscard (r : Fin 16) (m : Master)
  /-- SYNC_HEADER_LOCK (R87). -/
  | syncHeaderLock (lane : Fin 64)
  /-- TDC_LOCK (R228). -/
  | tdcLock (locked : Bool)
  /-- L1_LOCK (R307). The recovered clock with the rate error measured against it; none where it is lost. -/
  | l1Lock (clock : Option Int)
  /-- CXL_LINK_TRAINED (R429). -/
  | cxlLinkTrained
  /-- POR_L_RISE (R417). -/
  | porLRise
  /-- PERST_L_RISE (R429). -/
  | perstLRise
  deriving DecidableEq, Repr

end Sys2Proof
end

