-- ==== Sys2Proof/Decode.lean ====
section
/-!
DEFINITION. The words that spell commands: the table of the T9's commands gives no row any bits, so no word spells one.
-/

namespace Sys2Proof

/-- The command that a table word spells: none, since no row of the table has bits. -/
def decodeTableWord (_nbits _w : Nat) : Option Instr := none

end Sys2Proof
end

