-- ==== Sys2Proof/Config.lean ====
section
/-!
DEFINITION. What one device fixes and what the spec leaves open: constants with no body, so that a statement
about them holds for every value.  Each is named in the assumption log.
-/

namespace Sys2Proof.Config

/-- A weight of a row: its SRAM word, or its 256-byte unit in the pillow's HBM, the bit at which its code begins, and the input
channel whose OFFSET it meets (R73). -/
structure RowWeight where
  hbm  : Bool
  addr : Nat
  bit  : Nat
  chan : Option Nat
  deriving DecidableEq, Repr

/-- A weight row of an image (R70, R73): its picot, the SRAM row of its descriptor and its place there, the format of its codes,
whether they are scaled blocks, its weights, and the slot and CK of its layer descriptor. -/
structure RowPlan where
  pic     : Nat
  desc    : Nat
  row     : Nat
  fmt     : BitVec 4
  scaled  : Bool
  weights : List RowWeight
  layer   : Option (Nat × Nat)
  deriving DecidableEq, Repr

def RowWeight.none : RowWeight := { hbm := false, addr := 0, bit := 0, chan := .none }
def RowPlan.none : RowPlan := { pic := 0, desc := 0, row := 0, fmt := 0, scaled := false, weights := [], layer := .none }

/-- An adaptable tensor of an image (R257, R268 to R273): the format of its codes, whether it carries block scales, its elements a
row, ID_W and ID_M, the picot, slot and constant word of its seed, the exponents of its rows' scales, the intervals of block scales
of weights, m and activation gradients, the format of the latter, its rows in weight buffers A and B (their places in `rowPlan`), and
where its block scales lie in each. -/
structure TensorPlan where
  fmt     : BitVec 4
  scaled  : Bool
  cols    : Nat
  idW     : BitVec 32
  idM     : BitVec 32
  seed    : Nat × Nat × Nat
  exps    : List Int
  wScale  : Nat × Nat
  mScale  : Nat × Nat
  dScale  : Nat × Nat
  dFmt    : BitVec 4
  rowsA   : List Nat
  rowsB   : List Nat
  scalesA : List RowWeight
  scalesB : List RowWeight
  deriving DecidableEq, Repr

/-- The adaptable tensors of an image, by its MEASURE, in the image's order.  Log entry 15. -/
opaque trainPlan : List Byte → List TensorPlan
/-- The image's constant GCLIP_ACT (R268), FP32.  Log entry 15. -/
opaque gclipAct : List Byte → BitVec 32
/-- The image's loss of one window (R267, R278), FP32: the image by its MEASURE, the window's journal data, its label, and the codes
and block scales of the network's weights.  Log entry 15. -/
opaque winLoss : List Byte → List (BitVec 2048) → Int → List Nat → BitVec 32

/-- The weight rows of an image, by its MEASURE: no section of an image names them.  Log entry 84. -/
opaque rowPlan : List Byte → List RowPlan

/-- The bytes the Cartouche's random generator gives, drawn by a counter (R352).  Log entry 5. -/
opaque drbgByte : Nat → Byte
/-- A value the spec leaves open, drawn by the state's counter `freeCount`.  Log entry 6. -/
opaque freeValue : Nat → BitVec 64

/-- The storage key K_S of each generation: a random draw of the Cartouche (R352, R353).  Log entry 5. -/
opaque storageKey : Nat → BitVec 256

/-- The memory keys of each generation (R353): 4·g for K_ENC of HBM, 4·g + 1 K_MAC of HBM, 4·g + 2 and 4·g + 3 those
of DDR5.  Log entry 5. -/
opaque memoryKey : Nat → BitVec 256

/-- The cycles, beyond the least possible, from an atomic at a column's hub port to its return: an image states them (R177), no
section holds them.  By MEASURE and column.  Log entry 82. -/
opaque hatomDelay : List Byte → Nat → Nat

/-- The DDR5 channel that holds a line: the spec does not say how lines are spread.  Log entry 13. -/
opaque ddrChannel : Nat → Fin 8

/-- The lane key K_L and the output key K_OUT of each generation (R353).  Log entry 5. -/
opaque laneKey : Nat → BitVec 256
opaque outputKey : Nat → BitVec 256

/-- The acquisition time of a sample on a source that has no anchor yet, by its index (R91 states none).  Log entry 6. -/
opaque noAnchor : Nat → BitVec 64

/-- The identity key's RSASSA-PSS signature over octets (R361).  Log entry 14. -/
opaque identitySign : List Byte → List Byte
/-- The modulus octet string of each generation of the session key, and what its private part makes of a blob (R366): the
message of a blob that RSA-OAEP opens.  Log entry 14. -/
opaque sessionModulus : Nat → List Byte
opaque sessionOpen : Nat → List Byte → Option (List Byte)
/-- Does a certificate chain verify against the identity key, and how many certificates are in it (R355)?  Log entry 14. -/
opaque chainVerifies : List Byte → Bool
opaque chainCount : List Byte → Nat
/-- The firmware-key hash in hub ROM, and the measurements of the hub ROM and of the Cartouche firmware (R361, R433).
Log entry 14. -/
opaque fwKeyHash : List Byte
opaque romMeasure : List Byte
opaque cartoucheMeasure : List Byte
/-- GLB_DEVICE_ID's part and stepping bits are fixed for a device; its clock identity in PTP (R295).  Log entry 14. -/
opaque clockIdentity : List Byte

end Sys2Proof.Config
end

