-- ==== Sys2Proof/Machine/Num.lean ====
section
/-!
DEFINITION. The sixteen number formats (chapter 02): what a code stands for, exact arithmetic on values, the one
rounding of R52 to R54, saturation and special values (R57 to R60), L8, E8M0, X128 terms, the bobbin generator,
and the correctly rounded functions of R162.
-/

namespace Sys2Proof.Machine

/-- A format code (R35). -/
abbrev Fmt := BitVec 4

namespace Fmt
abbrev s4 : Fmt := 0x0
abbrev s8 : Fmt := 0x1
abbrev u8 : Fmt := 0x2
abbrev s12 : Fmt := 0x3
abbrev s16 : Fmt := 0x4
abbrev s32 : Fmt := 0x5
abbrev fp4 : Fmt := 0x6
abbrev fp6 : Fmt := 0x7
abbrev e4m3 : Fmt := 0x8
abbrev e5m2 : Fmt := 0x9
abbrev bf16 : Fmt := 0xA
abbrev fp16 : Fmt := 0xB
abbrev fp32 : Fmt := 0xC
abbrev e8m0 : Fmt := 0xD
abbrev l8 : Fmt := 0xE
abbrev x128 : Fmt := 0xF

/-- The width of a format in bits (R35). -/
def width (f : Fmt) : Nat :=
  match f.toNat with
  | 0 => 4 | 1 => 8 | 2 => 8 | 3 => 12 | 4 => 16 | 5 => 32 | 6 => 4 | 7 => 6 | 8 => 8 | 9 => 8
  | 10 => 16 | 11 => 16 | 12 => 32 | 13 => 8 | 14 => 8 | _ => 128

/-- The integer formats (R36). -/
def isInt (f : Fmt) : Bool := f.toNat ≤ 5
/-- The floating-point formats (R38). -/
def isFloat (f : Fmt) : Bool := 6 ≤ f.toNat && f.toNat ≤ 12

/-- The least code value of an integer format (R36). -/
def qmin (f : Fmt) : Int := if f = u8 then 0 else -(2 ^ (f.width - 1) : Int)
/-- The greatest code value of an integer format (R36). -/
def qmax (f : Fmt) : Int := if f = u8 then 255 else (2 ^ (f.width - 1) : Int) - 1

/-- Mantissa bits of a floating-point format (R38). -/
def mant (f : Fmt) : Nat :=
  match f.toNat with
  | 6 => 1 | 7 => 2 | 8 => 3 | 9 => 2 | 10 => 7 | 11 => 10 | _ => 23

/-- Exponent bias of a floating-point format (R38). -/
def bias (f : Fmt) : Nat :=
  match f.toNat with
  | 6 => 1 | 7 => 3 | 8 => 7 | 9 => 15 | 10 => 127 | 11 => 15 | _ => 127

/-- The largest finite positive code of a floating-point format (R40). -/
def maxCode (f : Fmt) : Nat :=
  match f.toNat with
  | 6 => 0x7 | 7 => 0x1F | 8 => 0x7E | 9 => 0x7B | 10 => 0x7F7F | 11 => 0x7BFF | _ => 0x7F7F_FFFF

/-- The formats with an infinity (R40). -/
def hasInf (f : Fmt) : Bool := 9 ≤ f.toNat && f.toNat ≤ 12
/-- The floating-point formats with a NaN (R40). -/
def hasNan (f : Fmt) : Bool := 8 ≤ f.toNat && f.toNat ≤ 12
/-- The canonical NaN (R40, R43). -/
def nanCode (f : Fmt) : Nat :=
  match f.toNat with
  | 8 => 0x7F | 9 => 0x7E | 10 => 0x7FC0 | 11 => 0x7E00 | 12 => 0x7FC0_0000 | 13 => 0xFF | _ => 0
/-- The formats that produce negative zero (R42). -/
def hasNegZero (f : Fmt) : Bool := 10 ≤ f.toNat && f.toNat ≤ 12
/-- The exponent of the unit of a subnormal code. -/
def emin (f : Fmt) : Int := 1 - (f.bias : Int) - f.mant
end Fmt

/-- Format events of one operation (R61). -/
structure Ev where
  sat   : Nat := 0
  nan   : Nat := 0
  range : Nat := 0
  zdiv  : Nat := 0
  term  : Nat := 0
  deriving DecidableEq, Repr

/-- Events of two operations together. -/
def Ev.add (a b : Ev) : Ev :=
  { sat := a.sat + b.sat, nan := a.nan + b.nan, range := a.range + b.range, zdiv := a.zdiv + b.zdiv,
    term := a.term + b.term }

/-- A non-negative exact magnitude: the 2^k-th root of num / den; `sticky` says the value lies above what is written
by less than any place that rounding looks at. -/
structure Mag where
  k      : Nat := 0
  num    : Nat
  den    : Nat := 1
  sticky : Bool := false
  deriving DecidableEq, Repr

/-- An exact value: NaN, an infinity, or a signed magnitude (the sign of a zero is kept). -/
inductive Val where
  | nan
  | inf (neg : Bool)
  | fin (neg : Bool) (m : Mag)
  deriving DecidableEq, Repr

/-- An exact rational: num / den, den > 0. -/
structure Q where
  num : Int
  den : Nat := 1
  deriving DecidableEq, Repr

/-- Integer square root, `n` bits of the root from the top. -/
def isqrtBits (x : Nat) : Nat → Nat → Nat
  | 0, r => r
  | n + 1, r => let r' := r + 2 ^ n; isqrtBits x n (if r' * r' ≤ x then r' else r)

/-- ⌊√x⌋. -/
def isqrt (x : Nat) : Nat := isqrtBits x (Nat.log2 x / 2 + 1) 0

/-- ⌊√x⌋ taken k times. -/
def isqrtN : Nat → Nat → Nat
  | 0, x => x
  | k + 1, x => isqrtN k (isqrt x)

/-- num / den × 2^(−s) as a fraction. -/
def shiftFrac (num den : Nat) (s : Int) : Nat × Nat :=
  match s with
  | .ofNat n => (num, den * 2 ^ n)
  | .negSucc n => (num * 2 ^ (n + 1), den)

/-- ⌊m ÷ 2^e⌋. -/
def Mag.floorAt (m : Mag) (e : Int) : Nat :=
  let p := shiftFrac m.num m.den (e * 2 ^ m.k)
  isqrtN m.k (p.1 / p.2)

/-- Is m ÷ 2^e an integer? -/
def Mag.exactAt (m : Mag) (e : Int) : Bool :=
  let p := shiftFrac m.num m.den (e * 2 ^ m.k)
  let f := isqrtN m.k (p.1 / p.2)
  !m.sticky && f ^ (2 ^ m.k) * p.2 == p.1

/-- Is the magnitude zero? -/
def Mag.isZero (m : Mag) : Bool := m.num == 0 && !m.sticky

/-- ⌊log2 m⌋ for a nonzero magnitude. -/
def Mag.log2 (m : Mag) : Int :=
  let e0 : Int := (Int.ofNat (Nat.log2 m.num) - Int.ofNat (Nat.log2 m.den)) / Int.ofNat (2 ^ m.k)
  if m.floorAt (e0 + 1) ≥ 1 then e0 + 1 else if m.floorAt e0 ≥ 1 then e0 else e0 - 1

/-- m ÷ 2^e to the nearest integer, halfway to even (R52). -/
def Mag.rneAt (m : Mag) (e : Int) : Nat :=
  let f := m.floorAt e
  if m.floorAt (e - 1) % 2 = 0 then f
  else if m.exactAt (e - 1) ∧ f % 2 = 0 then f else f + 1

/-- The fraction t32 of R53 of a signed magnitude between its two neighbours on the grid of 2^e. -/
def Mag.t32 (neg : Bool) (m : Mag) (e : Int) : Nat :=
  let lo := m.floorAt (e - 32)
  if neg then (m.floorAt e + 1) * 2 ^ 32 - (if m.exactAt (e - 32) then lo else lo + 1)
  else lo - m.floorAt e * 2 ^ 32

namespace Q
/-- The rational of an integer. -/
def ofInt (n : Int) : Q := { num := n }
def add (a b : Q) : Q := { num := a.num * b.den + b.num * a.den, den := a.den * b.den }
def neg (a : Q) : Q := { num := -a.num, den := a.den }
def mul (a b : Q) : Q := { num := a.num * b.num, den := a.den * b.den }
/-- a ÷ b for b ≠ 0. -/
def div (a b : Q) : Q :=
  { num := a.num * b.den * b.num.sign, den := a.den * b.num.natAbs }
def lt (a b : Q) : Bool := a.num * b.den < b.num * a.den
def le (a b : Q) : Bool := a.num * b.den ≤ b.num * a.den
def eq (a b : Q) : Bool := a.num * b.den == b.num * a.den
/-- 2^e. -/
def pow2 (e : Int) : Q :=
  match e with
  | .ofNat n => { num := 2 ^ n }
  | .negSucc n => { num := 1, den := 2 ^ (n + 1) }
/-- The value with a sign for a zero. -/
def toVal (a : Q) (negZero : Bool := false) : Val :=
  .fin (if a.num = 0 then negZero else decide (a.num < 0)) { num := a.num.natAbs, den := a.den }
end Q

namespace Val
/-- The rational of a finite value (roots have none and read as zero). -/
def toQ : Val → Q
  | .fin neg m => if m.k = 0 then { num := if neg then -(m.num : Int) else m.num, den := m.den } else { num := 0 }
  | _ => { num := 0 }
def isNan : Val → Bool
  | .nan => true
  | _ => false
def isZero : Val → Bool
  | .fin _ m => m.isZero
  | _ => false
/-- The sign bit. -/
def sgn : Val → Bool
  | .nan => false
  | .inf n => n
  | .fin n _ => n
def neg : Val → Val
  | .nan => .nan
  | .inf n => .inf !n
  | .fin n m => .fin (!n) m
/-- x + y, exact (R60). -/
def add : Val → Val → Val
  | .nan, _ => .nan
  | _, .nan => .nan
  | .inf a, .inf b => if a = b then .inf a else .nan
  | .inf a, _ => .inf a
  | _, .inf b => .inf b
  | x@(.fin a _), y@(.fin b _) => (x.toQ.add y.toQ).toVal (x.isZero && y.isZero && a && b)
/-- x × y, exact (R60). -/
def mul : Val → Val → Val
  | .nan, _ => .nan
  | _, .nan => .nan
  | .inf a, y => if y.isZero then .nan else .inf (a != y.sgn)
  | x, .inf b => if x.isZero then .nan else .inf (x.sgn != b)
  | x@(.fin a _), y@(.fin b _) => (x.toQ.mul y.toQ).toVal (a != b)
/-- x ÷ y for a divisor that is not zero, exact (R443). -/
def div : Val → Val → Val
  | .nan, _ => .nan
  | _, .nan => .nan
  | .inf a, .inf _ => let _ := a; .nan
  | .inf a, y => .inf (a != y.sgn)
  | x, .inf b => .fin (x.sgn != b) { num := 0 }
  | x@(.fin a _), y@(.fin b _) => (x.toQ.div y.toQ).toVal (a != b)
/-- x < y; false with a NaN (R63). -/
def lt : Val → Val → Bool
  | .nan, _ => false
  | _, .nan => false
  | .inf a, .inf b => a && !b
  | .inf a, _ => a
  | _, .inf b => !b
  | x, y => x.toQ.lt y.toQ
/-- x = y; false with a NaN. -/
def eqv : Val → Val → Bool
  | .nan, _ => false
  | _, .nan => false
  | .inf a, .inf b => a == b
  | .inf _, _ => false
  | _, .inf _ => false
  | x, y => x.toQ.eq y.toQ
end Val

/-- A code of `w` bits read as two's complement. -/
def signedCode (w c : Nat) : Int := if c < 2 ^ (w - 1) then c else (c : Int) - 2 ^ w

/-- The code of `w` bits of an integer. -/
def codeOf (w : Nat) (x : Int) : Nat := (x % (2 ^ w : Int)).toNat

/-- The value of a floating-point code (R39, R40). -/
def floatValue (f : Fmt) (c : Nat) : Val :=
  let w := f.width
  let neg := c / 2 ^ (w - 1) % 2 = 1
  let mag := c % 2 ^ (w - 1)
  if f.hasInf ∧ mag = f.maxCode + 1 then .inf neg
  else if f.hasNan ∧ mag > f.maxCode then .nan
  else if mag = 0 then .fin (neg && f.hasNegZero) { num := 0 }
  else
    let e := mag / 2 ^ f.mant
    let m := mag % 2 ^ f.mant
    let q := if e = 0 then Q.mul { num := m } (Q.pow2 f.emin)
             else Q.mul { num := m + 2 ^ f.mant } (Q.pow2 (f.emin + e - 1))
    .fin neg { num := q.num.natAbs, den := q.den }

/-- The value a code of a format stands for (R36, R39, R44, R47, X128). -/
def fmtValue (f : Fmt) (c : Nat) : Val :=
  if f = Fmt.u8 then (Q.ofInt c).toVal
  else if f.isInt then (Q.ofInt (signedCode f.width c)).toVal
  else if f.isFloat then floatValue f c
  else if f = Fmt.e8m0 then (if c = 255 then .nan else (Q.pow2 ((c : Int) - 127)).toVal)
  else if f = Fmt.l8 then
    (if c = 0 then .fin false { num := 0 }
     else let q := Q.pow2 ((c : Int) - 192); .fin false { k := 3, num := q.num.natAbs, den := q.den })
  else ({ num := signedCode 128 c, den := 2 ^ 64 } : Q).toVal

/-- The rounding of one element: to nearest even, or stochastic with its draw (R52, R53). -/
inductive Rnd where
  | rn
  | sr (draw : BitVec 32)
  deriving DecidableEq, Repr

/-- Put the sign bit on a magnitude code (R42). -/
def signCode (f : Fmt) (neg : Bool) (c : Nat) : Nat :=
  if neg ∧ (c ≠ 0 ∨ f.hasNegZero) then c + 2 ^ (f.width - 1) else c

/-- A finite value into a floating-point format (R52 to R54, R57). -/
def roundFloat (f : Fmt) (r : Rnd) (neg : Bool) (m : Mag) : Nat × Ev :=
  if m.isZero then (signCode f neg 0, {})
  else
    let u := max (m.log2 - f.mant) f.emin
    let base := ((u - f.emin).toNat) * 2 ^ f.mant
    match r with
    | .rn =>
      let c := base + m.rneAt u
      if c > f.maxCode then (signCode f neg f.maxCode, { sat := 1 }) else (signCode f neg c, {})
    | .sr d =>
      let c := base + m.floorAt u
      if c > f.maxCode then (signCode f neg f.maxCode, { sat := 1 })
      else if m.exactAt u then (signCode f neg c, {})
      else if c = f.maxCode then (signCode f neg c, {})
      else
        let t := m.t32 neg u
        let up := if neg then ¬ d.toNat < t else d.toNat < t
        (signCode f neg (if up then c + 1 else c), {})

/-- A finite value to an integer of unbounded range by RN (R63). -/
def rnInt (neg : Bool) (m : Mag) : Int := if neg then -(m.rneAt 0 : Int) else m.rneAt 0

/-- A finite value to an integer of unbounded range by SR: u of R161 is rounded before ZY is added and the clamp
follows (DEDUCED, log entry 8). -/
def srInt (d : BitVec 32) (neg : Bool) (m : Mag) : Int :=
  let x : Int := if neg then -(m.floorAt 0 : Int) else m.floorAt 0
  if m.exactAt 0 then x
  else if neg then (if d.toNat < m.t32 neg 0 then x else x - 1)
  else (if d.toNat < m.t32 neg 0 then x + 1 else x)

/-- A finite value into the range [lo, hi] of an integer format (R52 to R54, R57, R60). -/
def roundInt (lo hi : Int) (r : Rnd) (neg : Bool) (m : Mag) : Int × Ev :=
  match r with
  | .rn =>
    let x := rnInt neg m
    if x > hi then (hi, { sat := 1 }) else if x < lo then (lo, { sat := 1 }) else (x, {})
  | .sr d =>
    let c : Int := m.floorAt 0
    let x := if neg then -c else c
    if m.exactAt 0 then
      (if x > hi then (hi, { sat := 1 }) else if x < lo then (lo, { sat := 1 }) else (x, {}))
    else if ¬ neg ∧ c > hi then (hi, { sat := 1 })
    else if neg ∧ x < lo then (lo, { sat := 1 })
    else if ¬ neg ∧ c = hi then (hi, {})
    else if neg ∧ x = lo then (lo, {})
    else
      let t := m.t32 neg 0
      if neg then (if d.toNat < t then x else x - 1, {}) else (if d.toNat < t then x + 1 else x, {})

/-- A positive finite magnitude to L8 (R48). -/
def toL8 (m : Mag) : Nat × Ev :=
  if m.isZero then (0, {})
  else
    let p := 2 ^ (4 - m.k)
    let l := Mag.log2 { num := m.num ^ p, den := m.den ^ p }
    let c := 192 + (l + 1) / 2
    if c ≤ 0 then (0, {}) else if c > 255 then (255, { sat := 1 }) else (c.toNat, {})

/-- The end of the X128 range of a sign, in units of 2^−64. -/
def x128End (neg : Bool) : Int := if neg then -(2 ^ 127) else 2 ^ 127 - 1

/-- A value onto the X128 grid, in units of 2^−64 (R49, R59, R444). -/
def toX128 : Val → Int × Ev
  | .nan => (0, { nan := 1 })
  | .inf n => (x128End n, { sat := 1 })
  | .fin n m =>
    let x : Int := m.rneAt (-64)
    let x := if n then -x else x
    if x > x128End false then (x128End false, { sat := 1 })
    else if x < x128End true then (x128End true, { sat := 1 }) else (x, {})

/-- Saturation of an exact sum to the X128 range (R160). -/
def satX128 (x : Int) : Int × Ev :=
  if x > x128End false then (x128End false, { sat := 1 })
  else if x < x128End true then (x128End true, { sat := 1 }) else (x, {})

/-- The term bound for NLOG = n, in units of 2^−64 (R50). -/
def termBound (n : Nat) : Int := 2 ^ (127 - n) - 1

/-- Clamp to the term bound; a clamp counts TERM (R50). -/
def clampTerm (n : Nat) (x : Int) : Int × Ev :=
  if x > termBound n then (termBound n, { term := 1 })
  else if x < -termBound n then (-termBound n, { term := 1 }) else (x, {})

/-- One X128 term of a value (R49, R50, R444). -/
def term (n : Nat) (v : Val) : Int × Ev :=
  let x : Int × Ev :=
    match v with
    | .fin s m => let y : Int := m.rneAt (-64); (if s then -y else y, {})
    | v => toX128 v
  let y := clampTerm n x.1
  (y.1, x.2.add y.2)

/-- A value into a format: one rounding, special inputs under R59, negative inputs to U8 under R60. -/
def convert (f : Fmt) (r : Rnd) (v : Val) : Nat × Ev :=
  if f = Fmt.l8 then
    match v with
    | .nan => (0, { nan := 1 })
    | .inf n => if n then (0, { range := 1 }) else (255, { sat := 1 })
    | .fin n m => if n ∧ ¬ m.isZero then (0, { range := 1 }) else toL8 m
  else if f = Fmt.x128 then
    let x := toX128 v
    (codeOf 128 x.1, x.2)
  else if f.isFloat then
    match v with
    | .nan => if f.hasNan then (f.nanCode, {}) else (0, { nan := 1 })
    | .inf n => if f.hasInf then (signCode f n (f.maxCode + 1), {}) else (signCode f n f.maxCode, { sat := 1 })
    | .fin n m => roundFloat f r n m
  else
    match v with
    | .nan => (0, { nan := 1 })
    | .inf n => (codeOf f.width (if n then f.qmin else f.qmax), { sat := 1 })
    | .fin n m => let x := roundInt f.qmin f.qmax r n m; (codeOf f.width x.1, x.2)

/-- The quotient of R63 and R443: the value, or by `sum.inl` the sign of a nonzero numerator over zero. -/
def quotient (x s : Val) : Sum Bool Val × Ev :=
  if s.isZero then
    if x.isNan then (.inr .nan, { zdiv := 1 })
    else if x.isZero then (.inr .nan, { zdiv := 1 })
    else (.inl (x.sgn != s.sgn), { zdiv := 1 })
  else (.inr (x.div s), {})

/-- A quotient plus a zero point into a format (R63, R443, R161): `z` is added after the rounding. -/
def quantTo (f : Fmt) (r : Rnd) (z : Int) (x s : Val) : Nat × Ev :=
  let q := quotient x s
  let clampQ (y : Int) (e : Ev) : Nat × Ev :=
    if y > f.qmax then (codeOf f.width f.qmax, q.2.add (e.add { sat := 1 }))
    else if y < f.qmin then (codeOf f.width f.qmin, q.2.add (e.add { sat := 1 }))
    else (codeOf f.width y, q.2.add e)
  if f.isInt then
    match q.1 with
    | .inl n => (codeOf f.width (if n then f.qmin else f.qmax), q.2)
    | .inr .nan => clampQ z { nan := 1 }
    | .inr (.inf n) => (codeOf f.width (if n then f.qmin else f.qmax), q.2.add { sat := 1 })
    | .inr (.fin n m) =>
      match r with
      | .rn => clampQ (rnInt n m + z) {}
      | .sr d => clampQ (srInt d n m + z) {}
  else
    match q.1 with
    | .inl n => (if f.isFloat then signCode f n f.maxCode else if n then 0 else 255, q.2)
    | .inr v => let y := convert f r v; (y.1, q.2.add y.2)

/-- The clip step of R63: the value, and whether it was replaced by the low or the high bound. -/
def clip (x lo hi : Val) : Val × Bool × Bool :=
  if x.lt lo then (lo, true, false) else if hi.lt x then (hi, false, true) else (x, false, false)

/-- The dequantizer of R65 into FP32. -/
def dequant (f : Fmt) (code : Nat) (s : Val) (z : Int) (b : Val) : Nat × Ev :=
  let v := if f.isInt then (fmtValue f code).add (Q.ofInt (-z)).toVal else fmtValue f code
  convert Fmt.fp32 .rn ((s.mul v).add b)

/-- The finalizer of R55. -/
def mix64 (z : BitVec 64) : BitVec 64 :=
  let z := (z ^^^ (z >>> 30)) * 0xBF58476D1CE4E5B9#64
  let z := (z ^^^ (z >>> 27)) * 0x94D049BB133111EB#64
  z ^^^ (z >>> 31)

/-- The bobbin generator (R55). -/
def bobbin (seed : BitVec 64) (tensor : BitVec 32) (index : BitVec 64) : BitVec 32 :=
  let key := mix64 (seed ^^^ (tensor ++ tensor))
  let v := mix64 (key + mix64 (index ^^^ 0x6A09E667F3BCC909#64))
  v.extractLsb' 32 32

/-- The exponent emax of an element format of a scaled block (R46). -/
def scaleEmax (f : Fmt) : Int :=
  match f.toNat with
  | 1 => 6 | 6 => 2 | 7 => 4 | 8 => 8 | _ => 15

/-- The E8M0 code of a block whose largest element magnitude is `a` (none where all are zero), in [lo, hi] (R46). -/
def blockScale (f : Fmt) (lo hi : Nat) (a : Option Mag) : Nat :=
  let e : Int :=
    match a with
    | none => 127
    | some m => m.log2 - scaleEmax f + 127
  (max (lo : Int) (min (hi : Int) e)).toNat

/-! Functions of R162 to 256 fraction bits: no FP32 argument comes near enough to a boundary for more to matter
(DEDUCED, log entry 7). -/

/-- ln 2 in units of 2^−300. -/
def ln2Fix : Nat → Nat
  | 0 => 0
  | k + 1 => ln2Fix k + 2 ^ 300 / ((k + 1) * 2 ^ (k + 1))

/-- The terms of the exponential series from the n-th on, `t` the current term, in units of 2^−300. -/
def expSeries (y : Nat) : Nat → Nat → Nat → Nat
  | 0, _, acc => acc
  | fuel + 1, t, acc => let n := 81 - (fuel + 1); let t' := t * y / (2 ^ 300 * n); expSeries y fuel t' (acc + t')

/-- 2^x for a finite rational x (R162). -/
def exp2Mag (x : Q) : Mag :=
  let i := x.num / (x.den : Int)
  let fr : Nat := (x.num % (x.den : Int)).toNat
  if i > 300 then { num := 2 ^ 300 }
  else if i < -400 then { num := 1, den := 2 ^ 400, sticky := true }
  else if fr = 0 then let q := Q.pow2 i; { num := q.num.natAbs, den := q.den }
  else
    let y : Nat := fr * ln2Fix 310 / x.den
    let v : Nat := expSeries y 80 (2 ^ 300) (2 ^ 300) / 2 ^ 44
    let q := Q.mul { num := (v : Int), den := 2 ^ 256 } (Q.pow2 i)
    { num := q.num.natAbs, den := q.den, sticky := true }

/-- Bits of log2 of a mantissa in [1, 2), in units of 2^−600, most significant first. -/
def log2Bits : Nat → Nat → Nat → Nat
  | 0, _, acc => acc
  | n + 1, m, acc =>
    let s := m * m / 2 ^ 600
    if s ≥ 2 ^ 601 then log2Bits n (s / 2) (2 * acc + 1) else log2Bits n s (2 * acc)

/-- log2 of a positive rational magnitude (R162). -/
def log2Val (m : Mag) : Val :=
  let e := m.log2
  let p := shiftFrac m.num m.den e
  if p.1 = p.2 then (Q.ofInt e).toVal
  else
    let b := log2Bits 256 (p.1 * 2 ^ 600 / p.2) 0
    let n : Int := e * 2 ^ 256 + b
    if n ≥ 0 then .fin false { num := n.toNat, den := 2 ^ 256, sticky := true }
    else .fin true { num := (-n).toNat - 1, den := 2 ^ 256, sticky := true }

/-- RCP before rounding (R162, R58): the FP32 code is fixed for a zero. -/
def rcpVal (v : Val) : Sum Nat Val × Ev :=
  if v.isZero then (.inl (signCode Fmt.fp32 v.sgn (Fmt.maxCode Fmt.fp32)), { zdiv := 1 })
  else (.inr ((Q.ofInt 1).toVal.div v), {})

/-- RSQ before rounding (R162). -/
def rsqVal (v : Val) : Sum Nat Val × Ev :=
  match v with
  | .nan => (.inr .nan, {})
  | .inf n => (.inr (if n then .nan else .fin false { num := 0 }), {})
  | .fin n m =>
    if m.isZero then (if n then (.inr v, {}) else (.inl (Fmt.maxCode Fmt.fp32), { zdiv := 1 }))
    else if n then (.inr .nan, {})
    else (.inr (.fin false { k := 1, num := m.den, den := m.num }), {})

/-- EXP2 before rounding (R162). -/
def exp2Val (v : Val) : Sum Nat Val × Ev :=
  match v with
  | .nan => (.inr .nan, {})
  | .inf n => (.inr (if n then .fin false { num := 0 } else .inf false), {})
  | .fin _ _ => (.inr (.fin false (exp2Mag v.toQ)), {})

/-- LOG2 before rounding (R162). -/
def log2FVal (v : Val) : Sum Nat Val × Ev :=
  match v with
  | .nan => (.inr .nan, {})
  | .inf n => (.inr (if n then .nan else .inf false), {})
  | .fin n m =>
    if m.isZero then (.inl (signCode Fmt.fp32 true (Fmt.maxCode Fmt.fp32)), { zdiv := 1 })
    else if n then (.inr .nan, {})
    else (.inr (log2Val m), {})

end Sys2Proof.Machine
end

