-- ==== Sys2Proof/Machine/ArrayState.lean ====
section
/-!
DEFINITION. The state of the picot array (chapters 04 to 06): picots, wires, the hold.
-/

namespace Sys2Proof.Machine

/-- A stored 256-bit word of picot or hub storage (R110, R356): the word as it was written and the generation of the
key K_S it was enciphered under; generation 0 is storage that no write has touched. -/
structure Stored where
  gen  : Nat
  word : BitVec 256
  deriving DecidableEq, Repr

/-- Storage that no write has touched. -/
def Stored.blank : Stored := { gen := 0, word := 0 }

/-- A queue entry: a flit's payload and sideband (R118). -/
structure Flit where
  data : BitVec 256
  kind : BitVec 2
  bad  : Bool
  last : Bool
  deriving DecidableEq, Repr

/-- A data queue: its compiled capacity and its entries, oldest first (R128). -/
structure Queue where
  cap   : Nat
  items : List Flit
  deriving DecidableEq, Repr

/-- A token queue (R128). -/
structure TQueue where
  cap   : Nat
  items : List (BitVec 16)
  deriving DecidableEq, Repr

/-- A loop counter in trip or timer mode (R112, R179). -/
structure LoopCtr where
  count : BitVec 16
  timer : Bool
  deriving DecidableEq, Repr

/-- An active loop: its counter, first and last bundle (R180). -/
structure LoopEnt where
  lc    : Fin 8
  start : Nat
  stop  : Nat
  deriving DecidableEq, Repr

/-- A steering unit (R131, R148, R182): its configuration, the one that waits for a point between items, and where it
stands. -/
structure SteerUnit where
  cfg         : BitVec 64
  next        : Option (BitVec 64)
  running     : Bool
  stopPending : Bool
  left        : Nat
  port        : Nat
  items       : BitVec 24
  deriving DecidableEq, Repr

/-- A logical pricking: bindings and its own registers (R133, R146). -/
structure Logical where
  slot    : Option (Fin 8)
  shadow  : Option (Fin 8)
  follow  : Option (Fin 8)
  pc      : Nat
  ended   : Bool
  gp      : SMap Word
  prd     : BitVec 12
  badl    : Bool
  loops   : List LoopEnt
  waiting : Option (Fin 8)
  waited  : Nat
  /-- The cycle of the round in which the bundle that waits stands (R207). -/
  waitAt  : Nat
  deriving DecidableEq, Repr

/-- A tile buffer (R146, R158): 2 KiB of codes, 64 row-block scales, the format. -/
structure Tile where
  codes  : BitVec 16384
  scales : BitVec 512
  fmt    : BitVec 4
  deriving DecidableEq, Repr

/-- What a pricking-store slot is (R114). -/
inductive SlotKind where
  | free | bound | shadow
  deriving DecidableEq, Repr

/-- A pricking-store slot: its kind and its body flits (R114, R192). -/
structure Slot where
  kind  : SlotKind
  flits : SMap Stored
  deriving DecidableEq, Repr

/-- A fill being taken (R135): the slot, the logical pricking, MODE, the flits left, the next body flit, and whether it
is discarded. -/
structure FillIn where
  slot    : Fin 8
  logical : Fin 8
  mode    : BitVec 2
  left    : Nat
  index   : Nat
  discard : Bool
  deriving DecidableEq, Repr

/-- A result on its way to where it lands (R150). -/
inductive Res where
  /-- Lanes of a vector register. -/
  | lanes (v : Nat) (mask : BitVec 64) (val : BitVec 2048)
  /-- Segment tags of a vector register. -/
  | tags (v : Nat) (segs : BitVec 8) (bad : Bool)
  /-- Terms into a bank: replaced first, or added to what stands there, from accumulator `first` on. -/
  | terms (bank first : Nat) (repl : Bool) (xs : List Int) (tag : Bool)
  /-- A cleared bank with its NLOG. -/
  | clearBank (bank nlog : Nat)
  /-- A kilobyte of codes into the loading tile. -/
  | tileCodes (part : Bool) (fmt : BitVec 4) (codes : BitVec 8192)
  /-- Half of the loading tile's scales. -/
  | tileScales (part : Bool) (scales : BitVec 256)
  /-- The exchange of the tile buffers. -/
  | swap
  /-- One general register. -/
  | gp (r : Nat) (v : Word)
  /-- One predicate bit. -/
  | prd (b : Nat) (v : Bool)
  /-- All predicate bits. -/
  | prds (v : BitVec 12)
  /-- The BAD latch: cleared, or a BAD bit joined to it. -/
  | badl (clear bad : Bool)
  /-- An SRAM word. -/
  | sram (word : Nat) (v : BitVec 256)
  /-- A loop counter. -/
  | lc (n : Fin 8) (c : LoopCtr)
  deriving DecidableEq, Repr

/-- A result in flight: cycles left, issue order (cycle of issue, slot 0 M, 1 L, 2 C), the logical pricking. -/
structure InFlight where
  left : Nat
  cyc  : Nat
  slot : Nat
  lg   : Fin 8
  res  : Res
  deriving DecidableEq, Repr

/-- A memory-lane transfer of a tap (R126, R176, R199): its request and the logical pricking whose MREQ made it, whether a
write's request beat is on its way, the next beat, cycles until that beat leaves the controller, the array cycle its request
was taken in, and beats that the controller has served; none is a beat whose line cannot be read. -/
structure LaneReq where
  addr  : BitVec 32
  len   : Nat
  write : Bool
  word  : Nat
  lg    : Fin 8
  sent  : Bool
  beat  : Nat
  due   : Nat
  taken : Nat
  data  : List (Option (BitVec 2048))
  deriving DecidableEq, Repr

/-- A beat in a pass-through register of a memory lane (R126): the picot whose register holds it, the direction, what the
lane carries (a request's fields, or 256 bytes), and, the model's own, the tap and the request that it belongs to: the first
SRAM word of its place, its address in 256-byte units, and the cycles since it was put. -/
structure LaneBeat where
  pic   : Fin 1024
  out   : Bool
  req   : Bool
  bits  : BitVec 2048
  tap   : Fin 1024
  word  : Nat
  addr  : Nat
  age   : Nat
  deriving DecidableEq, Repr

/-- A memory-lane write beat at its controller, with the cycles of commit lag left (R204). -/
structure LaneStore where
  wait : Nat
  line : Nat
  data : BitVec 2048
  deriving DecidableEq, Repr

/-- What enters a picot's island from a link (R121). -/
inductive EnterItem where
  | flit (q : Fin 16) (f : Flit)
  | token (q : Fin 8) (t : BitVec 16)
  deriving DecidableEq, Repr

/-- A crossing into a picot's island: cycles left, the input it came by. -/
structure Entering where
  wait : Nat
  inp  : Dir
  item : EnterItem
  deriving DecidableEq, Repr

/-- One trace entry (PCT_TRACE). -/
abbrev TraceEnt := BitVec 64

/-- A picot. -/
structure Picot where
  vr       : SMap (BitVec 2048)
  tag      : SMap Bool
  acc      : SMap Int
  accTag   : SMap Bool
  nlog     : SMap Nat
  active   : Tile
  loading  : Tile
  lc       : SMap LoopCtr
  sram     : SMap Stored
  sramErr  : SMap (BitVec 272)
  dq       : SMap Queue
  tq       : SMap TQueue
  steer    : SMap SteerUnit
  logicals : SMap Logical
  slots    : SMap Slot
  fold     : SMap (Fin 8)
  boot     : Bool
  /-- The fill being taken from each link, by input (R135). -/
  fills    : SMap FillIn
  /-- The input by which the last FILL flit came. -/
  fillLink : Nat
  flight   : List InFlight
  entering : List Entering
  laneOut  : List LaneReq
  laneIn   : List LaneReq
  /-- Banks that the L-port and the lane port have accessed in this cycle (R109). -/
  lport    : Option Nat
  lanePort : List Nat
  trace    : SMap TraceEnt
  tracePtr : BitVec 8
  deriving DecidableEq, Repr

def Queue.none : Queue := { cap := 0, items := [] }
def TQueue.none : TQueue := { cap := 0, items := [] }
def LoopCtr.zero : LoopCtr := { count := 0, timer := false }
def SteerUnit.off : SteerUnit :=
  { cfg := 0, next := .none, running := false, stopPending := false, left := 0, port := 0, items := 0 }
def Logical.none : Logical :=
  { slot := .none, shadow := .none, follow := .none, pc := 0, ended := false, gp := [], prd := 0, badl := false,
    loops := [], waiting := .none, waited := 0, waitAt := 0 }
def Tile.zero : Tile := { codes := 0, scales := 0, fmt := 0 }
def Slot.free : Slot := { kind := .free, flits := [] }

/-- A picot after an ARRAY reset under the boot table, its SRAM and pricking store as they stood (R116, R136). -/
def Picot.cleared (p : Picot) : Picot :=
  { vr := [], tag := [], acc := [], accTag := [], nlog := [], active := Tile.zero, loading := Tile.zero, lc := [],
    sram := p.sram, sramErr := p.sramErr, dq := [], tq := [], steer := [], logicals := [],
    slots := (p.slots.map (fun e => (e.1, { e.2 with kind := .free }))).filter (fun e => decide (e.2 ≠ Slot.free)),
    fold := [], boot := true, fills := [], fillLink := 2,
    flight := [], entering := [], laneOut := [], laneIn := [], lport := .none, lanePort := [],
    trace := [], tracePtr := 0 }

/-- A picot whose storage nothing has written. -/
def Picot.blank : Picot :=
  { vr := [], tag := [], acc := [], accTag := [], nlog := [], active := Tile.zero, loading := Tile.zero, lc := [],
    sram := [], sramErr := [], dq := [], tq := [], steer := [], logicals := [], slots := [], fold := [], boot := true,
    fills := [], fillLink := 2, flight := [], entering := [], laneOut := [], laneIn := [], lport := .none, lanePort := [], trace := [],
    tracePtr := 0 }

/-- A beat on a link (R117, R121): the picot and input it goes to, cycles until it may be ejected there, DATA and SIDE as a
flit, and TOKEN.  `check` is what CHECK differs by from the CRC of the flit, and `par` says that TPAR is not the token's
parity.  `clash` and `tclash` mark an output that two sources have driven: it carries no flit or no token (R124). -/
structure Beat where
  pic    : Fin 1024
  inp    : Dir
  wait   : Nat
  flit   : Option Flit
  token  : BitVec 16
  check  : BitVec 16
  par    : Bool
  clash  : Bool
  tclash : Bool
  deriving DecidableEq, Repr

/-- A link beat that carries a flit with its CHECK right and no token. -/
def Beat.ofFlit (pic : Fin 1024) (inp : Dir) (wait : Nat) (f : Flit) (token : BitVec 16 := 0) : Beat :=
  { pic := pic, inp := inp, wait := wait, flit := some f, token := token, check := 0, par := false, clash := false, tclash := false }

/-- A link beat that carries a token with the parity bit as given and no flit. -/
def Beat.ofToken (pic : Fin 1024) (inp : Dir) (wait : Nat) (token : BitVec 16) (par : Bool := false) : Beat :=
  { pic := pic, inp := inp, wait := wait, flit := none, token := token, check := 0, par := par, clash := false, tclash := false }

/-- A flit on its way to a hub port, cycles until it is there, CHECK and the mark of a clash as on a link. -/
structure HubFlit where
  port  : Fin 32
  wait  : Nat
  flit  : Flit
  check : BitVec 16
  clash : Bool
  deriving DecidableEq, Repr

/-- A flit that a hub port has ejected and that waits out the commit lag (R204): ACTION and the verdict stream or host
queue of its hub-port entry (R193). -/
structure Commit where
  wait   : Nat
  action : Nat
  dest   : Nat
  flit   : Flit
  deriving DecidableEq, Repr

/-- An atomic that the hub has taken (R177, R342): the cycles of commit lag left, the array cycle in which it came, the cycles
since, and the old value once the host has completed it. -/
structure Atomic where
  col    : Fin 32
  wait   : Nat
  flit   : BitVec 256
  taken  : Nat
  age    : Nat
  result : Option (BitVec 32)
  deriving DecidableEq, Repr

/-- The part of the array that a cancelling hold returns to its hold point (R203). -/
structure ArrCore where
  picots : SMap Picot
  beats  : List Beat
  hub    : List HubFlit
  commits : List Commit
  atomics : List Atomic
  /-- The memory lanes' registers, and write beats that wait out the commit lag at the controllers (R126, R204). -/
  lanes   : List LaneBeat
  stores  : List LaneStore
  /-- The round and the selection of the flip last armed (R139): the arming write alone sets them. -/
  flip    : DWord × Word
  /-- The bias of each weight row of the loaded image (R73): its FOLD without the offset fold. -/
  biases  : List Int
  round  : DWord
  cycle  : Nat
  events : SMap Word
  deriving DecidableEq, Repr

/-- A 256-byte line of HBM or DDR5 (R357): VERSION, the plaintext, what the stored codewords differ by from the codewords written,
and MAC.  VERSION 0 is a line that a scrub wrote. -/
structure Line where
  version : BitVec 56
  data    : BitVec 2048
  err     : BitVec 2048
  mac     : BitVec 64
  deriving DecidableEq, Repr

/-- A line as the scrub leaves it. -/
def Line.blank : Line := { version := 0, data := 0, err := 0, mac := 0 }

/-- The line tag (R357): VERSION in bytes [6:0], a zero byte, MAC in bytes [15:8]. -/
def Line.tag (x : Line) : BitVec 128 := x.mac ++ (0 : BitVec 8) ++ x.version

/-- A request that waits at an HBM or DDR5 controller (R26, R27): its class, where it begins, and the bytes it writes;
none is a host read of `len` bytes. -/
structure MemReq where
  cls  : Nat
  dpa  : Nat
  len  : Nat
  data : Option (List (BitVec 8))
  deriving DecidableEq, Repr

/-- The external memories: lines by DPA ÷ 256, the lost-line table (R388), dirtied DDR5 regions (R375), the write
counter of each controller (R359; HBM stacks 0 to 11, DDR5 channels 16 to 23), and the requests that wait there. -/
structure MemState where
  lines  : SMap Line
  lost   : List Nat
  dirty  : List Nat
  ctr    : SMap Nat
  queue  : SMap (List MemReq)
  deriving DecidableEq, Repr

/-- Memory that a scrub has written. -/
def MemState.blank : MemState := { lines := [], lost := [], dirty := [], ctr := [], queue := [] }

/-- One active hold request (R201): cause, source, whether it is the request of a read or a retry, whose cycle is
cancelled (R203), and the array cycle in which it was raised (64 × round + cycle). -/
structure HoldReq where
  cause  : Nat
  src    : HoldSrc
  cancel : Bool
  cyc    : Nat
  deriving DecidableEq, Repr

end Sys2Proof.Machine
end

