-- ==== Sys2Proof/Machine/DevState.lean ====
section
/-!
DEFINITION. The state of adaptation (chapter 08), Meridian and the Ethernet ports (09), host queues (10), the Cartouche
(11), health (12), firmware and boot (13).
-/

namespace Sys2Proof.Machine

/-- A training window (R261 to R263): reference index, LABEL, WEIGHT, source code. -/
structure TrainWin where
  index  : Nat
  label  : Int
  weight : Nat
  source : Nat
  /-- What the trainer copied of it from the input journal (R266). -/
  data   : List (BitVec 2048) := []
  deriving DecidableEq, Repr

/-- A trainer parameter request (R275, R276). -/
structure ParamReq where
  host  : Bool
  id    : Nat
  value : Word
  deriving DecidableEq, Repr

/-- The moments of one tensor (R270): the codes of m by element and its block scales, and the L8 codes of v. -/
structure Moments where
  m      : SMap Nat
  mScale : SMap Nat
  v      : SMap Nat
  deriving DecidableEq, Repr

def Moments.none : Moments := { m := [], mScale := [], v := [] }

/-- The trainer (R266 to R278): buffered training and validation windows, windows counted since context start, parameters in use, the
step state, the moments of each tensor, the weight buffer that its variant writes (false A, true B; R257), whether it has yet to copy
the live network after a flip (R274), PARTIAL since its last report, and the reports that it has formed. -/
structure Trainer where
  windows  : List TrainWin
  vals     : List TrainWin
  usable   : Nat
  lr       : Word
  wdecay   : Word
  gclip    : Word
  paused   : Bool
  applied  : Nat
  step     : Nat
  p1       : Word
  p2       : Word
  until'   : Option Nat
  moments  : SMap Moments
  target   : Bool
  copying  : Bool
  partial' : Bool
  reports  : List (BitVec 256)
  deriving DecidableEq, Repr

/-- FP32 1.0. -/
abbrev fpOne : Word := 0x3F800000

def Trainer.none : Trainer :=
  { windows := [], vals := [], usable := 0, lr := 0, wdecay := 0, gclip := 0, paused := true, applied := 0, step := 0, p1 := fpOne,
    p2 := fpOne, until' := .none, moments := [], target := true, copying := false, partial' := false, reports := [] }

/-- Adaptation beside the trainer (R256 to R288). -/
structure Adapt where
  /-- The adaptation descriptor of the loaded image (R256). -/
  desc     : Option (List Byte)
  /-- The policy block in force, empty before the first, and its status address (R286, R288). -/
  policy   : List Byte
  status   : DWord
  labels   : List TrainWin
  /-- Accepted firings: class and reference index on the stream's channel (R261). -/
  firings  : List (Nat × Nat)
  params   : SMap (List ParamReq)
  selDone  : Option Nat
  parDone  : Option Nat
  /-- Journal marks by block (R260): 1 skip, 2 BAD, 3 both. -/
  journal  : SMap Nat
  /-- The journal's entries by block: the place in the input plan and the data (R260). -/
  jdata    : SMap (List (Nat × BitVec 2048))
  trainer  : Trainer
  unusable : Nat
  dropped  : Nat
  overflow : Nat
  late     : Nat
  clipped  : Nat
  miss     : Nat
  lost     : Bool
  partial' : Bool
  /-- The latest report: STEP, BLOCK, LIVE_LOSS, SHADOW_LOSS; the block of the latest report or action. -/
  repStep  : Word
  block    : Nat
  liveLoss : Word
  shLoss   : Word
  /-- A swap waits for the trainer's pause (R279). -/
  swapping : Bool
  steps    : Nat
  swaps    : Nat
  lastSwap : Nat
  /-- The block of a swap whose flip is armed (R279). -/
  swapAt   : Option Nat
  /-- The threshold interval that runs: its policy block and first block (R281, R286); thresholds staged, not armed. -/
  thr      : Option (List Byte × Nat)
  staged   : Bool
  /-- The range span that runs (R282). -/
  rng      : Option (List Byte × Nat)
  /-- The next training-period boundary, and whether training is on (R283). -/
  period   : Option (Nat × Bool)
  written  : Nat
  deriving DecidableEq, Repr

def Adapt.none : Adapt :=
  { desc := .none, policy := [], status := 0, labels := [], firings := [], params := [], selDone := .none, parDone := .none,
    journal := [], jdata := [], trainer := Trainer.none, unusable := 0, dropped := 0, overflow := 0, late := 0, clipped := 0, miss := 0,
    lost := false, partial' := false, repStep := 0, block := 0, liveLoss := 0, shLoss := 0, swapping := false, steps := 0,
    swaps := 0, lastSwap := 0, swapAt := .none, thr := .none, staged := false, rng := .none, period := .none, written := 0 }

/-- A Sync at the ordinary clock (R304): sequenceId, local stamp t2, corrections so far, t1 where it is known, and
logMessageInterval. -/
structure PtpSync where
  seq    : Nat
  t2     : DWord
  corr   : Int
  t1     : Option Int
  logInt : Int
  void   : Bool
  deriving DecidableEq, Repr

/-- A frame in a port's egress queue (R302): its bytes, the port it came by and its ingress stamp. -/
structure EthFrame where
  bytes : List Byte
  from' : Nat
  stamp : DWord
  deriving DecidableEq, Repr

/-- An entry of the two-step match table (R300): sourcePortIdentity, domainNumber and sequenceId, Δ, and when it was
made. -/
structure TcEntry where
  key   : List Byte
  delta : Int
  made  : DWord
  deriving DecidableEq, Repr

/-- Meridian and the Ethernet ports beside their registers. -/
structure TimeSt where
  /-- The fraction accumulator in units of 2^−32 (R289). -/
  frac    : BitVec 32
  /-- I in units of 2^−160 × 10^−9 (R306). -/
  rate    : Int
  mf      : Option Int
  link    : SMap (Option Int)
  lockRun : Nat
  outRun  : Nat
  /-- The master's sourcePortIdentity, and the bytes by which its Announce ranks. -/
  master  : Option (List Byte)
  rank    : List Byte
  sync    : Option PtpSync
  /-- The last complete Sync: t2, t1 and its corrections (R304). -/
  done    : Option (DWord × Int × Int)
  req     : Option DWord
  reqSeq  : Nat
  queues  : SMap (List EthFrame)
  table   : List TcEntry
  ppsOut  : Bool
  /-- When the pulse on PPS_OUT ends (R312). -/
  ppsEnd  : DWord
  /-- The measured rate error against the ordinary clock's recovered clock, in units of 2^−38 (R307). -/
  l1Rate  : Int
  deriving DecidableEq, Repr

def TimeSt.none : TimeSt :=
  { frac := 0, rate := 0, mf := .none, link := [], lockRun := 0, outRun := 0, master := .none, rank := [], sync := .none,
    done := .none, req := .none, reqSeq := 0, queues := [], table := [], ppsOut := false, ppsEnd := 0, l1Rate := 0 }

/-- A flit in a host queue: DATA and LAST. -/
structure QFlit where
  data : BitVec 256
  last : Bool
  deriving DecidableEq, Repr

/-- A host queue (R339 to R341): its table entry, the index of its next flit, flits that the hub holds, the count last written to
the far side, and the counts of a PEER queue that wait for their UIO writes. -/
structure HostQ where
  inject : Bool
  peer   : Bool
  log2   : Nat
  ring   : DWord
  far    : DWord
  loc    : Nat
  next   : Nat
  held   : List QFlit
  told   : Nat
  owed   : List Nat
  deriving DecidableEq, Repr

/-- A REPLAY command's blocks (R337): the ring it runs on, blocks not fetched yet, the next FIRST_BLOCK, blocks taken, and how many
blocks before the one whose transfer will end in error. -/
structure ReplayQ where
  ring   : Option Nat
  blocks : List (List Byte)
  next   : Option Nat
  taken  : Nat
  lost   : Option Nat := Option.none
  deriving DecidableEq, Repr

/-- A released section key (R366). -/
structure RelKey where
  id      : Nat
  key     : List Byte
  measure : List Byte
  deriving DecidableEq, Repr

/-- A live secure association of MACsec on a port (R303, R371): the SAK, its association number, whether the suite is
GCM-AES-XPN-256, the salt and the SSCIs of this port and of its peer that the XPN suite uses, the next packet number to send and the
lowest that is acceptable. -/
structure MacSa where
  key  : List Byte
  an   : Nat
  xpn  : Bool
  salt : List Byte
  ssci : Nat
  peer : Nat
  tx   : Nat
  rx   : Nat
  deriving DecidableEq, Repr

/-- The Cartouche beside its registers (R347 to R381). -/
structure SecSt where
  owner   : List Byte
  /-- The nonces of the last 16 reports signed in this context. -/
  nonces  : List (List Byte)
  keys    : List RelKey
  /-- The session key of the context, by generation; zero where none exists. -/
  session : Nat
  /-- The scrub key that is in use, by generation (R353, R359); zero outside a scrub. -/
  scrub   : Nat
  challenge : Option (List Byte)
  /-- CKN and CAK of each port. -/
  cak     : SMap (List Byte)
  /-- The live SAK of each port. -/
  sak     : SMap (Option MacSa)
  /-- DRBG requests since the last reseed, and bytes drawn in all (R352). -/
  reqs    : Nat
  drawn   : Nat
  /-- The ring whose CTX_OPEN runs, and those whose STOP runs. -/
  opening : Option Nat
  stops   : List Nat
  /-- When ENDING began. -/
  endFrom : DWord
  /-- ACQ_EVENTS when the context ended. -/
  events  : DWord
  /-- A CONTEXT reset ends the context (R426). -/
  ctxRst  : Bool
  /-- `now` at the last PRIV_GRANT. -/
  privAt  : Nat
  deriving DecidableEq, Repr

def SecSt.none : SecSt :=
  { owner := [], nonces := [], keys := [], session := 0, scrub := 0, challenge := .none, cak := [], sak := [], reqs := 0, drawn := 0,
    opening := .none, stops := [], endFrom := 0, events := 0, ctxRst := false, privAt := 0 }

/-- A boot control record (R434). -/
structure BootRec where
  seq    : Nat
  active : Bool
  staged : Nat
  tries  : Nat
  deriving DecidableEq, Repr

/-- The QSPI flash but for the calibration store (R432): valid boot control records, the firmware slots (an unlisted byte
is erased) and the certificate chain. -/
structure Flash where
  rec0  : Option BootRec
  rec1  : Option BootRec
  slotA : SMap Byte
  slotB : SMap Byte
  cert  : List Byte
  deriving DecidableEq, Repr

/-- Erased flash. -/
def Flash.blank : Flash := { rec0 := .none, rec1 := .none, slotA := [], slotB := [], cert := [] }

/-- Firmware, boot, pins and the Legend controller's step policy (R402 to R404, R421 to R438). -/
structure BootSt where
  /-- The slot that runs, its measurement, and the measurement of the staged image or of what a rollback would run. -/
  slot     : Option Bool
  measure  : List Byte
  staged   : List Byte
  porLow   : Bool
  perstLow : Bool
  /-- The boot that runs, or ran last, follows a COLD reset. -/
  cold     : Bool
  linkUp   : Bool
  /-- A CONTEXT (2) or ARRAY (3) reset that waits for a step change (R423). -/
  waiting  : Option Nat
  /-- `now` at the rise of POR_L or PERST_L. -/
  began    : Nat
  /-- Consecutive hot and cool samples; the step asked for. -/
  hot      : Nat
  cool     : Nat
  target   : Option Nat
  /-- The reference edge for which the STEP request has gone up, and when the islands of a change will have relocked (R20). -/
  edge     : Option Nat
  relock   : Option Nat
  /-- The Legend controller restarts (R401); when the watchdog expired lately; the last kick. -/
  legendDown : Bool
  expiries : List DWord
  kicked   : DWord
  thermtrip : Bool
  deriving DecidableEq, Repr

def BootSt.none : BootSt :=
  { slot := .none, measure := [], staged := [], porLow := false, perstLow := false, cold := true, linkUp := false, waiting := .none,
    began := 0, hot := 0, cool := 0, target := .none, edge := .none, relock := .none, legendDown := false, expiries := [], kicked := 0, thermtrip := false }

/-- An ageing monitor (R410, R411): samples, and the exact sums over them of t, t², y, ty and y²; baseline and last y, in
units of 2^−32. -/
structure Monitor where
  n    : Nat
  st   : Nat
  stt  : Nat
  sy   : Int
  sty  : Int
  syy  : Int
  base : Int
  last : Int
  deriving DecidableEq, Repr

def Monitor.none : Monitor := { n := 0, st := 0, stt := 0, sy := 0, sty := 0, syy := 0, base := 0, last := 0 }

end Sys2Proof.Machine
end

