-- ==== Sys2Proof/Machine/HubState.lean ====
section
/-!
DEFINITION. The state of the hub's sample path (chapters 03 and 07): lanes, front end, elastic buffer, trigger block,
combiner, capture controller, survey engines.
-/

namespace Sys2Proof.Machine

/-- The time anchor of a lane or link (R91): a time in timeline units at a sample index. -/
structure Anchor where
  time   : Int
  index  : Nat
  tagged : Bool
  deriving DecidableEq, Repr

/-- A lane beside its registers (R75, R80 to R82, R91): the expected index E, whether a DATA frame has set it, the
anchor, whether a frame has come since alignment, the sample format of its frames, and the equalizer's start values. -/
structure LaneIn where
  expect : Option Nat
  synced : Bool
  anchor : Option Anchor
  fresh  : Bool
  s16    : Bool
  eq     : List (BitVec 8)
  deriving DecidableEq, Repr

def LaneIn.none : LaneIn := { expect := .none, synced := false, anchor := .none, fresh := true, s16 := true, eq := [] }

/-- A JESD204C link beside its registers (R87, R88, R90): started, the next index it releases, its anchor, and whether
R90 refused it when it was enabled. -/
structure JLink where
  started : Bool
  next    : Nat
  anchor  : Option Anchor
  refused : Bool
  deriving DecidableEq, Repr

def JLink.none : JLink := { started := false, next := 0, anchor := .none, refused := false }

/-- A raw sample of a channel on its way through the front end. -/
structure RawSample where
  chan  : Nat
  index : Nat
  code  : Int
  bad   : Bool
  ovr   : Bool
  s16   : Bool
  /-- Meridian's stamp of the last bit of its frame (R210). -/
  stamp : Nat
  deriving DecidableEq, Repr

/-- A history code (R92) with its BAD mark. -/
structure Sample where
  code : Int
  bad  : Bool
  deriving DecidableEq, Repr

/-- An elastic-buffer entry (R97): 256 bytes of codes and its tag. -/
structure EbEntry where
  block   : Nat
  k       : Nat
  group   : Nat
  data    : BitVec 2048
  /-- Bytes of its codes and column sums. -/
  bytes   : Nat
  bad     : Bool
  shed    : Bool
  overrun : Bool
  deriving DecidableEq, Repr

/-- One channel's statistics of an interval (R97). -/
structure StatAcc where
  min    : Int
  max    : Int
  sum    : Int
  lo     : Nat
  hi     : Nat
  sat    : Nat
  bad    : Nat
  good   : Nat
  ovr    : Bool
  deriving DecidableEq, Repr

def StatAcc.none : StatAcc :=
  { min := 0x7FFF, max := -0x8000, sum := 0, lo := 0, hi := 0, sat := 0, bad := 0, good := 0, ovr := false }

/-- The ingress block and the front end beside their registers. -/
structure Ingress where
  lanes   : SMap LaneIn
  links   : SMap JLink
  /-- Raw samples that wait for the front end, oldest first. -/
  raw     : List RawSample
  /-- The last raw samples of each channel, the newest first (R92). -/
  taps    : SMap (List RawSample)
  /-- The index of each channel's next history code. -/
  next    : SMap Nat
  /-- Channel record words (R94): bank × 65,536 + channel × 16 + word. -/
  recs    : SMap Word
  /-- The block that the armed record switch names, and the block of the last switch (R95, R96). -/
  recArm  : Nat
  recFrom : Option Nat
  /-- The blocks of the context's switches, the latest first: each turned the bank that governs the blocks from it on. -/
  recHist : List Nat
  /-- The context's first block (R335). -/
  first   : Nat
  /-- History codes of blocks that the ring does not hold yet: by block, then channel × 65,536 + index in the block. -/
  blocks  : SMap (SMap Sample)
  /-- Quantized codes in the same places, with their BAD marks. -/
  quant   : SMap (SMap (Nat × Bool))
  /-- Channels whose sample format is S12. -/
  s12     : SMap Bool
  /-- The elastic buffer, oldest first. -/
  eb      : List EbEntry
  /-- The block and entry of the input plan that the front end forms next. -/
  ebNext  : Nat × Nat
  /-- The first missed entry of the gap that the ring reader closes, the block at which the gap ends, and the first
  missed entry of a gap after it (R98, R99). -/
  missed  : Option (Nat × Nat)
  resume  : Option Nat
  missed2 : Option (Nat × Nat)
  /-- Entries that the ring reader or the replay queue has ready for the array, and the block and entry up to which it has
  supplied them. -/
  feed    : List EbEntry
  fed     : Nat × Nat
  /-- The block that the array takes from, and how many of its entries it has taken, in the input plan's order. -/
  taken   : Nat × Nat
  /-- Statistics of each block: block × 4,096 + channel (R97); the interval's first block. -/
  stats   : SMap StatAcc
  statFrom : Nat
  /-- Channels flagged DEGENERATE in the last interval (R68). -/
  degen   : List Nat
  /-- Each channel's statistics over the intervals that the range policy has not used yet, and how many (R282). -/
  ranges  : SMap StatAcc
  rangeN  : Nat
  /-- The statistics interval that runs began before the span of R282. -/
  rangeSkip : Bool
  /-- Codes delivered to the ring by unshed input blocks since the last debt update; D, and D at the last boundary, in
  units of 1 byte ÷ (codes of a block × cycles of a block's rounds) (R100, R101). -/
  arrived : Nat
  debt    : Nat
  debtOld : Nat
  /-- Groups shed, by block (R102), and blocks overrun (R103). -/
  shed    : SMap (BitVec 64)
  overrun : List Nat
  /-- The array edge at which each block became present, of blocks that the array has not begun (R208, R209). -/
  present : SMap Nat
  /-- When each block was completed, by Meridian's stamp (R210). -/
  stamps  : SMap Nat
  /-- The newest sample index delivered. -/
  newest  : Option Nat
  /-- The last block that the front end takes after an error stopped the context (R396). -/
  lastBlock : Option Nat
  /-- The time of the first index of a replayed block (R337), and that index. -/
  replay  : Option (DWord × Nat)
  /-- The newest replayed block (R337). -/
  replayed : Option Nat
  deriving DecidableEq, Repr

def Ingress.none : Ingress :=
  { lanes := [], links := [], raw := [], taps := [], next := [], recs := [], recArm := 0, recFrom := .none, recHist := [], first := 0,
    blocks := [], quant := [], s12 := [], eb := [], ebNext := (0, 0), missed := .none, resume := .none, missed2 := .none,
    feed := [], fed := (0, 0), taken := (0, 0), stats := [], statFrom := 0, degen := [], ranges := [], rangeN := 0, rangeSkip := false, arrived := 0, debt := 0, debtOld := 0,
    shed := [], overrun := [], present := [], stamps := [], newest := .none, lastBlock := .none, replay := .none, replayed := .none }

/-- A sample that waits at a primitive unit or a mask. -/
structure TSample where
  index : Nat
  code  : Int
  bad   : Bool
  deriving DecidableEq, Repr

/-- A primitive unit beside its registers (R216 to R222).  Times are in fine units. -/
structure Prim where
  /-- The block at which a unit enabled during a context begins. -/
  begin'   : Option Nat
  /-- The last samples, the newest first. -/
  prev     : List TSample
  disarmed : Bool
  /-- Inactive samples since the unit was last active. -/
  idle     : Nat
  active   : Bool
  /-- The acquisition time (fine) since which the unit has been active, and of the newest sample evaluated. -/
  since    : Int
  /-- Length of the TOT run and the time of its start. -/
  run      : Nat
  runStart : Int
  watermark : Option Int
  deriving DecidableEq, Repr

def Prim.none : Prim :=
  { begin' := .none, prev := [], disarmed := false, idle := 0, active := false, since := 0, run := 0, runStart := 0,
    watermark := .none }

/-- A contour mask beside its registers (R223 to R225): the running instance's first index, point and anchor time. -/
structure Mask where
  inst      : Option (Nat × Nat × Int)
  watermark : Option Int
  deriving DecidableEq, Repr

def Mask.none : Mask := { inst := .none, watermark := .none }

/-- An external input beside its registers (R220 to R222, R226): level, arming, when it last went active or inactive
(timeline units), and the delay line in service. -/
structure ExtIn where
  level    : Bool
  disarmed : Bool
  since    : Int
  line     : Bool
  deriving DecidableEq, Repr

def ExtIn.none : ExtIn := { level := false, disarmed := false, since := 0, line := false }

/-- A verdict stream at the combiner (R230): the watermark's index. -/
structure VStream where
  markIdx : Nat
  mark    : Option Int
  seq     : Nat
  deriving DecidableEq, Repr

def VStream.none : VStream := { markIdx := 0, mark := .none, seq := 0 }

/-- An event on a slot of a class: its event time (fine), the line-clock cycle it is presented in (a fast class), and
what a notice carries of it. -/
structure SlotEvent where
  slot    : Nat
  time    : Int
  cycle   : Nat
  payload : Option (BitVec 128)
  bad     : Bool
  coarse  : Bool
  deriving DecidableEq, Repr

/-- A trigger class beside its registers (R232 to R237, R242). -/
structure TClass where
  /-- The block at which a class enabled during a context begins. -/
  begin'   : Option Nat
  /-- Events presented or buffered, not yet evaluated. -/
  waiting  : List SlotEvent
  /-- Events whose slots may still be 1. -/
  recent   : List SlotEvent
  lastFire : Option Int
  firings  : Nat
  /-- The ends of the dead time charged so far: of all causes, and of each (R242). -/
  endAll   : Option Int
  endK     : SMap (Option Int)
  deriving DecidableEq, Repr

def TClass.none : TClass :=
  { begin' := .none, waiting := [], recent := [], lastFire := .none, firings := 0, endAll := .none, endK := [] }

/-- A trigger output (R238): its pulse is on, the line-clock cycle at which it ends, and the fine times (trigger time plus
OFFSET) of the pending pulses. -/
structure TOut where
  high    : Bool
  stop    : Nat
  pulses  : List Int
  deriving DecidableEq, Repr

def TOut.none : TOut := { high := false, stop := 0, pulses := [] }

/-- The trigger block and the combiner beside their registers. -/
structure Trigger where
  prims   : SMap Prim
  primQ   : SMap (List TSample)
  masks   : SMap Mask
  maskQ   : SMap (List TSample)
  /-- The point memory. -/
  points  : SMap Word
  inputs  : SMap ExtIn
  /-- TDC tap widths in half-fine units, of line 2 × input + line (R227). -/
  widths  : SMap (List Nat)
  /-- Lines with calibrated widths (R228). -/
  calib   : List Nat
  /-- The TDC has an anchor (R226). -/
  anchored : Bool
  streams : SMap VStream
  /-- Asserting verdicts by stream × 2^48 + block (R281). -/
  asserts : SMap Nat
  /-- The block that the armed threshold switch names, the block of the last switch, and the newest verdict's
  SAMPLE_INDEX (R231). -/
  thrArm  : Nat
  thrFrom : Option Nat
  newestV : Option Nat
  classes : SMap TClass
  outs    : SMap TOut
  /-- Accepted firings of all classes since context start. -/
  seq     : Nat
  deriving DecidableEq, Repr

def Trigger.none : Trigger :=
  { prims := [], primQ := [], masks := [], maskQ := [], points := [], inputs := [], widths := [], calib := [], anchored := false, streams := [], asserts := [],
    thrArm := 0, thrFrom := .none, newestV := .none, classes := [], outs := [], seq := 0 }

/-- A capture event, open or queued (R245, R246, R251). -/
structure CapEvent where
  cls      : Nat
  first    : Nat
  last     : Nat
  number   : Nat
  truncPre : Bool
  truncPost : Bool
  merged   : Bool
  slow     : Bool
  firings  : Nat
  time     : Int
  decided  : DWord
  groups   : BitVec 64
  payload  : BitVec 128
  /-- 0: to be copied; 1: refused (R247, R248); 2: withheld (R249). -/
  fate     : Nat
  deriving DecidableEq, Repr

/-- One channel's accumulation of a block for the averaging engine (R253). -/
structure AvgAcc where
  sum   : Int
  sq    : Nat
  count : Nat
  bad   : Nat
  deriving DecidableEq, Repr

def AvgAcc.none : AvgAcc := { sum := 0, sq := 0, count := 0, bad := 0 }

/-- The capture controller and the survey engines beside their registers. -/
structure Acq where
  /-- The newest block completely written to the ring (R243): none before the first. -/
  wblock  : Option Nat
  /-- The open event of each class. -/
  opened  : SMap CapEvent
  queue   : List CapEvent
  /-- The head event is being copied (R247). -/
  copying : Bool
  /-- The next block that its copy reads, and the ring lines that it has read (R247). -/
  copyNext : Nat
  copied  : SMap (BitVec 2048)
  /-- The next EVENT_NUMBER. -/
  next    : Nat
  /-- Averages of each block: block × 4,096 + channel; the interval's first block and number. -/
  avg     : SMap AvgAcc
  avgFrom : Nat
  avgN    : Nat
  /-- Samples of each entry of ACQ_PRIV that no record holds yet; the interval's first index and number. -/
  red     : SMap (List (Nat × Sample))
  redFrom : Nat
  redN    : Nat
  /-- The capture controller is stopped (R399). -/
  stopped : Bool
  /-- Ring lines that a capture read found uncorrectable (R398). -/
  lostLines : List Nat
  deriving DecidableEq, Repr

def Acq.none : Acq :=
  { wblock := .none, opened := [], queue := [], copying := false, copyNext := 0, copied := [], next := 0, avg := [], avgFrom := 0, avgN := 0, red := [],
    redFrom := 0, redN := 0, stopped := false, lostLines := [] }

/-- A subscriber (R343, R344): 0 free, 1 joined, 2 leaving; its descriptor; its join serial; records queued, oldest
first; records written; the ring whose SUB_LEAVE waits for it. -/
structure Sub where
  state   : Nat
  ring    : DWord
  far     : DWord
  locCnt  : Nat
  log2    : Nat
  vector  : Nat
  kinds   : Nat
  classes : DWord
  streams : BitVec 256
  serial  : Nat
  queue   : List (List Byte)
  written : Nat
  leaver  : Option Nat
  deriving DecidableEq, Repr

def Sub.free : Sub :=
  { state := 0, ring := 0, far := 0, locCnt := 0, log2 := 0, vector := 0xFF, kinds := 0, classes := 0, streams := 0,
    serial := 0, queue := [], written := 0, leaver := .none }

/-- A notice in a launch queue (R315): its scheduled time S, its SEQ, its bytes. -/
structure Launch where
  sched  : Int
  seq    : Nat
  notice : List Byte
  coarse : Bool
  deriving DecidableEq, Repr

/-- A record of the calibration journal (R405, R406). -/
structure CalRec where
  seq     : Nat
  typ     : Nat
  key     : Nat
  factory : Bool
  payload : List Byte
  deriving DecidableEq, Repr

/-- A bank of the calibration store in flash (R406): a valid header, its GENERATION, its journal, and whether a torn
record or stray bytes follow the journal's end. -/
structure CalBank where
  valid : Bool
  gen   : Nat
  recs  : List CalRec
  torn  : Bool
  deriving DecidableEq, Repr

/-- The calibration store (R406, R407): the banks, the bank in use, the next SEQ. -/
structure CalStore where
  bank0 : CalBank
  bank1 : CalBank
  inUse : Option Bool
  seq   : Nat
  deriving DecidableEq, Repr

/-- Erased flash. -/
def CalStore.none : CalStore :=
  { bank0 := { valid := false, gen := 0, recs := [], torn := false },
    bank1 := { valid := false, gen := 0, recs := [], torn := false }, inUse := .none, seq := 0 }

/-- The journal of the bank in use. -/
def CalStore.journal (c : CalStore) : List CalRec :=
  match c.inUse with
  | some false => c.bank0.recs
  | some true => c.bank1.recs
  | .none => []

/-- The payload in force for a KEY of a TYPE (R407): the last record read. -/
def CalStore.inForce (c : CalStore) (typ key : Nat) : Option (List Byte) :=
  (c.journal.filter (fun r => decide (r.typ = typ) && decide (r.key = key))).getLast?.map CalRec.payload

end Sys2Proof.Machine
end

