-- ==== Sys2Proof/Machine/Regs.lean ====
section
/-!
DEFINITION. The register map of BAR0 (R439 to R442): the offset of every register under its name in the spec,
the bits of each that software writes (RW, or P) and that it clears by writing 1 (W1C), and what each word
reads as after a COLD reset.  The registers behind a selector (TRG_PRIM_SEL, TRG_MASK_SEL, TRG_CLASS_SEL,
HQ_SUB_SEL, HLT_MON_SEL) live in banks numbered from 0x0200_0000, above BAR0's 32 MiB.
-/

namespace Sys2Proof.Machine

/-- One row of the register index: `count` registers `stride` apart, one word or a pair. -/
structure RegRow where
  base   : Nat
  stride : Nat
  count  : Nat
  pair   : Bool
  rw     : DWord
  w1c    : DWord
  priv   : Bool
  deriving DecidableEq, Repr

namespace Reg

/-- Offset of GLB_DEVICE_ID (chapter 01). -/
def GLB_DEVICE_ID : Nat := 0x0000_0000
/-- Offset of GLB_TOPOLOGY (chapter 01). -/
def GLB_TOPOLOGY : Nat := 0x0000_0004
/-- Offset of GLB_CLK_STATUS (chapter 01). -/
def GLB_CLK_STATUS : Nat := 0x0000_0008
/-- Offset of GLB_SYSTEM_INDEX (chapter 10). -/
def GLB_SYSTEM_INDEX : Nat := 0x0000_0010
/-- Offset of GLB_RESET_CTL (chapter 13). -/
def GLB_RESET_CTL : Nat := 0x0000_0020
/-- Offset of GLB_COLD_RESET (chapter 13). -/
def GLB_COLD_RESET : Nat := 0x0000_0024
/-- Offset of GLB_RESET_STATUS (chapter 13). -/
def GLB_RESET_STATUS : Nat := 0x0000_0028
/-- Offset of GLB_BOOT_STATUS (chapter 13). -/
def GLB_BOOT_STATUS : Nat := 0x0000_002C
/-- Offset of GLB_BOOT_TIME (chapter 13). -/
def GLB_BOOT_TIME : Nat := 0x0000_0030
/-- Offset of GLB_FW_STATUS (chapter 13). -/
def GLB_FW_STATUS : Nat := 0x0000_0034
/-- Offset of GLB_FW_SVN (chapter 13). -/
def GLB_FW_SVN : Nat := 0x0000_0038
/-- Offset of GLB_POWER_STATUS (chapter 13). -/
def GLB_POWER_STATUS : Nat := 0x0000_003C
/-- Offset of ERR_STATUS (chapter 12). -/
def ERR_STATUS : Nat := 0x0001_0000
/-- Offset of ERR_CFG (chapter 12). -/
def ERR_CFG : Nat := 0x0001_0004
/-- Offset of ERR_LOG_CTL (chapter 12). -/
def ERR_LOG_CTL : Nat := 0x0001_0008
/-- Offset of ERR_LOG_OVERFLOW (chapter 12). -/
def ERR_LOG_OVERFLOW : Nat := 0x0001_0010
/-- Offset of ERR_CE_TOTAL (chapter 12). -/
def ERR_CE_TOTAL : Nat := 0x0001_0014
/-- Offset of ERR_UE_TOTAL (chapter 12). -/
def ERR_UE_TOTAL : Nat := 0x0001_0018
/-- Offset of ERR_LOG_ENTRY (chapter 12). -/
def ERR_LOG_ENTRY (n : Nat) : Nat := 0x0001_0020 + 4 * n
/-- Offset of ERR_BRIDGE_RETRY (chapter 12). -/
def ERR_BRIDGE_RETRY (n : Nat) : Nat := 0x0001_0040 + 4 * n
/-- Offset of ERR_ACCESS (chapter 10). -/
def ERR_ACCESS : Nat := 0x0001_0F00
/-- Offset of ERR_ACCESS_INFO (chapter 10). -/
def ERR_ACCESS_INFO : Nat := 0x0001_0F04
/-- Offset of ING_LANE_CFG (chapter 03). -/
def ING_LANE_CFG (n : Nat) : Nat := 0x0002_0000 + 4 * n
/-- Offset of ING_LANE_STATUS (chapter 03). -/
def ING_LANE_STATUS (n : Nat) : Nat := 0x0002_0100 + 4 * n
/-- Offset of ING_JESD_LINK (chapter 03). -/
def ING_JESD_LINK (n : Nat) : Nat := 0x0002_0200 + 4 * n
/-- Offset of ING_JESD_RBD (chapter 03). -/
def ING_JESD_RBD (n : Nat) : Nat := 0x0002_0240 + 4 * n
/-- Offset of ING_JESD_INDEX (chapter 03). -/
def ING_JESD_INDEX (n : Nat) : Nat := 0x0002_0280 + 8 * n
/-- Offset of ING_SAMPLE_PERIOD (chapter 03). -/
def ING_SAMPLE_PERIOD : Nat := 0x0002_0300
/-- Offset of ING_BLOCK_CFG (chapter 03). -/
def ING_BLOCK_CFG : Nat := 0x0002_0308
/-- Offset of ING_LANE_TDELAY (chapter 03). -/
def ING_LANE_TDELAY (n : Nat) : Nat := 0x0002_0400 + 4 * n
/-- Offset of ING_SHED_MAP (chapter 03). -/
def ING_SHED_MAP (n : Nat) : Nat := 0x0002_0500 + 4 * n
/-- Offset of ING_DEBT_CFG (chapter 03). -/
def ING_DEBT_CFG : Nat := 0x0002_0540
/-- Offset of ING_DEBT (chapter 03). -/
def ING_DEBT : Nat := 0x0002_0548
/-- Offset of ING_BACKLOG (chapter 03). -/
def ING_BACKLOG : Nat := 0x0002_0550
/-- Offset of ING_SHED_STATUS (chapter 03). -/
def ING_SHED_STATUS : Nat := 0x0002_0558
/-- Offset of ING_SHED_COUNT (chapter 03). -/
def ING_SHED_COUNT : Nat := 0x0002_0560
/-- Offset of ING_OVERRUN_COUNT (chapter 03). -/
def ING_OVERRUN_COUNT : Nat := 0x0002_0568
/-- Offset of ING_EB_STATUS (chapter 03). -/
def ING_EB_STATUS : Nat := 0x0002_0570
/-- Offset of ING_EB_OVERFLOWS (chapter 03). -/
def ING_EB_OVERFLOWS : Nat := 0x0002_0574
/-- Offset of ING_EB_MODE (chapter 03). -/
def ING_EB_MODE : Nat := 0x0002_0578
/-- Offset of ING_REC_SWITCH (chapter 03). -/
def ING_REC_SWITCH : Nat := 0x0002_0580
/-- Offset of ING_REC_STATUS (chapter 03). -/
def ING_REC_STATUS : Nat := 0x0002_0588
/-- Offset of ING_REC_ADDR (chapter 03). -/
def ING_REC_ADDR : Nat := 0x0002_0590
/-- Offset of ING_REC_DATA (chapter 03). -/
def ING_REC_DATA : Nat := 0x0002_0594
/-- Offset of ING_STAT_CFG (chapter 03). -/
def ING_STAT_CFG : Nat := 0x0002_05A0
/-- Offset of ING_STAT_SEQ (chapter 03). -/
def ING_STAT_SEQ : Nat := 0x0002_05A4
/-- Offset of ING_FE_EVT (chapter 03). -/
def ING_FE_EVT (n : Nat) : Nat := 0x0002_05B0 + 4 * n
/-- Offset of ING_FE_FLAGS (chapter 03). -/
def ING_FE_FLAGS : Nat := 0x0002_05C4
/-- Offset of ING_CHMAP (chapter 03). -/
def ING_CHMAP (n : Nat) : Nat := 0x0002_4000 + 4 * n
/-- Offset of TRG_STATUS (chapter 07). -/
def TRG_STATUS : Nat := 0x0004_0000
/-- Offset of TRG_STUCK_TIME (chapter 07). -/
def TRG_STUCK_TIME : Nat := 0x0004_0004
/-- Offset of TRG_THR_SWITCH (chapter 07). -/
def TRG_THR_SWITCH : Nat := 0x0004_0080
/-- Offset of TRG_THR_STATUS (chapter 07). -/
def TRG_THR_STATUS : Nat := 0x0004_0088
/-- Offset of TRG_VS_ORDER (chapter 07). -/
def TRG_VS_ORDER : Nat := 0x0004_008C
/-- Offset of TRG_IN_CFG (chapter 07). -/
def TRG_IN_CFG (n : Nat) : Nat := 0x0004_0100 + 4 * n
/-- Offset of TRG_IN_STATUS (chapter 07). -/
def TRG_IN_STATUS (n : Nat) : Nat := 0x0004_0140 + 4 * n
/-- Offset of TRG_IN_FIRED (chapter 07). -/
def TRG_IN_FIRED (n : Nat) : Nat := 0x0004_0180 + 4 * n
/-- Offset of TRG_IN_MERGED (chapter 07). -/
def TRG_IN_MERGED (n : Nat) : Nat := 0x0004_01C0 + 4 * n
/-- Offset of TRG_TDC_CFG (chapter 07). -/
def TRG_TDC_CFG : Nat := 0x0004_0200
/-- Offset of TRG_TDC_PERIOD (chapter 07). -/
def TRG_TDC_PERIOD : Nat := 0x0004_0208
/-- Offset of TRG_TDC_ANCHOR (chapter 07). -/
def TRG_TDC_ANCHOR : Nat := 0x0004_0210
/-- Offset of TRG_TDC_RANGE (chapter 07). -/
def TRG_TDC_RANGE : Nat := 0x0004_0218
/-- Offset of TRG_PRIM_SEL (chapter 07). -/
def TRG_PRIM_SEL : Nat := 0x0004_0400
/-- Offset of TRG_PRIM_CFG (chapter 07). -/
def TRG_PRIM_CFG : Nat := 0x0004_0404
/-- Offset of TRG_PRIM_THR (chapter 07). -/
def TRG_PRIM_THR : Nat := 0x0004_0408
/-- Offset of TRG_PRIM_PARAM (chapter 07). -/
def TRG_PRIM_PARAM : Nat := 0x0004_040C
/-- Offset of TRG_PRIM_HOLDOFF (chapter 07). -/
def TRG_PRIM_HOLDOFF : Nat := 0x0004_0410
/-- Offset of TRG_PRIM_STATUS (chapter 07). -/
def TRG_PRIM_STATUS : Nat := 0x0004_0414
/-- Offset of TRG_PRIM_FIRED (chapter 07). -/
def TRG_PRIM_FIRED : Nat := 0x0004_0418
/-- Offset of TRG_PRIM_MERGED (chapter 07). -/
def TRG_PRIM_MERGED : Nat := 0x0004_041C
/-- Offset of TRG_MASK_SEL (chapter 07). -/
def TRG_MASK_SEL : Nat := 0x0004_0500
/-- Offset of TRG_MASK_CFG (chapter 07). -/
def TRG_MASK_CFG : Nat := 0x0004_0504
/-- Offset of TRG_MASK_POINTS (chapter 07). -/
def TRG_MASK_POINTS : Nat := 0x0004_0508
/-- Offset of TRG_MASK_STATUS (chapter 07). -/
def TRG_MASK_STATUS : Nat := 0x0004_050C
/-- Offset of TRG_MASK_VIOL (chapter 07). -/
def TRG_MASK_VIOL : Nat := 0x0004_0510
/-- Offset of TRG_MASK_PASS (chapter 07). -/
def TRG_MASK_PASS : Nat := 0x0004_0514
/-- Offset of TRG_MASK_ABORT (chapter 07). -/
def TRG_MASK_ABORT : Nat := 0x0004_0518
/-- Offset of TRG_MASK_IGNORED (chapter 07). -/
def TRG_MASK_IGNORED : Nat := 0x0004_051C
/-- Offset of TRG_MASK_PADDR (chapter 07). -/
def TRG_MASK_PADDR : Nat := 0x0004_0520
/-- Offset of TRG_MASK_PDATA (chapter 07). -/
def TRG_MASK_PDATA : Nat := 0x0004_0524
/-- Offset of TRG_VS_CFG (chapter 07). -/
def TRG_VS_CFG (n : Nat) : Nat := 0x0004_0800 + 4 * n
/-- Offset of TRG_VS_THR (chapter 07). -/
def TRG_VS_THR (n : Nat) : Nat := 0x0004_0C00 + 4 * n
/-- Offset of TRG_VS_ACT (chapter 07). -/
def TRG_VS_ACT (n : Nat) : Nat := 0x0004_1000 + 4 * n
/-- Offset of TRG_CLASS_SEL (chapter 07). -/
def TRG_CLASS_SEL : Nat := 0x0004_2000
/-- Offset of TRG_CLASS_CFG (chapter 07). -/
def TRG_CLASS_CFG : Nat := 0x0004_2004
/-- Offset of TRG_CLASS_WIN (chapter 07). -/
def TRG_CLASS_WIN : Nat := 0x0004_2008
/-- Offset of TRG_CLASS_PRESCALE (chapter 07). -/
def TRG_CLASS_PRESCALE : Nat := 0x0004_200C
/-- Offset of TRG_CLASS_SLOT (chapter 07). -/
def TRG_CLASS_SLOT (n : Nat) : Nat := 0x0004_2010 + 4 * n
/-- Offset of TRG_CLASS_LUT (chapter 07). -/
def TRG_CLASS_LUT (n : Nat) : Nat := 0x0004_2030 + 4 * n
/-- Offset of TRG_CLASS_FIRED (chapter 07). -/
def TRG_CLASS_FIRED : Nat := 0x0004_2050
/-- Offset of TRG_CLASS_ACCEPTED (chapter 07). -/
def TRG_CLASS_ACCEPTED : Nat := 0x0004_2054
/-- Offset of TRG_CLASS_DEAD_TOTAL (chapter 07). -/
def TRG_CLASS_DEAD_TOTAL : Nat := 0x0004_2058
/-- Offset of TRG_CLASS_DEAD (chapter 07). -/
def TRG_CLASS_DEAD (n : Nat) : Nat := 0x0004_2060 + 8 * (n - 1)
/-- Offset of TRG_CLASS_LAUNCH (chapter 07). -/
def TRG_CLASS_LAUNCH : Nat := 0x0004_2080
/-- Offset of TRG_CLASS_MERGED (chapter 07). -/
def TRG_CLASS_MERGED : Nat := 0x0004_2084
/-- Offset of TRG_OUT_CFG (chapter 07). -/
def TRG_OUT_CFG (n : Nat) : Nat := 0x0004_3000 + 4 * n
/-- Offset of TRG_OUT_MASK (chapter 07). -/
def TRG_OUT_MASK (n : Nat) : Nat := 0x0004_3040 + 8 * n
/-- Offset of TRG_OUT_OFFSET (chapter 07). -/
def TRG_OUT_OFFSET (n : Nat) : Nat := 0x0004_30C0 + 4 * n
/-- Offset of TRG_OUT_STAT (chapter 07). -/
def TRG_OUT_STAT (n : Nat) : Nat := 0x0004_3100 + 4 * n
/-- Offset of ACQ_STATUS (chapter 07). -/
def ACQ_STATUS : Nat := 0x0005_0000
/-- Offset of ACQ_RING_CFG (chapter 07). -/
def ACQ_RING_CFG : Nat := 0x0005_0004
/-- Offset of ACQ_RING_SLOTS (chapter 07). -/
def ACQ_RING_SLOTS : Nat := 0x0005_0008
/-- Offset of ACQ_RING_WBLOCK (chapter 07). -/
def ACQ_RING_WBLOCK : Nat := 0x0005_0010
/-- Offset of ACQ_REF_CHANNEL (chapter 07). -/
def ACQ_REF_CHANNEL : Nat := 0x0005_0018
/-- Offset of ACQ_GUARD (chapter 07). -/
def ACQ_GUARD : Nat := 0x0005_001C
/-- Offset of ACQ_MAX_WINDOW (chapter 07). -/
def ACQ_MAX_WINDOW : Nat := 0x0005_0020
/-- Offset of ACQ_STORE_BASE (chapter 07). -/
def ACQ_STORE_BASE : Nat := 0x0005_0030
/-- Offset of ACQ_STORE_SIZE (chapter 07). -/
def ACQ_STORE_SIZE : Nat := 0x0005_0038
/-- Offset of ACQ_STORE_WPTR (chapter 07). -/
def ACQ_STORE_WPTR : Nat := 0x0005_0040
/-- Offset of ACQ_STORE_RPTR (chapter 07). -/
def ACQ_STORE_RPTR : Nat := 0x0005_0048
/-- Offset of ACQ_EVENTS (chapter 07). -/
def ACQ_EVENTS : Nat := 0x0005_0050
/-- Offset of ACQ_REFUSED (chapter 07). -/
def ACQ_REFUSED : Nat := 0x0005_0058
/-- Offset of ACQ_QUEUE (chapter 07). -/
def ACQ_QUEUE : Nat := 0x0005_0060
/-- Offset of ACQ_MERGED (chapter 07). -/
def ACQ_MERGED : Nat := 0x0005_0064
/-- Offset of ACQ_WITHHELD (chapter 07). -/
def ACQ_WITHHELD : Nat := 0x0005_0068
/-- Offset of ACQ_QFULL (chapter 07). -/
def ACQ_QFULL : Nat := 0x0005_006C
/-- Offset of ACQ_BACKLOG (chapter 07). -/
def ACQ_BACKLOG : Nat := 0x0005_0070
/-- Offset of ACQ_CAP_PRE (chapter 07). -/
def ACQ_CAP_PRE (n : Nat) : Nat := 0x0005_0100 + 4 * n
/-- Offset of ACQ_CAP_POST (chapter 07). -/
def ACQ_CAP_POST (n : Nat) : Nat := 0x0005_0200 + 4 * n
/-- Offset of ACQ_CAP_GROUPS (chapter 07). -/
def ACQ_CAP_GROUPS (n : Nat) : Nat := 0x0005_0300 + 8 * n
/-- Offset of ACQ_AVG_CFG (chapter 07). -/
def ACQ_AVG_CFG : Nat := 0x0005_0800
/-- Offset of ACQ_RED_CFG (chapter 07). -/
def ACQ_RED_CFG : Nat := 0x0005_0804
/-- Offset of ACQ_SURVEY_BASE (chapter 07). -/
def ACQ_SURVEY_BASE : Nat := 0x0005_0810
/-- Offset of ACQ_SURVEY_SIZE (chapter 07). -/
def ACQ_SURVEY_SIZE : Nat := 0x0005_0818
/-- Offset of ACQ_SURVEY_WPTR (chapter 07). -/
def ACQ_SURVEY_WPTR : Nat := 0x0005_0820
/-- Offset of ACQ_SURVEY_RPTR (chapter 07). -/
def ACQ_SURVEY_RPTR : Nat := 0x0005_0828
/-- Offset of ACQ_SURVEY_DROPS (chapter 07). -/
def ACQ_SURVEY_DROPS : Nat := 0x0005_0830
/-- Offset of ACQ_PRIV (chapter 07). -/
def ACQ_PRIV (n : Nat) : Nat := 0x0005_0C00 + 4 * n
/-- Offset of TIM_STATUS (chapter 09). -/
def TIM_STATUS : Nat := 0x0006_0000
/-- Offset of TIM_NOW (chapter 09). -/
def TIM_NOW : Nat := 0x0006_0008
/-- Offset of TIM_ERA (chapter 09). -/
def TIM_ERA : Nat := 0x0006_0010
/-- Offset of TIM_SET_ERA (chapter 09). -/
def TIM_SET_ERA : Nat := 0x0006_0014
/-- Offset of TIM_SET (chapter 09). -/
def TIM_SET : Nat := 0x0006_0018
/-- Offset of TIM_SET_CTL (chapter 09). -/
def TIM_SET_CTL : Nat := 0x0006_0020
/-- Offset of TIM_RATE (chapter 09). -/
def TIM_RATE : Nat := 0x0006_0024
/-- Offset of TIM_OFFSET (chapter 09). -/
def TIM_OFFSET : Nat := 0x0006_0028
/-- Offset of TIM_MPD (chapter 09). -/
def TIM_MPD : Nat := 0x0006_002C
/-- Offset of TIM_SERVO_CFG (chapter 09). -/
def TIM_SERVO_CFG : Nat := 0x0006_0030
/-- Offset of TIM_GAIN_ACQ (chapter 09). -/
def TIM_GAIN_ACQ : Nat := 0x0006_0034
/-- Offset of TIM_GAIN_LOCK (chapter 09). -/
def TIM_GAIN_LOCK : Nat := 0x0006_0038
/-- Offset of TIM_LOCK_CFG (chapter 09). -/
def TIM_LOCK_CFG : Nat := 0x0006_003C
/-- Offset of TIM_SLEW (chapter 09). -/
def TIM_SLEW : Nat := 0x0006_0040
/-- Offset of TIM_HOLD_CFG (chapter 09). -/
def TIM_HOLD_CFG : Nat := 0x0006_0044
/-- Offset of TIM_STEP_THR (chapter 09). -/
def TIM_STEP_THR : Nat := 0x0006_0048
/-- Offset of TIM_OUTLIERS (chapter 09). -/
def TIM_OUTLIERS : Nat := 0x0006_004C
/-- Offset of TIM_PTP_CFG (chapter 09). -/
def TIM_PTP_CFG : Nat := 0x0006_0050
/-- Offset of TIM_PORT_CFG (chapter 09). -/
def TIM_PORT_CFG (n : Nat) : Nat := 0x0006_0060 + 4 * n
/-- Offset of TIM_PORT_MAC (chapter 09). -/
def TIM_PORT_MAC (n : Nat) : Nat := 0x0006_0068 + 8 * n
/-- Offset of TIM_PORT_ASYM (chapter 09). -/
def TIM_PORT_ASYM (n : Nat) : Nat := 0x0006_0078 + 4 * n
/-- Offset of TIM_PORT_ILAT (chapter 09). -/
def TIM_PORT_ILAT (n : Nat) : Nat := 0x0006_0080 + 4 * n
/-- Offset of TIM_PORT_ELAT (chapter 09). -/
def TIM_PORT_ELAT (n : Nat) : Nat := 0x0006_0088 + 4 * n
/-- Offset of TIM_PORT_LINK (chapter 09). -/
def TIM_PORT_LINK (n : Nat) : Nat := 0x0006_0090 + 4 * n
/-- Offset of TIM_PORT_ERR (chapter 09). -/
def TIM_PORT_ERR (n : Nat) : Nat := 0x0006_0098 + 4 * n
/-- Offset of TIM_PPS_CFG (chapter 09). -/
def TIM_PPS_CFG : Nat := 0x0006_00A0
/-- Offset of TIM_PPS_IN_DELAY (chapter 09). -/
def TIM_PPS_IN_DELAY : Nat := 0x0006_00A4
/-- Offset of TIM_PPS_OUT_DELAY (chapter 09). -/
def TIM_PPS_OUT_DELAY : Nat := 0x0006_00A8
/-- Offset of TIM_PPS_IN_STAMP (chapter 09). -/
def TIM_PPS_IN_STAMP : Nat := 0x0006_00B0
/-- Offset of TIM_10M_STAT (chapter 09). -/
def TIM_10M_STAT : Nat := 0x0006_00B8
/-- Offset of TIM_LAUNCH_DST (chapter 09). -/
def TIM_LAUNCH_DST (n : Nat) : Nat := 0x0006_00C0 + 8 * n
/-- Offset of TIM_LAUNCH_CFG (chapter 09). -/
def TIM_LAUNCH_CFG : Nat := 0x0006_00D0
/-- Offset of TIM_LAUNCH_STAT (chapter 09). -/
def TIM_LAUNCH_STAT (n : Nat) : Nat := 0x0006_00E0 + 4 * n
/-- Offset of TIM_LAUNCH_SENT (chapter 09). -/
def TIM_LAUNCH_SENT (n : Nat) : Nat := 0x0006_0100 + 32 * n
/-- Offset of TIM_LAUNCH_LATE (chapter 09). -/
def TIM_LAUNCH_LATE (n : Nat) : Nat := 0x0006_0104 + 32 * n
/-- Offset of TIM_LAUNCH_DROPPED (chapter 09). -/
def TIM_LAUNCH_DROPPED (n : Nat) : Nat := 0x0006_0108 + 32 * n
/-- Offset of TIM_LAUNCH_QFULL (chapter 09). -/
def TIM_LAUNCH_QFULL (n : Nat) : Nat := 0x0006_010C + 32 * n
/-- Offset of TIM_LAUNCH_CANCELLED (chapter 09). -/
def TIM_LAUNCH_CANCELLED (n : Nat) : Nat := 0x0006_0110 + 32 * n
/-- Offset of ARY_STATUS (chapter 04). -/
def ARY_STATUS : Nat := 0x0008_0000
/-- Offset of ARY_ROUND_CFG (chapter 04). -/
def ARY_ROUND_CFG : Nat := 0x0008_0004
/-- Offset of ARY_ROUND (chapter 04). -/
def ARY_ROUND : Nat := 0x0008_0008
/-- Offset of ARY_FLIP (chapter 04). -/
def ARY_FLIP : Nat := 0x0008_0010
/-- Offset of ARY_FLIP_CFG (chapter 04). -/
def ARY_FLIP_CFG : Nat := 0x0008_0018
/-- Offset of ARY_FLIP_STATUS (chapter 04). -/
def ARY_FLIP_STATUS : Nat := 0x0008_001C
/-- Offset of ARY_REPAIR (chapter 04). -/
def ARY_REPAIR (n : Nat) : Nat := 0x0008_0040 + 4 * n
/-- Offset of ARY_REPAIR_CMD (chapter 04). -/
def ARY_REPAIR_CMD : Nat := 0x0008_0080
/-- Offset of ARY_REPAIR_STATUS (chapter 04). -/
def ARY_REPAIR_STATUS : Nat := 0x0008_0084
/-- Offset of ARY_BIST_STATUS (chapter 04). -/
def ARY_BIST_STATUS : Nat := 0x0008_0088
/-- Offset of ARY_FAULT (chapter 04). -/
def ARY_FAULT : Nat := 0x0008_0090
/-- Offset of ARY_FAULT_COUNT (chapter 04). -/
def ARY_FAULT_COUNT : Nat := 0x0008_0094
/-- Offset of ARY_LINKCHK_COUNT (chapter 04). -/
def ARY_LINKCHK_COUNT : Nat := 0x0008_0098
/-- Offset of ARY_LOAD_STATUS (chapter 06). -/
def ARY_LOAD_STATUS : Nat := 0x0008_0100
/-- Offset of ARY_IMAGE_STAMP (chapter 06). -/
def ARY_IMAGE_STAMP : Nat := 0x0008_0104
/-- Offset of ARY_RATED (chapter 06). -/
def ARY_RATED : Nat := 0x0008_0108
/-- Offset of ARY_LEQ0 (chapter 06). -/
def ARY_LEQ0 : Nat := 0x0008_010C
/-- Offset of ARY_LEQ1 (chapter 06). -/
def ARY_LEQ1 : Nat := 0x0008_0110
/-- Offset of ARY_HOLD_LIMIT (chapter 06). -/
def ARY_HOLD_LIMIT : Nat := 0x0008_0120
/-- Offset of ARY_HOLD_STATUS (chapter 06). -/
def ARY_HOLD_STATUS : Nat := 0x0008_0124
/-- Offset of ARY_HOLD_COUNT (chapter 06). -/
def ARY_HOLD_COUNT (n : Nat) : Nat := 0x0008_0134 + 4 * (n - 1)
/-- Offset of ARY_HOLD_CYCLES (chapter 06). -/
def ARY_HOLD_CYCLES (n : Nat) : Nat := 0x0008_0158 + 8 * (n - 1)
/-- Offset of ARY_HOLD_MAX (chapter 06). -/
def ARY_HOLD_MAX : Nat := 0x0008_0190
/-- Offset of ARY_CANCEL_CYCLES (chapter 06). -/
def ARY_CANCEL_CYCLES : Nat := 0x0008_0194
/-- Offset of ARY_LAG (chapter 06). -/
def ARY_LAG : Nat := 0x0008_0198
/-- Offset of ARY_LAG_PEAK (chapter 06). -/
def ARY_LAG_PEAK : Nat := 0x0008_019C
/-- Offset of ARY_IDLE_CYCLES (chapter 06). -/
def ARY_IDLE_CYCLES : Nat := 0x0008_01A0
/-- Offset of ARY_DEADLOCK (chapter 06). -/
def ARY_DEADLOCK : Nat := 0x0008_01B0
/-- Offset of ARY_VS_STATED (chapter 06). -/
def ARY_VS_STATED (n : Nat) : Nat := 0x0008_1000 + 16 * n
/-- Offset of ARY_VS_WORST (chapter 06). -/
def ARY_VS_WORST (n : Nat) : Nat := 0x0008_1004 + 16 * n
/-- Offset of ARY_VS_LAG (chapter 06). -/
def ARY_VS_LAG (n : Nat) : Nat := 0x0008_1008 + 16 * n
/-- Offset of ARY_VS_COUNT (chapter 06). -/
def ARY_VS_COUNT (n : Nat) : Nat := 0x0008_100C + 16 * n
/-- Offset of HQ_SQ_BASE (chapter 10). -/
def HQ_SQ_BASE (n : Nat) : Nat := 0x000A_0000 + 64 * n
/-- Offset of HQ_CQ_BASE (chapter 10). -/
def HQ_CQ_BASE (n : Nat) : Nat := 0x000A_0008 + 64 * n
/-- Offset of HQ_RING_CFG (chapter 10). -/
def HQ_RING_CFG (n : Nat) : Nat := 0x000A_0010 + 64 * n
/-- Offset of HQ_SQ_TAIL (chapter 10). -/
def HQ_SQ_TAIL (n : Nat) : Nat := 0x000A_0014 + 64 * n
/-- Offset of HQ_CQ_HEAD (chapter 10). -/
def HQ_CQ_HEAD (n : Nat) : Nat := 0x000A_0018 + 64 * n
/-- Offset of HQ_RING_STAT (chapter 10). -/
def HQ_RING_STAT (n : Nat) : Nat := 0x000A_001C + 64 * n
/-- Offset of HQ_IRQ_MAP (chapter 10). -/
def HQ_IRQ_MAP (n : Nat) : Nat := 0x000A_0400 + 4 * n
/-- Offset of HQ_HDM_WDROP (chapter 10). -/
def HQ_HDM_WDROP : Nat := 0x000A_0410
/-- Offset of HQ_HDM_UNAVAIL (chapter 10). -/
def HQ_HDM_UNAVAIL : Nat := 0x000A_0414
/-- Offset of HQ_HDM_META (chapter 10). -/
def HQ_HDM_META : Nat := 0x000A_0418
/-- Offset of HQ_HATOM_ERR (chapter 10). -/
def HQ_HATOM_ERR : Nat := 0x000A_0420
/-- Offset of HQ_EJECT_DROPS (chapter 10). -/
def HQ_EJECT_DROPS : Nat := 0x000A_0424
/-- Offset of HQ_SUB_SEL (chapter 10). -/
def HQ_SUB_SEL : Nat := 0x000A_0500
/-- Offset of HQ_SUB_STAT (chapter 10). -/
def HQ_SUB_STAT : Nat := 0x000A_0504
/-- Offset of HQ_SUB_DELIVERED (chapter 10). -/
def HQ_SUB_DELIVERED : Nat := 0x000A_0508
/-- Offset of HQ_SUB_DROPS (chapter 10). -/
def HQ_SUB_DROPS : Nat := 0x000A_0510
/-- Offset of HQ_SUB_COUNT (chapter 10). -/
def HQ_SUB_COUNT : Nat := 0x000A_0514
/-- Offset of HQ_REPLAY_NEXT (chapter 10). -/
def HQ_REPLAY_NEXT : Nat := 0x000A_0520
/-- Offset of SEC_CTX_STATUS (chapter 11). -/
def SEC_CTX_STATUS : Nat := 0x000C_0000
/-- Offset of SEC_EPOCH (chapter 11). -/
def SEC_EPOCH : Nat := 0x000C_0004
/-- Offset of SEC_BOOT_ID (chapter 11). -/
def SEC_BOOT_ID (n : Nat) : Nat := 0x000C_0010 + 4 * n
/-- Offset of SEC_CTX_STOP (chapter 11). -/
def SEC_CTX_STOP : Nat := 0x000C_0020
/-- Offset of SEC_DIRTY_COUNT (chapter 11). -/
def SEC_DIRTY_COUNT : Nat := 0x000C_0024
/-- Offset of SEC_SCRUB_STATUS (chapter 11). -/
def SEC_SCRUB_STATUS : Nat := 0x000C_0028
/-- Offset of SEC_SCRUB_TIME (chapter 11). -/
def SEC_SCRUB_TIME : Nat := 0x000C_002C
/-- Offset of SEC_LANE_CRYPT (chapter 11). -/
def SEC_LANE_CRYPT : Nat := 0x000C_0030
/-- Offset of SEC_INTEGRITY_FAIL (chapter 11). -/
def SEC_INTEGRITY_FAIL : Nat := 0x000C_0040
/-- Offset of SEC_MASKED (chapter 11). -/
def SEC_MASKED : Nat := 0x000C_0044
/-- Offset of SEC_IDLE_FRAMES (chapter 11). -/
def SEC_IDLE_FRAMES : Nat := 0x000C_0048
/-- Offset of SEC_PRIV (chapter 11). -/
def SEC_PRIV : Nat := 0x000C_0050
/-- Offset of SEC_OPKEYS (chapter 11). -/
def SEC_OPKEYS : Nat := 0x000C_0054
/-- Offset of SEC_LINKS (chapter 11). -/
def SEC_LINKS : Nat := 0x000C_0058
/-- Offset of SEC_VERSION_MAX (chapter 11). -/
def SEC_VERSION_MAX : Nat := 0x000C_0060
/-- Offset of HLT_STATUS (chapter 12). -/
def HLT_STATUS : Nat := 0x000E_0000
/-- Offset of HLT_TEMP (chapter 12). -/
def HLT_TEMP : Nat := 0x000E_0004
/-- Offset of HLT_POWER (chapter 12). -/
def HLT_POWER : Nat := 0x000E_0008
/-- Offset of HLT_THERM_CFG (chapter 12). -/
def HLT_THERM_CFG : Nat := 0x000E_0010
/-- Offset of HLT_HBM_CFG (chapter 12). -/
def HLT_HBM_CFG : Nat := 0x000E_0014
/-- Offset of HLT_POWER_CFG (chapter 12). -/
def HLT_POWER_CFG : Nat := 0x000E_0018
/-- Offset of HLT_STEP_CAP (chapter 12). -/
def HLT_STEP_CAP : Nat := 0x000E_001C
/-- Offset of HLT_WDOG (chapter 12). -/
def HLT_WDOG : Nat := 0x000E_0020
/-- Offset of HLT_EOL_MIN (chapter 12). -/
def HLT_EOL_MIN : Nat := 0x000E_0030
/-- Offset of HLT_MON_SEL (chapter 12). -/
def HLT_MON_SEL : Nat := 0x000E_0040
/-- Offset of HLT_MON_Y (chapter 12). -/
def HLT_MON_Y : Nat := 0x000E_0044
/-- Offset of HLT_MON_BASE (chapter 12). -/
def HLT_MON_BASE : Nat := 0x000E_0048
/-- Offset of HLT_MON_SAMPLES (chapter 12). -/
def HLT_MON_SAMPLES : Nat := 0x000E_004C
/-- Offset of HLT_MON_EOL (chapter 12). -/
def HLT_MON_EOL : Nat := 0x000E_0050
/-- Offset of HLT_CAL_STATUS (chapter 12). -/
def HLT_CAL_STATUS : Nat := 0x000E_0060
/-- Offset of HLT_CAL_GEN (chapter 12). -/
def HLT_CAL_GEN : Nat := 0x000E_0064
/-- Offset of MEM_CE_HBM (chapter 12). -/
def MEM_CE_HBM (n : Nat) : Nat := 0x0010_0000 + 4 * n
/-- Offset of MEM_CE_DDR (chapter 12). -/
def MEM_CE_DDR (n : Nat) : Nat := 0x0010_0040 + 4 * n
/-- Offset of MEM_UE (chapter 12). -/
def MEM_UE : Nat := 0x0010_0060
/-- Offset of MEM_PATROL_CFG (chapter 12). -/
def MEM_PATROL_CFG : Nat := 0x0010_0080
/-- Offset of MEM_LOST (chapter 12). -/
def MEM_LOST : Nat := 0x0010_0084
/-- Offset of PCT_ID in a picot's window. -/
def PCT_ID (p : Nat) : Nat := 0x0100_0000 + 0x1000 * p + 0x0
/-- Offset of PCT_STATE in a picot's window. -/
def PCT_STATE (p : Nat) : Nat := 0x0100_0000 + 0x1000 * p + 0x4
/-- Offset of PCT_BIND in a picot's window. -/
def PCT_BIND (p : Nat) : Nat := 0x0100_0000 + 0x1000 * p + 0x8
/-- Offset of PCT_SHADOW in a picot's window. -/
def PCT_SHADOW (p : Nat) : Nat := 0x0100_0000 + 0x1000 * p + 0xc
/-- Offset of PCT_FOLD in a picot's window. -/
def PCT_FOLD (p i : Nat) : Nat := 0x0100_0000 + 0x1000 * p + 0x10 + 4 * i
/-- Offset of PCT_PC in a picot's window. -/
def PCT_PC (p i : Nat) : Nat := 0x0100_0000 + 0x1000 * p + 0x30 + 4 * i
/-- Offset of PCT_LOOP in a picot's window. -/
def PCT_LOOP (p i : Nat) : Nat := 0x0100_0000 + 0x1000 * p + 0x50 + 4 * i
/-- Offset of PCT_DQ in a picot's window. -/
def PCT_DQ (p i : Nat) : Nat := 0x0100_0000 + 0x1000 * p + 0x80 + 4 * i
/-- Offset of PCT_TQ in a picot's window. -/
def PCT_TQ (p i : Nat) : Nat := 0x0100_0000 + 0x1000 * p + 0xc0 + 4 * i
/-- Offset of PCT_STEER in a picot's window. -/
def PCT_STEER (p i : Nat) : Nat := 0x0100_0000 + 0x1000 * p + 0xe0 + 4 * i
/-- Offset of PCT_EVT in a picot's window. -/
def PCT_EVT (p i : Nat) : Nat := 0x0100_0000 + 0x1000 * p + 0x100 + 4 * i
/-- Offset of PCT_EVT_FLAGS in a picot's window. -/
def PCT_EVT_FLAGS (p : Nat) : Nat := 0x0100_0000 + 0x1000 * p + 0x114
/-- Offset of PCT_HOLDREQ in a picot's window. -/
def PCT_HOLDREQ (p : Nat) : Nat := 0x0100_0000 + 0x1000 * p + 0x120
/-- Offset of PCT_CORR in a picot's window. -/
def PCT_CORR (p : Nat) : Nat := 0x0100_0000 + 0x1000 * p + 0x124
/-- Offset of PCT_PEEK_ADDR in a picot's window. -/
def PCT_PEEK_ADDR (p : Nat) : Nat := 0x0100_0000 + 0x1000 * p + 0x200
/-- Offset of PCT_PEEK_STATUS in a picot's window. -/
def PCT_PEEK_STATUS (p : Nat) : Nat := 0x0100_0000 + 0x1000 * p + 0x204
/-- Offset of PCT_PEEK_DATA in a picot's window. -/
def PCT_PEEK_DATA (p i : Nat) : Nat := 0x0100_0000 + 0x1000 * p + 0x220 + 4 * i
/-- Offset of PCT_TRACE_CTL in a picot's window. -/
def PCT_TRACE_CTL (p : Nat) : Nat := 0x0100_0000 + 0x1000 * p + 0x300
/-- Offset of PCT_TRACE in a picot's window. -/
def PCT_TRACE (p i : Nat) : Nat := 0x0100_0000 + 0x1000 * p + 0x800 + 8 * i

end Reg

/-- The GLB rows of the register index. -/
def regRowsGlb : List RegRow :=
  [⟨0x0000_0000, 0, 1, false, 0x0, 0x0, false⟩,
   ⟨0x0000_0004, 0, 1, false, 0x0, 0x0, false⟩,
   ⟨0x0000_0008, 0, 1, false, 0x0, 0x0, false⟩,
   ⟨0x0000_0010, 0, 1, false, 0x3fff, 0x0, false⟩,
   ⟨0x0000_0020, 0, 1, false, 0xffff0003, 0x0, false⟩,
   ⟨0x0000_0024, 0, 1, false, 0xffff0001, 0x0, true⟩,
   ⟨0x0000_0028, 0, 1, false, 0x0, 0x100, false⟩,
   ⟨0x0000_002C, 0, 1, false, 0x0, 0x0, false⟩,
   ⟨0x0000_0030, 0, 1, false, 0x0, 0x0, false⟩,
   ⟨0x0000_0034, 0, 1, false, 0x0, 0x10, false⟩,
   ⟨0x0000_0038, 0, 1, false, 0x0, 0x0, false⟩,
   ⟨0x0000_003C, 0, 1, false, 0x0, 0xfff0000, false⟩]

/-- The ERR rows of the register index. -/
def regRowsErr : List RegRow :=
  [⟨0x0001_0000, 0, 1, false, 0x0, 0x38000000, false⟩,
   ⟨0x0001_0004, 0, 1, false, 0xffff0001, 0x0, false⟩,
   ⟨0x0001_0008, 0, 1, false, 0x1, 0x0, false⟩,
   ⟨0x0001_0010, 0, 1, false, 0x0, 0x0, false⟩,
   ⟨0x0001_0014, 0, 1, false, 0x0, 0x0, false⟩,
   ⟨0x0001_0018, 0, 1, false, 0x0, 0x0, false⟩,
   ⟨0x0001_0020, 4, 8, false, 0x0, 0x0, false⟩,
   ⟨0x0001_0040, 4, 4, false, 0x0, 0x0, false⟩,
   ⟨0x0001_0F00, 0, 1, false, 0x0, 0x0, false⟩,
   ⟨0x0001_0F04, 0, 1, false, 0x0, 0x80000000, false⟩]

/-- The ING rows of the register index. -/
def regRowsIng : List RegRow :=
  [⟨0x0002_0000, 4, 64, false, 0xf8001fff, 0x0, false⟩,
   ⟨0x0002_0100, 4, 64, false, 0x0, 0x1c, false⟩,
   ⟨0x0002_0200, 4, 16, false, 0xffffffff, 0x0, false⟩,
   ⟨0x0002_0240, 4, 16, false, 0x1fff, 0x0, false⟩,
   ⟨0x0002_0280, 8, 16, true, 0xffffffffffffffff, 0x0, false⟩,
   ⟨0x0002_0300, 0, 1, true, 0xffffffffffffffff, 0x0, false⟩,
   ⟨0x0002_0308, 0, 1, false, 0x1f, 0x0, false⟩,
   ⟨0x0002_0400, 4, 64, false, 0xffffffff, 0x0, false⟩,
   ⟨0x0002_0500, 4, 16, false, 0xbfbfbfbf, 0x0, false⟩,
   ⟨0x0002_0540, 0, 1, false, 0x3ff03ff, 0x0, false⟩,
   ⟨0x0002_0548, 0, 1, true, 0x0, 0x0, false⟩,
   ⟨0x0002_0550, 0, 1, true, 0x0, 0x0, false⟩,
   ⟨0x0002_0558, 0, 1, false, 0x0, 0x30000, false⟩,
   ⟨0x0002_0560, 0, 1, true, 0x0, 0x0, false⟩,
   ⟨0x0002_0568, 0, 1, true, 0x0, 0x0, false⟩,
   ⟨0x0002_0570, 0, 1, false, 0x0, 0x0, false⟩,
   ⟨0x0002_0574, 0, 1, false, 0x0, 0x0, false⟩,
   ⟨0x0002_0578, 0, 1, false, 0x0, 0x0, false⟩,
   ⟨0x0002_0580, 0, 1, true, 0xffffffffffffffff, 0x0, false⟩,
   ⟨0x0002_0588, 0, 1, false, 0x0, 0x8, false⟩,
   ⟨0x0002_0590, 0, 1, false, 0x8001ffff, 0x0, false⟩,
   ⟨0x0002_0594, 0, 1, false, 0xffffffff, 0x0, false⟩,
   ⟨0x0002_05A0, 0, 1, false, 0xffff, 0x0, false⟩,
   ⟨0x0002_05A4, 0, 1, false, 0x0, 0x0, false⟩,
   ⟨0x0002_05B0, 4, 5, false, 0x0, 0x0, false⟩,
   ⟨0x0002_05C4, 0, 1, false, 0x0, 0x1f, false⟩,
   ⟨0x0002_4000, 4, 4096, false, 0xbffffc00, 0x0, false⟩]

/-- The TRG rows of the register index. -/
def regRowsTrg : List RegRow :=
  [⟨0x0004_0000, 0, 1, false, 0x0, 0xffff0008, false⟩,
   ⟨0x0004_0004, 0, 1, false, 0xffffffff, 0x0, false⟩,
   ⟨0x0004_0080, 0, 1, true, 0xffffffffffffffff, 0x0, false⟩,
   ⟨0x0004_0088, 0, 1, false, 0x0, 0x8, false⟩,
   ⟨0x0004_008C, 0, 1, false, 0x0, 0x0, false⟩,
   ⟨0x0004_0100, 4, 16, false, 0xe0ffffff, 0x0, false⟩,
   ⟨0x0004_0140, 4, 16, false, 0x0, 0x4, false⟩,
   ⟨0x0004_0180, 4, 16, false, 0x0, 0x0, false⟩,
   ⟨0x0004_01C0, 4, 16, false, 0x0, 0x0, false⟩,
   ⟨0x0004_0200, 0, 1, false, 0xc0000003, 0x0, false⟩,
   ⟨0x0004_0208, 0, 1, true, 0xffffffffffffffff, 0x0, false⟩,
   ⟨0x0004_0210, 0, 1, true, 0x0, 0x0, false⟩,
   ⟨0x0004_0218, 0, 1, false, 0x0, 0x0, false⟩,
   ⟨0x0004_0400, 0, 1, false, 0x3ff, 0x0, false⟩,
   ⟨0x0004_0404, 0, 1, false, 0xf8000fff, 0x0, false⟩,
   ⟨0x0004_0408, 0, 1, false, 0xffffffff, 0x0, false⟩,
   ⟨0x0004_040C, 0, 1, false, 0xffffffff, 0x0, false⟩,
   ⟨0x0004_0410, 0, 1, false, 0xffff, 0x0, false⟩,
   ⟨0x0004_0414, 0, 1, false, 0x0, 0x4, false⟩,
   ⟨0x0004_0418, 0, 1, false, 0x0, 0x0, false⟩,
   ⟨0x0004_041C, 0, 1, false, 0x0, 0x0, false⟩,
   ⟨0x0004_0500, 0, 1, false, 0x3f, 0x0, false⟩,
   ⟨0x0004_0504, 0, 1, false, 0xe3ff0fff, 0x0, false⟩,
   ⟨0x0004_0508, 0, 1, false, 0x3fff1fff, 0x0, false⟩,
   ⟨0x0004_050C, 0, 1, false, 0x0, 0x2, false⟩,
   ⟨0x0004_0510, 0, 1, false, 0x0, 0x0, false⟩,
   ⟨0x0004_0514, 0, 1, false, 0x0, 0x0, false⟩,
   ⟨0x0004_0518, 0, 1, false, 0x0, 0x0, false⟩,
   ⟨0x0004_051C, 0, 1, false, 0x0, 0x0, false⟩,
   ⟨0x0004_0520, 0, 1, false, 0x80003fff, 0x0, false⟩,
   ⟨0x0004_0524, 0, 1, false, 0xffffffff, 0x0, false⟩,
   ⟨0x0004_0800, 4, 256, false, 0x80000fff, 0x0, false⟩,
   ⟨0x0004_0C00, 4, 256, false, 0xffff, 0x0, false⟩,
   ⟨0x0004_1000, 4, 256, false, 0x0, 0x0, false⟩,
   ⟨0x0004_2000, 0, 1, false, 0x3f, 0x0, false⟩,
   ⟨0x0004_2004, 0, 1, false, 0xbc0000ff, 0x0, false⟩,
   ⟨0x0004_2008, 0, 1, false, 0xffffff, 0x0, false⟩,
   ⟨0x0004_200C, 0, 1, false, 0xffffff, 0x0, false⟩,
   ⟨0x0004_2010, 4, 8, false, 0xf00003ff, 0x0, false⟩,
   ⟨0x0004_2030, 4, 8, false, 0xffffffff, 0x0, false⟩,
   ⟨0x0004_2050, 0, 1, false, 0x0, 0x0, false⟩,
   ⟨0x0004_2054, 0, 1, false, 0x0, 0x0, false⟩,
   ⟨0x0004_2058, 0, 1, true, 0x0, 0x0, false⟩,
   ⟨0x0004_2060, 8, 4, true, 0x0, 0x0, false⟩,
   ⟨0x0004_2080, 0, 1, false, 0xffffff, 0x0, false⟩,
   ⟨0x0004_2084, 0, 1, false, 0x0, 0x0, false⟩,
   ⟨0x0004_3000, 4, 16, false, 0xe000ffff, 0x0, false⟩,
   ⟨0x0004_3040, 8, 16, true, 0xffffffffffffffff, 0x0, false⟩,
   ⟨0x0004_30C0, 4, 16, false, 0xffffffff, 0x0, false⟩,
   ⟨0x0004_3100, 4, 16, false, 0x0, 0x0, false⟩]

/-- The ACQ rows of the register index. -/
def regRowsAcq : List RegRow :=
  [⟨0x0005_0000, 0, 1, false, 0x0, 0x0, false⟩,
   ⟨0x0005_0004, 0, 1, false, 0x0, 0x0, false⟩,
   ⟨0x0005_0008, 0, 1, true, 0x0, 0x0, false⟩,
   ⟨0x0005_0010, 0, 1, true, 0x0, 0x0, false⟩,
   ⟨0x0005_0018, 0, 1, false, 0xfff, 0x0, false⟩,
   ⟨0x0005_001C, 0, 1, false, 0xffffffff, 0x0, false⟩,
   ⟨0x0005_0020, 0, 1, false, 0xffffffff, 0x0, false⟩,
   ⟨0x0005_0030, 0, 1, true, 0xffffffffffffffff, 0x0, false⟩,
   ⟨0x0005_0038, 0, 1, true, 0xffffffffffffffff, 0x0, false⟩,
   ⟨0x0005_0040, 0, 1, true, 0x0, 0x0, false⟩,
   ⟨0x0005_0048, 0, 1, true, 0xffffffffffffffff, 0x0, false⟩,
   ⟨0x0005_0050, 0, 1, true, 0x0, 0x0, false⟩,
   ⟨0x0005_0058, 0, 1, true, 0x0, 0x0, false⟩,
   ⟨0x0005_0060, 0, 1, false, 0x0, 0x0, false⟩,
   ⟨0x0005_0064, 0, 1, false, 0x0, 0x0, false⟩,
   ⟨0x0005_0068, 0, 1, false, 0x0, 0x0, false⟩,
   ⟨0x0005_006C, 0, 1, false, 0x0, 0x0, false⟩,
   ⟨0x0005_0070, 0, 1, true, 0x0, 0x0, false⟩,
   ⟨0x0005_0100, 4, 64, false, 0xffffff, 0x0, false⟩,
   ⟨0x0005_0200, 4, 64, false, 0xffffff, 0x0, false⟩,
   ⟨0x0005_0300, 8, 64, true, 0xffffffffffffffff, 0x0, false⟩,
   ⟨0x0005_0800, 0, 1, false, 0x8000ffff, 0x0, false⟩,
   ⟨0x0005_0804, 0, 1, false, 0x8000000f, 0x0, false⟩,
   ⟨0x0005_0810, 0, 1, true, 0xffffffffffffffff, 0x0, false⟩,
   ⟨0x0005_0818, 0, 1, true, 0xffffffffffffffff, 0x0, false⟩,
   ⟨0x0005_0820, 0, 1, true, 0x0, 0x0, false⟩,
   ⟨0x0005_0828, 0, 1, true, 0xffffffffffffffff, 0x0, false⟩,
   ⟨0x0005_0830, 0, 1, false, 0x0, 0x0, false⟩,
   ⟨0x0005_0C00, 4, 256, false, 0x8fffffff, 0x0, false⟩]

/-- The TIM rows of the register index. -/
def regRowsTim : List RegRow :=
  [⟨0x0006_0000, 0, 1, false, 0x0, 0xc4, false⟩,
   ⟨0x0006_0008, 0, 1, true, 0x0, 0x0, false⟩,
   ⟨0x0006_0010, 0, 1, false, 0x0, 0x0, false⟩,
   ⟨0x0006_0014, 0, 1, false, 0xffffffff, 0x0, false⟩,
   ⟨0x0006_0018, 0, 1, true, 0xffffffffffffffff, 0x0, false⟩,
   ⟨0x0006_0020, 0, 1, false, 0x3, 0x0, false⟩,
   ⟨0x0006_0024, 0, 1, false, 0x0, 0x0, false⟩,
   ⟨0x0006_0028, 0, 1, false, 0x0, 0x0, false⟩,
   ⟨0x0006_002C, 0, 1, false, 0x0, 0x0, false⟩,
   ⟨0x0006_0030, 0, 1, false, 0xf1f, 0x0, false⟩,
   ⟨0x0006_0034, 0, 1, false, 0xffffffff, 0x0, false⟩,
   ⟨0x0006_0038, 0, 1, false, 0xffffffff, 0x0, false⟩,
   ⟨0x0006_003C, 0, 1, false, 0xffffffff, 0x0, false⟩,
   ⟨0x0006_0040, 0, 1, false, 0xffffffff, 0x0, false⟩,
   ⟨0x0006_0044, 0, 1, false, 0x0000ffff, 0x0, false⟩,
   ⟨0x0006_0048, 0, 1, false, 0xffffffff, 0x0, false⟩,
   ⟨0x0006_004C, 0, 1, false, 0x0, 0x0, false⟩,
   ⟨0x0006_0050, 0, 1, false, 0xffff, 0x0, false⟩,
   ⟨0x0006_0060, 4, 2, false, 0xe0000000, 0x0, false⟩,
   ⟨0x0006_0068, 8, 2, true, 0xffffffffffff, 0x0, false⟩,
   ⟨0x0006_0078, 4, 2, false, 0xffffffff, 0x0, false⟩,
   ⟨0x0006_0080, 4, 2, false, 0x0, 0x0, false⟩,
   ⟨0x0006_0088, 4, 2, false, 0x0, 0x0, false⟩,
   ⟨0x0006_0090, 4, 2, false, 0x0, 0x0, false⟩,
   ⟨0x0006_0098, 4, 2, false, 0x0, 0x0, false⟩,
   ⟨0x0006_00A0, 0, 1, false, 0xc000ffff, 0x0, false⟩,
   ⟨0x0006_00A4, 0, 1, false, 0xffffffff, 0x0, false⟩,
   ⟨0x0006_00A8, 0, 1, false, 0xffffffff, 0x0, false⟩,
   ⟨0x0006_00B0, 0, 1, true, 0x0, 0x0, false⟩,
   ⟨0x0006_00B8, 0, 1, false, 0x0, 0x0, false⟩,
   ⟨0x0006_00C0, 8, 2, true, 0xffffffffffffffff, 0x0, false⟩,
   ⟨0x0006_00D0, 0, 1, false, 0x3ffff, 0x0, false⟩,
   ⟨0x0006_00E0, 4, 2, false, 0x0, 0x0, false⟩,
   ⟨0x0006_0100, 32, 2, false, 0x0, 0x0, false⟩,
   ⟨0x0006_0104, 32, 2, false, 0x0, 0x0, false⟩,
   ⟨0x0006_0108, 32, 2, false, 0x0, 0x0, false⟩,
   ⟨0x0006_010C, 32, 2, false, 0x0, 0x0, false⟩,
   ⟨0x0006_0110, 32, 2, false, 0x0, 0x0, false⟩]

/-- The ARY rows of the register index. -/
def regRowsAry : List RegRow :=
  [⟨0x0008_0000, 0, 1, false, 0x0, 0x0, false⟩,
   ⟨0x0008_0004, 0, 1, false, 0x0, 0x0, false⟩,
   ⟨0x0008_0008, 0, 1, true, 0x0, 0x0, false⟩,
   ⟨0x0008_0010, 0, 1, true, 0xffffffffffffffff, 0x0, false⟩,
   ⟨0x0008_0018, 0, 1, false, 0xff, 0x0, false⟩,
   ⟨0x0008_001C, 0, 1, false, 0x0, 0x6, false⟩,
   ⟨0x0008_0040, 4, 16, false, 0x0, 0x0, false⟩,
   ⟨0x0008_0080, 0, 1, false, 0x80003f1f, 0x0, true⟩,
   ⟨0x0008_0084, 0, 1, false, 0x0, 0x2, false⟩,
   ⟨0x0008_0088, 0, 1, false, 0x0, 0x0, false⟩,
   ⟨0x0008_0090, 0, 1, false, 0x0, 0x0, false⟩,
   ⟨0x0008_0094, 0, 1, false, 0x0, 0x0, false⟩,
   ⟨0x0008_0098, 0, 1, false, 0x0, 0x0, false⟩,
   ⟨0x0008_0100, 0, 1, false, 0x0, 0x0, false⟩,
   ⟨0x0008_0104, 0, 1, false, 0x0, 0x0, false⟩,
   ⟨0x0008_0108, 0, 1, false, 0x0, 0x0, false⟩,
   ⟨0x0008_010C, 0, 1, false, 0x0, 0x0, false⟩,
   ⟨0x0008_0110, 0, 1, false, 0x0, 0x0, false⟩,
   ⟨0x0008_0120, 0, 1, false, 0xffffffff, 0x0, false⟩,
   ⟨0x0008_0124, 0, 1, false, 0x0, 0x0, false⟩,
   ⟨0x0008_0134, 4, 7, false, 0x0, 0x0, false⟩,
   ⟨0x0008_0158, 8, 7, true, 0x0, 0x0, false⟩,
   ⟨0x0008_0190, 0, 1, false, 0x0, 0x0, false⟩,
   ⟨0x0008_0194, 0, 1, false, 0x0, 0x0, false⟩,
   ⟨0x0008_0198, 0, 1, false, 0x0, 0x0, false⟩,
   ⟨0x0008_019C, 0, 1, false, 0x0, 0x0, false⟩,
   ⟨0x0008_01A0, 0, 1, true, 0x0, 0x0, false⟩,
   ⟨0x0008_01B0, 0, 1, false, 0x0, 0x0, false⟩,
   ⟨0x0008_1000, 16, 256, false, 0x0, 0x0, false⟩,
   ⟨0x0008_1004, 16, 256, false, 0x0, 0x0, false⟩,
   ⟨0x0008_1008, 16, 256, false, 0x0, 0x0, false⟩,
   ⟨0x0008_100C, 16, 256, false, 0x0, 0x0, false⟩]

/-- The HQ rows of the register index. -/
def regRowsHq : List RegRow :=
  [⟨0x000A_0000, 64, 16, true, 0xfffffffffffff000, 0x0, false⟩,
   ⟨0x000A_0008, 64, 16, true, 0xfffffffffffff000, 0x0, false⟩,
   ⟨0x000A_0010, 64, 16, false, 0x80ff3fff, 0x0, false⟩,
   ⟨0x000A_0014, 64, 16, false, 0xfff, 0x0, false⟩,
   ⟨0x000A_0018, 64, 16, false, 0xfff, 0x0, false⟩,
   ⟨0x000A_001C, 64, 16, false, 0xff00, 0x6, false⟩,
   ⟨0x000A_0400, 4, 2, false, 0xbfbfbfbf, 0x0, false⟩,
   ⟨0x000A_0410, 0, 1, false, 0x0, 0x0, false⟩,
   ⟨0x000A_0414, 0, 1, false, 0x0, 0x0, false⟩,
   ⟨0x000A_0418, 0, 1, false, 0x0, 0x0, false⟩,
   ⟨0x000A_0420, 0, 1, false, 0x0, 0x0, false⟩,
   ⟨0x000A_0424, 0, 1, false, 0x0, 0x80000000, false⟩,
   ⟨0x000A_0500, 0, 1, false, 0x3ff, 0x0, false⟩,
   ⟨0x000A_0504, 0, 1, false, 0x0, 0x0, false⟩,
   ⟨0x000A_0508, 0, 1, true, 0x0, 0x0, false⟩,
   ⟨0x000A_0510, 0, 1, false, 0x0, 0x0, false⟩,
   ⟨0x000A_0514, 0, 1, false, 0x0, 0x0, false⟩,
   ⟨0x000A_0520, 0, 1, true, 0x0, 0x0, false⟩]

/-- The SEC rows of the register index. -/
def regRowsSec : List RegRow :=
  [⟨0x000C_0000, 0, 1, false, 0x0, 0x0, false⟩,
   ⟨0x000C_0004, 0, 1, false, 0x0, 0x0, false⟩,
   ⟨0x000C_0010, 4, 4, false, 0x0, 0x0, false⟩,
   ⟨0x000C_0020, 0, 1, false, 0x1, 0x0, false⟩,
   ⟨0x000C_0024, 0, 1, false, 0x0, 0x0, false⟩,
   ⟨0x000C_0028, 0, 1, false, 0x0, 0x0, false⟩,
   ⟨0x000C_002C, 0, 1, false, 0x0, 0x0, false⟩,
   ⟨0x000C_0030, 0, 1, true, 0xffffffffffffffff, 0x0, false⟩,
   ⟨0x000C_0040, 0, 1, false, 0x0, 0x0, false⟩,
   ⟨0x000C_0044, 0, 1, false, 0x0, 0x0, false⟩,
   ⟨0x000C_0048, 0, 1, false, 0x0, 0x0, false⟩,
   ⟨0x000C_0050, 0, 1, false, 0x0, 0x0, false⟩,
   ⟨0x000C_0054, 0, 1, false, 0x0, 0x0, true⟩,
   ⟨0x000C_0058, 0, 1, false, 0x0, 0x0, false⟩,
   ⟨0x000C_0060, 0, 1, true, 0x0, 0x0, false⟩]

/-- The HLT rows of the register index. -/
def regRowsHlt : List RegRow :=
  [⟨0x000E_0000, 0, 1, false, 0x0, 0xe, false⟩,
   ⟨0x000E_0004, 0, 1, false, 0x0, 0x0, false⟩,
   ⟨0x000E_0008, 0, 1, false, 0x0, 0x0, false⟩,
   ⟨0x000E_0010, 0, 1, false, 0xffffffff, 0x0, false⟩,
   ⟨0x000E_0014, 0, 1, false, 0xffffffff, 0x0, false⟩,
   ⟨0x000E_0018, 0, 1, false, 0xffffffff, 0x0, false⟩,
   ⟨0x000E_001C, 0, 1, false, 0x3, 0x0, false⟩,
   ⟨0x000E_0020, 0, 1, false, 0x1ffff, 0x0, false⟩,
   ⟨0x000E_0030, 0, 1, false, 0xff000000, 0x0, false⟩,
   ⟨0x000E_0040, 0, 1, false, 0x7ffff, 0x0, false⟩,
   ⟨0x000E_0044, 0, 1, false, 0x0, 0x0, false⟩,
   ⟨0x000E_0048, 0, 1, false, 0x0, 0x0, false⟩,
   ⟨0x000E_004C, 0, 1, false, 0x0, 0x0, false⟩,
   ⟨0x000E_0050, 0, 1, false, 0x0, 0x0, false⟩,
   ⟨0x000E_0060, 0, 1, false, 0x0, 0x0, false⟩,
   ⟨0x000E_0064, 0, 1, false, 0x0, 0x0, false⟩]

/-- The MEM rows of the register index. -/
def regRowsMem : List RegRow :=
  [⟨0x0010_0000, 4, 12, false, 0x0, 0x0, false⟩,
   ⟨0x0010_0040, 4, 8, false, 0x0, 0x0, false⟩,
   ⟨0x0010_0060, 0, 1, false, 0x0, 0x0, false⟩,
   ⟨0x0010_0080, 0, 1, false, 0x8000ffff, 0x0, false⟩,
   ⟨0x0010_0084, 0, 1, false, 0x0, 0x0, false⟩]

/-- Every row of BAR0 outside the picot windows. -/
def regRows : List RegRow :=
  regRowsGlb ++ regRowsErr ++ regRowsIng ++ regRowsTrg ++ regRowsAcq ++ regRowsTim ++ regRowsAry ++ regRowsHq ++ regRowsSec ++ regRowsHlt ++ regRowsMem

/-- The rows of one picot debug window, relative to its base. -/
def regRowsPct : List RegRow :=
  [⟨0x0, 0, 1, false, 0x0, 0x0, false⟩,
   ⟨0x4, 0, 1, false, 0x0, 0x0, false⟩,
   ⟨0x8, 0, 1, false, 0x0, 0x0, false⟩,
   ⟨0xc, 0, 1, false, 0x0, 0x0, false⟩,
   ⟨0x10, 4, 8, false, 0x0, 0x0, false⟩,
   ⟨0x30, 4, 8, false, 0x0, 0x0, false⟩,
   ⟨0x50, 4, 8, false, 0x0, 0x0, false⟩,
   ⟨0x80, 4, 16, false, 0x0, 0x0, false⟩,
   ⟨0xc0, 4, 8, false, 0x0, 0x0, false⟩,
   ⟨0xe0, 4, 4, false, 0x0, 0x0, false⟩,
   ⟨0x100, 4, 5, false, 0x0, 0x0, false⟩,
   ⟨0x114, 0, 1, false, 0x0, 0x1f, false⟩,
   ⟨0x120, 0, 1, false, 0x0, 0x0, false⟩,
   ⟨0x124, 0, 1, false, 0x0, 0x0, false⟩,
   ⟨0x200, 0, 1, false, 0xc001ffff, 0x0, false⟩,
   ⟨0x204, 0, 1, false, 0x0, 0x0, false⟩,
   ⟨0x220, 4, 8, false, 0x0, 0x0, false⟩,
   ⟨0x300, 0, 1, false, 0x3, 0x0, false⟩,
   ⟨0x800, 8, 256, true, 0x0, 0x0, false⟩]

/-- The words that a COLD reset leaves other than zero: (base, stride, count, value).  The last row is the mask bit of each MSI-X
vector, which PCI Express sets (R345). -/
def resetRows : List (Nat × Nat × Nat × Word) :=
  [(0x0000_0004, 0, 1, 0x040C_2020),
   (0x0000_0008, 0, 1, 0x0000_0003),
   (0x0001_0004, 0, 1, 0x0001_0000),
   (0x0002_0304, 0, 1, 0x0000_0040),
   (0x0002_0308, 0, 1, 0x0000_000C),
   (0x0002_0540, 0, 1, 0x0064_0384),
   (0x0002_0588, 0, 1, 0x0000_0004),
   (0x0004_0000, 0, 1, 0x0000_0001),
   (0x0004_0004, 0, 1, 0x000F_4240),
   (0x0004_0088, 0, 1, 0x0000_0004),
   (0x0004_020C, 0, 1, 0x0000_4000),
   (0x0004_040C, 0, 1, 0x0000_0001),
   (0x0004_0508, 0, 1, 0x0000_0001),
   (0x0004_2008, 0, 1, 0x0000_0001),
   (0x0004_200C, 0, 1, 0x0000_0001),
   (0x0004_3000, 4, 16, 0x0000_0002),
   (0x0005_001C, 0, 1, 0x0000_0004),
   (0x0005_0020, 0, 1, 0x0010_0000),
   (0x0005_0804, 0, 1, 0x0000_0004),
   (0x0006_0030, 0, 1, 0x0000_0400),
   (0x0006_0034, 0, 1, 0xC000_4000),
   (0x0006_0038, 0, 1, 0x2000_0200),
   (0x0006_003C, 0, 1, 0x0410_0400),
   (0x0006_0040, 0, 1, 0x0001_86A0),
   (0x0006_0044, 0, 1, 0x0000_03E8),
   (0x0006_0048, 0, 1, 0x0000_03E8),
   (0x0006_00A0, 0, 1, 0x0000_2710),
   (0x0006_00D0, 0, 1, 0x0000_88B5),
   (0x0008_0004, 0, 1, 0x0000_0040),
   (0x0008_0120, 0, 1, 0x0000_1000),
   (0x000A_001C, 64, 16, 0x0000_0001),
   (0x000E_0010, 0, 1, 0x0620_05A0),
   (0x000E_0014, 0, 1, 0x05A0_0520),
   (0x000E_0018, 0, 1, 0x041A_0032),
   (0x000E_0020, 0, 1, 0x0000_0064),
   (0x000E_0030, 0, 1, 0x0CFF_0000),
   (0x0010_0080, 0, 1, 0x8000_0018),
   (0x0241_000C, 16, 64, 0x0000_0001)]

namespace Reg

/-- The bank word of primitive unit `u` behind the windowed offset `off` (TRG_PRIM_SEL, chapter 07). -/
def prim (u off : Nat) : Nat := 0x0200_0000 + 0x20 * u + (off - 0x0004_0400)
/-- The bank word of contour mask `k` behind the windowed offset `off` (TRG_MASK_SEL, chapter 07). -/
def mask (k off : Nat) : Nat := 0x0210_0000 + 0x40 * k + (off - 0x0004_0500)
/-- The bank word of trigger class `c` behind the windowed offset `off` (TRG_CLASS_SEL, chapter 07). -/
def cls (c off : Nat) : Nat := 0x0220_0000 + 0x100 * c + (off - 0x0004_2000)
/-- The bank word of subscriber `n` behind the windowed offset `off` (HQ_SUB_SEL, chapter 10). -/
def sub (n off : Nat) : Nat := 0x0230_0000 + 0x20 * n + (off - 0x000A_0500)

/-- The word at an offset of function 0's BAR2 (R319). -/
def bar2 (off : Nat) : Nat := 0x0240_0000 + off
/-- Word `i` of the MSI-X table entry of vector `v`: address low and high, data, control (R319, R345; PCI Express). -/
def msix (v i : Nat) : Nat := bar2 (0x1_0000 + 16 * v + 4 * i)
/-- The word of the MSI-X pending-bit array that holds vector `v`. -/
def msixPba (v : Nat) : Nat := bar2 (0x1_8000 + 4 * (v / 32))

/-- The BAR0 offset that a bank word stands behind; any other key is its own offset. -/
def canon (k : Nat) : Nat :=
  if k < 0x0200_0000 then k
  else if k < 0x0210_0000 then 0x0004_0400 + (k - 0x0200_0000) % 0x20
  else if k < 0x0220_0000 then 0x0004_0500 + (k - 0x0210_0000) % 0x40
  else if k < 0x0230_0000 then 0x0004_2000 + (k - 0x0220_0000) % 0x100
  else if k < 0x0240_0000 then 0x000A_0500 + (k - 0x0230_0000) % 0x20
  else k

end Reg

/-- Which word of a row lies at `off` (0 the word or the pair's low word, 1 the high word); none where the row has
no word there. -/
def RegRow.half (r : RegRow) (off : Nat) : Option Nat :=
  if off < r.base then none
  else
    let d := off - r.base
    let i := if r.stride = 0 then 0 else d / r.stride
    let o := if r.stride = 0 then d else d % r.stride
    if i < r.count ∧ o < (if r.pair then 8 else 4) then some (o / 4) else none

/-- The row and the half of it at an offset among `rows`. -/
def findRow : List RegRow → Nat → Option (RegRow × Nat)
  | [], _ => none
  | r :: rs, off =>
    match r.half off with
    | some h => some (r, h)
    | none => findRow rs off

/-- The register word at a BAR0 offset (R439, R442): none where no table names one. -/
def regAt (off : Nat) : Option (RegRow × Nat) :=
  if 0x0100_0000 ≤ off ∧ off < 0x0140_0000 then findRow regRowsPct (off % 0x1000)
  else findRow regRows off

/-- The bits of the word that a write replaces. -/
def RegRow.rwMask (r : RegRow) (h : Nat) : Word := r.rw.extractLsb' (32 * h) 32
/-- The bits of the word that a 1 clears. -/
def RegRow.w1cMask (r : RegRow) (h : Nat) : Word := r.w1c.extractLsb' (32 * h) 32

/-- The value a row of `resetRows` gives the word at `off`. -/
def resetLookup : List (Nat × Nat × Nat × Word) → Nat → Word
  | [], _ => 0
  | (b, st, c, v) :: rs, off =>
    if st = 0 then (if off = b then v else resetLookup rs off)
    else if b ≤ off ∧ (off - b) % st = 0 ∧ (off - b) / st < c then v else resetLookup rs off

/-- What a register word, or a word of a bank, holds after a COLD reset (R440). -/
def resetWord (k : Nat) : Word := resetLookup resetRows (Reg.canon k)

/-- A write of `v` to a word that holds `old`: RW bits are replaced, W1C bits cleared by ones, the rest kept (R8, R3).  A bit
that hardware sets in the cycle of the write is set by the event after it, and so remains set (R10; log entry 20). -/
def mergeWrite (rw w1c old v : Word) : Word := (old &&& ~~~(rw ||| (w1c &&& v))) ||| (v &&& rw)

end Sys2Proof.Machine
end

