-- ==== Sys2Proof/Machine/State.lean ====
section
/-!
DEFINITION. The state of the block as plain data, the reasons a step can stop, and the state after reset.
-/

namespace Sys2Proof.Machine

/-- What the block drives outward, in the order it does so (R345). -/
inductive Out where
  /-- A read completion's data to a master (R325). -/
  | readData (m : Master) (bytes : List Byte)
  /-- A completer abort to a master (R325). -/
  | abort (m : Master)
  /-- A write into host memory or a peer window (R330, R341, R343). -/
  | hostWrite (addr : DWord) (bytes : List Byte)
  /-- The memory write of an MSI-X vector: the address and the data of its table entry (R345). -/
  | msix (vec : BitVec 6) (addr : DWord) (data : Word)
  /-- A frame on an Ethernet port, without FCS, as it is sent (R302, R303, R314). -/
  | frame (port : Fin 2) (bytes : List Byte)
  /-- An edge of PPS_OUT, and its instant on the timeline (R312). -/
  | pps (level : Bool) (at' : DWord)
  /-- The pins of a trigger output (R238). -/
  | trig (out : Nat) (level : Bool)
  /-- THERMTRIP_L falls (R404). -/
  | thermtrip
  /-- What the Cartouche answers beside the rings: an SPDM or MKA message, or the signature of a PRIV_GRANT's completion (R355,
  R369, R371). -/
  | answer (bytes : List Byte)
  deriving DecidableEq, Repr

/-- One master's view of the register space (R326): the low word its last read named, and the latched high word. -/
structure Latch where
  low  : Option Nat
  word : Word
  deriving DecidableEq, Repr

/-- An entry of the error log (R392, R394). -/
structure ErrEntry where
  seq       : Nat
  source    : Byte
  cls       : Nat
  nested    : Bool
  contain   : Bool
  coalesced : Bool
  withheld  : Bool
  lost      : Bool
  pending   : Bool
  firstSeq  : Nat
  count     : Nat
  time      : DWord
  loc       : DWord
  deriving DecidableEq, Repr

/-- The error log (R392 to R395). -/
structure ErrLog where
  entries : List ErrEntry
  nextSeq : Nat
  deriving DecidableEq, Repr

/-- A completion that waits for room in a full completion ring (R330). -/
structure Completion where
  cid    : BitVec 16
  noIrq  : Bool
  status : Byte
  res0   : DWord
  res1   : DWord
  detail : Word
  deriving DecidableEq, Repr

/-- A ring pair beside its registers (R330, R331, R346): the completion tail and PHASE, the fetched entry that runs, a
completion held back, completions pending since the last interrupt, whether a failed fetch has stopped the ring (R333), and the
place of the running entry in the order of all fetches (R332). -/
structure Ring where
  cqTail  : Nat
  phase   : Bool
  running : Option (BitVec 512)
  held    : Option Completion
  waiting : Nat
  dead    : Bool
  turn    : Nat
  deriving DecidableEq, Repr

/-- A ring pair that has never been enabled. -/
def Ring.reset : Ring := { cqTail := 0, phase := true, running := none, held := none, waiting := 0, dead := false, turn := 0 }

/-- An entry of the input plan (R194). -/
structure InEntry where
  port   : Fin 32
  round  : Nat
  cycle  : Nat
  group  : Nat
  layout : Nat
  deriving DecidableEq, Repr

/-- A run of a layout descriptor (R194). -/
structure LayoutRun where
  first : Nat
  off   : Nat
  codes : Nat
  axis  : Bool
  sum   : Bool
  deriving DecidableEq, Repr

/-- An entry of STREAMS (R195). -/
structure StreamEnt where
  num    : Nat
  port   : Nat
  vdep   : Bool
  cycles : Nat
  ns     : Nat
  deriving DecidableEq, Repr

/-- An HBM region (R446). -/
structure HbmRegion where
  kind    : Nat
  hostW   : Bool
  pillow  : Nat
  off     : Nat
  len     : Nat
  init    : Nat
  deriving DecidableEq, Repr

/-- What the loader keeps of the loaded image (R189 to R196, R446). -/
structure Image where
  flags     : BitVec 16
  stamp     : Word
  rated     : Nat
  roundLen  : Nat
  blockLog2 : Nat
  k         : Nat
  ringBlock : Nat
  ringGib   : Nat
  measure   : List Byte
  seedMeas  : List Byte
  hubTable  : SMap (BitVec 16)
  inputs    : List InEntry
  layouts   : List (List LayoutRun)
  streams   : List StreamEnt
  regions   : List HbmRegion
  folds     : SMap (SMap (Fin 8))
  /-- Section key and IV of an encrypted HBMINIT section (R368, R449). -/
  hbmKey    : Option (List Byte × List Byte)
  deriving DecidableEq, Repr

/-- No image. -/
def Image.none : Image :=
  { flags := 0, stamp := 0, rated := 0, roundLen := 64, blockLog2 := 12, k := 1, ringBlock := 0, ringGib := 0,
    measure := [], seedMeas := [], hubTable := [], inputs := [], layouts := [], streams := [], regions := [],
    folds := [], hbmKey := Option.none }

/-- Fuses (R144, R380, R436): per pillow row the failed physical picot (bit 7: burned in the field; 0x1F none), the
SHA-256 of each operator key, and MIN_SVN. -/
structure Fuses where
  repair : SMap Byte
  opkeys : SMap (List Byte)
  minSvn : Nat
  deriving DecidableEq, Repr

/-- Fuses that nobody has burned. -/
def Fuses.blank : Fuses := { repair := [], opkeys := [], minSvn := 0 }

/-- What a cancelling hold returns to its hold point (R203): the array, the elastic buffer's read position with the
entries that wait, the host queues, and, for a flip or an adaptation flit that falls on a cancelled cycle
(R205), adaptation and ARY_FLIP_STATUS. -/
structure Snap where
  core    : ArrCore
  taken   : Nat × Nat
  entries : List EbEntry
  hostq   : SMap HostQ
  adapt   : Adapt
  flip    : Word
  deriving DecidableEq, Repr

/-- The hold (R201 to R209). -/
structure Hold where
  reqs    : List HoldReq
  /-- Cycles until the common stop; none where no stop is on its way. -/
  stopIn  : Option Nat
  /-- Cycles until the common resume. -/
  goIn    : Option Nat
  stopped : Bool
  /-- Stopped cycles of the current hold. -/
  length  : Nat
  /-- How many cycles the stop cancels. -/
  cancel  : Option Nat
  /-- Causes that were active in the current hold, the latest first. -/
  seen    : List Nat
  /-- Cycles for which each cause has been active while STEP was not (R206). -/
  timers  : SMap Nat
  /-- The start of each of the last 8 cycles, the latest first. -/
  past    : List Snap
  /-- Stopped cycles of the current hold that add to the lag, and whether the last active cause was one of 1 to 5 (R208, R209). -/
  lagN    : Nat
  lagging : Bool
  /-- What the CXL hold waits for: a host queue and the flit of it, or 16,384 + column and the cycle of an atomic (R177, R340). -/
  needs   : List (Nat × Nat)
  /-- Edges of the array clock since START, the model's own clock for the lag (R209). -/
  edges   : Nat
  deriving DecidableEq, Repr

/-- The state of the block. -/
structure State where
  /-- The commands that wait, first in, first out. -/
  pending : List Instr
  /-- The silicon is stepping B0 (R11): fixed for one device. -/
  b0 : Bool
  /-- BAR0's register words and the banks behind its selectors; an unlisted word holds `resetWord`. -/
  regs : SMap Word
  /-- The masters' latches: function 0, function 1, Legend, Cartouche (R326). -/
  latches : SMap Latch
  /-- What the block has driven outward. -/
  out : List Out
  /-- Time since reset in units of 1/18 ns: the common multiple of the line clock and every array clock. -/
  now : Nat
  /-- Meridian's timeline in 1/64 ns (R290). -/
  timeline : DWord
  /-- The array (chapters 04 to 06). -/
  arr : ArrCore
  /-- The loaded image. -/
  img : Image
  /-- The hold tree (R201 to R209). -/
  hold : Hold
  /-- The ingress block and the front end (chapter 03). -/
  ing : Ingress
  /-- The trigger block and the combiner (chapter 07). -/
  trg : Trigger
  /-- The capture controller and the survey engines (chapter 07). -/
  acq : Acq
  /-- The subscriber table, and the accepted SUB_JOIN commands of the context (R343, R372). -/
  subs : SMap Sub
  joins : Nat
  /-- The launch queues of the Ethernet ports (R315). -/
  launch : SMap (List Launch)
  /-- The calibration store in flash (R406). -/
  cal : CalStore
  /-- Adaptation (chapter 08). -/
  adapt : Adapt
  /-- Meridian and the Ethernet ports (chapter 09). -/
  time : TimeSt
  /-- The host queues of the loaded image, the count area (R321, R341), and replay (R337). -/
  hostq : SMap HostQ
  counts : SMap DWord
  replay : ReplayQ
  /-- The Cartouche (chapter 11). -/
  sec : SecSt
  /-- Ageing monitors by kind × 65,536 + index (R410). -/
  health : SMap Monitor
  /-- The flash (R432), and firmware, boot and pins (chapter 13). -/
  flash : Flash
  boot : BootSt
  /-- HBM and DDR5. -/
  mem : MemState
  /-- log2 of a DDR5 module's capacity in units of 32 GiB (R14): 0 to 3. -/
  ddrLog : Fin 4
  /-- Picots whose debug read waits for a fill-port cycle (R145). -/
  peeks : List (Fin 1024)
  /-- The fuses. -/
  fuse : Fuses
  /-- The repair map read from the fuses at COLD reset (R144): entry 16 × pillow + row. -/
  repair : SMap Byte
  /-- The error log (chapter 12). -/
  log : ErrLog
  /-- An UNCORRECTABLE error came in OPENING, READY or LOADED: commands complete with STATE until STOP (R396). -/
  ueStop : Bool
  /-- The ring pairs (chapter 10). -/
  rings : SMap Ring
  /-- Generation of the storage key K_S in the keystream units; 0 where none is held (R353). -/
  keyGen : Nat
  /-- How many values the spec leaves open have been drawn (the model's own). -/
  freeCount : Nat
  deriving DecidableEq, Repr

/-- Reasons the machine stops: none of the table's commands stops it. -/
inductive Fault where
  /-- Raised by no meaning: kept so that the type has a value.  Safe. -/
  | none
  deriving DecidableEq, Repr

/-- Reasons a command has no meaning in the model. -/
inductive Refusal where
  /-- Raised by the dispatch for a row whose meaning is not written yet.  Safe: the model stops. -/
  | notModelled (mnemonic : String)
  deriving DecidableEq, Repr

/-- The array right after a COLD reset. -/
def ArrCore.reset : ArrCore :=
  { picots := [], beats := [], hub := [], commits := [], atomics := [], lanes := [], stores := [], flip := (0, 0), biases := [], round := 0,
    cycle := 0, events := [] }

/-- No hold. -/
def Hold.reset : Hold :=
  { reqs := [], stopIn := none, goIn := none, stopped := false, length := 0, cancel := none, seen := [], timers := [], past := [],
    lagN := 0, lagging := false, needs := [], edges := 0 }

/-- The state right after a COLD reset (R440). -/
def State.reset : State :=
  { pending := [], b0 := true, regs := [], latches := [], out := [], now := 0, timeline := 0, arr := ArrCore.reset, img := Image.none,
    hold := Hold.reset, ing := Ingress.none, trg := Trigger.none,
    acq := Acq.none, subs := [], joins := 0, launch := [], cal := CalStore.none,
    adapt := Adapt.none, time := TimeSt.none, hostq := [], counts := [], replay := { ring := none, blocks := [], next := none, taken := 0 },
    sec := SecSt.none, health := [], flash := Flash.blank, boot := BootSt.none, mem := MemState.blank, ddrLog := 0, peeks := [], fuse := Fuses.blank, repair := [], log := { entries := [], nextSeq := 0 }, ueStop := false, rings := [], keyGen := 0, freeCount := 0 }

end Sys2Proof.Machine
end

