-- ==== Sys2Proof/Machine/Ops.lean ====
section
/-!
DEFINITION. The named operations over registers and stores that every meaning uses.
-/

namespace Sys2Proof.Machine

/-- What every meaning answers: the table's commands all have an effect. -/
abbrev Outcome := Host.Outcome State Fault Refusal

/-- Replace bits [lo + n − 1 : lo] of a word. -/
def putField (w : Word) (lo n : Nat) (v : Nat) : Word :=
  let mask : Word := BitVec.ofNat 32 ((2 ^ n - 1) * 2 ^ lo)
  (w &&& ~~~mask) ||| (BitVec.ofNat 32 (v * 2 ^ lo) &&& mask)

/-- One more, stopping at the maximum (R61, "counters stop at their maximum"). -/
def satInc {w : Nat} (x : BitVec w) (n : Nat := 1) : BitVec w :=
  if x.toNat + n < 2 ^ w then x + BitVec.ofNat w n else BitVec.allOnes w

/-- a − b of two times on the timeline (R291): modulo 2^64 units, read as a signed number. -/
def tlSub (a b : Int) : Int := Int.bmod (a - b) (2 ^ 64)
/-- The same of two fine times (R215), whose unit is 1 ÷ 256 of the timeline's. -/
def fineSub (a b : Int) : Int := Int.bmod (a - b) (2 ^ 72)
/-- One fine time is at or before another. -/
def fineLe (a b : Int) : Bool := decide (fineSub a b ≤ 0)

namespace State

/-- The stored word of a register or of a bank. -/
def rd (s : State) (k : Nat) : Word := SMap.get (resetWord k) s.regs k
/-- Store a register word. -/
def wr (s : State) (k : Nat) (v : Word) : State := { s with regs := SMap.set (resetWord k) s.regs k v }
/-- A field of a register as a number. -/
def rdF (s : State) (k lo n : Nat) : Nat := fieldNat (s.rd k) lo n
/-- Set a field of a register. -/
def wrF (s : State) (k lo n v : Nat) : State := s.wr k (putField (s.rd k) lo n v)
/-- One bit of a register. -/
def rdB (s : State) (k i : Nat) : Bool := bit (s.rd k) i
/-- Set one bit of a register. -/
def wrB (s : State) (k i : Nat) (b : Bool) : State := s.wrF k i 1 b.toNat
/-- A 64-bit pair (R8). -/
def rd64 (s : State) (k : Nat) : DWord := s.rd (k + 4) ++ s.rd k
/-- Store a 64-bit pair. -/
def wr64 (s : State) (k : Nat) (v : DWord) : State := (s.wr k (v.extractLsb' 0 32)).wr (k + 4) (v.extractLsb' 32 32)
/-- Count in a 32-bit counter that stops at its maximum. -/
def count (s : State) (k : Nat) (n : Nat := 1) : State := s.wr k (satInc (s.rd k) n)
/-- Count in a 64-bit counter that stops at its maximum. -/
def count64 (s : State) (k : Nat) (n : Nat := 1) : State := s.wr64 k (satInc (s.rd64 k) n)
/-- Count in a field that stops at its maximum. -/
def countF (s : State) (k lo n : Nat) (by' : Nat := 1) : State :=
  s.wrF k lo n (min (s.rdF k lo n + by') (2 ^ n - 1))
/-- Drive something outward. -/
def emit (s : State) (o : Out) : State := { s with out := s.out ++ [o] }
/-- Draw a value the spec leaves open. -/
def free (s : State) : BitVec 64 × State :=
  (Config.freeValue s.freeCount, { s with freeCount := s.freeCount + 1 })

/-- 256 open bits. -/
def free256 (s : State) : BitVec 256 × State :=
  let a := s.free
  let b := a.2.free
  let c := b.2.free
  let d := c.2.free
  (d.1 ++ c.1 ++ b.1 ++ a.1, d.2)

/-- Requests to the DRBG, which reseeds after every 2^20 of them (R352). -/
def request (s : State) (n : Nat := 1) : State := { s with sec := { s.sec with reqs := (s.sec.reqs + n) % 2 ^ 20 } }

/-- Bytes from the DRBG, one request (R352). -/
def draw (s : State) (n : Nat) : List Byte × State :=
  let t := s.request
  ((List.range n).map (fun i => Config.drbgByte (s.sec.drawn + i)), { t with sec := { t.sec with drawn := s.sec.drawn + n } })

/-- The generation number of `n` new keys of the DRBG (R352): no number is drawn twice. -/
def newGen (s : State) (n : Nat := 1) : Nat × State := (s.freeCount + 1, { s.request n with freeCount := s.freeCount + 1 })

/-- SEC_CTX_STATUS.STATE (R348). -/
def ctx (s : State) : Nat := s.rdF Reg.SEC_CTX_STATUS 0 3
def setCtx (s : State) (n : Nat) : State := s.wrF Reg.SEC_CTX_STATUS 0 3 n
/-- The context is protected (R347). -/
def isProtected (s : State) : Bool := s.rdB Reg.SEC_CTX_STATUS 3
/-- ARY_STATUS.STATE. -/
def aryState (s : State) : Nat := s.rdF Reg.ARY_STATUS 0 3
def setAryState (s : State) (n : Nat) : State := s.wrF Reg.ARY_STATUS 0 3 n

/-- The MSI-X table masks a vector (R345). -/
def vecMasked (s : State) (v : BitVec 6) : Bool := s.rdB (Reg.msix v.toNat 3) 0

/-- Send an MSI-X vector (R345). -/
def sendVector (s : State) (v : BitVec 6) : State := s.emit (.msix v (s.rd64 (Reg.msix v.toNat 0)) (s.rd (Reg.msix v.toNat 2)))

/-- Raise an MSI-X vector (R345): a masked one becomes pending. -/
def raise (s : State) (v : BitVec 6) : State :=
  if s.vecMasked v then s.wrB (Reg.msixPba v.toNat) (v.toNat % 32) true else s.sendVector v

/-- Raise the vector of a block source (R345, HQ_IRQ_MAP): 0 ERR, 1 HLT, 2 SEC, 3 TIM, 4 TRG, 5 ACQ, 6 ARY. -/
def irq (s : State) (src : Nat) : State :=
  let k := Reg.HQ_IRQ_MAP (src / 4)
  let b := 8 * (src % 4)
  if s.rdB k (b + 7) then s.raise (field (s.rd k) b 6) else s

end State

/-- Context states (R348). -/
abbrev ctxNone : Nat := 0
abbrev ctxOpening : Nat := 1
abbrev ctxReady : Nat := 2
abbrev ctxLoaded : Nat := 3
abbrev ctxRunning : Nat := 4
abbrev ctxHalted : Nat := 5
abbrev ctxEnding : Nat := 6
abbrev ctxScrubbing : Nat := 7

/-- ARY_STATUS.STATE values. -/
abbrev aryIdle : Nat := 0
abbrev aryBist : Nat := 1
abbrev aryLoading : Nat := 2
abbrev aryRunning : Nat := 3
abbrev aryHeld : Nat := 4
abbrev aryStopped : Nat := 5

/-- The little-endian bytes of a value (R2). -/
def bytesOf {w : Nat} (n : Nat) (x : BitVec w) : List Byte := (List.range n).map (fun i => x.extractLsb' (8 * i) 8)

/-- The value of little-endian bytes (R2). -/
def ofBytes : List Byte → Nat
  | [] => 0
  | b :: bs => b.toNat + 256 * ofBytes bs

/-- A little-endian field of a byte buffer; bytes past its end read as zero. -/
def leAt (bs : List Byte) (off n : Nat) : Nat := ofBytes ((bs.drop off).take n)

end Sys2Proof.Machine
end

