-- ==== Sys2Proof/Machine/CaptureClose.lean ====
section
/-!
DEFINITION. What the stop of a context or of the device does to captures, trigger outputs and the front end (R90, R239,
R246, R396, R399).
-/

namespace Sys2Proof.Machine.State

/-- log2 of the block length (ING_BLOCK_CFG): a value outside 6 to 16 acts as the nearer end. -/
def blockLog (s : State) : Nat := max 6 (min 16 (s.rdF Reg.ING_BLOCK_CFG 0 5))
/-- Samples of a block (R90). -/
def blockLen (s : State) : Nat := 2 ^ s.blockLog
/-- The block of a sample index (R90). -/
def blockOf (s : State) (n : Nat) : Nat := n / s.blockLen

/-- DEPTH and PEAK of the capture queue (ACQ_QUEUE). -/
def queueStatus (s : State) : State :=
  let n := s.acq.queue.length
  (s.wrF Reg.ACQ_QUEUE 0 13 n).wrF Reg.ACQ_QUEUE 16 16 (max n (s.rdF Reg.ACQ_QUEUE 16 16))

/-- A class's open event closes and enters the capture queue with the next EVENT_NUMBER (R246). -/
def closeEvent (s : State) (c : Nat) : State :=
  match s.acq.opened.find? (fun e => decide (e.1 = c)) with
  | none => s
  | some e =>
    ({ s with acq := { s.acq with
        opened := SMap.erase s.acq.opened c, queue := s.acq.queue ++ [{ e.2 with number := s.acq.next }],
        next := s.acq.next + 1 } } : State).queueStatus

/-- Every open event closes (R246). -/
def closeCaptures (s : State) : State := (s.acq.opened.map Prod.fst).foldl (fun t c => t.closeEvent c) s

/-- The capture controller stops (R399): the event being copied becomes a header-only INCOMPLETE record. -/
def stopCapture (s : State) : State :=
  let q := match s.acq.queue with
    | e :: es => if s.acq.copying then { e with fate := 2 } :: es else e :: es
    | [] => []
  { s with acq := { s.acq with stopped := true, queue := q } }

/-- The pins of an output while its pulse is on or off (R238): the idle level is low, or high when INVERT is 1. -/
def drivePin (s : State) (o : Nat) (on : Bool) : State := s.emit (.trig o (on != s.rdB (Reg.TRG_OUT_CFG o) 30))

/-- Every trigger output drives the idle level of INVERT 0, its reset value (R239, R417). -/
def resetOutputs (s : State) : State := (List.range 16).foldl (fun t o => t.emit (.trig o false)) s

/-- The trigger outputs go to their idle level, and no pending pulse is left (R239). -/
def idleOutputs (s : State) : State :=
  let high := (s.trg.outs.filter (fun e => e.2.high)).map Prod.fst
  { high.foldl (fun t o => t.drivePin o false) s with trg := { s.trg with outs := [] } }

/-- The front end goes on to the end of the block of the newest sample delivered (R396). -/
def freezeRing (s : State) : State :=
  { s with ing := { s.ing with lastBlock := s.ing.newest.map s.blockOf } }

end Sys2Proof.Machine.State
end

