-- ==== Sys2Proof/Machine/AdaptBase.lean ====
section
/-!
DEFINITION. What the array and the combiner give adaptation (R256, R260, R261, R274): the descriptor's and the policy's
fields, the input journal's marks, the trainer's buffers at a flip.
-/

namespace Sys2Proof.Machine

/-- A field of the adaptation descriptor (R256); zero where the image is not adaptive. -/
def Adapt.dsc (a : Adapt) (off n : Nat) : Nat := leAt (a.desc.getD []) off n
/-- A field of the policy block in force (R286). -/
def Adapt.pol (a : Adapt) (off n : Nat) : Nat := leAt a.policy off n
/-- A bit of ENABLE in a policy block (R286). -/
def polOn (policy : List Byte) (i : Nat) : Bool := (leAt policy 6 2).testBit i
/-- A signed 16-bit field of a policy block. -/
def polS16 (policy : List Byte) (off : Nat) : Int := signedCode 16 (leAt policy off 2)

/-- Zero m and v, s to 0, P1 and P2 to 1.0 (R274, R275). -/
def Trainer.resetState (t : Trainer) : Trainer := { t with moments := [], step := 0, p1 := fpOne, p2 := fpOne }

/-- After a flip the network that was the shadow is live, and the other variant is bound: it writes the other buffer, once it has
copied the live network there (R257, R274). -/
def Trainer.flip (t : Trainer) : Trainer := { t with target := !t.target, copying := true }

/-- A swap whose flip has taken place is complete (R279, R288). -/
def Adapt.swapped (a : Adapt) : Adapt :=
  match a.swapAt with
  | some f => { a with swapAt := .none, steps := 0, swaps := a.swaps + 1, lastSwap := f }
  | .none => a

namespace State

/-- The image is adaptive (R256). -/
def adaptive (s : State) : Bool := s.adapt.desc.isSome

/-- A flip of the logicals `sel` that swaps the networks (R257, R274). -/
def adaptFlip (s : State) (sel : Word) : State :=
  let set := s.adapt.dsc 7 1
  if s.adaptive && decide (set ≠ 0) && decide (sel.toNat % 256 &&& set = set) then
    { s with adapt := ({ s.adapt with trainer := s.adapt.trainer.flip } : Adapt).swapped }
  else s

/-- A flip armed by the Legend controller is rejected (R280), or an action misses its block (R284). -/
def policyMiss (s : State) : State := { s with adapt := { s.adapt with miss := s.adapt.miss + 1 } }

/-- The trainer journals an entry of a block (R260): a skip mark, or its codes and column sums with a BAD mark; of blocks before
the last J nothing is left. -/
def journalEntry (s : State) (e : EbEntry) : State :=
  if s.adaptive then
    let a := s.adapt
    let skip := e.shed || e.overrun
    let mark := SMap.get 0 a.journal e.block ||| (skip.toNat + 2 * e.bad.toNat)
    let kept {α : Type} (m : SMap α) : SMap α := m.filter (fun x => decide (e.block < x.1 + a.dsc 0x1C 4))
    let rows := SMap.get [] a.jdata e.block
    { s with adapt := { a with journal := SMap.set 0 (kept a.journal) e.block mark,
                               jdata := SMap.set [] (kept a.jdata) e.block (if skip then rows else rows ++ [(e.k, e.data)]) } }
  else s

/-- An accepted firing whose reference index is `n` on the stream's channel (R261). -/
def noteFiring (s : State) (cls : Nat) (n : Int) : State :=
  if s.adaptive then { s with adapt := { s.adapt with firings := s.adapt.firings ++ [(cls, n.toNat)] } } else s

end State

end Sys2Proof.Machine
end

