-- ==== Sys2Proof/Machine/Access.lean ====
section
/-!
DEFINITION. What every register access shares (R8, R9, R324 to R329): violations, privilege, the word that an offset
names behind a selector, and the write of a word under its access types.
-/

namespace Sys2Proof.Machine

/-- MASTER of ERR_ACCESS_INFO. -/
def masterNum : Master → Nat
  | .f0 => 0
  | .f1 => 1
  | .legend => 2
  | .cartouche => 3

/-- KIND of ERR_ACCESS_INFO. -/
abbrev kNarrow : Nat := 0
abbrev kWide : Nat := 1
abbrev kUnaligned : Nat := 2
abbrev kPriv : Nat := 3
abbrev kState : Nat := 4
abbrev kUnmapped : Nat := 5

namespace State

/-- An access violation (R324, R325, R329): counted, and captured while VALID is 0. -/
def violation (s : State) (kind : Nat) (m : Master) (off : Nat) : State :=
  let s1 := s.count Reg.ERR_ACCESS
  if s.rdB Reg.ERR_ACCESS_INFO 31 then s1
  else s1.wr Reg.ERR_ACCESS_INFO (BitVec.ofNat 32 (2 ^ 31 + kind * 2 ^ 28 + masterNum m * 2 ^ 26 + off % 2 ^ 25))

/-- A write that the register's own rule refuses (R329). -/
def refuse (s : State) (m : Master) (off : Nat) : State := s.violation kState m off

/-- GLB_BOOT_STATUS.PHASE (R428). -/
def phase (s : State) : Nat := s.rdF Reg.GLB_BOOT_STATUS 28 4
/-- Set the phase. -/
def setPhase (s : State) (n : Nat) : State := s.wrF Reg.GLB_BOOT_STATUS 28 4 n

/-- Does the block of an offset answer (R429)? -/
def answers (s : State) (off : Nat) : Bool :=
  let glbErr := decide (off < 0x0002_0000)
  let hqSec := decide (0x000A_0000 ≤ off) && decide (off < 0x000E_0000)
  let timHlt := (decide (0x0006_0000 ≤ off) && decide (off < 0x0008_0000)) || (decide (0x000E_0000 ≤ off) && decide (off < 0x0010_0000))
  let p := s.phase
  glbErr || decide (p = 7) || (hqSec && decide (4 ≤ p)) || (timHlt && decide (4 ≤ p) && decide (p ≠ 8))

/-- A register write that has a row of its own: a block that does not answer ignores it, counted as STATE (R429). -/
def atReg (s : State) (m : Master) (off : Nat) (f : State → State) : State :=
  if s.answers off then f s else s.refuse m off

/-- May this master use P registers (R8)? -/
def privileged (s : State) (m : Master) : Bool :=
  match m with
  | .cartouche => true
  | .f1 => s.rdB Reg.SEC_PRIV 0
  | _ => false

/-- The word that holds the register at an offset: registers behind a selector lie in their banks. -/
def wordKey (s : State) (off : Nat) : Nat :=
  if 0x0004_0404 ≤ off ∧ off < 0x0004_0420 then Reg.prim (s.rdF Reg.TRG_PRIM_SEL 0 10) off
  else if 0x0004_0504 ≤ off ∧ off < 0x0004_0520 then Reg.mask (s.rdF Reg.TRG_MASK_SEL 0 6) off
  else if 0x0004_2004 ≤ off ∧ off < 0x0004_2088 then Reg.cls (s.rdF Reg.TRG_CLASS_SEL 0 6) off
  else if 0x000A_0504 ≤ off ∧ off < 0x000A_0514 then Reg.sub (s.rdF Reg.HQ_SUB_SEL 0 10) off
  else off

/-- A word written under the access types of its fields. -/
def mergeWord (s : State) (off : Nat) (v : Word) : State :=
  match regAt off with
  | none => s
  | some (r, h) =>
    let k := s.wordKey off
    s.wr k (mergeWrite (r.rwMask h) (r.w1cMask h) (s.rd k) v)

end State

end Sys2Proof.Machine
end

