-- ==== Sys2Proof/Machine/Crypto.lean ====
section
/-!
DEFINITION. The published algorithms the block computes: AES-256 (FIPS 197), counter mode, GHASH and GCM
(SP 800-38D), SHA-256 (FIPS 180-4), and the cyclic checks of R79, R88 and R117.  A 128-bit block whose bits the spec
numbers holds its octet i in bits [8i + 7 : 8i] (R2).
-/

namespace Sys2Proof.Machine

/-- The S-box, entry i in bits [8i + 7 : 8i]. -/
def aesSbox : Nat :=
  0x16bb54b00f2d99416842e6bf0d89a18cdf2855cee9871e9b948ed9691198f8e19e1dc186b95735610ef6034866b53e708a8bbd4b1f74dde8c6b4a61c2e2578ba08ae7a65eaf4566ca94ed58d6d37c8e779e4959162acd3c25c2406490a3a32e0db0b5ede14b8ee4688902a22dc4f816073195d643d7ea7c41744975fec130ccdd2f3ff1021dab6bcf5389d928f40a351a89f3c507f02f94585334d43fbaaefd0cf584c4a39becb6a5bb1fc20ed00d153842fe329b3d63b52a05a6e1b1a2c830975b227ebe28012079a059618c323c7041531d871f1e5a534ccf73f362693fdb7c072a49cafa2d4adf04759fa7dc982ca76abd7fe2b670130c56f6bf27b777c63

/-- One octet through the S-box. -/
def subByte (x : Byte) : Byte := BitVec.ofNat 8 (aesSbox >>> (8 * x.toNat))

/-- Multiplication by x in GF(2^8). -/
def xtime (x : Byte) : Byte := if x.getLsbD 7 then (x <<< 1) ^^^ 0x1b else x <<< 1

/-- Octet `i` of a list, zero past its end. -/
def octet (bs : List Byte) (i : Nat) : Byte := bs.getD i 0

/-- Octets XORed one by one, as long as the shorter list. -/
def xorBytes (a b : List Byte) : List Byte := List.zipWith (· ^^^ ·) a b

/-- The words of the AES-256 key schedule from word `i` on, `ws` the last eight words, latest last. -/
def aesExpand : Nat → Nat → Byte → List (List Byte) → List (List Byte)
  | 0, _, _, _ => []
  | n + 1, i, rc, ws =>
    let t := ws.getD 7 []
    let t' :=
      if i % 8 = 0 then
        match (t.drop 1 ++ t.take 1).map subByte with
        | b :: bs => (b ^^^ rc) :: bs
        | [] => []
      else if i % 8 = 4 then t.map subByte else t
    let w := xorBytes (ws.getD 0 []) t'
    w :: aesExpand n (i + 1) (if i % 8 = 0 then xtime rc else rc) (ws.drop 1 ++ [w])

/-- The 60 words of the key schedule of a 32-octet key. -/
def aesSchedule (key : List Byte) : List (List Byte) :=
  let ws := (List.range 8).map (fun i => (key.drop (4 * i)).take 4)
  ws ++ aesExpand 52 8 0x01 ws

/-- Round key `r`, 16 octets. -/
def roundKey (ks : List (List Byte)) (r : Nat) : List Byte := ((ks.drop (4 * r)).take 4).flatten

/-- ShiftRows on octets in column order. -/
def shiftRows (s : List Byte) : List Byte := (List.range 16).map (fun i => octet s ((5 * i) % 16))

/-- MixColumns on one column. -/
def mixColumn (a b c d : Byte) : List Byte :=
  [xtime a ^^^ (xtime b ^^^ b) ^^^ c ^^^ d, a ^^^ xtime b ^^^ (xtime c ^^^ c) ^^^ d,
   a ^^^ b ^^^ xtime c ^^^ (xtime d ^^^ d), (xtime a ^^^ a) ^^^ b ^^^ c ^^^ xtime d]

/-- MixColumns. -/
def mixColumns (s : List Byte) : List Byte :=
  ((List.range 4).map (fun j =>
    mixColumn (octet s (4 * j)) (octet s (4 * j + 1)) (octet s (4 * j + 2)) (octet s (4 * j + 3)))).flatten

/-- Rounds 1 to 13 and the last one. -/
def aesRounds (ks : List (List Byte)) : Nat → Nat → List Byte → List Byte
  | 0, r, s => xorBytes (shiftRows (s.map subByte)) (roundKey ks r)
  | n + 1, r, s => aesRounds ks n (r + 1) (xorBytes (mixColumns (shiftRows (s.map subByte))) (roundKey ks r))

/-- AES-256 of one 16-octet block. -/
def aesBlock (key blk : List Byte) : List Byte :=
  let ks := aesSchedule key
  aesRounds ks 13 1 (xorBytes blk (roundKey ks 0))

/-- The octets of a numbered value (R2). -/
def octets (n : Nat) (x : Nat) : List Byte := (List.range n).map (fun i => BitVec.ofNat 8 (x >>> (8 * i)))

/-- The numbered value of octets. -/
def ofOctets : List Byte → Nat
  | [] => 0
  | b :: bs => b.toNat + 256 * ofOctets bs

/-- AES-256 of a numbered 128-bit block. -/
def aesNum (key : BitVec 256) (x : BitVec 128) : BitVec 128 :=
  BitVec.ofNat 128 (ofOctets (aesBlock (octets 32 key.toNat) (octets 16 x.toNat)))

/-- One step of the product in the field of GHASH: bit i of an octet string, most significant of octet 0 first. -/
def ghashMulStep (x : Nat) (i : Nat) (zv : Nat × Nat) : Nat × Nat :=
  let z := if x.testBit (127 - i) then zv.1 ^^^ zv.2 else zv.1
  let v := if zv.2 % 2 = 1 then (zv.2 / 2) ^^^ (0xE1 * 2 ^ 120) else zv.2 / 2
  (z, v)

/-- The product in the field of GHASH of two values read most significant octet first. -/
def ghashMul (x y : Nat) : Nat := ((List.range 128).foldl (fun zv i => ghashMulStep x i zv) (0, y)).1

/-- An octet string read most significant octet first. -/
def beNat (bs : List Byte) : Nat := bs.foldl (fun a b => 256 * a + b.toNat) 0

/-- The octets of a value, most significant first. -/
def beOctets (n : Nat) (x : Nat) : List Byte := (octets n x).reverse

/-- GHASH of 16-octet blocks under the hash key, most significant octet first. -/
def ghash (h : Nat) (blocks : List (List Byte)) : Nat := blocks.foldl (fun y b => ghashMul (y ^^^ beNat b) h) 0

/-- An octet string cut into 16-octet blocks, the last padded with zeros. -/
def blocks16 (bs : List Byte) : List (List Byte) :=
  (List.range ((bs.length + 15) / 16)).map (fun i =>
    let b := (bs.drop (16 * i)).take 16
    b ++ List.replicate (16 - b.length) 0)

/-- Counter mode of SP 800-38D: `n` octets of keystream from counter block J (its last four octets count). -/
def gcmStream (key j : List Byte) (n : Nat) : List Byte :=
  ((List.range ((n + 15) / 16)).map (fun i =>
    aesBlock key (j.take 12 ++ beOctets 4 (beNat (j.drop 12) + 1 + i)))).flatten.take n

/-- The tag of GCM over additional data and ciphertext. -/
def gcmTag (key iv aad ct : List Byte) : List Byte :=
  let h := beNat (aesBlock key (List.replicate 16 0))
  let len := beOctets 8 (8 * aad.length) ++ beOctets 8 (8 * ct.length)
  xorBytes (beOctets 16 (ghash h (blocks16 aad ++ blocks16 ct ++ [len]))) (aesBlock key (iv ++ [0, 0, 0, 1]))

/-- AES-256-GCM sealing under a 12-octet IV: ciphertext and tag. -/
def gcmSeal (key iv aad pt : List Byte) : List Byte × List Byte :=
  let ct := xorBytes pt (gcmStream key (iv ++ [0, 0, 0, 1]) pt.length)
  (ct, gcmTag key iv aad ct)

/-- AES-256-GCM opening: none where the tag does not match. -/
def gcmOpen (key iv aad ct tag : List Byte) : Option (List Byte) :=
  if gcmTag key iv aad ct = tag then some (xorBytes ct (gcmStream key (iv ++ [0, 0, 0, 1]) ct.length)) else none

/-- SHA-256 round constants, constant i in bits [32i + 31 : 32i]. -/
def shaK : Nat :=
  0xc67178f2bef9a3f7a4506ceb90befffa8cc7020884c8781478a5636f748f82ee682e6ff35b9cca4f4ed8aa4a391c0cb334b0bcb52748774c1e376c0819a4c116106aa070f40e3585d6990624d192e819c76c51a3c24b8b70a81a664ba2bfe8a192722c8581c2c92e766a0abb650a735453380d134d2c6dfc2e1b213827b70a851429296706ca6351d5a79147c6e00bf3bf597fc7b00327c8a831c66d983e515276f988da5cb0a9dc4a7484aa2de92c6f240ca1cc0fc19dc6efbe4786e49b69c1c19bf1749bdc06a780deb1fe72be5d74550c7dc3243185be12835b01d807aa98ab1c5ed5923f82a459f111f13956c25be9b5dba5b5c0fbcf71374491428a2f98

/-- The eight working words of SHA-256. -/
structure Sha where
  a : Word
  b : Word
  c : Word
  d : Word
  e : Word
  f : Word
  g : Word
  h : Word
  deriving DecidableEq, Repr

/-- The initial hash value of SHA-256. -/
def Sha.init : Sha :=
  { a := 0x6a09e667, b := 0xbb67ae85, c := 0x3c6ef372, d := 0xa54ff53a,
    e := 0x510e527f, f := 0x9b05688c, g := 0x1f83d9ab, h := 0x5be0cd19 }

/-- The message schedule of SHA-256 from its last 16 words. -/
def shaSchedule : Nat → List Word → List Word
  | 0, ws => ws
  | n + 1, ws =>
    let m := ws.length
    let w15 := ws.getD (m - 15) 0
    let w2 := ws.getD (m - 2) 0
    let s0 := w15.rotateRight 7 ^^^ w15.rotateRight 18 ^^^ (w15 >>> 3)
    let s1 := w2.rotateRight 17 ^^^ w2.rotateRight 19 ^^^ (w2 >>> 10)
    shaSchedule n (ws ++ [ws.getD (m - 16) 0 + s0 + ws.getD (m - 7) 0 + s1])

/-- One round of SHA-256. -/
def shaRound (x : Sha) (kw : Word) : Sha :=
  let s1 := x.e.rotateRight 6 ^^^ x.e.rotateRight 11 ^^^ x.e.rotateRight 25
  let ch := (x.e &&& x.f) ^^^ (~~~x.e &&& x.g)
  let t1 := x.h + s1 + ch + kw
  let s0 := x.a.rotateRight 2 ^^^ x.a.rotateRight 13 ^^^ x.a.rotateRight 22
  let maj := (x.a &&& x.b) ^^^ (x.a &&& x.c) ^^^ (x.b &&& x.c)
  { a := t1 + (s0 + maj), b := x.a, c := x.b, d := x.c, e := x.d + t1, f := x.e, g := x.f, h := x.g }

/-- SHA-256 over one 64-octet block. -/
def shaBlock (x : Sha) (blk : List Byte) : Sha :=
  let ws := shaSchedule 48 ((List.range 16).map (fun i => BitVec.ofNat 32 (beNat ((blk.drop (4 * i)).take 4))))
  let y := (List.range 64).foldl (fun z i => shaRound z (ws.getD i 0 + BitVec.ofNat 32 (shaK >>> (32 * i)))) x
  { a := x.a + y.a, b := x.b + y.b, c := x.c + y.c, d := x.d + y.d,
    e := x.e + y.e, f := x.f + y.f, g := x.g + y.g, h := x.h + y.h }

/-- SHA-256 of an octet string: 32 octets. -/
def sha256 (m : List Byte) : List Byte :=
  let pad := m ++ [0x80] ++ List.replicate ((119 - m.length % 64) % 64) 0 ++ beOctets 8 (8 * m.length)
  let x := (List.range (pad.length / 64)).foldl (fun z i => shaBlock z ((pad.drop (64 * i)).take 64)) Sha.init
  ([x.a, x.b, x.c, x.d, x.e, x.f, x.g, x.h].map (fun w => beOctets 4 w.toNat)).flatten

/-- A cyclic check, most significant bit first, over the bits of a list: polynomial without its top bit. -/
def crcBits (w : Nat) (poly init : Nat) (bits : List Bool) : Nat :=
  bits.foldl (fun c b =>
    let top := (c.testBit (w - 1)) != b
    let c' := c * 2 % 2 ^ w
    if top then c' ^^^ poly else c') init

/-- The bits of octets, least significant bit of each octet first. -/
def bitsLsb (bs : List Byte) : List Bool := (bs.map (fun b => (List.range 8).map (fun i => b.getLsbD i))).flatten

/-- The bits of octets, most significant bit of each octet first. -/
def bitsMsb (bs : List Byte) : List Bool := (bs.map (fun b => (List.range 8).map (fun i => b.getLsbD (7 - i)))).flatten

/-- A value of `w` bits with its bits in reverse order. -/
def revBits (w x : Nat) : Nat := (List.range w).foldl (fun a i => a * 2 + (if x.testBit i then 1 else 0)) 0

/-- The keystream of one 256-bit storage word (R356). -/
def keystream (key : BitVec 256) (space col row addr : Nat) : BitVec 256 :=
  let x (h : Nat) : BitVec 128 :=
    BitVec.ofNat 128 (h + addr % 2 ^ 24 * 2 + space * 2 ^ 25 + col * 2 ^ 28 + row * 2 ^ 33)
  aesNum key (x 1) ++ aesNum key (x 0)

end Sys2Proof.Machine
end

