-- ==== Sys2Proof/Machine/HostRing.lean ====
section
/-!
DEFINITION. Submission and completion rings (R330 to R334, R345, R346): the fields of the running entry, and the one
way a command completes.
-/

namespace Sys2Proof.Machine

/-- Completion status codes (R334). -/
abbrev stOk : Byte := 0x00
abbrev stInvalidOpcode : Byte := 0x01
abbrev stBadParam : Byte := 0x02
abbrev stBadAddress : Byte := 0x03
abbrev stImageRefused : Byte := 0x04
abbrev stState : Byte := 0x05
abbrev stUnavailable : Byte := 0x06
abbrev stRefused : Byte := 0x07
abbrev stAborted : Byte := 0x08
abbrev stTableFull : Byte := 0x09

/-- Fields of a submission entry (R333). -/
structure SubEntry where
  raw : BitVec 512
  deriving DecidableEq, Repr

namespace SubEntry
def opcode (e : SubEntry) : Byte := e.raw.extractLsb' 0 8
def flags (e : SubEntry) : Byte := e.raw.extractLsb' 8 8
def cid (e : SubEntry) : BitVec 16 := e.raw.extractLsb' 16 16
def addr0 (e : SubEntry) : DWord := e.raw.extractLsb' 64 64
def len0 (e : SubEntry) : DWord := e.raw.extractLsb' 128 64
def addr1 (e : SubEntry) : DWord := e.raw.extractLsb' 192 64
def len1 (e : SubEntry) : DWord := e.raw.extractLsb' 256 64
/-- `n` bytes of PARAM from byte `off` of it, as a number. -/
def param (e : SubEntry) (off n : Nat) : Nat := (e.raw.extractLsb' (320 + 8 * off) (8 * n)).toNat
/-- Byte `i` of the entry. -/
def byte (e : SubEntry) (i : Nat) : Byte := e.raw.extractLsb' (8 * i) 8
/-- The byte offset `lo` of a field [lo, hi) that must be zero and is not. -/
def firstNonzero (e : SubEntry) (lo hi : Nat) : Option Nat :=
  if (List.range (hi - lo)).any (fun i => decide (e.byte (lo + i) ≠ 0)) then some lo else none
/-- The byte offset of the first bad field of an entry (R334): FLAGS bits [7:1], the reserved field, or PARAM from `used` on. -/
def badByte (e : SubEntry) (used : Nat) : Option Nat :=
  if field e.flags 1 7 ≠ 0 then some 1
  else match e.firstNonzero 4 8 with
    | some i => some i
    | none => e.firstNonzero (0x28 + used) 0x40
end SubEntry

namespace State

/-- A ring pair. -/
def ring (s : State) (r : Nat) : Ring := SMap.get Ring.reset s.rings r
/-- Store a ring pair. -/
def setRing (s : State) (r : Nat) (x : Ring) : State := { s with rings := SMap.set Ring.reset s.rings r x }
/-- The running entry of a ring. -/
def running (s : State) (r : Nat) : Option SubEntry := (s.ring r).running.map SubEntry.mk
/-- Entries of a ring's completion ring (HQ_RING_CFG.CQ_LOG2). -/
def cqSize (s : State) (r : Nat) : Nat := 2 ^ s.rdF (Reg.HQ_RING_CFG r) 16 4
/-- Entries of a ring's submission ring. -/
def sqSize (s : State) (r : Nat) : Nat := 2 ^ s.rdF (Reg.HQ_RING_CFG r) 20 4
/-- The completion ring is full: one more completion would meet HQ_CQ_HEAD (R330). -/
def cqFull (s : State) (r : Nat) : Bool :=
  ((s.ring r).cqTail + 1) % s.cqSize r = s.rdF (Reg.HQ_CQ_HEAD r) 0 12 % s.cqSize r

/-- Fetching waits for completion space (R330, HQ_RING_STAT.CQ_FULL): a completion is held, or an entry of the enabled ring is
outstanding and the completion ring is full. -/
def fetchWaits (s : State) (r : Nat) : Bool :=
  (s.ring r).held.isSome || (s.rdB (Reg.HQ_RING_CFG r) 31 && (s.ring r).running.isNone && s.cqFull r &&
    decide (s.rdF (Reg.HQ_RING_STAT r) 20 12 ≠ s.rdF (Reg.HQ_SQ_TAIL r) 0 12))

/-- Raise a completion ring's vector (R346). -/
def ringIrq (s : State) (r : Nat) : State :=
  (s.setRing r { s.ring r with waiting := 0 }).raise (field (s.rd (Reg.HQ_RING_CFG r)) 8 6)

/-- LOAD, START, STOP and CTX_OPEN run one at a time across all rings (R332, R381). -/
def serialOp (op : Byte) : Bool := decide (op ∈ [0x01, 0x02, 0x03, 0x40])

/-- The command of a ring has its turn: no such command that was fetched before it waits to begin.  A CTX_OPEN or STOP that has
begun answers the others by the context state (R349 to R351). -/
def isTurn (s : State) (r : Nat) : Bool :=
  match s.running r with
  | none => false
  | some e => !serialOp e.opcode || (List.range 16).all (fun k =>
      decide (k = r) || decide (s.sec.opening = some k) || decide (k ∈ s.sec.stops) ||
      match s.running k with
      | some d => !serialOp d.opcode || decide ((s.ring r).turn ≤ (s.ring k).turn)
      | none => true)

/-- The 32 bytes of a completion entry. -/
def completionBytes (s : State) (r : Nat) (c : Completion) : List Byte :=
  bytesOf 2 c.cid ++ [c.status, if (s.ring r).phase then 1 else 0] ++
  bytesOf 2 (BitVec.ofNat 16 (s.rdF (Reg.HQ_RING_STAT r) 20 12)) ++ [BitVec.ofNat 8 r, 0] ++
  bytesOf 8 c.res0 ++ bytesOf 8 c.res1 ++ [0, 0, 0, 0] ++ bytesOf 4 c.detail

/-- Write a completion at the completion tail (R330, R331), and raise its vector when it is due (R346). -/
def writeCompletion (s : State) (r : Nat) (c : Completion) : State :=
  let x := s.ring r
  let addr := s.rd64 (Reg.HQ_CQ_BASE r) + BitVec.ofNat 64 (32 * x.cqTail)
  let tail := (x.cqTail + 1) % s.cqSize r
  let s1 := s.emit (.hostWrite addr (s.completionBytes r c))
  let s2 := s1.setRing r { x with
    cqTail := tail, phase := if tail = 0 then !x.phase else x.phase,
    waiting := if c.noIrq then x.waiting else x.waiting + 1, held := none }
  let cnt := s.rdF (Reg.HQ_RING_CFG r) 0 8
  if !c.noIrq && (cnt ≤ 1 || x.waiting + 1 ≥ cnt) then s2.ringIrq r else s2

/-- Complete the running command of a ring with a status, its results and DETAIL; into a full completion ring nothing
is written until space appears (R330).  Without a running command nothing happens. -/
def complete (s : State) (r : Nat) (status : Byte) (res0 res1 : DWord := 0) (detail : Word := 0) : State :=
  match s.running r with
  | none => s
  | some e =>
    let c : Completion := { cid := e.cid, noIrq := e.flags.getLsbD 0, status := status, res0 := res0, res1 := res1,
                            detail := detail }
    let s1 := (s.setRing r { s.ring r with running := none }).wrB (Reg.HQ_RING_STAT r) 0 true
    if s.cqFull r then s1.setRing r { s1.ring r with held := some c }
    else s1.writeCompletion r c

/-- Complete a ring's command that has been running since an earlier step, where it still runs. -/
def completeOp (s : State) (op : Byte) (r : Nat) (status : Byte) (res0 res1 : DWord := 0) : State :=
  match s.running r with
  | some e => if e.opcode = op then s.complete r status res0 res1 else s
  | none => s

/-- Is a count word in use by a queue or a subscriber (R339, R343)? -/
def countUsed (s : State) (i : Nat) : Bool :=
  s.hostq.any (fun e => decide (e.2.loc = i)) || s.subs.any (fun e => decide (e.2.state ≠ 0) && decide (e.2.locCnt = i))

/-- FREE_MIN of ARY_STATUS: the smallest number of free slots in any picot; 0 while no array is loaded. -/
def freeMin (s : State) : Nat :=
  if s.aryState = aryIdle then 0
  else s.arr.picots.foldl (fun n e => min n (8 - (e.2.slots.filter (fun x => decide (x.2.kind ≠ SlotKind.free))).length)) 8

/-- ARY_STATUS as it reads: STATE is HELD while a hold stops the running array. -/
def aryStatus (s : State) : Word :=
  let st := if s.aryState = aryRunning ∧ s.hold.stopped then aryHeld else s.aryState
  putField (putField (s.rd Reg.ARY_STATUS) 0 3 st) 8 8 s.freeMin

/-- Complete with STATE: DETAIL is ARY_STATUS (R334). -/
def completeState (s : State) (r : Nat) : State := s.complete r stState 0 0 s.aryStatus

/-- Complete every running command but those of the rings in `keep` with ABORTED (R351, R374, R396). -/
def abortRings (s : State) (keep : List Nat) : State :=
  (List.range 16).foldl (fun t r => if r ∈ keep then t else t.complete r stAborted) s

end State

end Sys2Proof.Machine
end

