-- ==== Sys2Proof/Machine/Errors.lean ====
section
/-!
DEFINITION. The error log (R390 to R395), the stop of a context (R187, R396) and CONTAIN (R399).
-/

namespace Sys2Proof.Machine

/-- Error classes (R390). -/
abbrev clsCorrected : Nat := 0
abbrev clsInfo : Nat := 1
abbrev clsLatent : Nat := 2
abbrev clsUncorrectable : Nat := 3
abbrev clsFatal : Nat := 4

/-- The oldest entry that is pending (R394). -/
def ErrLog.oldestPending (l : ErrLog) : Option ErrEntry := l.entries.find? (·.pending)

/-- Take out the first entry that `p` picks; none where there is none. -/
def dropFirst (p : ErrEntry → Bool) : List ErrEntry → Option (List ErrEntry)
  | [] => none
  | e :: es => if p e then some es else (dropFirst p es).map (e :: ·)

/-- Room in a full log (R395): what is displaced, or none where every entry is pending. -/
def displace (es : List ErrEntry) : Option (List ErrEntry) :=
  match dropFirst (fun e => decide (e.cls = clsCorrected)) es with
  | some r => some r
  | none =>
    match dropFirst (fun e => decide (e.cls = clsInfo) || decide (e.cls = clsLatent)) es with
    | some r => some r
    | none => dropFirst (fun e => !e.pending) es

/-- The newest CORRECTED entry that an occurrence coalesces into (R393). -/
def coalesces (now : DWord) (ms : Nat) (src : Byte) (loc : DWord) (e : ErrEntry) : Bool :=
  decide (e.cls = clsCorrected) && decide (e.source = src) && decide (e.loc = loc) &&
    decide ((now - e.time).toNat < ms * 64000000)

/-- Count one more occurrence in the newest matching entry (R393). -/
def coalesceInto (p : ErrEntry → Bool) : List ErrEntry → Option (List ErrEntry)
  | [] => none
  | e :: es =>
    match coalesceInto p es with
    | some r => some (e :: r)
    | none => if p e then some ({ e with count := e.count + 1, coalesced := true } :: es) else none

namespace State

/-- An entry was displaced or discarded (R395). -/
def logOverflow (s : State) : State := ((s.count Reg.ERR_LOG_OVERFLOW).wrB Reg.ERR_STATUS 29 true).irq 0

/-- Create an entry in the log (R392 to R395). -/
def addEntry (s : State) (src : Byte) (cls : Nat) (loc : DWord) (withheld lost contain : Bool) : State :=
  let old := s.log.oldestPending
  let e : ErrEntry :=
    { seq := s.log.nextSeq, source := src, cls := cls, nested := old.isSome, contain := contain, coalesced := false,
      withheld := withheld, lost := lost, pending := decide (clsUncorrectable ≤ cls),
      firstSeq := match old with | some o => o.seq | none => s.log.nextSeq,
      count := 1, time := s.timeline, loc := loc }
  let seq := s.log.nextSeq + 1
  if s.log.entries.length < 64 then { s with log := { entries := s.log.entries ++ [e], nextSeq := seq } }
  else
    match displace s.log.entries with
    | some es =>
      ({ s with log := { entries := es ++ [e], nextSeq := seq } } : State).logOverflow
    | none =>
      ({ s with log := { s.log with nextSeq := seq } } : State).logOverflow

/-- A corrected error (R393): coalesced, or an entry of its own. -/
def logCorrected (s : State) (src : Byte) (loc : DWord) : State :=
  let ms := s.rdF Reg.ERR_CFG 16 16
  let s1 := (s.count Reg.ERR_CE_TOTAL).wrB Reg.ERR_STATUS 27 true
  let s2 :=
    match coalesceInto (coalesces s.timeline ms src loc) s.log.entries with
    | some es => { s1 with log := { s1.log with entries := es } }
    | none => s1.addEntry src clsCorrected loc false false false
  if s.rdB Reg.ERR_CFG 0 then s2.irq 0 else s2

/-- An INFO or LATENT error. -/
def logMinor (s : State) (src : Byte) (cls : Nat) (loc : DWord) : State := s.addEntry src cls loc false false false

/-- Logical cycles of the array since START: 64 × round + cycle. -/
def cycleIndex (s : State) : Nat := s.arr.round.toNat * 64 + s.arr.cycle

/-- The cycle that runs will be cancelled (R203). -/
def doomed (s : State) : Bool := s.hold.cancel.isSome && !s.hold.stopped

/-- Request the hold with cause STOP, which is deferred and not resumed (R201, R202). -/
def holdStop (s : State) : State :=
  let h := s.hold
  let s1 : State := { s with hold := { h with
      reqs := h.reqs ++ [{ cause := 7, src := .stop, cancel := false, cyc := s.cycleIndex }],
      goIn := none
      stopIn := if h.stopped then none else match h.stopIn with | some n => some n | none => some 8
      seen := if 7 ∈ h.seen then h.seen else 7 :: h.seen } }
  if 7 ∈ h.seen then s1 else s1.count (Reg.ARY_HOLD_COUNT 7)

/-- The stop of a running context (R187, R239, R396): the array enters STOPPED under cause STOP, open capture events
close, the outputs go idle, the front end completes its block, and the context becomes HALTED. -/
def haltContext (s : State) : State :=
  ((((s.holdStop.setAryState aryStopped).closeCaptures).idleOutputs).freezeRing).setCtx ctxHalted

/-- What an UNCORRECTABLE error does to the context (R396). -/
def stopForError (s : State) : State :=
  if s.ctx = ctxRunning then s.haltContext
  else if s.ctx = ctxOpening ∨ s.ctx = ctxReady ∨ s.ctx = ctxLoaded then { s.abortRings [] with ueStop := true }
  else s

/-- CONTAIN (R399): the context stops if it runs, the capture controller stops. -/
def enterContain (s : State) : State :=
  let s1 := ((if s.ctx = ctxRunning then s.haltContext else s).stopCapture).wrB Reg.ERR_STATUS 31 true
  if s.rdB Reg.ERR_STATUS 31 then s1 else s1.irq 0

/-- An UNCORRECTABLE error (R394, R396). -/
def uncorrectable (s : State) (src : Byte) (loc : DWord) (withheld lost : Bool := false) : State :=
  let nest := s.log.oldestPending.isSome
  let s1 := ((s.addEntry src clsUncorrectable loc withheld lost nest).count Reg.ERR_UE_TOTAL).wrB Reg.ERR_STATUS 28 true
  let s2 := (s1.irq 0).stopForError
  if nest then s2.enterContain else s2

/-- A FATAL error (R394, R399). -/
def fatal (s : State) (src : Byte) (loc : DWord) : State :=
  let s1 := ((s.addEntry src clsFatal loc false false true).count Reg.ERR_UE_TOTAL).wrB Reg.ERR_STATUS 28 true
  (s1.irq 0).stopForError.enterContain

/-- Remove the head entry of the log, which ends its pending state (ERR_LOG_CTL.POP). -/
def popLog (s : State) : State := { s with log := { s.log with entries := s.log.entries.tail } }

/-- An array fault (R187): ARY_FAULT holds the first, every one is counted, and the context stops.  `ahead` is how many cycles
after the current one the fault's cycle lies.  A cycle that will be cancelled takes no fault: it is issued again (R203). -/
def arrayFault (s : State) (kind : Nat) (pic : Fin 1024) (logical unit origin : Nat) (ahead : Nat := 0) : State :=
  if s.doomed then s
  else
    let w : Word := BitVec.ofNat 32 (kind * 2 ^ 28 + (pic.val / 32) * 2 ^ 21 + (pic.val % 32) * 2 ^ 16 +
      logical * 2 ^ 13 + unit * 2 ^ 10 + origin * 2 ^ 6 + (if ahead = 0 then s.arr.cycle else (s.arr.cycle + ahead) % max 1 s.img.roundLen))
    let s1 := if s.rd Reg.ARY_FAULT = 0 then s.wr Reg.ARY_FAULT w else s
    (s1.count Reg.ARY_FAULT_COUNT).uncorrectable 0x08 (w.setWidth 64)

/-- A BANK fault (R109, R391): an array fault logged against the picot's storage with symbol 0xFF. -/
def bankFault (s : State) (pic : Fin 1024) (logical word : Nat) : State :=
  let w : Word := BitVec.ofNat 32 (2 * 2 ^ 28 + (pic.val / 32) * 2 ^ 21 + (pic.val % 32) * 2 ^ 16 + logical * 2 ^ 13 +
    3 * 2 ^ 6 + s.arr.cycle)
  let s1 := if s.rd Reg.ARY_FAULT = 0 then s.wr Reg.ARY_FAULT w else s
  if s.doomed then s
  else
    (s1.count Reg.ARY_FAULT_COUNT).uncorrectable 0x01
      (BitVec.ofNat 64 (pic.val % 32 + 32 * (pic.val / 32) + word * 2 ^ 13 + 0xFF * 2 ^ 30))

end State

end Sys2Proof.Machine
end

