-- ==== Sys2Proof/Machine/IngressOps.lean ====
section
/-!
DEFINITION. Channels, blocks, sample time and the flow of samples (R74, R82, R85, R89 to R91, R374, R396).
-/

namespace Sys2Proof.Machine

/-- num ÷ den to the nearest integer, halfway to even (R52). -/
def rnDiv (num : Int) (den : Nat) : Int :=
  let q := num / (den : Int)
  let r := 2 * (num % (den : Int))
  if r < den then q else if (den : Int) < r then q + 1 else if q % 2 = 0 then q else q + 1

/-- A rational to the nearest integer (R52). -/
def Q.rn (x : Q) : Int := rnDiv x.num x.den

/-- A word read as a signed number. -/
def sword {w : Nat} (x : BitVec w) : Int := x.toInt

namespace State

/-- A context runs: it is neither NONE nor SCRUBBING. -/
def contextRuns (s : State) : Bool := decide (1 ≤ s.ctx) && decide (s.ctx ≤ 6)

/-- The enabled channels in ascending order, with their ING_CHMAP words (R89). -/
def channels (s : State) : List (Nat × Word) :=
  s.regs.filterMap (fun e =>
    if 0x0002_4000 ≤ e.1 ∧ e.1 < 0x0002_8000 ∧ bit e.2 31 then some ((e.1 - 0x0002_4000) / 4, e.2) else none)

/-- The lane, slot and group of an ING_CHMAP word. -/
def mapLane (w : Word) : Nat := fieldNat w 24 6
def mapSlot (w : Word) : Nat := fieldNat w 16 8
def mapGroup (w : Word) : Nat := fieldNat w 10 6

/-- MODE of a lane. -/
def laneMode (s : State) (n : Nat) : Nat := s.rdF (Reg.ING_LANE_CFG n) 29 2
/-- A lane's state beside its registers. -/
def lane (s : State) (n : Nat) : LaneIn := SMap.get LaneIn.none s.ing.lanes n
def setLane (s : State) (n : Nat) (x : LaneIn) : State :=
  { s with ing := { s.ing with lanes := SMap.set LaneIn.none s.ing.lanes n x } }
/-- A link's state beside its registers. -/
def link (s : State) (k : Nat) : JLink := SMap.get JLink.none s.ing.links k
def setLink (s : State) (k : Nat) (x : JLink) : State :=
  { s with ing := { s.ing with links := SMap.set JLink.none s.ing.links k x } }

/-- Parameters of a link (ING_JESD_LINK): first lane, L, M, S, N', E. -/
def linkFirst (s : State) (k : Nat) : Nat := s.rdF (Reg.ING_JESD_LINK k) 26 6
def linkL (s : State) (k : Nat) : Nat := s.rdF (Reg.ING_JESD_LINK k) 21 5 + 1
def linkM (s : State) (k : Nat) : Nat := s.rdF (Reg.ING_JESD_LINK k) 13 8 + 1
def linkS (s : State) (k : Nat) : Nat := s.rdF (Reg.ING_JESD_LINK k) 10 3 + 1
def linkNp (s : State) (k : Nat) : Nat := if s.rdB (Reg.ING_JESD_LINK k) 9 then 16 else 12
def linkE (s : State) (k : Nat) : Nat := s.rdF (Reg.ING_JESD_LINK k) 1 8 + 1
def linkEn (s : State) (k : Nat) : Bool := s.rdB (Reg.ING_JESD_LINK k) 0
/-- F of a link (R85). -/
def linkF (s : State) (k : Nat) : Nat := s.linkM k * s.linkS k * s.linkNp k / (8 * s.linkL k)
/-- Samples of each converter in one LEMC (R87). -/
def linkSpan (s : State) (k : Nat) : Nat := s.linkE k * 256 * s.linkS k / s.linkF k
/-- Does a link hold a lane? -/
def linkHas (s : State) (k n : Nat) : Bool :=
  s.linkEn k && decide (s.linkFirst k ≤ n) && decide (n < s.linkFirst k + s.linkL k)
/-- Its lanes. -/
def linkLanes (s : State) (k : Nat) : List Nat := (List.range 64).filter (fun n => s.linkHas k n)

/-- The rules that an enabled link meets (R84, R85, R90).  A link whose lanes would pass lane 63 breaks them too (DESIGN CHOICE,
log entry 79). -/
def linkOk (s : State) (k : Nat) : Bool :=
  let bits := s.linkM k * s.linkS k * s.linkNp k
  decide (bits % (8 * s.linkL k) = 0) && decide (1 ≤ s.linkF k) && decide (s.linkF k ≤ 256) &&
  decide (s.linkE k * 256 % s.linkF k = 0) && decide (s.linkL k ≤ 32) && decide (s.linkFirst k + s.linkL k ≤ 64) &&
  !(s.link k).refused &&
  (List.range 16).all (fun j => decide (j = k) || !(s.linkLanes k).any (fun n => s.linkHas j n))

/-- A lane's own rule (R74): RATE in its mode's range, and no LOWLAT in JESD204C mode. -/
def laneRateOk (w : Word) : Bool :=
  let r := fieldNat w 0 13
  match fieldNat w 29 2 with
  | 0 => decide (800 ≤ r) && decide (r ≤ 3250) && !bit w 28
  | 1 => decide (800 ≤ r) && decide (r ≤ 2800)
  | 2 => decide (2000 ≤ r) && decide (r ≤ 5600)
  | _ => true

/-- CFG_ERR of a lane (R74, R85). -/
def laneCfgErr (s : State) (n : Nat) : Bool :=
  let w := s.rd (Reg.ING_LANE_CFG n)
  (bit w 31 && !laneRateOk w) || (List.range 16).any (fun k => s.linkHas k n && !s.linkOk k)

/-- The lane is enabled (R74, R85). -/
def laneOn (s : State) (n : Nat) : Bool :=
  s.rdB (Reg.ING_LANE_CFG n) 31 && decide (s.laneMode n ≠ 3) && !s.rdB (Reg.ING_LANE_STATUS n) 6

/-- The lane runs in a Noler mode. -/
def noler (s : State) (n : Nat) : Bool := decide (s.laneMode n = 1) || decide (s.laneMode n = 2)

/-- The enabled link whose first lane is `n`. -/
def linkOf (s : State) (n : Nat) : Option Nat :=
  (List.range 16).find? (fun k => s.linkEn k && decide (s.linkFirst k = n))

/-- The source delivers its own samples: an ALIGNED lane not in FAULT, or a started link (R82, R88, R89). -/
def delivers (s : State) (n : Nat) : Bool :=
  s.laneOn n &&
    (if s.noler n then s.rdB (Reg.ING_LANE_STATUS n) 1 && !s.rdB (Reg.ING_LANE_STATUS n) 5
     else match s.linkOf n with
       | some k => (s.link k).started && s.linkOk k
       | none => false)

/-- The context runs in replay mode (R337). -/
def replaying (s : State) : Bool := s.rdB Reg.ING_EB_MODE 1

/-- Samples of a block pass into the front end (R335, R374, R396). -/
def flows (s : State) (block : Nat) : Bool :=
  !s.replaying &&
    (decide (s.ctx = ctxRunning) ||
      (decide (s.ctx = ctxHalted) && match s.ing.lastBlock with
        | some b => decide (block ≤ b)
        | none => false))

/-- Count ingress frames that are discarded with no context running, or while one ends (SEC_IDLE_FRAMES). -/
def countIdle (s : State) (block frames : Nat) : State := if s.flows block then s else s.count Reg.SEC_IDLE_FRAMES frames

/-- Put samples before the front end; those that do not flow are discarded. -/
def deliverRaw (s : State) (xs : List RawSample) : State :=
  { s with ing := { s.ing with raw := s.ing.raw ++ xs.filter (fun x => s.flows (s.blockOf x.index)) } }

/-- The channels that a slot of a lane feeds (R89). -/
def fedBy (s : State) (lane slot : Nat) : List Nat :=
  (s.channels.filter (fun e => decide (mapLane e.2 = lane) && decide (mapSlot e.2 = slot))).map Prod.fst

/-- Fill samples for every channel of a lane (R80, R82): raw code 0 marked BAD. -/
def fillRaw (s : State) (lane first count : Nat) : State :=
  let chs := (s.channels.filter (fun e => decide (mapLane e.2 = lane))).map Prod.fst
  s.deliverRaw ((List.range count).flatMap (fun i =>
    chs.map (fun c => { chan := c, index := first + i, code := 0, bad := true, ovr := false, s16 := (s.lane lane).s16,
                            stamp := s.timeline.toNat })))

/-- The anchor of a channel and the delay that R91 adds to it: none before the source has one. -/
def anchorOf (s : State) (chan : Nat) : Option (Anchor × Int) :=
  let lane := mapLane (s.rd (Reg.ING_CHMAP chan))
  let td := sword (s.rd (Reg.ING_LANE_TDELAY lane))
  match s.ing.replay with
  | some (t, n) => some ({ time := t.toNat, index := n, tagged := true }, 0)
  | none =>
    match (if s.noler lane then (s.lane lane).anchor
           else match s.linkOf lane with
             | some k => (s.link k).anchor
             | none => none) with
    | some a => some (a, if a.tagged then td else -td)
    | none => none

/-- The acquisition time of index n + p ÷ q on a channel, exact, in timeline units (R91). -/
def acqQ (s : State) (chan : Nat) (n : Int) (p : Int := 0) (q : Nat := 1) : Q :=
  match s.anchorOf chan with
  | some (a, td) =>
    { num := (a.time + td) * (2 ^ 32 * q) + ((n - a.index) * q + p) * (s.rd64 Reg.ING_SAMPLE_PERIOD).toNat
      den := 2 ^ 32 * q }
  | none => { num := (Config.noAnchor n.toNat).toNat }

/-- The acquisition time of an index in timeline units (R91) and in fine time (R215). -/
def acqTime (s : State) (chan : Nat) (n : Int) : Int := (s.acqQ chan n).rn
def acqFine (s : State) (chan : Nat) (n : Int) (p : Int := 0) (q : Nat := 1) : Int :=
  let x := s.acqQ chan n p q
  rnDiv (256 * x.num) x.den

/-- ACQ_REF_CHANNEL (R215). -/
def refChannel (s : State) : Nat := s.rdF Reg.ACQ_REF_CHANNEL 0 12

/-- The index of a channel's next history code. -/
def nextIndex (s : State) (chan : Nat) : Nat := SMap.get (s.ing.first * s.blockLen) s.ing.next chan

/-- Every enabled channel has delivered block b. -/
def through (s : State) (b : Nat) : Bool :=
  let chs := s.channels
  !chs.isEmpty && chs.all (fun e => decide ((b + 1) * s.blockLen ≤ s.nextIndex e.1))

/-- Set CFG_ERR of every lane anew (R74, R85). -/
def setCfgErrs (s : State) : State :=
  (List.range 64).foldl (fun t n => t.wrB (Reg.ING_LANE_STATUS n) 6 (s.laneCfgErr n)) s

end State

end Sys2Proof.Machine
end

