-- ==== Sys2Proof/Machine/Servo.lean ====
section
/-!
DEFINITION. The timeline, its steps, the servo, PPS and the 10 MHz input (R289 to R293, R304 to R313).
-/

namespace Sys2Proof.Machine

/-- a − b of two timeline values (R291). -/
def tlDiff (a b : DWord) : Int := (a - b).toInt

/-- A signed 32-bit field of an integer that saturates. -/
def sat32 (x : Int) : Word := BitVec.ofInt 32 (max (-(2 ^ 31)) (min (2 ^ 31 - 1) x))

/-- One unit of the servo's I: 2^−160 × 10^−9 (log entry 16 says why this is exact). -/
abbrev rateLog : Nat := 160
abbrev giga : Nat := 1000000000

namespace State

/-- ADJ (R289). -/
def adj (s : State) : Int := sword (s.rd Reg.TIM_RATE)

/-- T = ERA × 2^64 + v (R290). -/
def ptpTime (s : State) : Int := (s.rd Reg.TIM_ERA).toNat * 2 ^ 64 + s.timeline.toNat

/-- Put the timeline and ERA at a time T. -/
def setPtpTime (s : State) (t : Int) : State :=
  ({ s with timeline := BitVec.ofInt 64 t } : State).wr Reg.TIM_ERA (BitVec.ofInt 32 (t / 2 ^ 64))

/-- The timeline's advance per line-clock edge in units of 2^−32 (R289). -/
def edgeStep (s : State) : Nat := (2 ^ 38 + s.adj).toNat

/-- `n` line-clock edges (R289, R290): the accumulator keeps its fraction, and ERA counts wraps. -/
def lineEdges (s : State) (n : Nat) : State :=
  let t : Nat := s.timeline.toNat * 2 ^ 32 + s.time.frac.toNat + n * s.edgeStep
  let s1 : State := { s with now := s.now + 18 * n, timeline := BitVec.ofNat 64 (t / 2 ^ 32),
                             time := { s.time with frac := BitVec.ofNat 32 t } }
  s1.wr Reg.TIM_ERA (s.rd Reg.TIM_ERA + BitVec.ofNat 32 (t / 2 ^ 96))

/-- The line-clock edges to the next wrap (R290). -/
def edgesToWrap (s : State) : Nat :=
  let left := 2 ^ 96 - (s.timeline.toNat * 2 ^ 32 + s.time.frac.toNat)
  (left + s.edgeStep - 1) / max 1 s.edgeStep

/-- The timeline is stepped by a signed number of units (R293, R309). -/
def stepTimeline (s : State) (d : Int) : State := (s.setPtpTime (s.ptpTime + d)).wrB Reg.TIM_STATUS 2 true

/-- TIM_SET_CTL is written with GO (R293): nothing while a context runs. -/
def writeTimeSet (s : State) (m : Master) (relative : Bool) : State :=
  if s.contextRuns then s.refuse m Reg.TIM_SET_CTL
  else
    let s1 := s.wrB Reg.TIM_SET_CTL 1 relative
    if relative then s1.stepTimeline (s.rd64 Reg.TIM_SET).toInt
    else
      (({ s1 with timeline := s.rd64 Reg.TIM_SET } : State).wr Reg.TIM_ERA (s.rd Reg.TIM_SET_ERA)).wrB Reg.TIM_STATUS 2 true

/-! The servo. -/

/-- Stamps of event messages at a port's pins: a capture less ILAT, or plus ELAT (R292, R296). -/
def inStamp (s : State) (p : Nat) (t : DWord) : DWord := t - (s.rd (Reg.TIM_PORT_ILAT p)).setWidth 64
def outStamp (s : State) (p : Nat) (t : DWord) : DWord := t + (s.rd (Reg.TIM_PORT_ELAT p)).setWidth 64

/-- The servo's state: 0 FREERUN, 1 ACQUIRING, 2 LOCKED, 3 HOLDOVER. -/
def servo (s : State) : Nat := s.rdF Reg.TIM_STATUS 0 2

/-- L (R306): MAX_SLEW while a context runs, and never more than ADJ's 32 bits hold. -/
def slewLimit (s : State) : Nat :=
  if s.contextRuns then min (2 ^ 31 - 1) ((s.rd Reg.TIM_SLEW).toNat * 2 ^ 38 / giga) else 2 ^ 31 - 1

/-- Clamp to ±l. -/
def clampTo (l : Nat) (x : Int) : Int := max (-(l : Int)) (min (l : Int) x)

/-- ADJ from a rate in the servo's unit, and SLEW_LIMIT (R306, R308). -/
def setAdj (s : State) (rate : Int) : State :=
  let l := s.slewLimit
  let a := clampTo l (rnDiv (-rate) (giga * 2 ^ (rateLog - 38)))
  (s.wr Reg.TIM_RATE (BitVec.ofInt 32 a)).wrB Reg.TIM_STATUS 3 (decide (a.natAbs = l))

/-- ADJ after L changes, as a context opens or ends or TIM_SLEW is written (R293, R308): without an offset it follows I, else it is held
within the limit. -/
def relimit (s : State) : State :=
  if s.servo = 0 ∨ s.servo = 3 then s.setAdj s.time.rate
  else
    let l := s.slewLimit
    let a := clampTo l s.adj
    (s.wr Reg.TIM_RATE (BitVec.ofInt 32 a)).wrB Reg.TIM_STATUS 3 (decide (a.natAbs = l))

/-- The servo moves to a state (R308, R310): without an offset ADJ follows I alone. -/
def moveServo (s : State) (n : Nat) : State :=
  if s.servo = n then s
  else
    let s1 := ((s.wrF Reg.TIM_STATUS 0 2 n).countF Reg.TIM_STATUS 16 16)
    let s2 : State := { s1 with time := { s1.time with lockRun := 0, outRun := 0 } }
    if n = 0 ∨ n = 3 then s2.setAdj s2.time.rate else s2

/-- PHASE_SRC and FORCE_FREERUN put the servo in FREERUN (R308). -/
def phaseSrc (s : State) : Nat := if s.rdB Reg.TIM_SERVO_CFG 4 then 0 else match s.rdF Reg.TIM_SERVO_CFG 0 2 with | 3 => 0 | n => n
def followServoCfg (s : State) : State := if s.phaseSrc = 0 then s.moveServo 0 else s

/-- The rate that the selected frequency source measures, in the servo's unit (R307): none where it is absent. -/
def freqRate (s : State) : Option Int :=
  match s.rdF Reg.TIM_SERVO_CFG 2 2 with
  | 1 => if s.rdB Reg.TIM_STATUS 4 then some (s.time.l1Rate * giga * 2 ^ (rateLog - 38)) else none
  | _ => if s.rdB Reg.TIM_STATUS 5 then some (((s.rd Reg.TIM_10M_STAT).extractLsb' 0 24).toInt * 2 ^ rateLog) else none

/-- An offset is applied to the loop (R306, R307): θ in 2^−16 ns, the interval 2^log s. -/
def applyOffset (s : State) (th log : Int) : State :=
  let g := s.rd (if s.servo = 2 then Reg.TIM_GAIN_LOCK else Reg.TIM_GAIN_ACQ)
  let unit : Nat := 2 ^ (128 - log).toNat
  let lim := s.slewLimit * giga * 2 ^ (rateLog - 38)
  let src := s.rdF Reg.TIM_SERVO_CFG 2 2
  let s1 : State :=
    if src = 1 ∨ src = 2 then
      match s.freqRate with
      | some r => { s with time := { s.time with rate := r } }
      | none => s.wrB Reg.TIM_STATUS 6 true
    else { s with time := { s.time with rate := clampTo lim (s.time.rate + fieldNat g 0 16 * th * unit) } }
  s1.setAdj (s1.time.rate + fieldNat g 16 16 * th * unit)

/-- An offset beyond the outlier bound (R309, R311). -/
def outlier (s : State) : State := (s.count Reg.TIM_OUTLIERS).wrB Reg.TIM_STATUS 7 true

/-- An offset in ACQUIRING (R308, R309). -/
def acquire (s : State) (th log : Int) (counts : Bool) : State :=
  if (s.rd Reg.TIM_STEP_THR).toNat * 2 ^ 16 < th.natAbs ∧ !s.contextRuns then
    ({ s with time := { s.time with lockRun := 0 } } : State).stepTimeline (rnDiv (-th) 1024)
  else
    let w := s.rdF Reg.TIM_LOCK_CFG 0 16 * 1024
    let run := if th.natAbs ≤ w ∧ counts then s.time.lockRun + 1 else 0
    let s1 : State := { s with time := { s.time with lockRun := run } }
    (if counts && decide (max 1 (s.rdF Reg.TIM_LOCK_CFG 16 8) ≤ run) then s1.moveServo 2 else s1).applyOffset th log

/-- A valid offset drives the servo (R306 to R309). -/
def servoOffset (s : State) (th log : Int) : State :=
  let w := s.rdF Reg.TIM_LOCK_CFG 0 16 * 1024
  let s1 := s.wr Reg.TIM_OFFSET (sat32 th)
  if s1.phaseSrc = 0 then s1.moveServo 0
  else match s1.servo with
  | 0 => (s1.moveServo 1).acquire th log false
  | 1 => s1.acquire th log true
  | 2 =>
    if 4 * w < th.natAbs then
      let run := s1.time.outRun + 1
      let s2 : State := { s1.outlier with time := { s1.time with outRun := run } }
      if max 1 (s.rdF Reg.TIM_LOCK_CFG 24 8) ≤ run then s2.moveServo 1 else s2
    else ({ s1 with time := { s1.time with outRun := 0 } } : State).applyOffset th log
  | _ => if th.natAbs ≤ 4 * w then (s1.moveServo 2).applyOffset th log else (s1.moveServo 1).acquire th log false

/-- A quiet interval (R308). -/
def quiet (s : State) : State :=
  match s.servo with
  | 1 => s.moveServo 0
  | 2 => s.moveServo 3
  | _ => s

/-- A filtered delay (R304, R305): the first sample, or a step of weight 2^−DFILT. -/
def filterDelay (s : State) (old : Option Int) (x : Int) : Int :=
  match old with
  | none => x
  | some m => let d : Nat := 2 ^ s.rdF Reg.TIM_SERVO_CFG 8 4; rnDiv (m * d + (x - m)) d

/-- The ordinary clock: enabled, its port, peer delay (TIM_PTP_CFG). -/
def ocEn (s : State) : Bool := s.rdB Reg.TIM_PTP_CFG 8
def ocPort (s : State) : Nat := s.rdF Reg.TIM_PTP_CFG 9 1
def ocPeer (s : State) : Bool := s.rdB Reg.TIM_PTP_CFG 10
/-- TC_MODE: 0 off, 1 end-to-end, 2 peer-to-peer; 3 acts as 0. -/
def tcMode (s : State) : Nat := match s.rdF Reg.TIM_PTP_CFG 11 2 with | 3 => 0 | n => n
/-- delayAsymmetry of a port (R297). -/
def asym (s : State) (port : Nat) : Int := sword (s.rd (Reg.TIM_PORT_ASYM port))

/-- t − t1 in 2^−16 ns of a local stamp and a master time in timeline units (R290, R291, R304). -/
def stampDiff (t : DWord) (master : Int) : Int := (t - BitVec.ofInt 64 master).toInt * 1024

/-- A Sync exchange that is complete yields an offset (R304, R305): in delay request-response mode with mf, in peer-delay
mode with the port's link delay.  TIM_OFFSET reports it whatever PHASE_SRC selects; the servo takes it with PHASE_SRC 1. -/
def syncOffset (s : State) : State :=
  match s.time.sync with
  | some x =>
    match x.t1 with
    | some t1 =>
      let s1 : State := { s with time := { s.time with sync := none } }
      let delay := if s.ocPeer then SMap.get none s.time.link s.ocPort else s.time.mf
      match delay with
      | some d =>
        let th := stampDiff x.t2 t1 - (x.corr + s.asym s.ocPort) - d
        if x.void || !s.ocEn then s1
        else if s.phaseSrc = 1 then s1.servoOffset th x.logInt
        else s1.wr Reg.TIM_OFFSET (sat32 th)
      | none => s1
    | none => s
  | none => s

/-- A Delay_Resp (R304). -/
def delayResp (s : State) (t4 : Int) (corr : DWord) : State :=
  match s.time.req, s.time.done with
  | some t3, some (t2, t1, c) =>
    if !s.ocEn || s.ocPeer then s
    else
      let a := s.asym s.ocPort
      let mpd := rnDiv ((stampDiff t2 t1 - (c + a)) + (-(stampDiff t3 t4) - (corr.toInt - a))) 2
      let mf := s.filterDelay s.time.mf mpd
      ({ s with time := { s.time with mf := some mf, req := none } } : State).wr Reg.TIM_MPD (sat32 mf)
  | _, _ => s

/-- Peer delay is measured on both ports (R305). -/
def peerDelay (s : State) : Bool := decide (s.tcMode = 2) || (s.ocEn && s.ocPeer)

/-- A peer-delay exchange on a port (R305); `c1` and `c4` are the captures of which R296 makes t1 and t4. -/
def pdelayResp (s : State) (port : Nat) (c1 : DWord) (t2 t3 : Int) (c4 : DWord) (corr : Int) : State :=
  if s.peerDelay then
    let x := rnDiv (tlDiff (s.inStamp port c4) (s.outStamp port c1) * 1024 - (t3 - t2) * 1024 - corr) 2
    let l := s.filterDelay (SMap.get none s.time.link port) x
    ({ s with time := { s.time with link := SMap.set none s.time.link port (some l) } } : State).wr (Reg.TIM_PORT_LINK port) (sat32 l)
  else s

/-- A PPS_IN edge (R292, R311). -/
def ppsEdge (s : State) (stamp : DWord) : State :=
  if !s.rdB Reg.TIM_PPS_CFG 31 then s
  else
    let p := stamp - BitVec.ofInt 64 (sword (s.rd Reg.TIM_PPS_IN_DELAY))
    let s1 := s.wr64 Reg.TIM_PPS_IN_STAMP p
    if s.phaseSrc ≠ 2 then s1
    else
      let t := s.ptpTime + tlDiff p s.timeline
      let d := (t + 32 * giga) % (64 * giga) - 32 * giga
      if 64 * giga / 10 < d.natAbs then s1.outlier else s1.servoOffset (d * 1024) 0

/-- The instant at which PPS_OUT drives the edge of the whole second nearest now (R312): TIM_PPS_OUT_DELAY before it, so that the edge is
at the pin on the second (DEDUCED, log entry 89). -/
def ppsInstant (s : State) : DWord :=
  BitVec.ofInt 64 ((s.ptpTime + 32 * giga) / (64 * giga) * (64 * giga) - sword (s.rd Reg.TIM_PPS_OUT_DELAY))

/-- PPS_OUT rises; it stays high for WIDTH × 10 µs, where 0 acts as 1 (R312). -/
def ppsRise (s : State) : State :=
  let t := s.ppsInstant
  ({ s with time := { s.time with ppsOut := true, ppsEnd := t + BitVec.ofNat 64 (max 1 (s.rdF Reg.TIM_PPS_CFG 0 16) * 640000) } } : State).emit
    (.pps true t)

/-- PPS_OUT falls at an instant. -/
def ppsFall (s : State) (t : DWord) : State := ({ s with time := { s.time with ppsOut := false } } : State).emit (.pps false t)

/-- A write of TIM_PPS_CFG: PPS_OUT is driven low while OUT_EN is 0 (R416). -/
def writePpsCfg (s : State) (v : Word) : State :=
  let t := s.mergeWord Reg.TIM_PPS_CFG v
  if s.time.ppsOut && !t.rdB Reg.TIM_PPS_CFG 30 then t.ppsFall t.timeline else t

end State

/-- TIMELINE_WRAP (R290): the line clock runs to the edge at which the timeline wraps. -/
def execTimelineWrap (s : State) : Outcome := .next (s.lineEdges s.edgesToWrap)

/-- TIMELINE_SET_ABSOLUTE (R293): TIM_SET_CTL written with GO and RELATIVE 0. -/
def execTimelineSetAbsolute (m : Master) (s : State) : Outcome :=
  .next (s.atReg m Reg.TIM_SET_CTL (fun t => t.writeTimeSet m false))

/-- TIMELINE_SET_RELATIVE (R293): TIM_SET_CTL written with GO and RELATIVE 1. -/
def execTimelineSetRelative (m : Master) (s : State) : Outcome :=
  .next (s.atReg m Reg.TIM_SET_CTL (fun t => t.writeTimeSet m true))

/-- SYNC_OFFSET_COMPUTE (R304, R306). -/
def execSyncOffsetCompute (s : State) : Outcome := .next s.syncOffset

/-- DELAY_RESP_RECEIVE (R304). -/
def execDelayRespReceive (t4 : Int) (corr : DWord) (s : State) : Outcome := .next (s.delayResp t4 corr)

/-- PDELAY_RESP_RECEIVE (R305). -/
def execPdelayRespReceive (port : Fin 2) (c1 : DWord) (t2 t3 : Int) (c4 : DWord) (corr : Int) (s : State) : Outcome :=
  .next (s.pdelayResp port.val c1 t2 t3 c4 corr)

/-- SERVO_QUIET_TIMEOUT (R308). -/
def execServoQuietTimeout (s : State) : Outcome := .next s.quiet

/-- PPS_IN_EDGE (R311). -/
def execPpsInEdge (stamp : DWord) (s : State) : Outcome := .next (s.ppsEdge stamp)

/-- PPS_OUT_EDGE (R312): PPS_OUT rises. -/
def execPpsOutEdge (s : State) : Outcome := .next (if s.rdB Reg.TIM_PPS_CFG 30 then s.ppsRise else s)

/-- PPS_OUT_PULSE_END (R312): PPS_OUT falls. -/
def execPpsOutPulseEnd (s : State) : Outcome := .next (if s.time.ppsOut then s.ppsFall s.time.ppsEnd else s)

/-- CLK10M_GATE (R313). -/
def execClk10mGate (present : Bool) (ppb : Int) (s : State) : Outcome :=
  let s1 := (s.wrB Reg.TIM_STATUS 5 present).wrB Reg.TIM_10M_STAT 31 present
  .next (if present then s1.wrF Reg.TIM_10M_STAT 0 24 (codeOf 24 (max (-(2 ^ 23)) (min (2 ^ 23 - 1) ppb))) else s1)

/-- The recovered receive clock of the ordinary clock's port comes or goes, and the rate error measured against it (R307): the loss of the
selected source sets FREQ_LOST. -/
def State.l1 (s : State) (clock : Option Int) : State :=
  let s1 := s.wrB Reg.TIM_STATUS 4 clock.isSome
  match clock with
  | some rate => { s1 with time := { s1.time with l1Rate := rate } }
  | none => if s.rdF Reg.TIM_SERVO_CFG 2 2 = 1 then s1.wrB Reg.TIM_STATUS 6 true else s1

/-- L1_LOCK (R307). -/
def execL1Lock (clock : Option Int) (s : State) : Outcome := .next (s.l1 clock)

end Sys2Proof.Machine
end

