-- ==== Sys2Proof/Machine/Subscribers.lean ====
section
/-!
DEFINITION. Records for subscribers and notices for launch (R240, R315, R343).
-/

namespace Sys2Proof.Machine

/-- `n` little-endian bytes of a number. -/
def leBytes (n x : Nat) : List Byte := (List.range n).map (fun i => BitVec.ofNat 8 (x >>> (8 * i)))

/-- Timeline part and fine part of a fine time (R215). -/
def tlPart (t : Int) : Nat := codeOf 64 (t / 256)
def finePart (t : Int) : Nat := codeOf 8 t

namespace State

/-- A subscriber. -/
def sub (s : State) (n : Nat) : Sub := SMap.get Sub.free s.subs n
def setSub (s : State) (n : Nat) (x : Sub) : State := { s with subs := SMap.set Sub.free s.subs n x }

/-- Queue a record for every joined subscriber that takes it (R343). -/
def produce (s : State) (takes : Sub → Bool) (rec' : List Byte) : State :=
  (s.subs.map Prod.fst).foldl (fun t n =>
    let x := t.sub n
    if x.state = 1 ∧ takes x then t.setSub n { x with queue := x.queue ++ [rec'] } else t) s

/-- The system index (R30). -/
def systemIndex (s : State) : Nat := s.rdF Reg.GLB_SYSTEM_INDEX 0 14

/-- A launch queue. -/
def launchQ (s : State) (port : Nat) : List Launch := SMap.get [] s.launch port
def setLaunchQ (s : State) (port : Nat) (q : List Launch) : State :=
  let s1 : State := { s with launch := SMap.set [] s.launch port q }
  let k := Reg.TIM_LAUNCH_STAT port
  (s1.wrF k 0 9 q.length).wrF k 16 9 (max q.length (s.rdF k 16 9))

/-- A notice's place in order of S, then SEQ (R315). -/
def insertLaunch (l : Launch) : List Launch → List Launch
  | [] => [l]
  | x :: xs => if tlSub l.sched x.sched < 0 ∨ (tlSub l.sched x.sched = 0 ∧ l.seq < x.seq) then l :: x :: xs else x :: insertLaunch l xs

/-- A notice reaches a port's launch queue (R315): launch disabled counts it in DROPPED, a full queue in QFULL. -/
def enqueueLaunch (s : State) (port : Nat) (l : Launch) : State :=
  if !s.rdB Reg.TIM_LAUNCH_CFG (16 + port) then s.count (Reg.TIM_LAUNCH_DROPPED port)
  else if 256 ≤ (s.launchQ port).length then s.count (Reg.TIM_LAUNCH_QFULL port)
  else s.setLaunchQ port (insertLaunch l (s.launchQ port))

end State

end Sys2Proof.Machine
end

