-- ==== Sys2Proof/Machine/Ecc.lean ====
section
/-!
DEFINITION. The symbol code over GF(16) (R382 to R385), read on an error pattern: the code is linear, so the syndrome
of a stored word is the syndrome of what differs from the word written.
-/

namespace Sys2Proof.Machine

/-- Multiplication by α in GF(16), x⁴ + x + 1. -/
def gfDbl (a : Nat) : Nat := if 8 ≤ a then (2 * a % 16) ^^^ 3 else 2 * a

/-- The product in GF(16). -/
def gfMul (a b : Nat) : Nat :=
  (if b.testBit 0 then a else 0) ^^^ (if b.testBit 1 then gfDbl a else 0) ^^^
  (if b.testBit 2 then gfDbl (gfDbl a) else 0) ^^^ (if b.testBit 3 then gfDbl (gfDbl (gfDbl a)) else 0)

/-- The quotient in GF(16) by a nonzero element: a × b¹⁴. -/
def gfDiv (a b : Nat) : Nat := (List.range 14).foldl (fun x _ => gfMul x b) a

/-- f(u, v) = u² + uv + δv² (R382). -/
def eccF (u v : Nat) : Nat := gfMul u u ^^^ gfMul u v ^^^ gfMul 8 (gfMul v v)

/-- The point of data symbol k (R383). -/
def dataPoint (k : Nat) : Nat := if k < 14 then k + 2 else k + 3

/-- A syndrome. -/
structure Syndrome where
  s0 : Nat
  s1 : Nat
  s2 : Nat
  s3 : Nat
  deriving DecidableEq, Repr

/-- Add a symbol at a point (R382). -/
def Syndrome.addAt (s : Syndrome) (p x : Nat) : Syndrome :=
  let u := p / 16
  let v := p % 16
  { s0 := s.s0 ^^^ x, s1 := s.s1 ^^^ gfMul u x, s2 := s.s2 ^^^ gfMul v x, s3 := s.s3 ^^^ gfMul (eccF u v) x }

/-- The syndrome of `n` data symbols and the 16 check bits (R383, R385). -/
def syndrome (n data check : Nat) : Syndrome :=
  let z : Syndrome := { s0 := 0, s1 := 0, s2 := 0, s3 := 0 }
  let d : Syndrome := (List.range n).foldl (fun s k => Syndrome.addAt s (dataPoint k) (data / 16 ^ k % 16)) z
  let c : Syndrome := ((d.addAt 0 (check % 16)).addAt 16 (check / 16 % 16)).addAt 1 (check / 256 % 16)
  { c with s3 := c.s3 ^^^ check / 4096 % 16 }

/-- What a read finds: the word as read, a symbol corrected with what is left of the error pattern in the data, or an
uncorrectable word.  Check symbols c0 to c3 are numbered n to n + 3. -/
inductive EccRead where
  | clean
  | corrected (symbol : Nat) (left : Nat)
  | bad
  deriving DecidableEq, Repr

/-- The data symbol at a point of an n-symbol codeword, or n + i for check symbol i (R383). -/
def symbolAt (n p : Nat) : Option Nat :=
  if p = 0 then some n else if p = 16 then some (n + 1) else if p = 1 then some (n + 2)
  else
    let k := if p < 16 then p - 2 else p - 3
    if k < n then some k else none

/-- The decoder (R385) on an error pattern. -/
def eccDecode (n data check : Nat) : EccRead :=
  let s := syndrome n data check
  if s.s0 = 0 ∧ s.s1 = 0 ∧ s.s2 = 0 ∧ s.s3 = 0 then .clean
  else if s.s0 ≠ 0 then
    let u := gfDiv s.s1 s.s0
    let v := gfDiv s.s2 s.s0
    if eccF u v = gfDiv s.s3 s.s0 then
      match symbolAt n (16 * u + v) with
      | some k => .corrected k (if k < n then data ^^^ (s.s0 * 16 ^ k) else data)
      | none => .bad
    else .bad
  else if s.s1 = 0 ∧ s.s2 = 0 then .corrected (n + 3) data
  else .bad

end Sys2Proof.Machine
end

