-- ==== Sys2Proof/Machine/Memory.lean ====
section
/-!
DEFINITION. HBM and DDR5 (R321, R357 to R359, R375, R387, R388): the lines, their protection, reads and writes.
-/

namespace Sys2Proof.Machine

/-- Lines of one pillow's HBM: 144 GiB. -/
abbrev pillowLines : Nat := 603979776
/-- The first line of DDR5: DPA 0x100_0000_0000. -/
abbrev ddrLine : Nat := 0x1_0000_0000
/-- The first DPA of DDR5. -/
abbrev ddrBase : Nat := 0x100_0000_0000

/-- Is a line in HBM? -/
def isHbm (l : Nat) : Bool := decide (l < 4 * pillowLines)

/-- The HBM stack of a line (R321). -/
def stackOf (l : Nat) : Nat := 3 * (l / pillowLines) + l % 3

/-- The controller of a line: HBM stack 0 to 11, DDR5 channel 16 to 23. -/
def controllerOf (l : Nat) : Nat := if isHbm l then stackOf l else 16 + (Config.ddrChannel l).val

/-- The counter block CB(j) of a line (R357). -/
def counterBlock (line : Nat) (version : BitVec 56) (j : Nat) : BitVec 128 :=
  BitVec.ofNat 128 (j % 32 + version.toNat * 2 ^ 5 + line % 2 ^ 44 * 2 ^ 61)

/-- A line's plaintext or ciphertext under the context's K_ENC of its tier (R357). -/
def lineCipher (gen line : Nat) (version : BitVec 56) (x : BitVec 2048) : BitVec 2048 :=
  let key := Config.memoryKey (4 * gen + if isHbm line then 0 else 2)
  (List.range 16).foldl (fun y j =>
    y ^^^ ((aesNum key (counterBlock line version j)).setWidth 2048 <<< (128 * j))) x

/-- The MAC of a line's ciphertext (R358): GHASH over the 16 blocks and the length block, bits [63:0] of its sum with
the enciphered counter block. -/
def lineMac (gen line : Nat) (version : BitVec 56) (c : BitVec 2048) : BitVec 64 :=
  let key := Config.memoryKey (4 * gen + if isHbm line then 1 else 3)
  let h := beNat (octets 16 (aesNum key 0).toNat)
  let blocks := (List.range 16).map (fun j => octets 16 (c.extractLsb' (128 * j) 128).toNat)
  let t := ofOctets (beOctets 16 (ghash h (blocks ++ [octets 16 2048])))
  BitVec.ofNat 64 (t ^^^ (aesNum key (counterBlock line version 0)).toNat)

/-- What the symbol code makes of a line whose codewords differ from those written: the corrected (sector, symbol)
pairs, the pattern left, and whether some sector is uncorrectable (R383, R385). -/
structure LineCheck where
  fixed : List (Nat × Nat)
  left  : BitVec 2048
  bad   : Option Nat
  deriving DecidableEq, Repr

/-- The check of one 64-byte sector. -/
def checkSector (e : BitVec 2048) (j : Nat) : EccRead := eccDecode 136 (e.extractLsb' (512 * j) 512).toNat 0

/-- The check of a line's four sectors. -/
def checkLine (e : BitVec 2048) : LineCheck :=
  if e = 0 then { fixed := [], left := 0, bad := none }
  else
    (List.range 4).foldl (fun c j =>
      match checkSector e j with
      | .clean => { c with left := c.left ^^^ ((e.extractLsb' (512 * j) 512).setWidth 2048 <<< (512 * j)) }
      | .corrected k left =>
        { c with fixed := c.fixed ++ [(j, k)], left := c.left ^^^ (BitVec.ofNat 2048 (left % 2 ^ 512) <<< (512 * j)) }
      | .bad => { c with bad := match c.bad with | some b => some b | none => some j })
      { fixed := [], left := 0, bad := none }

namespace State

/-- A line as stored. -/
def line (s : State) (l : Nat) : Line := SMap.get Line.blank s.mem.lines l
/-- Put a line. -/
def putLine (s : State) (l : Nat) (x : Line) : State :=
  { s with mem := { s.mem with lines := SMap.set Line.blank s.mem.lines l x } }

/-- GiB of installed DDR5 (R14). -/
def ddrGib (s : State) : Nat := 8 * 32 * 2 ^ s.ddrLog.val

/-- Does a DPA lie in installed memory? -/
def backed (s : State) (dpa : Nat) : Bool :=
  decide (dpa < 256 * 4 * pillowLines) || (decide (ddrBase ≤ dpa) && decide (dpa < ddrBase + s.ddrGib * 2 ^ 30))

/-- LOCATION of a memory error (R391). -/
def lineLoc (l sector symbol : Nat) : DWord := BitVec.ofNat 64 (256 * l + sector * 2 ^ 44 + symbol * 2 ^ 46)

/-- A corrected symbol of a line: counted per stack or channel, and logged (R385, R393). -/
def countFixed (s : State) (l : Nat) (f : Nat × Nat) : State :=
  let c := controllerOf l
  if isHbm l then (s.count (Reg.MEM_CE_HBM c)).logCorrected 0x03 (lineLoc l f.1 f.2)
  else (s.count (Reg.MEM_CE_DDR (c - 16))).logCorrected 0x05 (lineLoc l f.1 f.2)

/-- Count an uncorrectable or latent line (MEM_UE). -/
def countUe (s : State) (l : Nat) : State := if isHbm l then s.countF Reg.MEM_UE 16 16 else s.countF Reg.MEM_UE 0 16

/-- Read a line through its controller (R358, R359, R385, R388): codewords that stand as they were written carry the MAC of their
ciphertext; any other pattern is held against the stored MAC.  `bus` is what the environment adds to the stored
ciphertext.  None is a line that is lost, uncorrectable, or fails its MAC; it has been logged.  `withheld` marks a read
of the capture controller (R398). -/
def readLine (s : State) (l : Nat) (bus : BitVec 2048 := 0) (withheld : Bool := false) : State × Option (BitVec 2048) :=
  let x := s.line l
  let src : Byte := if isHbm l then 0x03 else 0x05
  if l ∈ s.mem.lost then (s.uncorrectable src (lineLoc l 0 0) withheld true, none)
  else
    let c := checkLine (x.err ^^^ bus)
    let s1 := c.fixed.foldl (fun t f => t.countFixed l f) s
    match c.bad with
    | some j => ((s1.countUe l).uncorrectable src (lineLoc l j 0) withheld, none)
    | none =>
      if x.version = 0 then (s1, some 0)
      else if c.left = 0 then (s1, some x.data)
      else if lineMac s.keyGen l x.version (lineCipher s.keyGen l x.version x.data ^^^ c.left) = x.mac then
        (s1, some (x.data ^^^ c.left))
      else ((s1.count Reg.SEC_INTEGRITY_FAIL).uncorrectable (if isHbm l then 0x04 else 0x06) (lineLoc l 0 0) withheld, none)

/-- A controller's write counter (R359). -/
def verOf (s : State) (c : Nat) : Nat := SMap.get 1 s.mem.ctr c

/-- A write counter has reached its limit, and this is not recorded yet (R359). -/
def exhausted (s : State) : Bool :=
  s.mem.ctr.any (fun e => decide (2 ^ 56 - 2 ^ 32 ≤ e.2)) && !s.rdB Reg.SEC_CTX_STATUS 11

/-- A write counter at its limit halts the context and records KEY_EXHAUSTED (R359, R391). -/
def exhaust (s : State) : State :=
  let s1 := s.wrB Reg.SEC_CTX_STATUS 11 true
  s1.uncorrectable 0x0B 0

/-- A line as it is written: with the MAC of its ciphertext (R357, R358). -/
def sealLine (s : State) (l : Nat) (version : BitVec 56) (data : BitVec 2048) : Line :=
  { version := version, data := data, err := 0, mac := lineMac s.keyGen l version (lineCipher s.keyGen l version data) }

/-- Write a whole line with new contents (R359, R375, R388). -/
def writeLine (s : State) (l : Nat) (data : BitVec 2048) : State :=
  let c := controllerOf l
  let v := s.verOf c
  let region := (256 * l - ddrBase) / 2 ^ 30
  let m := s.mem
  let m1 : MemState := { m with
    lines := SMap.set Line.blank m.lines l (s.sealLine l (BitVec.ofNat 56 v) data),
    ctr := SMap.set 1 m.ctr c (v + 1),
    lost := m.lost.filter (· ≠ l),
    dirty := if isHbm l || region ∈ m.dirty then m.dirty else m.dirty ++ [region] }
  let s1 : State := { s with mem := m1 }
  let s2 := s1.wr64 Reg.SEC_VERSION_MAX (BitVec.ofNat 64 (max (v + 1) (s.rd64 Reg.SEC_VERSION_MAX).toNat))
  if s2.exhausted then s2.exhaust else s2

/-- Bytes [lo, lo + bs.length) of a line replaced. -/
def patchLine (x : BitVec 2048) (lo : Nat) (bs : List Byte) : BitVec 2048 :=
  let n := bs.length
  let mask : BitVec 2048 := BitVec.ofNat 2048 ((2 ^ (8 * n) - 1) * 2 ^ (8 * lo))
  (x &&& ~~~mask) ||| (BitVec.ofNat 2048 (ofBytes bs * 2 ^ (8 * lo)) &&& mask)

/-- Write some bytes of one line: a whole line at once, else read, check, merge and write (R359). -/
def writePart (s : State) (l lo : Nat) (bs : List Byte) : State :=
  if lo = 0 ∧ bs.length = 256 then s.writeLine l (BitVec.ofNat 2048 (ofBytes bs))
  else
    match s.readLine l with
    | (s1, some x) => s1.writeLine l (patchLine x lo bs)
    | (s1, none) => s1

/-- Write bytes from a DPA on, line by line. -/
def writeBytes (s : State) (dpa : Nat) (bs : List Byte) : State :=
  if bs.isEmpty then s
  else
    let first := dpa / 256
    let n := (dpa + bs.length - 1) / 256 + 1 - first
    (List.range n).foldl (fun t i =>
      let lo := if i = 0 then dpa % 256 else 0
      let off := if i = 0 then 0 else 256 * i - dpa % 256
      t.writePart (first + i) lo ((bs.drop off).take (256 - lo))) s

/-- Read `len` bytes from a DPA on, line by line; a line that cannot be read gives zeros (R397). -/
def readBytes (s : State) (dpa len : Nat) (withheld : Bool := false) : State × List Byte :=
  if len = 0 then (s, [])
  else
    let first := dpa / 256
    let n := (dpa + len - 1) / 256 + 1 - first
    let r := (List.range n).foldl (fun (acc : State × List Byte) i =>
      let q := acc.1.readLine (first + i) 0 withheld
      (q.1, acc.2 ++ bytesOf 256 (q.2.getD 0))) (s, [])
    (r.1, (r.2.drop (dpa % 256)).take len)

/-- Every line of a range can be read as it stands (R398: a read that loses a line shows here). -/
def linesGood (s : State) (dpa len : Nat) : Bool :=
  let first := dpa / 256
  let n := if len = 0 then 0 else (dpa + len - 1) / 256 + 1 - first
  (List.range n).all (fun i => (s.readLine (first + i)).2.isSome)

/-- The DPA of byte `r` of the history ring (R446). -/
def ringDpa (r : Nat) : Nat := 256 * pillowLines * (r / 256 % 4) + 256 * (r / 1024) + r % 256

/-- The DPA of a pillow offset. -/
def pillowDpa (pillow off : Nat) : Nat := 256 * pillowLines * pillow + off

/-- Patrol of one line (R387, R388): corrections are written back with VERSION and MAC unchanged; a line found
uncorrectable enters the lost-line table as LATENT, or is logged UNCORRECTABLE where the table is full. -/
def patrol (s : State) (l : Nat) : State :=
  if l ∈ s.mem.lost then s
  else
    let x := s.line l
    let c := checkLine x.err
    let s1 := c.fixed.foldl (fun t f => t.countFixed l f) s
    let src : Byte := if isHbm l then 0x03 else 0x05
    match c.bad with
    | none => if c.fixed = [] then s1 else s1.putLine l { x with err := c.left }
    | some j =>
      if 256 ≤ s.mem.lost.length then (s1.countUe l).uncorrectable src (lineLoc l j 0)
      else
        let s2 : State := { s1 with mem := { s1.mem with lost := s1.mem.lost ++ [l] } }
        (s2.countUe l).logMinor src clsLatent (lineLoc l j 0)

/-- The first request a controller serves: the lowest class, and within it the oldest (R26, R27). -/
def firstServed (q : List MemReq) : Option MemReq :=
  q.foldl (fun b r => match b with
    | none => some r
    | some x => if r.cls < x.cls then some r else some x) none

/-- Put a request into the queue of the controller of its first line. -/
def enqueueMem (s : State) (r : MemReq) : State :=
  let c := controllerOf (r.dpa / 256)
  { s with mem := { s.mem with queue := SMap.set [] s.mem.queue c (SMap.get [] s.mem.queue c ++ [r]) } }

/-- Serve the first request of a controller: bytes are written, or read and returned to the host (R323). -/
def serveMem (s : State) (c : Nat) : State :=
  let q := SMap.get [] s.mem.queue c
  match firstServed q with
  | none => s
  | some x =>
    let s1 : State := { s with mem := { s.mem with queue := SMap.set [] s.mem.queue c (q.erase x) } }
    match x.data with
    | some bs => s1.writeBytes x.dpa bs
    | none =>
      let r := s1.readBytes x.dpa x.len
      r.1.emit (.readData .f0 r.2)

/-- Everything that waits at a controller is served: what comes now stands behind it (R26, R27). -/
def drainCtl (s : State) (c : Nat) : State :=
  (List.range (SMap.get [] s.mem.queue c).length).foldl (fun t _ => t.serveMem c) s

/-- The controllers of the lines of a range. -/
def controllers (dpa len : Nat) : List Nat :=
  let first := dpa / 256
  ((List.range ((dpa % 256 + len + 255) / 256)).map (fun i => controllerOf (first + i))).eraseDups

/-- What waits at the controllers of a range goes first (R26, R27; log entry 24). -/
def drainFor (s : State) (dpa len : Nat) : State := (controllers dpa len).foldl (fun t c => t.drainCtl c) s

/-- What the environment adds to the line that a controller serves next, added to the line as stored (R358, R360). -/
def disturb (s : State) (c : Nat) (bus : BitVec 2048) : State :=
  match firstServed (SMap.get [] s.mem.queue c) with
  | some x =>
    let l := x.dpa / 256
    if bus = 0 || x.data.isSome then s else s.putLine l { s.line l with err := (s.line l).err ^^^ bus }
  | none => s

end State

/-- PATROL_READ (R26, R27, R387): patrol starts at READY (R430), and what waits at the line's controller goes first. -/
def execPatrolRead (line : BitVec 36) (s : State) : Outcome :=
  .next (if s.rdB Reg.MEM_PATROL_CFG 31 && decide (s.phase = 7) && s.backed (256 * line.toNat) then
    (s.drainFor (256 * line.toNat) 256).patrol line.toNat
  else s)

/-- KEY_EXHAUSTED (R359). -/
def execKeyExhausted (s : State) : Outcome := .next (if s.exhausted then s.exhaust else s)

/-- DDR5_REQUEST_SERVE (R27): no DDR5 access holds the array. -/
def execDdr5RequestServe (ch : Fin 8) (bus : BitVec 2048) (s : State) : Outcome := 
  .next ((s.disturb (16 + ch.val) bus).serveMem (16 + ch.val))

end Sys2Proof.Machine
end

