-- ==== Sys2Proof/Machine/FrontEnd.lean ====
section
/-!
DEFINITION. The front end (R62 to R64, R92 to R98, R102): history codes, delivery, quantization, elastic-buffer entries.
-/

namespace Sys2Proof.Machine

/-- A key of a sample of a block: channel × 65,536 + index in the block. -/
def sampleKey (chan i : Nat) : Nat := 65536 * chan + i

/-- The value of an FP32 word. -/
def fp32Val (w : Word) : Val := fmtValue Fmt.fp32 w.toNat

/-- An exact value rounded by RN to FP32, as a value. -/
def rnFp32 (x : Q) : Val := fmtValue Fmt.fp32 (convert Fmt.fp32 .rn x.toVal).1

/-- The Lagrange weights h₊₁, h₀, h₋₁, h₋₂ of D_FRAC, each rounded by RN to FP32 (R92). -/
def lagrange (frac : Nat) : List Val :=
  let u : Int := frac
  let d : Nat := 256 ^ 3
  [rnFp32 { num := -(u * (256 - u) * (512 - u)), den := 6 * d }, rnFp32 { num := (256 + u) * (256 - u) * (512 - u), den := 2 * d },
   rnFp32 { num := u * (256 + u) * (512 - u), den := 2 * d }, rnFp32 { num := -(u * (256 + u) * (256 - u)), den := 6 * d }]

/-- The history code of R92 from the raw samples x[p + 1], x[p], x[p − 1], x[p − 2]. -/
def historyCode (fmt : Fmt) (o g : Word) (frac : Nat) (xs : List Int) : Int × Ev :=
  let sum := (List.zipWith (fun h x => Val.mul h (Val.add (Q.ofInt x).toVal (fp32Val o).neg)) (lagrange frac) xs).foldl Val.add
    (Q.ofInt 0).toVal
  let r := convert fmt .rn ((fp32Val g).mul sum)
  (signedCode fmt.width r.1, r.2)

/-- What the quantizer makes of a calibrated value (R63, R64): the code, the events, clipped low, clipped high. -/
structure Quantized where
  code : Nat
  ev   : Ev
  lo   : Bool
  hi   : Bool
  deriving DecidableEq, Repr

/-- The quantizer under record words 0 to 5 (R62 to R64, R443). -/
def quantize (w : Nat → Word) (x : Int) : Quantized :=
  let c := clip (Q.ofInt x).toVal (fp32Val (w 4)) (fp32Val (w 5))
  let fmt : Fmt := field (w 0) 0 4
  let r := quantTo fmt .rn (sword (w 2)) (c.1.add (fp32Val (w 3)).neg) (fp32Val (w 1))
  { code := r.1, ev := r.2, lo := c.2.1, hi := c.2.2 }

/-- A code of a format that is summed: its integer; nothing for a floating-point target (R71, R93). -/
def sumValue (fmt : Fmt) (code : Nat) : Int :=
  if fmt.isInt then (if fmt = Fmt.u8 then (code : Int) else signedCode fmt.width code) else 0

namespace State

/-- The newest sample delivered: a replayed block counts with its last (R95, R337). -/
def newestSample (s : State) : Option Nat :=
  match s.ing.newest with
  | some n => some n
  | none => s.ing.replayed.map (fun b => (b + 1) * s.blockLen - 1)

/-- The record bank that governs a block (R95, R96): every switch after the block turned the bank once. -/
def recBank (s : State) (b : Nat) : Nat :=
  let act := s.rdF Reg.ING_REC_STATUS 0 1
  if s.rdB Reg.ING_REC_STATUS 1 && decide (s.ing.recArm ≤ b) then 1 - act
  else (act + (s.ing.recHist.filter (fun f => decide (b < f))).length) % 2

/-- What a record word reads as that nothing has written: gain 1, all else 0 (R407). -/
def recBlank (w : Nat) : Word := if w = 7 then fpOne else 0

/-- A word of a channel record. -/
def recWord (s : State) (bank chan w : Nat) : Word := SMap.get (recBlank w) s.ing.recs (65536 * bank + 16 * chan + w)

/-- A code waits for the next raw sample: D_INT = 0 and D_FRAC ≠ 0 (R92). -/
def waitsNext (s : State) (chan n : Nat) : Bool :=
  let w := s.recWord (s.recBank (s.blockOf n)) chan 8
  decide (fieldNat w 8 6 = 0) && decide (fieldNat w 0 8 ≠ 0)

/-- Count front-end format events (R61). -/
def countEv (s : State) (e : Ev) : State :=
  [e.sat, e.nan, e.range, e.zdiv, e.term].zipIdx.foldl (fun t p =>
    if p.1 = 0 then t else (t.count (Reg.ING_FE_EVT p.2) p.1).wrB Reg.ING_FE_FLAGS p.2 true) s

/-- A tap: the raw sample of an index, or a free value where the channel has seen none (R92). -/
def tap (s : State) (chan : Nat) (n : Int) : (Int × Bool) × State :=
  match (SMap.get [] s.ing.taps chan).find? (fun x => decide ((x.index : Int) = n)) with
  | some x => ((x.code, x.bad), s)
  | none => (((s.free.1.extractLsb' 0 16).toInt, false), s.free.2)

/-- Put a tap before the channel's earlier ones; 68 reach as far back as any code reads. -/
def pushTap (s : State) (x : RawSample) : State :=
  { s with ing := { s.ing with
      taps := SMap.set [] s.ing.taps x.chan ((x :: SMap.get [] s.ing.taps x.chan).take 68),
      s12 := SMap.set false s.ing.s12 x.chan (!x.s16) } }

/-- The format of a channel's history codes. -/
def chanFmt (s : State) (chan : Nat) : Fmt := if SMap.get false s.ing.s12 chan then Fmt.s12 else Fmt.s16

/-- A channel's group (ING_CHMAP). -/
def groupOf (s : State) (chan : Nat) : Nat := mapGroup (s.rd (Reg.ING_CHMAP chan))

/-- The shed map's groups in shedding order (ING_SHED_MAP): a group listed twice counts at its first position. -/
def shedList (s : State) : List Nat :=
  let ents := (List.range 64).map (fun i => fieldNat (s.rd (Reg.ING_SHED_MAP (i / 4))) (8 * (i % 4)) 8)
  (ents.takeWhile (fun e => decide (128 ≤ e))).foldl (fun l e => if e % 64 ∈ l then l else l ++ [e % 64]) []

/-- The first L groups of the shed map. -/
def shedGroups (s : State) : List Nat := s.shedList.take (s.rdF Reg.ING_SHED_STATUS 0 7)

/-- A group's input block of block b is shed (R102). -/
def isShed (s : State) (b g : Nat) : Bool := (SMap.get 0 s.ing.shed b).getLsbD g

/-- The first sample of a block arrives: with L nonzero its first L groups are shed (R102). -/
def beginBlock (s : State) (b : Nat) : State :=
  let gs := s.shedGroups.filter (fun g => s.channels.any (fun e => decide (mapGroup e.2 = g)))
  if (match s.ing.newest with | some n => decide (b ≤ s.blockOf n) | none => false) || gs.isEmpty then s
  else
    let mask : BitVec 64 := gs.foldl (fun x g => x ||| (1 <<< g)) 0
    let s1 : State := { s with ing := { s.ing with shed := SMap.set 0 s.ing.shed b mask } }
    (s1.count64 Reg.ING_SHED_COUNT gs.length).wrB Reg.ING_SHED_STATUS 16 true

/-- Put a sample into a unit's or a mask's queue. -/
def pushSample (q : SMap (List TSample)) (u : Nat) (x : TSample) : SMap (List TSample) :=
  SMap.set [] q u (SMap.get [] q u ++ [x])

/-- Units whose configuration word (at `off` of banks of `size` from `base` on, `n` of them) watches a channel. -/
def watchers (s : State) (base size off n chan : Nat) : List Nat :=
  s.regs.filterMap (fun e =>
    if base ≤ e.1 ∧ e.1 < base + size * n ∧ (e.1 - base) % size = off ∧ bit e.2 31 ∧ fieldNat e.2 0 12 = chan then
      some ((e.1 - base) / size)
    else none)

/-- The enabled primitive units and masks that watch a channel (R216, R223): KIND 4 to 7 keeps a unit disabled. -/
def primsOn (s : State) (chan : Nat) : List Nat :=
  (s.watchers 0x0200_0000 0x20 4 1024 chan).filter (fun u => decide (s.rdF (Reg.prim u Reg.TRG_PRIM_CFG) 28 3 ≤ 3))
def masksOn (s : State) (chan : Nat) : List Nat := s.watchers 0x0210_0000 0x40 4 64 chan

/-- Stage 4 to the trigger block (R22): every sample goes to the units and masks of its channel. -/
def toTrigger (s : State) (chan n : Nat) (x : Sample) : State :=
  if s.ctx ≠ ctxRunning then s
  else
    let t : TSample := { index := n, code := x.code, bad := x.bad }
    { s with trg := { s.trg with
        primQ := (s.primsOn chan).foldl (fun q u => pushSample q u t) s.trg.primQ,
        maskQ := (s.masksOn chan).foldl (fun q u => pushSample q u t) s.trg.maskQ } }

/-- Stage 4 to the ring (R22, R93): the code stands in its block, and is counted for D (R100). -/
def toRing (s : State) (chan n : Nat) (x : Sample) : State :=
  let b := s.blockOf n
  let blk := SMap.insert (SMap.get [] s.ing.blocks b) (sampleKey chan (n % s.blockLen)) x
  let unshed := if s.isShed b (s.groupOf chan) then 0 else 1
  { s with ing := { s.ing with
      blocks := SMap.set [] s.ing.blocks b blk, arrived := s.ing.arrived + unshed,
      next := SMap.set (s.ing.first * s.blockLen) s.ing.next chan (n + 1),
      newest := some (match s.ing.newest with | some m => max m n | none => n) } }

/-- Stage 4 to the survey engines (R253, R254): BAD samples are excluded. -/
def toSurvey (s : State) (chan n : Nat) (x : Sample) : State :=
  if s.ctx ≠ ctxRunning then s
  else
    let key := 4096 * s.blockOf n + chan
    let a := SMap.get AvgAcc.none s.acq.avg key
    let a' : AvgAcc :=
      if x.bad then { a with bad := a.bad + 1 }
      else { a with sum := a.sum + x.code, sq := a.sq + (x.code * x.code).toNat, count := a.count + 1 }
    let avg := if s.rdB Reg.ACQ_AVG_CFG 31 then SMap.set AvgAcc.none s.acq.avg key a' else s.acq.avg
    let privs := (List.range 256).filter (fun i =>
      let w := s.rd (Reg.ACQ_PRIV i)
      bit w 31 && decide (fieldNat w 0 12 = chan))
    let red := if s.rdB Reg.ACQ_RED_CFG 31 then
        privs.foldl (fun m i => SMap.set [] m i (SMap.get [] m i ++ [(n, x)])) s.acq.red
      else s.acq.red
    { s with acq := { s.acq with avg := avg, red := red } }

/-- Statistics of one sample (R64, R97): BAD samples are excluded from all but the BAD count. -/
def toStats (s : State) (chan n : Nat) (x : Sample) (q : Quantized) (sat : Nat) (ovr : Bool) : State :=
  if s.rdF Reg.ING_STAT_CFG 0 16 = 0 then s
  else
    let key := 4096 * s.blockOf n + chan
    let a := SMap.get StatAcc.none s.ing.stats key
    let b : StatAcc :=
      if x.bad then { a with bad := a.bad + 1, ovr := a.ovr || ovr }
      else
        { min := min a.min x.code, max := max a.max x.code, sum := a.sum + x.code, lo := a.lo + q.lo.toNat,
          hi := a.hi + q.hi.toNat, sat := a.sat + sat, bad := a.bad, good := a.good + 1, ovr := a.ovr || ovr }
    { s with ing := { s.ing with stats := SMap.set StatAcc.none s.ing.stats key b } }

/-- Put a quantized code into its place. -/
def putQuant (s : State) (chan n : Nat) (code : Nat) (bad : Bool) : State :=
  let b := s.blockOf n
  { s with ing := { s.ing with
      quant := SMap.set [] s.ing.quant b (SMap.insert (SMap.get [] s.ing.quant b) (sampleKey chan (n % s.blockLen)) (code, bad)) } }

/-- The target format of a channel in a block. -/
def targetFmt (s : State) (b chan : Nat) : Fmt := field (s.recWord (s.recBank b) chan 0) 0 4

end State

/-- An elastic-buffer entry in the making: its bits, how many there are, and whether a BAD sample is in it. -/
structure Packing where
  bits : Nat
  len  : Nat
  bad  : Bool
  deriving DecidableEq, Repr

/-- Append `w` bits. -/
def Packing.push (p : Packing) (w v : Nat) (bad : Bool) : Packing :=
  { bits := p.bits + (v % 2 ^ w) * 2 ^ p.len, len := p.len + w, bad := p.bad || bad }

namespace State

/-- The samples that a run names: (channel, index in the block) (R194). -/
def runSamples (r : LayoutRun) : List (Nat × Nat) :=
  (List.range r.codes).map (fun i => if r.axis then (r.first, r.off + i) else (r.first + i, r.off))

/-- Pack a run (R93, R194): its codes, then at the next byte the column sum where SUM is set; none while a code is
missing.  A sum outside S32, which R71 forbids the compiler, is taken modulo 2³² into its four bytes (DESIGN CHOICE, log entry
79). -/
def packRun (s : State) (b : Nat) (codes : SMap (Nat × Bool)) (r : LayoutRun) (p : Packing) : Option Packing :=
  let xs := runSamples r
  let got := xs.filterMap (fun c => (codes.find? (fun e => decide (e.1 = sampleKey c.1 c.2))).map (fun e => (c.1, e.2)))
  if got.length ≠ xs.length then none
  else
    let p1 := got.foldl (fun (t : Packing) e => t.push (s.targetFmt b e.1).width e.2.1 e.2.2) p
    if r.sum then
      let total := (got.map (fun e => sumValue (s.targetFmt b e.1) e.2.1)).foldl (· + ·) 0
      some (({ p1 with len := (p1.len + 7) / 8 * 8 } : Packing).push 32 (codeOf 32 total) false)
    else some p1

/-- Entry k of a block (R97, R194): none while a code is missing.  A shed group's entry carries no data (R102). -/
def formEntry (s : State) (b k : Nat) (codes : SMap (Nat × Bool)) : Option EbEntry :=
  match s.img.inputs[k]? with
  | none => none
  | some e =>
    let mk (data len : Nat) (bad shed : Bool) : EbEntry :=
      { block := b, k := k, group := e.group, data := BitVec.ofNat 2048 data, bytes := (len + 7) / 8, bad := bad, shed := shed,
        overrun := decide (b ∈ s.ing.overrun) }
    if s.isShed b e.group then some (mk 0 0 false true)
    else
      ((s.img.layouts.getD e.layout []).foldl (fun (p : Option Packing) r => p.bind (s.packRun b codes r))
        (some { bits := 0, len := 0, bad := false })).map (fun p => mk p.bits p.len p.bad false)

/-- Entries of the elastic buffer (R97). -/
abbrev ebSize : Nat := 61680

/-- FILL and PEAK (ING_EB_STATUS). -/
def ebStatus (s : State) : State :=
  let n := s.ing.eb.length
  (s.wrF Reg.ING_EB_STATUS 0 16 n).wrF Reg.ING_EB_STATUS 16 16 (max n (s.rdF Reg.ING_EB_STATUS 16 16))

/-- An entry reaches the elastic buffer (R98, R99): into a full buffer, or in a gap, it is not written. -/
def putEntry (s : State) (e : EbEntry) : State :=
  let i := s.ing
  let gap := match i.missed, i.resume with
    | none, _ => false
    | some _, none => true
    | some _, some r => decide (e.block < r) || i.missed2.isSome
  if gap then s
  else if i.eb.length < ebSize then ({ s with ing := { i with eb := i.eb ++ [e] } } : State).ebStatus
  else
    let m := some (e.block, e.k)
    let s1 : State := { s with ing := if i.missed.isNone then { i with missed := m } else { i with missed2 := m } }
    s1.count Reg.ING_EB_OVERFLOWS

/-- The place after entry k of block b. -/
def nextEntry (s : State) (b k : Nat) : Nat × Nat := if k + 1 < s.img.inputs.length then (b, k + 1) else (b + 1, 0)

/-- A block is present whole at this edge of the array's clock (R208, R209). -/
def notePresent (s : State) (b : Nat) : State :=
  { s with ing := { s.ing with present := SMap.insert s.ing.present b s.hold.edges } }

/-- Form entries in the input plan's order for as long as their codes are there. -/
def formEntries : Nat → State → State
  | 0, s => s
  | fuel + 1, s =>
    let b := s.ing.ebNext.1
    let k := s.ing.ebNext.2
    let begun := match s.ing.newest with | some n => decide (b ≤ s.blockOf n) | none => false
    match (if begun then s.formEntry b k (SMap.get [] s.ing.quant b) else none) with
    | none => s
    | some e =>
      let s1 := s.putEntry e
      let nx := s.nextEntry b k
      let q := if nx.1 = b then s1.ing.quant else SMap.erase s1.ing.quant b
      let s2 : State := { s1 with ing := { s1.ing with ebNext := nx, quant := q } }
      formEntries fuel (if nx.1 = b then s2 else s2.notePresent b)

/-- A block that this code completes is stamped (R210). -/
def stampBlock (s : State) (b stamp : Nat) : State :=
  if s.through b then { s with ing := { s.ing with stamps := SMap.insert s.ing.stamps b stamp } } else s

/-- Stages 3 to 5 for one code (R22, R63, R92, R93). -/
def emitCode (s : State) (chan n : Nat) (ovr : Bool) (stamp : Nat) : State :=
  let bank := s.recBank (s.blockOf n)
  let w := s.recWord bank chan
  let frac := fieldNat (w 8) 0 8
  let p : Int := (n : Int) - fieldNat (w 8) 8 6
  let t1 := if frac = 0 then ((0, false), s) else s.tap chan (p + 1)
  let t2 := t1.2.tap chan p
  let t3 := if frac = 0 then ((0, false), t2.2) else t2.2.tap chan (p - 1)
  let t4 := if frac = 0 then ((0, false), t3.2) else t3.2.tap chan (p - 2)
  let h := historyCode (s.chanFmt chan) (w 6) (w 7) frac [t1.1.1, t2.1.1, t3.1.1, t4.1.1]
  let x : Sample := { code := h.1, bad := t1.1.2 || t2.1.2 || t3.1.2 || t4.1.2 }
  let q := quantize w h.1
  let s1 := (t4.2.beginBlock (s.blockOf n)).countEv (h.2.add q.ev)
  let s2 := ((s1.toRing chan n x).toTrigger chan n x).toSurvey chan n x
  let s3 := (s2.toStats chan n x q (h.2.sat + q.ev.sat) ovr).putQuant chan n q.code x.bad
  formEntries (s3.img.inputs.length + 1) (s3.stampBlock (s.blockOf n) stamp)

/-- One raw sample through the front end (R92): a code that waited for it first.  A sample whose index the channel has
passed is dropped. -/
def frontEnd (s : State) (x : RawSample) : State :=
  let old := (SMap.get [] s.ing.taps x.chan).head?
  if (match old with | some y => decide (x.index ≤ y.index) | none => false) then s
  else
    let s1 := s.pushTap x
    let live (t : State) (n : Nat) : Bool := decide (t.ing.first ≤ t.blockOf n)
    let s2 := match old with
      | some y => if s1.waitsNext x.chan y.index && live s1 y.index && decide (y.index + 1 = x.index) then s1.emitCode x.chan y.index y.ovr x.stamp else s1
      | none => s1
    if s2.waitsNext x.chan x.index || !live s2 x.index then s2 else s2.emitCode x.chan x.index x.ovr x.stamp

end State

/-- FRONT_END_SAMPLE (R92): the oldest raw sample that waits. -/
def execFrontEndSample (s : State) : Outcome :=
  .next (
    match s.ing.raw with
    | x :: rest => ({ s with ing := { s.ing with raw := rest } } : State).frontEnd x
    | [] => s)

end Sys2Proof.Machine
end

