-- ==== Sys2Proof/Machine/Lanes.lean ====
section
/-!
DEFINITION. Vector registers as packed elements (R146, R147, R154), the operand forms of the M slot, and what each
vector instruction computes from them (chapter 05).
-/

namespace Sys2Proof.Machine

/-- A vector register. -/
def Picot.vreg (p : Picot) (v : BitVec 5) : BitVec 2048 := SMap.get 0 p.vr v.toNat

/-- The tag of a segment of a vector register (R154). -/
def Picot.segTag (p : Picot) (v : BitVec 5) (seg : Nat) : Bool := SMap.get false p.tag (8 * v.toNat + seg)

/-- The OR of the tags of the first `n` segments (R154). -/
def Picot.tagsOf (p : Picot) (v : BitVec 5) (n : Nat) : Bool := (List.range n).any (p.segTag v)

/-- Segment `seg` of a register's value (R146). -/
def segment (x : BitVec 2048) (seg : Nat) : BitVec 256 := x.extractLsb' (256 * seg) 256

/-- Lane `i` of a register's value (R146). -/
def lane (x : BitVec 2048) (i : Nat) : Word := x.extractLsb' (32 * i) 32

/-- Element `e` of width `w` (R147). -/
def elem (w : Nat) (x : BitVec 2048) (e : Nat) : Nat := (x.extractLsb' (w * e) w).toNat

/-- Codes packed from bit 0, the rest zero (R147). -/
def packNat (w : Nat) : List Nat → Nat
  | [] => 0
  | c :: cs => c % 2 ^ w + 2 ^ w * packNat w cs

/-- Codes packed into a register from bit 0 (R147). -/
def packReg (w : Nat) (cs : List Nat) : BitVec 2048 := BitVec.ofNat 2048 (packNat w cs)

/-- How many elements of a format a vector register holds (R147). -/
def Fmt.perReg (f : Fmt) : Nat := 2048 / f.width

/-- How many segments the first `n` elements of a format lie in. -/
def segsFor (f : Fmt) (n : Nat) : Nat := (n * f.width + 255) / 256

/-- Elements 0 to n − 1 computed one by one, with their events together. -/
def collect (f : Nat → Nat × Ev) (n : Nat) : List Nat × Ev :=
  (List.range n).foldr (fun e acc => let r := f e; (r.1 :: acc.1, r.2.add acc.2)) ([], {})

/-- What an M-slot instruction reads beside the vector registers: its picot, its logical pricking's registers and its
pricking's constant words. -/
structure MCtx where
  p  : Picot
  lg : Logical
  ck : Nat → Word

/-- A general register of a logical pricking. -/
def Logical.reg (l : Logical) (r : BitVec 4) : Word := SMap.get 0 l.gp r.toNat

/-- An even pair of general registers, low word first (R445). -/
def Logical.pair (l : Logical) (r : BitVec 4) : DWord := l.reg (r + 1) ++ l.reg r

/-- The rounding of output element `e` (R52, R170): the seed, tensor and base index of SR. -/
def MCtx.rnd (c : MCtx) (rnd : BitVec 2) (ck : BitVec 8) (gi : BitVec 4) (e : Nat) : Rnd :=
  if rnd = 1 then
    .sr (bobbin (c.ck (ck.toNat + 1) ++ c.ck ck.toNat) (c.ck (ck.toNat + 2)) (c.lg.pair gi + BitVec.ofNat 64 e))
  else .rn

/-- A constant word read as FP32. -/
def MCtx.f32 (c : MCtx) (n : Nat) : Val := fmtValue Fmt.fp32 (c.ck n).toNat

/-- What an M-slot instruction makes for VD: the value, the events, the BAD tag of what it read. -/
structure VOut where
  val : BitVec 2048
  ev  : Ev := {}
  bad : Bool
  deriving DecidableEq, Repr

namespace Vec

/-- The values of the elements of a register. -/
def value (c : MCtx) (v : BitVec 5) (f : Fmt) (e : Nat) : Val := fmtValue f (elem f.width (c.p.vreg v) e)

/-- FP32 lane by lane: an exact value, rounded once (R107, R52, R57). -/
def lanes32 (c : MCtx) (a : MV) (op : Nat → Val) (bad : Bool) : VOut :=
  let r := collect (fun e => convert Fmt.fp32 (c.rnd a.rnd a.ck a.gi e) (op e)) 64
  { val := packReg 32 r.1, ev := r.2, bad := bad }

def fadd (c : MCtx) (a : MV) : VOut :=
  lanes32 c a (fun e => (value c a.va Fmt.fp32 e).add (value c a.vb Fmt.fp32 e))
    (c.p.tagsOf a.va 8 || c.p.tagsOf a.vb 8)
def fsub (c : MCtx) (a : MV) : VOut :=
  lanes32 c a (fun e => (value c a.va Fmt.fp32 e).add (value c a.vb Fmt.fp32 e).neg)
    (c.p.tagsOf a.va 8 || c.p.tagsOf a.vb 8)
def fmul (c : MCtx) (a : MV) : VOut :=
  lanes32 c a (fun e => (value c a.va Fmt.fp32 e).mul (value c a.vb Fmt.fp32 e))
    (c.p.tagsOf a.va 8 || c.p.tagsOf a.vb 8)
def fma (c : MCtx) (a : MV) : VOut :=
  lanes32 c a (fun e => ((value c a.va Fmt.fp32 e).mul (value c a.vb Fmt.fp32 e)).add (value c a.vc Fmt.fp32 e))
    (c.p.tagsOf a.va 8 || c.p.tagsOf a.vb 8 || c.p.tagsOf a.vc 8)

/-- x below y in the order of FMIN and FMAX, where −0 < +0. -/
def fless (x y : Val) : Bool := x.lt y || (x.isZero && y.isZero && x.sgn && !y.sgn)

/-- FMIN and FMAX of IEEE 754-2019: a NaN operand gives NaN. -/
def fpick (max : Bool) (x y : Val) : Val :=
  if x.isNan || y.isNan then .nan else if (if max then fless x y else fless y x) then y else x

def fmin (c : MCtx) (a : MV) : VOut :=
  lanes32 c { a with rnd := 0 } (fun e => fpick false (value c a.va Fmt.fp32 e) (value c a.vb Fmt.fp32 e))
    (c.p.tagsOf a.va 8 || c.p.tagsOf a.vb 8)
def fmax (c : MCtx) (a : MV) : VOut :=
  lanes32 c { a with rnd := 0 } (fun e => fpick true (value c a.va Fmt.fp32 e) (value c a.vb Fmt.fp32 e))
    (c.p.tagsOf a.va 8 || c.p.tagsOf a.vb 8)

/-- A function of R162 lane by lane: a code the rule fixes, or a value rounded once. -/
def fun1 (c : MCtx) (a : MV) (f : Val → Sum Nat Val × Ev) : VOut :=
  let r := collect (fun e =>
    let y := f (value c a.va Fmt.fp32 e)
    match y.1 with
    | .inl code => (code, y.2)
    | .inr v => let z := convert Fmt.fp32 (c.rnd a.rnd a.ck a.gi e) v; (z.1, y.2.add z.2)) 64
  { val := packReg 32 r.1, ev := r.2, bad := c.p.tagsOf a.va 8 }

def rcp (c : MCtx) (a : MV) : VOut := fun1 c a rcpVal
def rsq (c : MCtx) (a : MV) : VOut := fun1 c a rsqVal
def exp2 (c : MCtx) (a : MV) : VOut := fun1 c a exp2Val
def log2 (c : MCtx) (a : MV) : VOut := fun1 c a log2FVal

/-- An integer element as its value (R36). -/
def intVal (f : Fmt) (code : Nat) : Int := if f = Fmt.u8 then code else signedCode f.width code

/-- An exact integer result saturated into a format (R57, R60). -/
def satInt (f : Fmt) (x : Int) : Nat × Ev :=
  if x > f.qmax then (codeOf f.width f.qmax, { sat := 1 })
  else if x < f.qmin then (codeOf f.width f.qmin, { sat := 1 }) else (codeOf f.width x, {})

/-- Integer arithmetic element by element in the instruction's format. -/
def ints (c : MCtx) (a : MV) (op : Int → Int → Int) : VOut :=
  let w := (Fmt.width a.fmt)
  let r := collect (fun e =>
    satInt a.fmt (op (intVal a.fmt (elem w (c.p.vreg a.va) e)) (intVal a.fmt (elem w (c.p.vreg a.vb) e)))) (Fmt.perReg a.fmt)
  { val := packReg w r.1, ev := r.2, bad := c.p.tagsOf a.va 8 || c.p.tagsOf a.vb 8 }

def iadd (c : MCtx) (a : MV) : VOut := ints c a (· + ·)
def isub (c : MCtx) (a : MV) : VOut := ints c a (· - ·)
def imul (c : MCtx) (a : MV) : VOut := ints c a (· * ·)
def imin (c : MCtx) (a : MV) : VOut := ints c a min
def imax (c : MCtx) (a : MV) : VOut := ints c a max

/-- Bitwise results of two registers. -/
def bits (c : MCtx) (a : MV) (x : BitVec 2048) : VOut := { val := x, bad := c.p.tagsOf a.va 8 || c.p.tagsOf a.vb 8 }

def andv (c : MCtx) (a : MV) : VOut := bits c a (c.p.vreg a.va &&& c.p.vreg a.vb)
def orv (c : MCtx) (a : MV) : VOut := bits c a (c.p.vreg a.va ||| c.p.vreg a.vb)
def xorv (c : MCtx) (a : MV) : VOut := bits c a (c.p.vreg a.va ^^^ c.p.vreg a.vb)
def vsel (c : MCtx) (a : MV) : VOut :=
  { val := (c.p.vreg a.va &&& c.p.vreg a.vc) ||| (c.p.vreg a.vb &&& ~~~c.p.vreg a.vc),
    bad := c.p.tagsOf a.va 8 || c.p.tagsOf a.vb 8 || c.p.tagsOf a.vc 8 }

/-- Shifts: element of VA by the low log2(w) bits of the element of VB. -/
def shift (c : MCtx) (a : MV) (op : Nat → Nat → Nat → Nat) : VOut :=
  let w := (Fmt.width a.fmt)
  let r := collect (fun e => (op w (elem w (c.p.vreg a.va) e) (elem w (c.p.vreg a.vb) e % w), {})) (Fmt.perReg a.fmt)
  bits c a (packReg w r.1)

def shl (c : MCtx) (a : MV) : VOut := shift c a (fun w x n => x * 2 ^ n % 2 ^ w)
def shr (c : MCtx) (a : MV) : VOut := shift c a (fun _ x n => x / 2 ^ n)
def sar (c : MCtx) (a : MV) : VOut :=
  shift c a (fun w x n => if a.fmt = Fmt.u8 then x / 2 ^ n else codeOf w (signedCode w x / (2 ^ n : Nat)))

/-- The condition SUB of CMP on two values (R163). -/
def holds (cond : BitVec 4) (x y : Val) : Bool :=
  match cond.toNat with
  | 0 => x.eqv y
  | 1 => !x.eqv y
  | 2 => x.lt y
  | 3 => x.lt y || x.eqv y
  | 4 => y.lt x
  | 5 => y.lt x || x.eqv y
  | 6 => x.isNan || y.isNan
  | 7 => !(x.isNan || y.isNan)
  | _ => false

def cmp (c : MCtx) (a : MV) : VOut :=
  let w := (Fmt.width a.fmt)
  let r := collect (fun e =>
    (if holds a.sub (value c a.va a.fmt e) (value c a.vb a.fmt e) then 2 ^ w - 1 else 0, {})) (Fmt.perReg a.fmt)
  bits c a (packReg w r.1)

def cvt (c : MCtx) (a : MV) : VOut :=
  let r := collect (fun e => convert a.sub (c.rnd a.rnd a.ck a.gi e) (value c a.va a.fmt e)) 64
  { val := packReg (Fmt.width a.sub) r.1, ev := r.2, bad := c.p.tagsOf a.va (segsFor a.fmt 64) }

/-- A quantization record's words in constants (R165, R62): FMT, SCALE, ZP, OFFSET, CLIP_LO, CLIP_HI. -/
def recFmt (c : MCtx) (ck : BitVec 8) : Fmt := (c.ck ck.toNat).extractLsb' 0 4

def qnt (c : MCtx) (a : MV) : VOut :=
  let n := a.ck.toNat
  let f := recFmt c a.ck
  let r := collect (fun e =>
    let x := clip (value c a.va a.fmt e) (c.f32 (n + 4)) (c.f32 (n + 5))
    quantTo f .rn (c.ck (n + 2)).toInt (x.1.add (c.f32 (n + 3)).neg) (c.f32 (n + 1))) 64
  { val := packReg f.width r.1, ev := r.2, bad := c.p.tagsOf a.va (segsFor a.fmt 64) }

def dqt (c : MCtx) (a : MV) : VOut :=
  let n := a.ck.toNat
  let f := recFmt c a.ck
  let r := collect (fun e =>
    dequant f (elem f.width (c.p.vreg a.va) e) (c.f32 (n + 1)) (c.ck (n + 2)).toInt (c.f32 (n + 3))) 64
  { val := packReg 32 r.1, ev := r.2, bad := c.p.tagsOf a.va (segsFor f 64) }

/-- The larger of two magnitudes, none standing for zero. -/
def maxMag (x : Option Mag) (v : Val) : Option Mag :=
  match v with
  | .fin _ m =>
    if m.isZero then x
    else match x with
      | none => some m
      | some y => if y.num * m.den < m.num * y.den then some m else x
  | _ => x

/-- The E8M0 code of one 32-lane block (R166). -/
def blockCode (c : MCtx) (a : MV) (b : Nat) : Nat × Ev :=
  let k := c.ck a.ck.toNat
  let vs := (List.range 32).map (fun i => value c a.va Fmt.fp32 (32 * b + i))
  let lo := fieldNat k 0 8
  let hi := fieldNat k 8 8
  if vs.any Val.isNan then (0xFF, { nan := 1 })
  else if vs.any (fun v => match v with | .inf _ => true | _ => false) then (hi, {})
  else (blockScale (k.extractLsb' 16 4) lo hi (vs.foldl maxMag none), {})

def scale (c : MCtx) (a : MV) : VOut :=
  let r := collect (blockCode c a) 2
  { val := packReg 8 r.1, ev := r.2, bad := c.p.tagsOf a.va 8 }

def bqnt (c : MCtx) (a : MV) : VOut :=
  let r := collect (fun i =>
    let e := elem 8 (c.p.vreg a.vb) (i / 32)
    if e = 0xFF then (0, { nan := 1 })
    else convert a.sub (c.rnd a.rnd a.ck a.gi i)
      ((value c a.va Fmt.fp32 i).div (Q.pow2 ((e : Int) - 127)).toVal)) 64
  { val := packReg (Fmt.width a.sub) r.1, ev := r.2, bad := c.p.tagsOf a.va 8 || c.p.segTag a.vb 0 }

def csum (c : MCtx) (a : MV) : VOut :=
  let w := (Fmt.width a.fmt)
  let codes := (List.range (Fmt.perReg a.fmt)).map (fun e => intVal a.fmt (elem w (c.p.vreg a.va) e))
  let r := satInt Fmt.s32 ((lane (c.p.vreg a.vc) 0).toInt + codes.sum)
  { val := packReg 32 [r.1], ev := r.2, bad := c.p.tagsOf a.va 8 || c.p.segTag a.vc 0 }

/-- NLOG of XCVT and VRSUM: bits [5:0] of constant word CK (R169). -/
def nlogOf (c : MCtx) (a : MV) : Nat := fieldNat (c.ck a.ck.toNat) 0 6

/-- X128 group `i` of a register, in units of 2^−64. -/
def group (x : BitVec 2048) (i : Nat) : Int := signedCode 128 (elem 128 x i)

def xcvt (c : MCtx) (a : MV) : VOut :=
  let r := collect (fun e =>
    let t := term (nlogOf c a) (value c a.va a.fmt e)
    (codeOf 128 t.1, t.2)) 16
  { val := packReg 128 r.1, ev := r.2, bad := c.p.tagsOf a.va (segsFor a.fmt 16) }

def xadd (c : MCtx) (a : MV) : VOut :=
  let r := collect (fun i =>
    let t := satX128 (group (c.p.vreg a.va) i + group (c.p.vreg a.vb) i)
    (codeOf 128 t.1, t.2)) 16
  { val := packReg 128 r.1, ev := r.2, bad := c.p.tagsOf a.va 8 || c.p.tagsOf a.vb 8 }

def xrnd (c : MCtx) (a : MV) : VOut :=
  let r := collect (fun i =>
    convert a.fmt (c.rnd a.rnd a.ck a.gi i) ({ num := group (c.p.vreg a.va) i, den := 2 ^ 64 } : Q).toVal) 16
  { val := packReg (Fmt.width a.fmt) r.1, ev := r.2, bad := c.p.tagsOf a.va 8 }

def vrsum (c : MCtx) (a : MV) : VOut :=
  let ts := (List.range (Fmt.perReg a.fmt)).map (fun e => term (nlogOf c a) (value c a.va a.fmt e))
  let sum := satX128 (ts.map Prod.fst).sum
  { val := packReg 128 [codeOf 128 sum.1], ev := (ts.map Prod.snd).foldl Ev.add sum.2, bad := c.p.tagsOf a.va 8 }

/-- The largest element; a NaN gives NaN (VRMAX). -/
def vmaxVal (x y : Val) : Val := fpick true x y

def vrmax (c : MCtx) (a : MV) : VOut :=
  let w := (Fmt.width a.fmt)
  let m := (List.range ((Fmt.perReg a.fmt) - 1)).foldl (fun x e => vmaxVal x (value c a.va a.fmt (e + 1))) (value c a.va a.fmt 0)
  { val := packReg w [(convert a.fmt .rn m).1], bad := c.p.tagsOf a.va 8 }

def vrng (c : MCtx) (a : MV) : VOut :=
  let seed := c.ck (a.ck.toNat + 1) ++ c.ck a.ck.toNat
  let cs := (List.range 64).map (fun e =>
    (bobbin seed (c.ck (a.ck.toNat + 2)) (c.lg.pair a.gi + BitVec.ofNat 64 e)).toNat)
  { val := packReg 32 cs, bad := false }

end Vec

end Sys2Proof.Machine
end

