-- ==== Sys2Proof/Machine/ArrayOps.lean ====
section
/-!
DEFINITION. The named operations over picots: storage words, bindings, constants, queues and credits, results in
flight, format events, latencies, holds raised by picots.
-/

namespace Sys2Proof.Machine

namespace Picot
/-- A logical pricking. -/
def logical (p : Picot) (l : Nat) : Logical := SMap.get Logical.none p.logicals l
def setLogical (p : Picot) (l : Nat) (x : Logical) : Picot := { p with logicals := SMap.set Logical.none p.logicals l x }
/-- A pricking-store slot. -/
def slot (p : Picot) (k : Nat) : Slot := SMap.get Slot.free p.slots k
def setSlot (p : Picot) (k : Nat) (x : Slot) : Picot := { p with slots := SMap.set Slot.free p.slots k x }
/-- A data queue. -/
def queue (p : Picot) (q : Nat) : Queue := SMap.get Queue.none p.dq q
def setQueue (p : Picot) (q : Nat) (x : Queue) : Picot := { p with dq := SMap.set Queue.none p.dq q x }
/-- A token queue. -/
def tqueue (p : Picot) (q : Nat) : TQueue := SMap.get TQueue.none p.tq q
def setTqueue (p : Picot) (q : Nat) (x : TQueue) : Picot := { p with tq := SMap.set TQueue.none p.tq q x }
/-- A steering unit. -/
def unit (p : Picot) (u : Nat) : SteerUnit := SMap.get SteerUnit.off p.steer u
def setUnit (p : Picot) (u : Nat) (x : SteerUnit) : Picot := { p with steer := SMap.set SteerUnit.off p.steer u x }
/-- A loop counter. -/
def loopCtr (p : Picot) (n : Nat) : LoopCtr := SMap.get LoopCtr.zero p.lc n
def setLoopCtr (p : Picot) (n : Nat) (x : LoopCtr) : Picot := { p with lc := SMap.set LoopCtr.zero p.lc n x }
/-- A raw SRAM word. -/
def sramWord (p : Picot) (a : Nat) : Stored := SMap.get Stored.blank p.sram a
end Picot

/-- The credit counter of a queue: capacity less entries (R129). -/
def Queue.credit (q : Queue) : Int := (q.cap : Int) - q.items.length
def TQueue.credit (q : TQueue) : Int := (q.cap : Int) - q.items.length

namespace State

/-- A logical picot, by row × 32 + column. -/
def picot (s : State) (p : Nat) : Picot := SMap.get Picot.blank s.arr.picots p
def setPicot (s : State) (p : Nat) (x : Picot) : State :=
  { s with arr := { s.arr with picots := SMap.set Picot.blank s.arr.picots p x } }
/-- The logical pricking that issues. -/
def lg (s : State) (loc : At) : Logical := (s.picot loc.pic).logical loc.lg
def setLg (s : State) (loc : At) (x : Logical) : State := s.setPicot loc.pic ((s.picot loc.pic).setLogical loc.lg x)

/-- The keystream of a storage word under one key generation; storage no key has touched has none (R356). -/
def ks (g space p addr : Nat) : BitVec 256 :=
  if g = 0 then 0 else keystream (Config.storageKey g) space (p % 32) (p / 32) addr

/-- A stored word as it reads now: words under another key come out as noise (R110). -/
def decipher (s : State) (space p addr : Nat) (w : Stored) : BitVec 256 :=
  if w.gen = s.keyGen then w.word else w.word ^^^ ks w.gen space p addr ^^^ ks s.keyGen space p addr

/-- SRAM word `a` of a picot as its ports read it (R108, R110), the error pattern of the word taken off by the symbol
code where it can be (R385). -/
def sramRead (s : State) (p a : Nat) : BitVec 256 :=
  let w := s.decipher 0 p a ((s.picot p).sramWord a)
  let e := SMap.get 0 (s.picot p).sramErr a
  match eccDecode 64 (fieldNat e 0 256) (fieldNat e 256 16) with
  | .corrected _ left => w ^^^ BitVec.ofNat 256 left
  | _ => w

/-- LOCATION of a picot storage error (R391). -/
def storeLoc (p space word symbol : Nat) : DWord :=
  BitVec.ofNat 64 (p % 32 + 32 * (p / 32) + space * 2 ^ 10 + word * 2 ^ 13 + symbol * 2 ^ 30)

/-- What the reads of SRAM words log (R111): corrected symbols are counted, an uncorrectable word stops the context.
The flag says that every word may be used. -/
def sramCheck (s : State) (p : Nat) : List Nat → State × Bool
  | [] => (s, true)
  | a :: as =>
    let r := s.sramCheck p as
    let e := SMap.get 0 (s.picot p).sramErr a
    match eccDecode 64 (fieldNat e 0 256) (fieldNat e 256 16) with
    | .clean => r
    | .corrected k _ => ((r.1.count (Reg.PCT_CORR p)).logCorrected 0x01 (storeLoc p 0 a k), r.2)
    | .bad => (r.1.uncorrectable 0x01 (storeLoc p 0 a 0), false)

/-- Write an SRAM word under the current key; a whole-word write replaces the codeword, errors and all. -/
def sramWrite (s : State) (p a : Nat) (v : BitVec 256) : State :=
  let x := s.picot p
  s.setPicot p { x with sram := SMap.set Stored.blank x.sram a { gen := s.keyGen, word := v }, sramErr := SMap.erase x.sramErr a }

/-- Body flit `f` of the pricking in slot `k` as it reads now (R192). -/
def slotFlit (s : State) (p k f : Nat) : BitVec 256 :=
  s.decipher 3 p (2048 * k + f) (SMap.get Stored.blank ((s.picot p).slot k).flits f)

/-- Byte `i` of a pricking's body, counted across its flits. -/
def bodyNat (s : State) (p k i n : Nat) : Nat := ((s.slotFlit p k (i / 32)).extractLsb' (8 * (i % 32)) (8 * n)).toNat

/-- NBUNDLES of the pricking in a slot. -/
def nBundles (s : State) (p k : Nat) : Nat := s.bodyNat p k 0 2

/-- Constant word `n` of the pricking in a slot: flits 21 to 52 (R192). -/
def slotConst (s : State) (p k n : Nat) : Word :=
  (s.slotFlit p k (21 + n / 8)).extractLsb' (32 * (n % 8)) 32

/-- Constant word `n` of an issuing pricking (R146); zero where no slot is bound. -/
def const (s : State) (loc : At) (n : Nat) : Word :=
  match (s.lg loc).slot with
  | some k => s.slotConst loc.pic k n
  | none => 0

/-- What an M-slot instruction reads. -/
def mctx (s : State) (loc : At) : MCtx := { p := s.picot loc.pic, lg := s.lg loc, ck := s.const loc }

/-- The selected predicate (R155): PSEL 15 is true. -/
def predicate (s : State) (h : MHead) : Bool :=
  if h.psel = 15 then true else ((s.lg h.loc).prd.getLsbD h.psel.toNat) != h.pneg

/-- Count format events of a picot in its counters and sticky flags (R61): words 8p to 8p + 4 and 8p + 5. -/
def countEvent (s : State) (p k n : Nat) : State :=
  if n = 0 then s
  else
    let ev := SMap.set 0 s.arr.events (8 * p + k) (satInc (SMap.get (0 : Word) s.arr.events (8 * p + k)) n)
    let fl := (SMap.get (0 : Word) ev (8 * p + 5)) ||| BitVec.ofNat 32 (2 ^ k)
    { s with arr := { s.arr with events := SMap.set 0 ev (8 * p + 5) fl } }

/-- Count the events of one operation (R61). -/
def countEvents (s : State) (p : Nat) (e : Ev) : State :=
  ((((s.countEvent p 0 e.sat).countEvent p 1 e.nan).countEvent p 2 e.range).countEvent p 3 e.zdiv).countEvent p 4 e.term

/-- Does result x come before y among results that land together: earlier issue first, then M, L, C (R151). -/
def flightBefore (x y : InFlight) : Bool := decide (x.cyc < y.cyc) || (decide (x.cyc = y.cyc) && decide (x.slot ≤ y.slot))

/-- Put a result in flight at its place in issue order. -/
def insertFlight (x : InFlight) : List InFlight → List InFlight
  | [] => [x]
  | y :: ys => if flightBefore y x then y :: insertFlight x ys else x :: y :: ys

/-- A result that lands `lat` cycles from now (R150). -/
def fly (s : State) (loc : At) (slot lat : Nat) (r : Res) : State :=
  let p := s.picot loc.pic
  s.setPicot loc.pic { p with
    flight := insertFlight { left := lat, cyc := s.cycleIndex, slot := slot, lg := loc.lg, res := r } p.flight }

/-- The array issues: it is not in the hold (R149). -/
def issues (s : State) : Bool := !s.hold.stopped

/-- Latency of a unit class that differs between steppings, with its pad (R198, R200). -/
def classLatency (s : State) (cls a0 b0 : Nat) : Nat := (if s.b0 then b0 else a0) + s.rdF Reg.ARY_LEQ0 (4 * cls) 4

/-- A whole vector register with its eight tags (R154). -/
def flyReg (s : State) (loc : At) (lat : Nat) (vd : BitVec 5) (o : VOut) : State :=
  (s.fly loc 0 lat (.lanes vd.toNat (BitVec.allOnes 64) o.val)).fly loc 0 lat (.tags vd.toNat 0xFF o.bad)

/-- An M-slot vector instruction: gated by its predicate, it puts its result in flight and counts its events (R152). -/
def vectorOp (s : State) (h : MHead) (lat : Nat) (vd : BitVec 5) (o : VOut) : State :=
  if s.issues && s.predicate h then (s.flyReg h.loc lat vd o).countEvents h.loc.pic o.ev else s

/-! Holds raised by picots (R129, R201, R202). -/

/-- Is a request of this cause and source active? -/
def requested (s : State) (cause : Nat) (src : HoldSrc) : Bool :=
  s.hold.reqs.any (fun r => decide (r.cause = cause) && decide (r.src = src))

/-- Raise a hold request: `cancel` says that its cause is cancelling, so its cycle is the hold point (R202, R203, R205). -/
def requestHold (s : State) (cause : Nat) (src : HoldSrc) (cancel : Bool) : State :=
  if s.requested cause src then s
  else
    let h := s.hold
    let h1 : Hold := { h with reqs := h.reqs ++ [{ cause := cause, src := src, cancel := cancel, cyc := s.cycleIndex }], goIn := none }
    let h2 : Hold :=
      if h.stopped then h1
      else
        { h1 with
          stopIn := match h.stopIn with | some n => some n | none => some 8
          cancel := if cancel then some (match h.cancel with | some n => n | none => match h.stopIn with | some n => n | none => 8)
                    else h.cancel }
    let s1 : State := { s with hold := { h2 with seen := if cause ∈ h.seen then h.seen else cause :: h.seen } }
    let s2 := if cause ∈ h.seen then s1 else s1.count (Reg.ARY_HOLD_COUNT cause)
    match src with
    | .picotDq p _ => s2.count (Reg.PCT_HOLDREQ p)
    | .picotTq p _ => s2.count (Reg.PCT_HOLDREQ p)
    | _ => s2

/-- A flit written into a data queue (R129): into the skid, with a deferred BALANCE hold, where the credit counter
stands at zero or below. -/
def pushFlit (s : State) (p : Fin 1024) (q : Fin 16) (f : Flit) : State :=
  let x := (s.picot p).queue q
  let s1 := s.setPicot p ((s.picot p).setQueue q { x with items := x.items ++ [f] })
  if x.credit ≤ 0 then s1.requestHold 1 (.picotDq p q) false else s1

/-- A token written into a token queue (R129). -/
def pushToken (s : State) (p : Fin 1024) (q : Fin 8) (t : BitVec 16) : State :=
  let x := (s.picot p).tqueue q
  let s1 := s.setPicot p ((s.picot p).setTqueue q { x with items := x.items ++ [t] })
  if x.credit ≤ 0 then s1.requestHold 1 (.picotTq p q) false else s1

/-- The head of a data queue taken off; an empty queue raises a cancelling BALANCE hold instead (R129, R174). -/
def popFlit (s : State) (p : Fin 1024) (q : Fin 16) : Option Flit × State :=
  let x := (s.picot p).queue q
  match x.items with
  | f :: fs => (some f, s.setPicot p ((s.picot p).setQueue q { x with items := fs }))
  | [] => (none, s.requestHold 1 (.picotDq p q) true)

/-- The head of a token queue taken off; an empty queue raises a cancelling BALANCE hold instead (R129, R181). -/
def popToken (s : State) (p : Fin 1024) (q : Fin 8) : Option (BitVec 16) × State :=
  let x := (s.picot p).tqueue q
  match x.items with
  | t :: ts => (some t, s.setPicot p ((s.picot p).setTqueue q { x with items := ts }))
  | [] => (none, s.requestHold 1 (.picotTq p q) true)

/-- Write a trace entry when tracing is enabled (PCT_TRACE_CTL, PCT_TRACE). -/
def trace (s : State) (loc : At) (event detail pc : Nat) : State :=
  let x := s.picot loc.pic
  let ctl := s.rd (Reg.PCT_TRACE_CTL loc.pic)
  if bit ctl 0 && !(bit ctl 1 && x.tracePtr = 255 && (SMap.get (0 : TraceEnt) x.trace 255) ≠ 0) then
    let e : TraceEnt := BitVec.ofNat 64 (pc % 2 ^ 16 + detail % 2 ^ 12 * 2 ^ 16 + event * 2 ^ 28 + loc.lg.val * 2 ^ 31 +
      s.arr.cycle % 64 * 2 ^ 34 + s.arr.round.toNat % 2 ^ 24 * 2 ^ 40)
    s.setPicot loc.pic { x with
      trace := SMap.set 0 x.trace x.tracePtr.toNat e
      tracePtr := if bit ctl 1 && x.tracePtr = 255 then x.tracePtr else x.tracePtr + 1 }
  else s

end State

/-- Is a token invalid, its parity apart (R119)? -/
def tokenInvalid (t : BitVec 16) : Bool :=
  let kind := fieldNat t 13 3
  let value := fieldNat t 0 12
  bit t 12 || decide (6 ≤ kind) || (kind == 0 && t != 0) || (kind == 1 && decide (4 ≤ value)) || (kind == 4 && value == 0)

/-- Even parity over a token (R117). -/
def tokenParity (t : BitVec 16) : Bool := (List.range 16).foldl (fun b i => b != t.getLsbD i) false

end Sys2Proof.Machine
end

