-- ==== Sys2Proof/Machine/Links.lean ====
section
/-!
DEFINITION. Neighbour links (R117 to R125): driving an output, the link-slot table, and what a flit or token in a
pass-through register does.
-/

namespace Sys2Proof.Machine

/-- The number of a side: N, E, S, W (R123). -/
def dirNum : Dir → Nat
  | .n => 0
  | .e => 1
  | .s => 2
  | .w => 3

/-- The side of a number. -/
def dirOfNat (n : Nat) : Dir := match n % 4 with | 0 => .n | 1 => .e | 2 => .s | _ => .w

/-- The side that faces this one across a link. -/
def dirOpp : Dir → Dir
  | .n => .s
  | .e => .w
  | .s => .n
  | .w => .e

/-- The picot across a link: none at an edge of the graticule (R117, R125). -/
def neighbour (p : Fin 1024) (d : Dir) : Option (Fin 1024) :=
  let row := p.val / 32
  let col := p.val % 32
  match d with
  | .n => if h : p.val + 32 < 1024 then some ⟨p.val + 32, h⟩ else none
  | .e => if col = 31 then none else if h : p.val + 1 < 1024 then some ⟨p.val + 1, h⟩ else none
  | .s => if row = 0 then none else some ⟨p.val - 32, by have := p.isLt; omega⟩
  | .w => if col = 0 then none else some ⟨p.val - 1, by have := p.isLt; omega⟩

/-- Does a hop cross a pillow bridge: between columns 15 and 16 or rows 15 and 16 (R15)? -/
def crosses (p : Fin 1024) (d : Dir) : Bool :=
  let row := p.val / 32
  let col := p.val % 32
  match d with
  | .n => row = 15
  | .e => col = 15
  | .s => row = 16
  | .w => col = 16

/-- The hub port of a picot's column. -/
def portOf (p : Fin 1024) : Fin 32 := ⟨p.val % 32, Nat.mod_lt _ (by decide)⟩

namespace State

/-- A flit is already on its way into input `inp` of picot q for the cycle `w` from now, or a clash took it there. -/
def flitDriven (q : Fin 1024) (inp : Dir) (w : Nat) (b : Beat) : Bool :=
  decide (b.pic = q) && decide (b.inp = inp) && decide (b.wait = w) && (b.flit.isSome || b.clash)

/-- The same of a token. -/
def tokenDriven (q : Fin 1024) (inp : Dir) (w : Nat) (b : Beat) : Bool :=
  decide (b.pic = q) && decide (b.inp = inp) && decide (b.wait = w) && (decide (b.token ≠ 0) || b.tclash)

/-- The same of a flit on its way to a hub port. -/
def hubDriven (port : Fin 32) (w : Nat) (h : HubFlit) : Bool := decide (h.port = port) && decide (h.wait = w)

/-- A second flit is driven into the same register in the same cycle: the output carries none (R124). -/
def clashFlit (s : State) (q : Fin 1024) (inp : Dir) (w : Nat) : State :=
  { s with arr := { s.arr with
      beats := s.arr.beats.map (fun b => if flitDriven q inp w b then { b with flit := none, clash := true } else b) } }

/-- A second token is driven into the same register in the same cycle (R124). -/
def clashToken (s : State) (q : Fin 1024) (inp : Dir) (w : Nat) : State :=
  { s with arr := { s.arr with
      beats := s.arr.beats.map (fun b => if tokenDriven q inp w b then { b with token := 0, tclash := true } else b) } }

/-- A second flit is driven into a hub port in the same cycle (R124). -/
def clashHub (s : State) (port : Fin 32) (w : Nat) : State :=
  { s with arr := { s.arr with hub := s.arr.hub.map (fun h => if hubDriven port w h then { h with clash := true } else h) } }

/-- Drive a flit on output `d` of picot `p`, with what its CHECK is off by, so that it is in the register downstream after
`wait` cycles, five more across a bridge (R121): the output is driven `wait - 1` cycles from now.  Two or more flits on one
output in one cycle are a SLOT_COLLISION, and the output carries none (R124). -/
def driveFlit (s : State) (p : Fin 1024) (d : Dir) (wait : Nat) (f : Flit) (lg : Nat) (check : BitVec 16 := 0) : State :=
  match neighbour p d with
  | some q =>
    let w := if crosses p d then wait + 5 else wait
    if s.arr.beats.any (flitDriven q (dirOpp d) w) then
      (s.clashFlit q (dirOpp d) w).arrayFault 1 p lg (dirNum d) 0 (wait - 1)
    else
      { s with arr := { s.arr with beats := s.arr.beats ++ [{ Beat.ofFlit q (dirOpp d) w f with check := check }] } }
  | none =>
    if d = .s then
      if s.arr.hub.any (hubDriven (portOf p) wait) then
        (s.clashHub (portOf p) wait).arrayFault 1 p lg 2 0 (wait - 1)
      else
        { s with arr := { s.arr with hub := s.arr.hub ++
            [{ port := portOf p, wait := wait, flit := f, check := check, clash := false }] } }
    else s

/-- Drive a token on output `d`, with whether its TPAR is wrong (R117, R119, R124): 0x0000 is none; a hub port takes none. -/
def driveToken (s : State) (p : Fin 1024) (d : Dir) (wait : Nat) (t : BitVec 16) (lg : Nat) (par : Bool := false) : State :=
  if t = 0 then s
  else
    match neighbour p d with
    | some q =>
      let w := if crosses p d then wait + 5 else wait
      if s.arr.beats.any (tokenDriven q (dirOpp d) w) then
        (s.clashToken q (dirOpp d) w).arrayFault 1 p lg (dirNum d) 0 (wait - 1)
      else
        { s with arr := { s.arr with beats := s.arr.beats ++ [Beat.ofToken q (dirOpp d) w t par] } }
    | none => if d = .s then s.arrayFault 1 p lg 2 0 (wait - 1) else s

/-- The logical pricking that owns the current cycle (R133). -/
def owner (s : State) (p : Nat) : Option (Fin 8) :=
  let f := (s.picot p).fold
  (f.find? (fun e => decide (e.1 = s.arr.cycle))).map Prod.snd

/-- The lowest-numbered bound slot. -/
def lowestBound (s : State) (p : Nat) : Option (Fin 8) :=
  (List.finRange 8).find? (fun k => decide (((s.picot p).slot k).kind = .bound))

/-- The link-slot entry that governs the cycle (R123, R133): of the owner's slot, else of the lowest-numbered bound
slot.  Under the boot table every S input passes N and ejects (R136). -/
def linkSlot (s : State) (p : Nat) : BitVec 64 :=
  if (s.picot p).boot then BitVec.ofNat 64 (0xC0 * 2 ^ 16 + 0x60 * 2 ^ 46)
  else
    let k :=
      match s.owner p with
      | some l => ((s.picot p).logical l).slot
      | none => s.lowestBound p
    match k with
    | some k => BitVec.ofNat 64 (s.bodyNat p k (96 + 8 * s.arr.cycle) 8)
    | none => 0

/-- Flit fields of input k in a link-slot entry: ACTION, DIR, QUEUE (R123). -/
def flitSlot (e : BitVec 64) (k : Nat) : Nat × Nat × Nat :=
  (fieldNat e (8 * k + 6) 2, fieldNat e (8 * k + 4) 2, fieldNat e (8 * k) 4)

/-- Token fields of input k in a link-slot entry. -/
def tokenSlot (e : BitVec 64) (k : Nat) : Nat × Nat × Nat :=
  (fieldNat e (32 + 7 * k + 5) 2, fieldNat e (32 + 7 * k + 3) 2, fieldNat e (32 + 7 * k) 3)

/-- The logical pricking named by a fault of the current cycle. -/
def faultLg (s : State) (p : Nat) : Nat := match s.owner p with | some l => l.val | none => 0

end State

/-- The CRC-16 of a flit: polynomial 0x1021, initial value 0xFFFF, over SIDE and DATA (R117). -/
def flitCheck (side : BitVec 8) (data : BitVec 256) : BitVec 16 :=
  BitVec.ofNat 16 (crcBits 16 0x1021 0xFFFF (bitsMsb (side :: bytesOf 32 data)))

end Sys2Proof.Machine

namespace Sys2Proof.Machine

/-- A flit's sideband (R118). -/
def Flit.side (f : Flit) : BitVec 8 :=
  BitVec.ofNat 8 (1 + 2 * f.kind.toNat + 8 * f.bad.toNat + 16 * f.last.toNat)

/-- The flit of a payload and a sideband; none where VALID is 0 (R118). -/
def flitOf (data : BitVec 256) (side : BitVec 8) : Option Flit :=
  if side.getLsbD 0 then
    some { data := data, kind := side.extractLsb' 1 2, bad := side.getLsbD 3, last := side.getLsbD 4 }
  else none

/-- Put a flit on its way into the picot's island: usable two cycles after its register held it (R121). -/
def State.enterFlit (s : State) (p : Fin 1024) (inp : Dir) (q : Fin 16) (f : Flit) : State :=
  let x := s.picot p
  s.setPicot p { x with entering := x.entering ++ [{ wait := 2, inp := inp, item := .flit q f }] }

/-- Put a token on its way into the picot's island. -/
def State.enterToken (s : State) (p : Fin 1024) (inp : Dir) (q : Fin 8) (t : BitVec 16) : State :=
  let x := s.picot p
  s.setPicot p { x with entering := x.entering ++ [{ wait := 2, inp := inp, item := .token q t }] }

/-- A flit in the register of an input (R117, R120, R123, R124): one that fails CHECK is a link-check failure; else ACTION of the
link-slot entry ignores, ejects, passes, or both. -/
def State.flitArrives (s : State) (p : Fin 1024) (inp : Dir) (f : Flit) (check : BitVec 16 := 0) : State :=
  let e := State.flitSlot (s.linkSlot p) (dirNum inp)
  if check ≠ 0 then (s.count Reg.ARY_LINKCHK_COUNT).arrayFault 4 p (s.faultLg p) (dirNum inp) 0
  else
  let s1 := if e.1 = 2 ∨ e.1 = 3 then s.driveFlit p (dirOfNat e.2.1) 1 f (s.faultLg p) else s
  if e.1 = 1 ∨ e.1 = 3 then
    if (s.picot p).boot && f.kind != 2 then s1
    else s1.enterFlit p inp (BitVec.ofNat 4 e.2.2).toFin f
  else if e.1 = 0 then s1.arrayFault 1 p (s.faultLg p) (dirNum inp) 0
  else s1

/-- FLIT_ARRIVAL (R120, R123, R124): a flit that fails CHECK is a link-check failure. -/
def execFlitArrival (p : Fin 1024) (inp : Dir) (data : BitVec 256) (side : BitVec 8) (check : BitVec 16) (s : State) :
    Outcome :=
  .next (
    if s.issues then
      match flitOf data side with
      | none => s
      | some f => s.flitArrives p inp f (check ^^^ flitCheck side data)
    else s)

/-- A token in the register of an input (R117, R119, R123, R124), `par` telling that its TPAR is wrong: one that is passed on
keeps it, and only an ejected token is checked. -/
def State.tokenArrives (s : State) (p : Fin 1024) (inp : Dir) (tok : BitVec 16) (par : Bool) : State :=
  let e := State.tokenSlot (s.linkSlot p) (dirNum inp)
  let s1 := if e.1 = 2 ∨ e.1 = 3 then s.driveToken p (dirOfNat e.2.1) 1 tok (s.faultLg p) par else s
  if e.1 = 1 ∨ e.1 = 3 then
    if (s.picot p).boot then s1
    else if tokenInvalid tok || par then s1.arrayFault 3 p (s.faultLg p) (dirNum inp) 0
    else s1.enterToken p inp (BitVec.ofNat 3 e.2.2).toFin tok
  else if e.1 = 0 then s1.arrayFault 1 p (s.faultLg p) (dirNum inp) 0
  else s1

/-- TOKEN_ARRIVAL (R119): 0x0000 is no token. -/
def execTokenArrival (p : Fin 1024) (inp : Dir) (tok : BitVec 16) (par : Bool) (s : State) : Outcome :=
  .next (if s.issues && tok != 0 then s.tokenArrives p inp tok (par != tokenParity tok) else s)

end Sys2Proof.Machine
end

