-- ==== Sys2Proof/Machine/Holds.lean ====
section
/-!
DEFINITION. Hold requests, their clearing, and deadlocks (R201 to R207), and the pillow bridges (R122, R389).
-/

namespace Sys2Proof.Machine

namespace State

/-- The causes that a deferred request may have (R201). -/
def deferredCause (c : Nat) : Bool := c == 1 || c == 2 || (4 ≤ c && c ≤ 7)
/-- The causes that a cancelling request may have (R201). -/
def cancellingCause (c : Nat) : Bool := c == 1 || c == 3
/-- The causes to which the hold limit applies (R201). -/
def limitedCause (c : Nat) : Bool := 1 ≤ c && c ≤ 4

/-- A request clears (R202): with the last active cause the array resumes 8 cycles later, and those cycles are that cause's
(R208, R209). -/
def clearHold (s : State) (cause : Nat) (src : HoldSrc) : State :=
  if s.requested cause src && cause != 7 then
    let rs := s.hold.reqs.filter (fun r => !(decide (r.cause = cause) && decide (r.src = src)))
    { s with hold := { s.hold with
        reqs := rs
        goIn := if rs = [] then some 8 else s.hold.goIn
        needs := if cause = 4 then [] else s.hold.needs
        lagging := if rs = [] then decide (1 ≤ cause) && decide (cause ≤ 5) else s.hold.lagging } }
  else s

/-- ARY_DEADLOCK of a hold source (R206): the cycle is that in which the request was raised. -/
def deadlockWord (s : State) (cause : Nat) (src : HoldSrc) : Word :=
  let slot := match s.hold.reqs.find? (fun r => decide (r.cause = cause) && decide (r.src = src)) with
    | some r => r.cyc % 64
    | none => s.arr.cycle
  let at' (row col hub port lg : Nat) : Word :=
    BitVec.ofNat 32 (cause * 2 ^ 28 + row * 2 ^ 23 + col * 2 ^ 18 + hub * 2 ^ 17 + port * 2 ^ 12 + slot * 2 ^ 6 + lg * 2 ^ 3)
  let owner (p : Nat) : Nat :=
    match (s.picot p).fold.find? (fun e => decide (e.1 = slot)) with
    | some e => e.2.val
    | none => 0
  match src with
  | .picotDq p q => at' (p.val / 32) (p.val % 32) 0 q.val (owner p)
  | .picotTq p q => at' (p.val / 32) (p.val % 32) 0 (16 + q.val) (owner p)
  | .hbm k => at' k.val 0 1 0 0
  | .bridge b => at' (16 + b.val) 0 1 0 0
  | .cxl => at' 24 0 1 0 0
  | _ => at' 0 0 1 0 0

/-- The picot of a request's source; 1,024 for one outside the array. -/
def srcPicot : HoldSrc → Nat
  | .picotDq p _ => p.val
  | .picotTq p _ => p.val
  | _ => 1024

/-- The request that a deadlock names (R206): of the lowest-numbered picot for BALANCE, else the first one active. -/
def deadlockReq (s : State) (cause : Nat) : Option HoldReq :=
  (s.hold.reqs.filter (fun r => decide (r.cause = cause))).foldl (fun b r => match b with
    | none => some r
    | some x => if srcPicot r.src < srcPicot x.src then some r else some x) none

/-- A deadlock is declared (R206, R391): the register holds the first one, and the context stops. -/
def declareDeadlock (s : State) (w : Word) : State :=
  let s1 := if s.rd Reg.ARY_DEADLOCK = 0 then s.wr Reg.ARY_DEADLOCK w else s
  s1.uncorrectable 0x09 ((s1.rd Reg.ARY_DEADLOCK).setWidth 64)

end State

/-- HOLD_REQUEST_DEFERRED (R202). -/
def execHoldRequestDeferred (cause : Fin 8) (src : HoldSrc) (s : State) : Outcome :=
  .next (if State.deferredCause cause.val then s.requestHold cause.val src false else s)

/-- HOLD_REQUEST_CANCELLING (R203). -/
def execHoldRequestCancelling (cause : Fin 8) (src : HoldSrc) (s : State) : Outcome :=
  .next (if State.cancellingCause cause.val then s.requestHold cause.val src true else s)

/-- HOLD_CAUSE_CLEAR (R202). -/
def execHoldCauseClear (cause : Fin 8) (src : HoldSrc) (s : State) : Outcome := .next (s.clearHold cause.val src)

/-- HOLD_LIMIT_DEADLOCK (R206). -/
def execHoldLimitDeadlock (cause : Fin 8) (s : State) : Outcome :=
  .next (
    if State.limitedCause cause.val then
      match s.deadlockReq cause.val with
      | some r => s.declareDeadlock (s.deadlockWord cause.val r.src)
      | none => s
    else s)

/-- WAITLC_DEADLOCK (R207). -/
def execWaitlcDeadlock (loc : At) (s : State) : Outcome :=
  .next (
    match (s.lg loc).waiting with
    | some lc =>
      if ((s.picot loc.pic).loopCtr lc).timer then s
      else
        s.declareDeadlock (BitVec.ofNat 32 (8 * 2 ^ 28 + (loc.pic.val / 32) * 2 ^ 23 + (loc.pic.val % 32) * 2 ^ 18 +
          lc.val * 2 ^ 12 + (s.lg loc).waitAt * 2 ^ 6 + loc.lg.val * 2 ^ 3))
    | none => s)

/-- BRIDGE_RETRY (R122): a cancelling BRIDGE hold in the cycle the beat was due. -/
def execBridgeRetry (b : Fin 4) (s : State) : Outcome :=
  .next ((s.count (Reg.ERR_BRIDGE_RETRY b)).requestHold 3 (.bridge b) true)

/-- BRIDGE_RETRY_COMPLETE (R122). -/
def execBridgeRetryComplete (b : Fin 4) (s : State) : Outcome := .next (s.clearHold 3 (.bridge b))

/-- BRIDGE_RETRY_EXHAUSTED (R389). -/
def execBridgeRetryExhausted (b : Fin 4) (s : State) : Outcome :=
  .next (s.uncorrectable 0x07 (BitVec.ofNat 64 (16 + b.val)))

end Sys2Proof.Machine
end

