-- ==== Sys2Proof/Machine/MemLink.lean ====
section
/-!
DEFINITION. The L slot's memory and link instructions (R173 to R177).
-/

namespace Sys2Proof.Machine

namespace State

/-- The L-port reaches the bank of a word; a meeting with the lane port in one bank in one cycle is a BANK fault, and
neither access takes place (R109): what the lane port has put into flight or on the lane in this cycle is gone. -/
def lportAccess (s : State) (loc : At) (word : Nat) : State × Bool :=
  let x := s.picot loc.pic
  let bank := word % 32
  if bank ∈ x.lanePort then
    let s1 := s.setPicot loc.pic { x with
      flight := x.flight.filter (fun f => !(decide (f.slot = 3) && decide (f.cyc = s.cycleIndex))) }
    let s2 : State := { s1 with arr := { s1.arr with
      lanes := s1.arr.lanes.filter (fun b => !(b.out && !b.req && decide (b.tap = loc.pic) && decide (b.age = 0))) } }
    (s2.bankFault loc.pic loc.lg word, false)
  else (s.setPicot loc.pic { x with lport := some bank }, true)

/-- Segment `seg` of a register placed in 256·seg of a register's value. -/
def segLanes (seg : BitVec 3) (v : BitVec 256) : BitVec 2048 := (v.setWidth 2048) <<< (256 * seg.toNat)

/-- The lanes of a segment. -/
def segMask (seg : BitVec 3) : BitVec 64 := (0xFF#64) <<< (8 * seg.toNat)

/-- One segment of a vector register with its tag, landing after `lat` cycles (R154). -/
def flySegment (s : State) (loc : At) (lat : Nat) (v : BitVec 5) (seg : BitVec 3) (x : BitVec 256) (bad : Bool) : State :=
  (s.fly loc 1 lat (.lanes v.toNat (segMask seg) (segLanes seg x))).fly loc 1 lat
    (.tags v.toNat ((1#8) <<< seg.toNat) bad)

end State

/-- NOPL: no operation. -/
def execNopl (_loc : At) (s : State) : Outcome := .next s

/-- LDW: an SRAM word into a segment, whose tag clears (R154). -/
def execLdw (loc : At) (a : LM) (s : State) : Outcome :=
  .next (
    if s.issues then
      let r := s.lportAccess loc a.word.toNat
      if r.2 then
        let c := r.1.sramCheck loc.pic [a.word.toNat]
        if c.2 then c.1.flySegment loc 3 a.v a.seg (s.sramRead loc.pic a.word.toNat) false else c.1
      else r.1
    else s)

/-- STW: a segment into an SRAM word, written in the issue cycle. -/
def execStw (loc : At) (a : LM) (s : State) : Outcome :=
  .next (
    if s.issues then
      let r := s.lportAccess loc a.word.toNat
      if r.2 then
        r.1.fly loc 1 1 (.sram a.word.toNat (segment ((s.picot loc.pic).vreg a.v) a.seg.toNat))
      else r.1
    else s)

/-- SEND (R173): from a segment or a queue head the flit occupies the output in the next cycle, from SRAM in the third. -/
def execSend (loc : At) (a : LS) (s : State) : Outcome :=
  .next (
    if s.issues then
      match a.src.toNat with
      | 0 =>
        s.driveFlit loc.pic a.dir 2
          { data := segment ((s.picot loc.pic).vreg a.v) a.seg.toNat, kind := 0,
            bad := (s.picot loc.pic).segTag a.v a.seg.toNat, last := a.last } loc.lg
      | 1 =>
        let r := s.lportAccess loc a.word.toNat
        if r.2 then
          let c := r.1.sramCheck loc.pic [a.word.toNat]
          if c.2 then
            c.1.driveFlit loc.pic a.dir 4
              { data := s.sramRead loc.pic a.word.toNat, kind := 0, bad := (s.lg loc).badl, last := a.last } loc.lg
          else c.1
        else r.1
      | 2 =>
        match s.popFlit loc.pic a.dq.toFin with
        | (some f, t) => t.driveFlit loc.pic a.dir 2 f loc.lg
        | (none, t) => t
      | _ => s
    else s)

/-- RECV (R174): the head of a data queue into a segment or an SRAM word. -/
def execRecv (loc : At) (a : LR) (s : State) : Outcome :=
  .next (
    if s.issues then
      match s.popFlit loc.pic a.dq.toFin with
      | (none, t) => t
      | (some f, t) =>
        if a.toSram then
          let r := t.lportAccess loc a.word.toNat
          if r.2 then
            (r.1.fly loc 1 2 (.sram a.word.toNat f.data)).fly loc 1 2 (.badl false f.bad)
          else r.1
        else t.flySegment loc 2 a.v a.seg f.data f.bad
    else s)

/-- QPUT (R174): a segment into a data queue as a DATA flit. -/
def execQput (loc : At) (a : LQ) (s : State) : Outcome :=
  .next (
    if s.issues then
      s.pushFlit loc.pic a.dq.toFin
        { data := segment ((s.picot loc.pic).vreg a.v) a.seg.toNat, kind := 0,
          bad := (s.picot loc.pic).segTag a.v a.seg.toNat, last := a.last }
    else s)

/-- A 16-bit LEN, 0 meaning 65,536 (R126). -/
def beatsOf (n : Nat) : Nat := if n % 65536 = 0 then 65536 else n % 65536

/-- MREQ (R176): a request waits in the tap for the first cycle in which the memory-lane table puts a beat. -/
def execMreq (loc : At) (a : LN) (s : State) : Outcome :=
  .next (
    if s.issues then
      let x := s.picot loc.pic
      s.setPicot loc.pic { x with
        laneOut := x.laneOut ++ [{ addr := (s.lg loc).reg a.ga, len := beatsOf (fieldNat ((s.lg loc).reg a.gl) 0 16),
                                   write := a.write, word := a.word.toNat, lg := loc.lg, sent := false, beat := 0, due := 0,
                                   taken := 0, data := [] }] }
    else s)

/-- The MEMREQ flit of an HATOM (R177). -/
def hatomData (l : Logical) (a : LH) : BitVec 256 :=
  let new : Word := if a.aop = 2 then l.reg (a.go + 1) else 0
  BitVec.ofNat 256 ((l.pair a.ga).toNat + (l.reg a.go).toNat * 2 ^ 64 + new.toNat * 2 ^ 96 + a.aop.toNat * 2 ^ 128)

/-- HATOM (R177): the MEMREQ flit leaves on the S output in the next cycle. -/
def execHatom (loc : At) (a : LH) (s : State) : Outcome :=
  .next (
    if s.issues then
      s.driveFlit loc.pic .s 2 { data := hatomData (s.lg loc) a, kind := 3, bad := false, last := false } loc.lg
    else s)

end Sys2Proof.Machine
end

