-- ==== Sys2Proof/Machine/MemLane.lean ====
section
/-!
DEFINITION. Memory lanes (R126, R127, R133, R176, R199, R204) and the HBM controllers' service of array traffic (R26).
-/

namespace Sys2Proof.Machine

/-- The pillow of a picot (R15). -/
def pillowOf (p : Fin 1024) : Nat := (if 16 ≤ p.val % 32 then 1 else 0) + (if 16 ≤ p.val / 32 then 2 else 0)

/-- A picot's logical position counted from its pillow's outer column (R141). -/
def lanePos (p : Fin 1024) : Nat := if p.val % 32 < 16 then p.val % 32 else 31 - p.val % 32

/-- The next picot on a memory lane, toward the controllers or away from them: none at an end of the lane (R126). -/
def laneNeighbour (p : Fin 1024) (out : Bool) : Option (Fin 1024) :=
  if (out && decide (lanePos p = 0)) || (!out && decide (lanePos p = 15)) then none
  else neighbour p (if (decide (p.val % 32 < 16)) == out then .w else .e)

/-- The picot at the outer end of a picot's lane. -/
def laneOuter (p : Fin 1024) : Fin 1024 :=
  ⟨p.val / 32 * 32 + (if p.val % 32 < 16 then 0 else 31), by have := p.isLt; split <;> omega⟩

/-- The line of a pillow address (R126, R446): ADDR counts 256-byte units of the pillow's HBM. -/
def laneLine (p : Fin 1024) (addr : Nat) : Nat := pillowLines * pillowOf p + addr % pillowLines

/-- The line of beat `m` of a transfer. -/
def LaneReq.line (r : LaneReq) (p : Fin 1024) (m : Nat) : Nat := laneLine p (r.addr.toNat + m)

/-- A request beat (R126): ADDR, LEN, WRITE; the rest is zero. -/
def LaneReq.bits (r : LaneReq) : BitVec 2048 :=
  BitVec.ofNat 2048 (r.addr.toNat + r.len % 65536 * 2 ^ 32 + r.write.toNat * 2 ^ 48)

/-- The next beat that a controller has yet to serve for a read. -/
def LaneReq.unserved (r : LaneReq) : Nat := r.beat + r.data.length

namespace State

/-- The region of an encrypted HBMINIT section that holds a pillow offset (R449). -/
def initRegion (s : State) (pillow off : Nat) : Option HbmRegion :=
  s.img.regions.find? (fun r => decide (r.pillow = pillow) && decide (r.off ≤ off) && decide (off < r.off + r.len) &&
    decide (r.init < 2 ^ 64 - 1))

/-- A line as the tap takes it: a region of an encrypted HBMINIT section is deciphered (R368). -/
def tapLine (s : State) (p : Fin 1024) (off : Nat) (x : BitVec 2048) : BitVec 2048 :=
  match s.img.hbmKey, s.initRegion (pillowOf p) off with
  | some (key, iv), some r =>
    let pos := r.init + (off - r.off)
    let ks := (gcmStream key (iv ++ [0, 0, 0, 1]) (pos % 16 + pos + 256)).drop pos
    x ^^^ BitVec.ofNat 2048 (ofBytes (ks.take 256))
  | _, _ => x

/-! The tap's lane port (R109). -/

/-- The banks of a beat's eight words. -/
def beatBanks (base : Nat) : List Nat := (List.range 8).map (fun i => (base + i) % 32)

/-- The lane port reaches the banks of a beat; a meeting with the L-port in one bank in one cycle is a BANK fault, and neither
access takes place (R109). -/
def laneAccess (s : State) (p : Fin 1024) (base : Nat) : State × Bool :=
  let q := s.picot p
  if q.lport.any (fun b => decide (b ∈ beatBanks base)) then
    let s1 := s.setPicot p { q with flight := q.flight.filter (fun f => !(decide (f.slot = 1) && decide (f.cyc = s.cycleIndex))) }
    (s1.bankFault p (s.faultLg p) base, false)
  else (s.setPicot p { q with lanePort := q.lanePort ++ beatBanks base }, true)

/-- The eight SRAM words of a beat as one line: none where a word cannot be used (R111) or the port meets the L-port. -/
def laneRead (s : State) (p : Fin 1024) (base : Nat) : State × Option (BitVec 2048) :=
  let r := s.laneAccess p base
  if r.2 then
    let c := r.1.sramCheck p ((List.range 8).map (fun i => base + i))
    (c.1, if c.2 then
      some ((List.range 8).foldl (fun x i => x ||| ((s.sramRead p (base + i)).setWidth 2048 <<< (256 * i))) 0) else none)
  else (r.1, none)

/-- Lane-port writes of one beat to SRAM, in the cycle in which it arrives (R109, R199). -/
def laneWrite (s : State) (p : Fin 1024) (base : Nat) (x : BitVec 2048) : State :=
  let r := s.laneAccess p base
  if r.2 then (List.range 8).foldl (fun t i => t.fly { pic := p, lg := 0 } 3 1 (.sram (base + i) (segment x i))) r.1 else r.1

/-! The controllers' end (R126, R199, R204). -/

/-- L_ctl: cycles from a read request at the controller to the first beat on the lane (R198, R199, R200). -/
def laneCtl (s : State) : Nat := (if s.b0 then 104 else 120) + s.rdF Reg.ARY_LEQ1 0 5

/-- A beat that has waited out the commit lag is written to HBM, or waits for it (R204). -/
def storeBeat (s : State) (x : LaneStore) : State :=
  if x.wait = 0 then s.writeLine x.line x.data else { s with arr := { s.arr with stores := s.arr.stores ++ [x] } }

/-- One cycle of the commit lag at the controllers. -/
def storesCycle (s : State) : State :=
  let xs := s.arr.stores.map (fun x => { x with wait := x.wait - 1 })
  let s1 : State := { s with arr := { s.arr with stores := [] } }
  xs.foldl (fun t x => t.storeBeat x) s1

/-- A read request at its controller: its first beat enters the lane's outer register L_ctl + 1 cycles later. -/
def laneJob (s : State) (p : Fin 1024) (r : LaneReq) : State :=
  s.setPicot p { s.picot p with
    laneIn := (s.picot p).laneIn ++ [{ r with beat := 0, due := s.laneCtl + 1, taken := s.cycleIndex, data := [] }] }

/-- A beat leaves the outer end of the outbound lane (R126): a write's request only announces the beats that follow. -/
def laneDeliver (s : State) (b : LaneBeat) : State :=
  if b.req then
    if b.bits.getLsbD 48 then s
    else
      s.laneJob b.tap { addr := BitVec.ofNat 32 b.addr, len := beatsOf (fieldNat b.bits 32 16), write := false, word := b.word,
                        lg := 0, sent := true, beat := 0, due := 0, taken := 0, data := [] }
  else s.storeBeat { wait := 8 - b.age, line := laneLine b.tap b.addr, data := b.bits }

/-- The next beat of a read, served earlier or now (R127), and the request without it; none is a line that cannot be read. -/
def jobBeat (s : State) (p : Fin 1024) (r : LaneReq) : State × Option (BitVec 2048) :=
  let got := match r.data with
    | d :: _ => (s, d)
    | [] => s.readLine (r.line p r.beat)
  (got.1, got.2.map (fun x => s.tapLine p (256 * ((r.addr.toNat + r.beat) % pillowLines)) x))

/-- A read after its next beat; none once that was the last. -/
def LaneReq.advance (r : LaneReq) : Option LaneReq :=
  if r.beat + 1 < r.len then some { r with beat := r.beat + 1, due := 1, data := r.data.tail } else none

/-- One cycle of a tap's reads at the controller: a beat that is due enters the lane's outer register. -/
def jobsCycle (s : State) (p : Fin 1024) : State :=
  let r := (s.picot p).laneIn.foldl (fun (acc : State × List LaneReq) r =>
    if r.due ≤ 1 then
      let x := acc.1.jobBeat p r
      let s1 := match x.2 with
        | some d => { x.1 with arr := { x.1.arr with lanes := x.1.arr.lanes ++
            [{ pic := laneOuter p, out := false, req := false, bits := d, tap := p, word := r.word + 8 * r.beat,
               addr := r.addr.toNat + r.beat, age := 0 }] } }
        | none => x.1
      (s1, acc.2 ++ (LaneReq.advance r).toList)
    else (acc.1, acc.2 ++ [{ r with due := r.due - 1 }])) (s, [])
  if (s.picot p).laneIn = [] then s else r.1.setPicot p { r.1.picot p with laneIn := r.2 }

/-- One cycle of the memory lanes (R126): every beat moves one hop, beats leave at the outer end, and the controllers send. -/
def laneMove (s : State) : State :=
  let bs := s.arr.lanes.map (fun b => { b with age := b.age + 1 })
  let s1 : State := { s with arr := { s.arr with
    lanes := bs.filterMap (fun b => (laneNeighbour b.pic b.out).map (fun q => { b with pic := q })) } }
  let s2 := ((s1.arr.picots.filterMap (fun e => if h : e.1 < 1024 then some (⟨e.1, h⟩ : Fin 1024) else none)).foldl jobsCycle
    s1).storesCycle
  (bs.filter (fun b => b.out && (laneNeighbour b.pic true).isNone)).foldl (fun t b => t.laneDeliver b) s2

/-! The taps (R126, R133, R176). -/

/-- The slot whose memory-lane table a picot uses in this cycle: the owner's; R133 names none for a cycle that no pricking
owns, where the model takes the lowest bound slot's, as for links (DESIGN CHOICE, log entry 81). -/
def laneTable (s : State) (p : Nat) : Option (Fin 8) :=
  match s.owner p with
  | some l => ((s.picot p).logical l).slot
  | none => s.lowestBound p

/-- A picot's memory-lane entry in this cycle (R126, R133, R192). -/
def laneSlot (s : State) (p : Nat) : Nat :=
  match s.laneTable p with
  | some k => s.bodyNat p k (608 + s.arr.cycle) 1
  | none => 0

/-- The tap's oldest request of the pricking whose table governs the cycle, and its place (R176). -/
def putReq (s : State) (p : Fin 1024) : Option (Nat × LaneReq) :=
  let k := s.laneTable p
  ((s.picot p).laneOut.zipIdx.find? (fun e => decide (((s.picot p).logical e.1.lg).slot = k) && k.isSome)).map (fun e => (e.2, e.1))

/-- A beat put on the outbound lane; what the register held is not passed on. -/
def laneDrive (s : State) (p : Fin 1024) (req : Bool) (bits : BitVec 2048) (word addr : Nat) : State :=
  { s with arr := { s.arr with
    lanes := s.arr.lanes.filter (fun b => !(b.out && decide (b.pic = p))) ++
      [{ pic := p, out := true, req := req, bits := bits, tap := p, word := word, addr := addr, age := 0 }] } }

/-- The tap puts a beat (R126, R176): a request beat, or the next data beat of a write whose request beat has gone.  With
nothing to put, the lane's beat passes on (log entry 81). -/
def lanePut (s : State) (p : Fin 1024) : State :=
  match s.putReq p with
  | none => s
  | some (i, r) =>
    let x := s.picot p
    if !r.sent then
      let out := if r.write then x.laneOut.set i { r with sent := true } else x.laneOut.eraseIdx i
      (s.setPicot p { x with laneOut := out }).laneDrive p true r.bits r.word r.addr.toNat
    else
      let out := if r.beat + 1 < r.len then x.laneOut.set i { r with beat := r.beat + 1 } else x.laneOut.eraseIdx i
      let w := (s.setPicot p { x with laneOut := out }).laneRead p (r.word + 8 * r.beat)
      match w.2 with
      | some d => w.1.laneDrive p false d (r.word + 8 * r.beat) (r.addr.toNat + r.beat)
      | none => w.1

/-- The tap takes the inbound beat (R126, R199): one of its own reads goes to its SRAM words, any other is lost (log entry 81). -/
def laneGet (s : State) (p : Fin 1024) : State :=
  let here (b : LaneBeat) : Bool := !b.out && decide (b.pic = p)
  let s1 : State := { s with arr := { s.arr with lanes := s.arr.lanes.filter (fun b => !here b) } }
  (s.arr.lanes.filter (fun b => here b && decide (b.tap = p))).foldl (fun t b => t.laneWrite p b.word b.bits) s1

/-- One cycle of a tap. -/
def laneCycle (s : State) (p : Fin 1024) : State :=
  let e := s.laneSlot p
  if e = 0 then s
  else
    let s1 := if e.testBit 1 then s.laneGet p else s
    if e.testBit 0 then s1.lanePut p else s1

/-! The rows of the table: what one transfer does when its controller or its tap is driven by a command. -/

/-- Beats from `m` on of a write that its controller takes at once (R126, R204). -/
def laneStoreAll (s : State) (p : Fin 1024) (r : LaneReq) : Nat → Nat → State
  | 0, _ => s
  | n + 1, m =>
    let w := s.laneRead p (r.word + 8 * m)
    match w.2 with
    | some d => (w.1.storeBeat { wait := 8, line := r.line p m, data := d }).laneStoreAll p r n (m + 1)
    | none => w.1.laneStoreAll p r n (m + 1)

/-- The controller takes a tap's request beat: the one on the lane, else the oldest that waits in the tap with the beats that
follow it (R126). -/
def laneTake (s : State) (p : Fin 1024) : State :=
  match s.arr.lanes.find? (fun b => b.out && b.req && decide (b.tap = p)) with
  | some b => ({ s with arr := { s.arr with lanes := s.arr.lanes.erase b } } : State).laneDeliver b
  | none =>
    match (s.picot p).laneOut with
    | [] => s
    | r :: rs =>
      let s1 := s.setPicot p { s.picot p with laneOut := rs }
      if r.write then s1.laneStoreAll p r (r.len - r.beat) r.beat else s1.laneJob p r

/-- The next read beat of a tap reaches it: the one on the lane, else the next of its oldest read (R127, R199). -/
def laneBeat (s : State) (p : Fin 1024) : State :=
  match s.arr.lanes.find? (fun b => !b.out && decide (b.tap = p)) with
  | some b => ({ s with arr := { s.arr with lanes := s.arr.lanes.erase b } } : State).laneWrite p b.word b.bits
  | none =>
    match (s.picot p).laneIn with
    | [] => s
    | r :: rs =>
      let x := s.jobBeat p r
      let s1 := x.1.setPicot p { x.1.picot p with laneIn := (LaneReq.advance r).toList ++ rs }
      match x.2 with
      | some d => s1.laneWrite p (r.word + 8 * r.beat) d
      | none => s1

/-- The array beat that a stack serves next: of the picots of its pillow, the earliest request with an unserved beat in
this stack, in beat order. -/
def arrayBeat (s : State) (stack : Nat) : Option (Nat × Nat × LaneReq) :=
  s.arr.picots.foldl (fun best e =>
    if h : e.1 < 1024 then
      (List.range e.2.laneIn.length).foldl (fun b i =>
        match e.2.laneIn[i]? with
        | none => b
        | some r =>
          if r.unserved < r.len ∧ stackOf (r.line ⟨e.1, h⟩ r.unserved) = stack then
            match b with
            | some (_, _, r') => if r.taken < r'.taken then some (e.1, i, r) else b
            | none => some (e.1, i, r)
          else b) best
    else best) none

/-- A stack serves its next array beat (R26). -/
def serveBeat (s : State) (p i : Nat) (r : LaneReq) (bus : BitVec 2048) : State :=
  if h : p < 1024 then
    let q := s.readLine (r.line ⟨p, h⟩ r.unserved) bus
    q.1.setPicot p { q.1.picot p with laneIn := (q.1.picot p).laneIn.set i { r with data := r.data ++ [q.2] } }
  else s

/-- One service of an HBM controller (R26): array traffic before host accesses; an array request that cannot be served
in its cycle raises REFRESH and waits, and clears it when it is served. -/
def serveHbm (s : State) (stack : Fin 12) (late : Bool) (bus : BitVec 2048) : State :=
  match s.arrayBeat stack with
  | some (p, i, r) =>
    if late then s.requestHold 2 (.hbm stack) false else (s.serveBeat p i r bus).clearHold 2 (.hbm stack)
  | none => (s.disturb stack bus).serveMem stack

/-- Array beats that wait for a stack under REFRESH are served before a request of a lower class (R26). -/
def arrayFirst (s : State) (stack : Fin 12) : State :=
  if s.requested 2 (.hbm stack) then
    match s.arrayBeat stack with
    | some (p, i, r) => (s.serveBeat p i r 0).clearHold 2 (.hbm stack)
    | none => s
  else s

end State

/-- MEMLANE_REQUEST (R126). -/
def execMemlaneRequest (p : Fin 1024) (s : State) : Outcome := .next (if s.issues then s.laneTake p else s)

/-- MEMLANE_READ_BEAT (R199). -/
def execMemlaneReadBeat (p : Fin 1024) (s : State) : Outcome := .next (if s.issues then s.laneBeat p else s)

/-- HBM_REQUEST_SERVE (R26). -/
def execHbmRequestServe (stack : Fin 12) (late : Bool) (bus : BitVec 2048) (s : State) : Outcome :=
  .next (s.serveHbm stack late bus)

end Sys2Proof.Machine
end

