-- ==== Sys2Proof/Machine/RowSums.lean ====
section
/-!
DEFINITION. Weight row sums and offset folds (R69, R70, R73): what the loader writes into row descriptors.  Where an image's
rows lie is the compiler's to know and no section says it: `Config.rowPlan` (log entry 84).
-/

namespace Sys2Proof.Machine

open Sys2Proof.Config (RowPlan RowWeight)

namespace State

/-- `n` bytes of a row descriptor from byte `off` on, all within one SRAM word. -/
def descNat (s : State) (r : RowPlan) (off n : Nat) : Nat :=
  ((s.sramRead r.pic (32 * r.desc + off / 32)).extractLsb' (8 * (off % 32)) (8 * n)).toNat

/-- Put `n` bytes into a row descriptor. -/
def setDesc (s : State) (r : RowPlan) (off n v : Nat) : State :=
  let w := 32 * r.desc + off / 32
  let x := s.sramRead r.pic w
  let mask : BitVec 256 := BitVec.ofNat 256 ((2 ^ (8 * n) - 1) * 2 ^ (8 * (off % 32)))
  s.sramWrite r.pic w ((x &&& ~~~mask) ||| (BitVec.ofNat 256 (v * 2 ^ (8 * (off % 32))) &&& mask))

/-- A line of a pillow's HBM with the beats that wait to be written there (R204). -/
def lineNow (s : State) (p : Fin 1024) (addr : Nat) : BitVec 2048 :=
  match s.arr.stores.reverse.find? (fun x => decide (x.line = laneLine p addr)) with
  | some x => x.data
  | none => (s.line (laneLine p addr)).data

/-- The `n` bits at a place of a picot's SRAM, or of its pillow's HBM as its tap takes them. -/
def placeBits (s : State) (pic : Nat) (w : RowWeight) (n : Nat) : Nat :=
  if w.hbm then
    let p : Fin 1024 := Fin.ofNat 1024 pic
    ((s.tapLine p (256 * (w.addr % pillowLines)) (s.lineNow p w.addr)).extractLsb' w.bit n).toNat
  else ((s.sramRead pic w.addr).extractLsb' w.bit n).toNat

/-- The code of a weight. -/
def weightCode (s : State) (r : RowPlan) (w : RowWeight) : Nat := s.placeBits r.pic w (Fmt.width r.fmt)

/-- The value of a weight code. -/
def weightVal (s : State) (r : RowPlan) (w : RowWeight) : Val := fmtValue r.fmt (s.weightCode r w)

/-- R_j of a row of integer codes (R70); 0 for floating-point weights (R161). -/
def rowSum (s : State) (r : RowPlan) : Int :=
  if Fmt.isInt r.fmt then
    (r.weights.map (fun w => if r.fmt = Fmt.u8 then (s.weightCode r w : Int) else signedCode (Fmt.width r.fmt) (s.weightCode r w))).foldl
      (· + ·) 0
  else 0

/-- β_j of a row under a record bank (R73): the exact sum, brought once to X128, in units of 2^−64. -/
def rowFold (s : State) (r : RowPlan) (bank : Nat) : Int :=
  let sw := fmtValue Fmt.fp32 (s.descNat r (256 + 4 * r.row) 4)
  let zw := (Q.ofInt (signedCode 32 (s.descNat r (128 + 4 * r.row) 4))).toVal
  (toX128 ((r.weights.map (fun w =>
    match w.chan with
    | some c => (sw.mul ((s.weightVal r w).add zw.neg)).mul (fp32Val (s.recWord bank c 3))
    | none => (Q.ofInt 0).toVal)).foldl Val.add (Q.ofInt 0).toVal)).1

/-- The loader's words of a floating-point row (R161): RSUM, ZW and ZX 0, SW 1, and SX 1 for scaled blocks. -/
def floatRow (s : State) (r : RowPlan) : State :=
  if Fmt.isInt r.fmt && !r.scaled then s
  else
    let s1 := (s.setDesc r (128 + 4 * r.row) 4 0).setDesc r (256 + 4 * r.row) 4 fpOne.toNat
    match r.layer with
    | none => s1
    | some (k, ck) =>
      let put (t : State) (n : Nat) (v : Word) : State :=
        let x := t.picot r.pic
        let f := 21 + n / 8
        let o := (t.slotFlit r.pic k f)
        let mask : BitVec 256 := (0xFFFFFFFF#256) <<< (32 * (n % 8))
        let y : BitVec 256 := (o &&& ~~~mask) ||| ((v.setWidth 256) <<< (32 * (n % 8)))
        t.setPicot r.pic (x.setSlot k { x.slot k with
          flits := SMap.set Stored.blank (x.slot k).flits f { gen := t.keyGen, word := y } })
      let s2 := put s1 ck 0
      if r.scaled then put s2 (ck + 1) fpOne else s2

/-- A row's FOLD: its bias plus β_j (R73). -/
def putFold (s : State) (bank : Nat) (x : RowPlan × Int) : State :=
  s.setDesc x.1 (512 + 16 * x.1.row) 16 (codeOf 128 (satX128 (x.2 + s.rowFold x.1 bank)).1)

/-- The rows of the loaded image, with the bias that each row's FOLD held as the image gave it. -/
def rows (s : State) : List (RowPlan × Int) := (Config.rowPlan s.img.measure).zip s.arr.biases

/-- Every row's FOLD under a record bank (R69, R73). -/
def foldRows (s : State) (bank : Nat) : State :=
  { s with arr := { s.arr with picots := (s.rows.foldl (fun t x => t.putFold bank x) s).arr.picots } }

/-- The loader forms every row's sum, and its FOLD under the active records (R70, R73). -/
def loadRows (s : State) : State :=
  let plan := Config.rowPlan s.img.measure
  let s1 : State := { s with arr := { s.arr with
    biases := plan.map (fun r => signedCode 128 (s.descNat r (512 + 16 * r.row) 16))
    picots := (plan.foldl (fun t r =>
      let u := t.floatRow r
      u.setDesc r (4 * r.row) 4 (codeOf 32 (u.rowSum r))) s).arr.picots } }
  s1.foldRows (s1.rdF Reg.ING_REC_STATUS 0 1)

/-- The folds change with the records, before the array takes the first entry of the switch's block (R69). -/
def refold (s : State) (b : Nat) : State :=
  if s.ing.taken = (b, 0) ∧ (b ∈ s.ing.recHist ∨ (s.rdB Reg.ING_REC_STATUS 1 ∧ s.ing.recArm = b)) then s.foldRows (s.recBank b) else s

end State

end Sys2Proof.Machine
end

