-- ==== Sys2Proof/Machine/HistRing.lean ====
section
/-!
DEFINITION. The history ring, the ring reader, debt and shedding, statistics, records, and the input plan (R95 to R103,
R194, R208, R209, R243, R244).
-/

namespace Sys2Proof.Machine

/-- Bytes rounded up to a multiple. -/
def padTo (m n : Nat) : Nat := (n + m - 1) / m * m

/-- The number whose fields of `w` bits are the values, the first lowest (R37).  A sequence longer than a 256-bit word runs on
without a gap at the word's end, in ring slots (R244) and event sections (R252) alike: R37's words of 21 S12 elements are taken
to be those of flits and HBM operands (DEDUCED, log entry 79). -/
def packBits (w : Nat) : List Nat → Nat
  | [] => 0
  | x :: xs => x % 2 ^ w + packBits w xs * 2 ^ w

/-- `n` little-endian bytes of a number. -/
def natBytes (n x : Nat) : List Byte := (List.range n).map (fun i => BitVec.ofNat 8 (x >>> (8 * i)))

namespace State

/-- RING_BLOCK_BYTES and the ring's bytes (R189, R446). -/
def ringBlock (s : State) : Nat := s.img.ringBlock
def ringBytes (s : State) : Nat := s.img.ringGib * 2 ^ 30
/-- S (R243). -/
def ringSlots (s : State) : Nat := if s.ringBlock = 0 then 0 else s.ringBytes / s.ringBlock
/-- The first ring byte of a block's slot (R243). -/
def slotAt (s : State) (b : Nat) : Nat := if s.ringSlots = 0 then 0 else b % s.ringSlots * s.ringBlock

/-- Write bytes into the ring, 256 bytes of a line at a time. -/
def ringWrite (s : State) (r : Nat) (bs : List Byte) : State :=
  let n := (r % 256 + bs.length + 255) / 256
  (List.range n).foldl (fun t i =>
    let lo := if i = 0 then r % 256 else 0
    let off := if i = 0 then 0 else 256 * i - r % 256
    let a := ringDpa (r + off)
    t.writePart (a / 256) lo ((bs.drop off).take (256 - lo))) s

/-- Read bytes of the ring; a line that cannot be read gives zeros. -/
def ringRead (s : State) (r len : Nat) (withheld : Bool := false) : State × List Byte :=
  let n := (r % 256 + len + 255) / 256
  let x := (List.range n).foldl (fun (acc : State × List Byte) i =>
    let q := acc.1.readLine (ringDpa (256 * (r / 256 + i)) / 256) 0 withheld
    (q.1, acc.2 ++ bytesOf 256 (q.2.getD 0))) (s, [])
  (x.1, (x.2.drop (r % 256)).take len)

/-- Bytes of a channel's codes and of its BAD bitmap in a slot (R244). -/
def codeBytes (s : State) (chan : Nat) : Nat := padTo 256 (s.blockLen * (s.chanFmt chan).width / 8)
def bitmapBytes (s : State) : Nat := padTo 256 (s.blockLen / 8)

/-- The slot of a block (R244). -/
def slotBytes (s : State) (b : Nat) : List Byte :=
  let blk := SMap.get [] s.ing.blocks b
  let get (c i : Nat) : Sample := SMap.get { code := 0, bad := false } blk (sampleKey c i)
  let chs := s.channels.map Prod.fst
  let idx := List.range s.blockLen
  let bads := (blk.filter (fun e => e.2.bad)).length
  let hdr := natBytes 8 b ++ natBytes 8 (codeOf 64 (s.acqTime s.refChannel (b * s.blockLen))) ++
    natBytes 8 (SMap.get 0 s.ing.shed b).toNat ++ natBytes 4 (if b ∈ s.ing.overrun then 1 else 0) ++ natBytes 4 bads
  natBytes 256 (ofBytes hdr) ++ chs.flatMap (fun c =>
    let w := (s.chanFmt c).width
    natBytes (s.codeBytes c) (packBits w (idx.map (fun i => codeOf w (get c i).code))) ++
    natBytes s.bitmapBytes (packBits 1 (idx.map (fun i => (get c i).bad.toNat))))

/-- The block that the ring takes next. -/
def ringNext (s : State) : Nat := match s.acq.wblock with | some w => w + 1 | none => s.ing.first

/-- A block completely delivered goes into its slot, and W advances to it (R243). -/
def ringBlockDone (s : State) : State :=
  let b := s.ringNext
  if !s.through b || s.ringSlots = 0 then s
  else
    let s1 := s.ringWrite (s.slotAt b) (s.slotBytes b)
    let s2 : State := { s1 with ing := { s1.ing with blocks := SMap.erase s1.ing.blocks b }, acq := { s1.acq with wblock := some b } }
    s2.wr64 Reg.ACQ_RING_WBLOCK (BitVec.ofNat 64 b)

/-- Does the ring hold a block (R243)? -/
def inRing (s : State) (b : Nat) : Bool :=
  match s.acq.wblock with
  | some w => decide (b ≤ w) && decide (w < b + s.ringSlots) && decide (s.ing.first ≤ b)
  | none => false

/-- The samples of a block in the slot layout of R244: channel, index in the block, history code and BAD mark. -/
def slotSamples (s : State) (bytes : List Byte) : List (Nat × Nat × Sample) :=
  let step (acc : Nat × List (Nat × Nat × Sample)) (c : Nat) : Nat × List (Nat × Nat × Sample) :=
    let w := (s.chanFmt c).width
    let codes := ofBytes ((bytes.drop acc.1).take (s.codeBytes c))
    let map := ofBytes ((bytes.drop (acc.1 + s.codeBytes c)).take s.bitmapBytes)
    (acc.1 + s.codeBytes c + s.bitmapBytes,
      acc.2 ++ (List.range s.blockLen).map (fun i =>
        (c, i, { code := signedCode w (codes / 2 ^ (w * i) % 2 ^ w), bad := decide (map / 2 ^ i % 2 = 1) })))
  ((s.channels.map Prod.fst).foldl step (256, [])).2

/-- The codes of a block in the slot layout of R244, quantized under the records that govern the block (R93, R95). -/
def quantSlot (s : State) (b : Nat) (bytes : List Byte) : SMap (Nat × Bool) :=
  (s.slotSamples bytes).foldl (fun m x =>
    SMap.insert m (sampleKey x.1 x.2.1) ((quantize (s.recWord (s.recBank b) x.1) x.2.2.code).code, x.2.2.bad)) []

/-- Stage 5 counts the samples of a replayed block (R61, R64, R97, R337).  What the ring reader quantizes again is not
counted again (R97). -/
def countSlot (s : State) (b : Nat) (bytes : List Byte) : State :=
  (s.slotSamples bytes).foldl (fun t x =>
    let q := quantize (s.recWord (s.recBank b) x.1) x.2.2.code
    (t.countEv q.ev).toStats x.1 (b * s.blockLen + x.2.1) x.2.2 q q.ev.sat false) s

/-- The entries of a block from entry k0 on (R98, R102, R103). -/
def blockEntries (s : State) (b k0 : Nat) (codes : SMap (Nat × Bool)) : List EbEntry :=
  (List.range s.img.inputs.length).filterMap (fun k => if k < k0 then none else s.formEntry b k codes)

/-- The block and entry that the ring reader supplies next: the first missed one, or what follows those it has supplied
(R98). -/
def feedNext (s : State) : Nat × Nat :=
  match s.ing.missed with
  | some m => if s.ing.fed.1 < m.1 ∨ (s.ing.fed.1 = m.1 ∧ s.ing.fed.2 < m.2) then m else s.ing.fed
  | none => s.ing.fed

/-- The ring reader supplies the entries of one more block (R93, R98, R99). -/
def readerBlock (s : State) : State :=
  let b := s.feedNext.1
  let stop := match s.ing.resume with | some r => decide (r ≤ b) | none => false
  if !s.rdB Reg.ING_EB_MODE 0 || stop || !s.inRing b then s
  else
    let r := s.ringRead (s.slotAt b) s.ringBlock
    let es := r.1.blockEntries b s.feedNext.2 (r.1.quantSlot b r.2)
    ({ r.1 with ing := { r.1.ing with feed := r.1.ing.feed ++ es, fed := (b + 1, 0) } } : State).notePresent b

/-- Entries that separate two places of the input plan. -/
def entriesBetween (s : State) (a b : Nat × Nat) : Nat := (b.1 * s.img.inputs.length + b.2) - (a.1 * s.img.inputs.length + a.2)

/-- Buffer writes resume at the next block boundary (R99): 30,840 entries of 272 bytes fill 8 MiB. -/
def resumeEb (s : State) : State :=
  let i := s.ing
  if i.missed.isSome && i.resume.isNone && decide (s.entriesBetween i.taken i.ebNext ≤ 30840) then
    { s with ing := { i with resume := some (if i.ebNext.2 = 0 then i.ebNext.1 else i.ebNext.1 + 1) } }
  else s

/-- Ring bytes from the start of a block to the ring's write point. -/
def ringAhead (s : State) (from' : Nat) : Nat :=
  match s.ing.newest with
  | none => 0
  | some n =>
    let b := s.blockOf n
    let chs := s.channels
    let got := (chs.map (fun e => min s.blockLen (s.nextIndex e.1 - b * s.blockLen))).foldl (· + ·) 0
    let part := if chs.isEmpty then 0 else s.ringBlock * got / (chs.length * s.blockLen)
    if from' ≤ b then s.ringBlock * (b - from') + part else 0

/-- The backlog in ring bytes (R100 preamble): from the first block that the array has not wholly consumed. -/
def backlog (s : State) : Nat := s.ringAhead s.ing.taken.1

/-- The oldest block that the array has neither consumed nor will skip (R103). -/
def oldestKept (s : State) : Nat :=
  ((List.range (s.ing.overrun.length + 1)).map (s.ing.taken.1 + ·)).find? (fun b => decide (b ∉ s.ing.overrun)) |>.getD s.ing.taken.1

/-- Array cycles per ref cycle at a throttle step (R17). -/
def cyclesPerRef (step : Nat) : Nat := match step with | 0 => 15 | 1 => 12 | 2 => 9 | _ => 6

/-- Codes of a whole block. -/
def blockCodes (s : State) : Nat := s.channels.length * s.blockLen

/-- The unit in which D is kept: 1 byte ÷ (codes of a block × cycles of a block's rounds). -/
def debtUnit (s : State) : Nat := s.blockCodes * (s.img.k * s.img.roundLen)

/-- One ref cycle of the latency debt (R100), in history-ring bytes: every code brings its equal share of its block's
RING_BLOCK_BYTES; Q is a block's ring bytes over its rounds at the current clock, and 0 while the step changes. -/
def debtCycle (s : State) : State :=
  let q := if s.rdB Reg.GLB_CLK_STATUS 2 then 0 else s.ringBlock * cyclesPerRef (s.rdF Reg.GLB_CLK_STATUS 0 2) * s.blockCodes
  let d := s.ing.debt + s.ing.arrived * s.ringBlock * (s.img.k * s.img.roundLen) - q
  ({ s with ing := { s.ing with debt := d, arrived := 0 } } : State).wr64 Reg.ING_DEBT
    (BitVec.ofNat 64 (if s.debtUnit = 0 then 0 else d / s.debtUnit))

/-- The shed level at a block boundary (R101). -/
def shedLevel (s : State) : State :=
  let d := s.ing.debt
  let d' := s.ing.debtOld
  let u := s.ringBytes * s.debtUnit
  let limit := s.rdF Reg.ING_DEBT_CFG 0 10
  let hyst := s.rdF Reg.ING_DEBT_CFG 16 10
  let l := s.rdF Reg.ING_SHED_STATUS 0 7
  let l' :=
    if limit * u ≤ 1000 * d ∧ d' < d ∧ l < s.shedList.length then l + 1
    else if 1000 * d + hyst * u < limit * u ∧ 0 < l ∧ (d < d' ∨ d = 0) then l - 1
    else l
  let s1 := (s.wrF Reg.ING_SHED_STATUS 0 7 l').wrF Reg.ING_SHED_STATUS 8 7 (max l' (s.rdF Reg.ING_SHED_STATUS 8 7))
  let s2 := s1.wrB Reg.ING_SHED_STATUS 31 (decide (0 < l'))
  { s2 with ing := { s2.ing with debtOld := d } }

/-- The front end skips the block that the write point would overwrite (R103): the oldest that the array has not
consumed and that is not skipped yet, marked in the ring's header and in its entries. -/
def overrunSkip (s : State) : State :=
  let b := s.oldestKept
  if s.ringBlock = 0 || decide (s.ringAhead b + s.ringBlock < s.ringBytes) then s
  else
    let mark (es : List EbEntry) : List EbEntry := es.map (fun e => if e.block = b then { e with overrun := true } else e)
    let s1 : State := { s with ing := { s.ing with overrun := b :: s.ing.overrun, eb := mark s.ing.eb, feed := mark s.ing.feed } }
    let s2 := (s1.count64 Reg.ING_OVERRUN_COUNT).wrB Reg.ING_SHED_STATUS 17 true
    if s2.inRing b then s2.ringWrite (s2.slotAt b + 24) [1] else s2

/-- Sums of a channel's statistics over blocks. -/
def joinStats (a b : StatAcc) : StatAcc :=
  { min := min a.min b.min, max := max a.max b.max, sum := a.sum + b.sum, lo := a.lo + b.lo, hi := a.hi + b.hi,
    sat := a.sat + b.sat, bad := a.bad + b.bad, good := a.good + b.good, ovr := a.ovr || b.ovr }

/-- A channel's statistics of the blocks from `b` on. -/
def intervalStats (s : State) (chan b n : Nat) : StatAcc :=
  (List.range n).foldl (fun a i => joinStats a (SMap.get StatAcc.none s.ing.stats (4096 * (b + i) + chan))) StatAcc.none

/-- The channel was DEGENERATE (R68, R97). -/
def isDegen (a : StatAcc) : Bool := decide (0 < a.good) && decide (a.min = a.max)

/-- A statistics record (R97): MIN and MAX of an interval without a good sample are open. -/
def statRecord (a : StatAcc) (open' : BitVec 64) : List Byte :=
  let cap (n : Nat) : Nat := min n 0xFFFFFFFF
  (if a.good = 0 then natBytes 4 (open'.toNat) else natBytes 2 (codeOf 16 a.min) ++ natBytes 2 (codeOf 16 a.max)) ++
  natBytes 8 (codeOf 64 a.sum) ++ natBytes 4 (cap a.lo) ++ natBytes 4 (cap a.hi) ++ natBytes 4 (cap a.sat) ++
  natBytes 4 (cap a.bad) ++ natBytes 1 ((isDegen a).toNat + 2 * a.ovr.toNat) ++ [0, 0, 0]

/-- Stage 5 has counted every sample of block b: delivered, or replayed (R97, R337). -/
def counted (s : State) (b : Nat) : Bool :=
  s.through b || (s.replaying && match s.ing.replayed with | some n => decide (b ≤ n) | none => false)

/-- A write of the lowest class at the HBM controllers (R26): array beats and host requests that wait there go first. -/
def legendWrite (s : State) (dpa : Nat) (bs : List Byte) : State :=
  let s1 := (controllers dpa bs.length).foldl (fun t c => t.arrayFirst (Fin.ofNat 12 c)) s
  (s1.drainFor dpa bs.length).writeBytes dpa bs

/-- A statistics interval closes (R68, R97): one record per enabled channel into the STATS region, in ascending channel
order.  Intervals count from the context's first block: where BLOCKS becomes nonzero during a context, the blocks that are
past close as intervals without samples (DESIGN CHOICE, log entry 79). -/
def statClose (s : State) : State :=
  let n := s.rdF Reg.ING_STAT_CFG 0 16
  let b := s.ing.statFrom
  if n = 0 || !s.counted (b + n - 1) then s
  else
    let chs := s.channels.map Prod.fst
    let accs : List (Nat × StatAcc) := chs.map (fun c => (c, s.intervalStats c b n))
    let s1 := match s.img.regions.find? (fun r => decide (r.kind = 1)) with
      | some r =>
        accs.zipIdx.foldl (fun (t : State) (p : (Nat × StatAcc) × Nat) =>
          if 32 * p.2 + 32 ≤ r.len then
            let f : BitVec 64 × State := if p.1.2.good = 0 then State.free t else (0, t)
            (f.2.legendWrite (pillowDpa r.pillow (r.off + 32 * p.2)) (statRecord p.1.2 f.1))
          else t) s
      | none => s
    let s2 : State := { s1 with ing := { s1.ing with
        stats := s1.ing.stats.filter (fun e => decide (b + n ≤ e.1 / 4096)), statFrom := b + n,
        degen := (accs.filter (fun (p : Nat × StatAcc) => isDegen p.2)).map Prod.fst,
        ranges := if s1.ing.rangeSkip then s1.ing.ranges else accs.foldl (fun (m : SMap StatAcc) (p : Nat × StatAcc) => SMap.set StatAcc.none m p.1 (joinStats (SMap.get StatAcc.none m p.1) p.2)) s1.ing.ranges,
        rangeN := if s1.ing.rangeSkip then s1.ing.rangeN else s1.ing.rangeN + 1, rangeSkip := false } }
    s2.wr Reg.ING_STAT_SEQ (s2.rd Reg.ING_STAT_SEQ + 1)

/-- Bits of a channel-record word that are stored (R3, R94); words 12 to 15 name nothing. -/
def recMask (w : Nat) : Word := if w = 0 then 0x3F else if w ≤ 7 then 0xFFFFFFFF else if w = 8 then 0x3FFF else 0

/-- The address after an access to ING_REC_DATA with AUTOINC. -/
def recAdvance (s : State) : State :=
  let a := s.rd Reg.ING_REC_ADDR
  if !bit a 31 then s
  else
    let w := fieldNat a 0 4
    let c := fieldNat a 4 12
    if w < 11 then s.wrF Reg.ING_REC_ADDR 0 4 (w + 1) else (s.wrF Reg.ING_REC_ADDR 0 4 0).wrF Reg.ING_REC_ADDR 4 12 ((c + 1) % 4096)

/-- Store a record word. -/
def setRec (s : State) (bank chan w : Nat) (v : Word) : State :=
  { s with ing := { s.ing with recs := SMap.set (recBlank w) s.ing.recs (65536 * bank + 16 * chan + w) (v &&& recMask w) } }

/-- A write of ING_REC_DATA (R95). -/
def writeRecData (s : State) (m : Master) (v : Word) : State :=
  let a := s.rd Reg.ING_REC_ADDR
  let bank := fieldNat a 16 1
  let s1 :=
    if s.rdB Reg.ING_REC_STATUS 2 && decide (bank ≠ s.rdF Reg.ING_REC_STATUS 0 1) then s.setRec bank (fieldNat a 4 12) (fieldNat a 0 4) v
    else s.refuse m Reg.ING_REC_DATA
  s1.recAdvance

/-- The formats that a quantization record may name (R62). -/
def quantFmt (f : Nat) : Bool := decide (f ∈ [0, 1, 2, 4, 6, 7, 8, 9, 0xA, 0xB, 0xC])

/-- Arm a record switch at a block, or reject it (R95). -/
def armRec (s : State) (b : Nat) : State × Bool :=
  let staging := 1 - s.rdF Reg.ING_REC_STATUS 0 1
  let late := match s.newestSample with | some n => decide (b ≤ s.blockOf n) | none => false
  let badFmt := s.channels.any (fun e => !quantFmt (fieldNat (s.recWord staging e.1 0) 0 4))
  if s.rdB Reg.ING_REC_STATUS 1 || late || badFmt then (s.wrB Reg.ING_REC_STATUS 3 true, false)
  else
    let s1 := (s.wrB Reg.ING_REC_STATUS 1 true).wrB Reg.ING_REC_STATUS 2 false
    ({ s1 with ing := { s1.ing with recArm := b } }, true)

/-- The write of ING_REC_SWITCH's high word (R327). -/
def writeRecSwitch (s : State) (hi : Word) : State :=
  let s1 := s.wr (Reg.ING_REC_SWITCH + 4) hi
  (s1.armRec (s1.rd64 Reg.ING_REC_SWITCH).toNat).1

/-- The armed record switch takes place at its block (R95, R96). -/
def activateRec (s : State) : State :=
  let b := s.ing.recArm
  let reached := match s.newestSample with | some n => decide (b * s.blockLen ≤ n + 1) | none => false
  if s.rdB Reg.ING_REC_STATUS 1 && reached then
    let s1 := (s.wrB Reg.ING_REC_STATUS 1 false).wrF Reg.ING_REC_STATUS 0 1 (1 - s.rdF Reg.ING_REC_STATUS 0 1)
    let s2 := s1.countF Reg.ING_REC_STATUS 16 16
    { s2 with ing := { s2.ing with recFrom := some b, recHist := b :: s2.ing.recHist } }
  else s

/-- The former active bank becomes writable (R96). -/
def freeStaging (s : State) : State :=
  match s.ing.recFrom with
  | none => s
  | some b =>
    let ring := match s.ing.missed with | some _ => decide (s.feedNext.1 < b) | none => false
    let live := !s.replaying && !s.img.inputs.isEmpty && decide (s.ing.ebNext.1 < b)
    if s.rdB Reg.ING_REC_STATUS 1 || ring || live then s
    else ({ s with ing := { s.ing with recFrom := none } } : State).wrB Reg.ING_REC_STATUS 2 true

/-- Every entry of a block is in the elastic buffer, the ring reader or the replay queue (R208). -/
def blockPresent (s : State) (b : Nat) : Bool :=
  decide (b ∈ s.ing.overrun) || (List.range s.img.inputs.length).all (fun k =>
    (s.ing.eb ++ s.ing.feed).any (fun e => decide (e.block = b) && decide (e.k = k)))

/-- Put entry k of the input plan before the first that is injected later (R194); ties keep the order of k. -/
def planInsert (time : Nat → Nat) (k : Nat) : List Nat → List Nat
  | [] => [k]
  | j :: js => if time k ≤ time j then k :: j :: js else j :: planInsert time k js

/-- The place of an entry within its block's rounds, in cycles (R194). -/
def planTime (s : State) (k : Nat) : Nat :=
  match s.img.inputs[k]? with
  | some e => e.round * max 1 s.img.roundLen + e.cycle
  | none => 0

/-- The input plan's entries in the order in which a block's are injected (R194). -/
def planOrder (s : State) : List Nat := (List.range s.img.inputs.length).foldr (planInsert s.planTime) []

/-- Entry k of the block that the array takes from, where it is there. -/
def headEntry (s : State) (k : Nat) : Option EbEntry :=
  let b := s.ing.taken.1
  match (s.ing.feed ++ s.ing.eb).find? (fun e => decide (e.block = b) && decide (e.k = k)) with
  | some e => some e
  | none =>
    if b ∈ s.ing.overrun then
      some { block := b, k := k, group := (s.img.inputs[k]?.map InEntry.group).getD 0, data := 0, bytes := 0, bad := false,
             shed := false, overrun := true }
    else none

/-- A flit or token enters the row-0 picot of a hub port's column (R194): the hub port counts as hop 0. -/
def hubInject (s : State) (port : Fin 32) (wait : Nat) (f : Flit) (tok : BitVec 16) : State :=
  { s with arr := { s.arr with beats := s.arr.beats ++
      [Beat.ofFlit ⟨port.val, by omega⟩ .s wait f tok] } }

/-- A SKIP token that names one input block (R119). -/
abbrev skipOne : BitVec 16 := 0x8001

/-- The flits of an entry at its port (R102, R118, R194): a shed or overrun input block is one SKIP flit with its token,
at the group's entry of the block that is injected first; the flit's DATA is open. -/
def injectEntry (s : State) (p : InEntry) (e : EbEntry) : State :=
  if e.shed || e.overrun then
    if (s.planOrder.take s.ing.taken.2).any (fun j => decide ((s.img.inputs[j]?.map InEntry.group) = some p.group)) then s
    else
      let f := s.free256
      f.2.hubInject p.port 1 { data := f.1, kind := 1, bad := false, last := false } skipOne
  else
    let n := max 1 ((e.bytes + 31) / 32)
    (List.range n).foldl (fun t i =>
      t.hubInject p.port (1 + i) { data := e.data.extractLsb' (256 * i) 256, kind := 0, bad := e.bad, last := false } 0) s

/-- The array moves past an entry; a gap that ends there closes (R98, R99). -/
def takeEntry (s : State) (e : EbEntry) : State :=
  let nx := s.nextEntry s.ing.taken.1 s.ing.taken.2
  let i := s.ing
  let j : Ingress := { i with
    taken := nx, feed := i.feed.filter (· ≠ e), eb := i.eb.filter (· ≠ e), present := i.present.filter (fun x => decide (e.block ≤ x.1)) }
  let s1 := ({ s with ing := j } : State).ebStatus.journalEntry e
  if (match j.resume with | some r => decide (nx = (r, 0)) | none => false) then
    ({ s1 with ing := { s1.ing with missed := s1.ing.missed2, missed2 := none, resume := none } } : State).wrB Reg.ING_EB_MODE 0 false
  else s1

/-- Entry k of the input plan is injected when its turn in the order of ROUND and CYCLE has come (R194). -/
def injectNext (s : State) (k : Nat) : State :=
  if s.planOrder[s.ing.taken.2]? ≠ some k then s
  else
    match s.img.inputs[k]?, s.headEntry k with
    | some p, some e => ((s.refold s.ing.taken.1).injectEntry p e).takeEntry e
    | _, _ => s

/-- The block whose first entry the array injects next. -/
def gateBlock (s : State) : Nat := if s.ing.taken.2 = 0 then s.ing.taken.1 else s.ing.taken.1 + 1

end State

/-- RING_READER_TAKEOVER (R98): the input gate holds the block of the first missed entry whole (R208), so the array has
consumed every older entry that it can once it stands at that block; log entry 80. -/
def execRingReaderTakeover (s : State) : Outcome :=
  .next (if s.ing.missed.map Prod.fst = some s.ing.taken.1 ∧ !s.rdB Reg.ING_EB_MODE 0 then s.wrB Reg.ING_EB_MODE 0 true else s)

/-- RING_READER_BLOCK (R98). -/
def execRingReaderBlock (s : State) : Outcome := .next s.readerBlock

/-- EB_RESUME (R99). -/
def execEbResume (s : State) : Outcome := .next s.resumeEb

/-- ING_REC_DATA_WRITE (R95). -/
def execIngRecDataWrite (m : Master) (v : Word) (s : State) : Outcome :=
  .next (s.atReg m Reg.ING_REC_DATA (fun t => t.writeRecData m v))

/-- REC_SWITCH_ARM (R95, R327): the high word of ING_REC_SWITCH. -/
def execRecSwitchArm (m : Master) (hi : Word) (s : State) : Outcome :=
  .next (s.atReg m (Reg.ING_REC_SWITCH + 4) (fun t => t.writeRecSwitch hi))

/-- REC_SWITCH_ACTIVATE (R95). -/
def execRecSwitchActivate (s : State) : Outcome := .next s.activateRec

/-- STAGING_BANK_FREE (R96). -/
def execStagingBankFree (s : State) : Outcome := .next s.freeStaging

/-- STAT_INTERVAL_CLOSE (R97). -/
def execStatIntervalClose (s : State) : Outcome := .next s.statClose

/-- DEBT_UPDATE (R100): shedding never occurs in replay mode. -/
def execDebtUpdate (s : State) : Outcome := .next (if s.ctx = ctxRunning ∧ !s.replaying then s.debtCycle else s)

/-- SHED_LEVEL_UPDATE (R101). -/
def execShedLevelUpdate (s : State) : Outcome := .next (if s.ctx = ctxRunning ∧ !s.replaying then s.shedLevel else s)

/-- OVERRUN_SKIP (R103). -/
def execOverrunSkip (s : State) : Outcome := .next (if s.ctx = ctxRunning ∧ !s.replaying then s.overrunSkip else s)

/-- INPUT_PLAN_INJECT (R194). -/
def execInputPlanInject (k : BitVec 16) (s : State) : Outcome :=
  .next (if s.issues && decide (s.ctx = ctxRunning) then s.injectNext k.toNat else s)

end Sys2Proof.Machine
end

