-- ==== Sys2Proof/Machine/TrigOps.lean ====
section
/-!
DEFINITION. What the trigger block and the combiner share (R215, R232 to R235, R241, R242): classes and their slots,
watermarks, dead time, the presentation of events.
-/

namespace Sys2Proof.Machine

/-- What a slot names (TRG_CLASS_SLOT.SRC). -/
inductive SrcKind where
  | prim | input | mask | stream | cls
  deriving DecidableEq, Repr

/-- A slot in use: its number, its kind of source, the source's number. -/
structure SlotCfg where
  slot : Nat
  kind : SrcKind
  idx  : Nat
  deriving DecidableEq, Repr

/-- Fine units of a number of ns. -/
abbrev finePerNs : Int := 16384

namespace State

/-- A word of a class. -/
def clsRd (s : State) (c off : Nat) : Word := s.rd (Reg.cls c off)
/-- A slot's configuration (R232): SRC 5 to 7, a number past its sources, or a class not below `c` leaves it unused. -/
def slotCfg (s : State) (c i : Nat) : Option SlotCfg :=
  let w := s.clsRd c (Reg.TRG_CLASS_SLOT i)
  let n := fieldNat w 0 10
  if !bit w 31 then none
  else match fieldNat w 28 3 with
    | 0 => some { slot := i, kind := .prim, idx := n }
    | 1 => if n < 16 then some { slot := i, kind := .input, idx := n } else none
    | 2 => if n < 64 then some { slot := i, kind := .mask, idx := n } else none
    | 3 => if n < 256 then some { slot := i, kind := .stream, idx := n } else none
    | 4 => if n < c then some { slot := i, kind := .cls, idx := n } else none
    | _ => none
/-- The slots of a class that are in use. -/
def slots (s : State) (c : Nat) : List SlotCfg := (List.range 8).filterMap (s.slotCfg c)
/-- A class is enabled. -/
def clsEn (s : State) (c : Nat) : Bool := bit (s.clsRd c Reg.TRG_CLASS_CFG) 31
/-- The window W of a class in ns (R232): a value outside 1 to 65,535 acts as the nearer end. -/
def clsWin (s : State) (c : Nat) : Nat := max 1 (min 65535 (fieldNat (s.clsRd c Reg.TRG_CLASS_WIN) 0 24))
/-- A class beside its registers. -/
def tcls (s : State) (c : Nat) : TClass := SMap.get TClass.none s.trg.classes c
def setTcls (s : State) (c : Nat) (x : TClass) : State :=
  { s with trg := { s.trg with classes := SMap.set TClass.none s.trg.classes c x } }

/-- A class is slow (R232): a slot names a verdict stream or a slow class. -/
def slowIn (s : State) : Nat → Nat → Bool
  | 0, _ => false
  | fuel + 1, c => (s.slots c).any (fun x => match x.kind with
      | .stream => true
      | .cls => slowIn s fuel x.idx
      | _ => false)
def isSlow (s : State) (c : Nat) : Bool := s.slowIn 64 c

/-- A class uses a stream, directly or through a lower class (R241). -/
def usesStream (s : State) (v : Nat) : Nat → Nat → Bool
  | 0, _ => false
  | fuel + 1, c => (s.slots c).any (fun x => match x.kind with
      | .stream => decide (x.idx = v)
      | .cls => usesStream s v fuel x.idx
      | _ => false)

/-- A primitive unit, a mask, an input and a stream beside their registers. -/
def prim (s : State) (u : Nat) : Prim := SMap.get Prim.none s.trg.prims u
def setPrim (s : State) (u : Nat) (x : Prim) : State := { s with trg := { s.trg with prims := SMap.set Prim.none s.trg.prims u x } }
def mask (s : State) (k : Nat) : Mask := SMap.get Mask.none s.trg.masks k
def setMask (s : State) (k : Nat) (x : Mask) : State := { s with trg := { s.trg with masks := SMap.set Mask.none s.trg.masks k x } }
def extIn (s : State) (n : Nat) : ExtIn := SMap.get ExtIn.none s.trg.inputs n
def setExtIn (s : State) (n : Nat) (x : ExtIn) : State := { s with trg := { s.trg with inputs := SMap.set ExtIn.none s.trg.inputs n x } }
def stream (s : State) (v : Nat) : VStream := SMap.get VStream.none s.trg.streams v
def setStream (s : State) (v : Nat) (x : VStream) : State := { s with trg := { s.trg with streams := SMap.set VStream.none s.trg.streams v x } }

/-- The watermark of an external input (R233): timeline time less 100 ns. -/
def inputMark (s : State) : Int := 256 * (s.timeline.toNat : Int) - 100 * finePerNs

/-- A mask's MODE is PASS. -/
def maskPass (s : State) (k : Nat) : Bool := s.rdB (Reg.mask k Reg.TRG_MASK_CFG) 30

/-- A source's own watermark has reached a time (R233): one that has not begun has reached none. -/
def srcReached (s : State) (x : SlotCfg) (t : Int) : Bool :=
  let past (m : Option Int) : Bool := match m with
    | some w => fineLe t w
    | none => false
  match x.kind with
  | .stream => past (s.stream x.idx).mark
  | .prim =>
    let p := s.prim x.idx
    past (if s.rdF (Reg.prim x.idx Reg.TRG_PRIM_CFG) 28 3 = 3 ∧ 0 < p.run then some p.runStart else p.watermark)
  | .mask =>
    let k := s.mask x.idx
    past (match k.inst with
      | some i => if s.maskPass x.idx then some i.2.2 else k.watermark
      | none => k.watermark)
  | .input => fineLe t s.inputMark
  | .cls => true

/-- An event waits at a class whose time is at or before t. -/
def waitsAt (s : State) (c : Nat) (t : Int) : Bool := (s.tcls c).waiting.any (fun e => fineLe e.time t)

/-- The watermarks of all slots of a class have reached t (R233).  A class's watermark is the smallest of its own slots
less its window, of a fast class as of a slow one (log entry 85), and it has not reached t while an event waits there that could make it fire at t. -/
def reached (s : State) : Nat → Nat → Int → Bool
  | 0, _, _ => false
  | fuel + 1, c, t => (s.slots c).all (fun x =>
      s.srcReached x t && (!decide (x.kind = .cls) ||
        (!s.waitsAt x.idx (t + s.clsWin x.idx * finePerNs) && reached s fuel x.idx (t + s.clsWin x.idx * finePerNs))))

/-- A class has decided every firing whose trigger time is at or before t (R233, R246, R264). -/
def decidedTo (s : State) (c : Nat) (t : Int) : Bool :=
  let u := t + s.clsWin c * finePerNs
  !s.waitsAt c u && (if s.isSlow c then s.reached 64 c u else fineLe u s.inputMark)

/-- An interval that ends at b goes past the end of those charged before (R242, R291). -/
def goesPast (b : Int) : Option Int → Bool
  | none => true
  | some e => decide (0 < tlSub b e)

/-- What the interval [a, b) adds to a total whose intervals end at `e` (R242). -/
def added (a b : Int) : Option Int → Nat
  | none => (tlSub b a).toNat
  | some e => (min (tlSub b a) (tlSub b e)).toNat

/-- Charge dead time [a, b) of a cause to a class, in timeline units (R242). -/
def charge (s : State) (c k : Nat) (a b : Int) : State :=
  let x := s.tcls c
  let ek := SMap.get none x.endK k
  let s1 := if goesPast b ek then
      (s.count64 (Reg.cls c (Reg.TRG_CLASS_DEAD k)) (added a b ek)).setTcls c { x with endK := SMap.set none x.endK k (some b) }
    else s
  let y := s1.tcls c
  if goesPast b y.endAll then
    (s1.count64 (Reg.cls c Reg.TRG_CLASS_DEAD_TOTAL) (added a b y.endAll)).setTcls c { y with endAll := some b }
  else s1

/-- Pending events that a slow class buffers (R235). -/
abbrev slowBuffer : Nat := 8192

/-- The first block of which no sample has been delivered, on any channel or by a replay. -/
def freshBlock (s : State) : Nat := match s.newestSample with | some n => s.blockOf n + 1 | none => s.ing.first

/-- The next block boundary of a channel (R219, R237): replayed blocks enter behind the channels (R337). -/
def nextBoundary (s : State) (chan : Nat) : Nat :=
  if s.ing.newest.isNone && s.ing.replayed.isSome then s.freshBlock
  else (s.nextIndex chan + (s.blockLen - 1)) / s.blockLen

/-- The first fine time at which a class evaluates (R237). -/
def clsBegun (s : State) (c : Nat) (t : Int) : Bool :=
  match (s.tcls c).begin' with
  | some b => fineLe (s.acqFine s.refChannel (b * s.blockLen)) t
  | none => true

/-- Present an event to one class (R232, R235, R237). -/
def pushTo (s : State) (c : Nat) (e : SlotEvent) : State :=
  let x := s.tcls c
  if !s.clsBegun c e.time then s
  else if s.isSlow c && decide (slowBuffer ≤ x.waiting.length) then
    s.charge c 4 (e.time / 256) (e.time / 256 + 64 * s.clsWin c)
  else s.setTcls c { x with waiting := x.waiting ++ [e] }

/-- Present an event of a source to every enabled class whose slots name it, in class and slot order. -/
def pushEvent (s : State) (kind : SrcKind) (idx : Nat) (e : SlotEvent) : State :=
  if s.ctx ≠ ctxRunning then s
  else
    (List.range 64).foldl (fun t c =>
      if t.clsEn c then
        ((t.slots c).filter (fun x => decide (x.kind = kind) && decide (x.idx = idx))).foldl
          (fun t' x => t'.pushTo c { e with slot := x.slot }) t
      else t) s

/-- The line-clock cycle now: the line clock runs at 1 GHz. -/
def lineCycle (s : State) : Nat := s.now / 18

/-- An event of a source that has neither payload nor marks, presented now. -/
def plainEvent (s : State) (t : Int) : SlotEvent :=
  { slot := 0, time := t, cycle := s.lineCycle, payload := none, bad := false, coarse := false }

end State

end Sys2Proof.Machine
end

