-- ==== Sys2Proof/Machine/Combiner.lean ====
section
/-!
DEFINITION. Verdict streams, the combiner, outputs, notices and capture requests (R210, R229 to R246).
-/

namespace Sys2Proof.Machine

/-- What a class decides at an instant. -/
structure Firing where
  cls     : Nat
  slow    : Bool
  time    : Int
  cycle   : Nat
  payload : Option (BitVec 128)
  bad     : Bool
  coarse  : Bool
  deriving DecidableEq, Repr

namespace State

/-- The last index on a channel whose acquisition time is at or before a fine time. -/
def indexOn (s : State) (chan : Nat) (t : Int) : Int :=
  match s.anchorOf chan with
  | none => match s.newestSample with | some n => n | none => 0
  | some (a, td) =>
    let p : Int := (s.rd64 Reg.ING_SAMPLE_PERIOD).toNat
    let n := if p = 0 then (a.index : Int) else a.index + fineSub t (256 * (a.time + td)) * 2 ^ 24 / p
    if fineLe (s.acqFine chan (n + 1)) t then n + 1 else if fineLe (s.acqFine chan n) t then n else n - 1

/-- The last index on ACQ_REF_CHANNEL whose acquisition time is at or before a fine time. -/
def refIndexAt (s : State) (t : Int) : Int := s.indexOn s.refChannel t

/-- The channel of the adaptation's stream (R256, R261). -/
def adaptChannel (s : State) : Nat := s.rdF (Reg.TRG_VS_CFG (s.adapt.dsc 8 2 % 256)) 0 12

/-- The first index of the oldest block in the ring (R243). -/
def oldestIndex (s : State) : Nat :=
  let b := match s.acq.wblock with | some w => max s.ing.first (w + 1 - s.ringSlots) | none => s.ing.first
  b * s.blockLen

/-- A capture of the class is refused: its window is dead time (R241). -/
def refuseCapture (s : State) (c a b : Nat) : State :=
  s.charge c 3 (s.acqTime s.refChannel a) (s.acqTime s.refChannel ((b : Int) + 1))

/-- Open an event; a full queue refuses it (R246). -/
def openEvent (s : State) (e : CapEvent) : State × Bool :=
  if 4096 ≤ s.acq.queue.length then ((s.count Reg.ACQ_QFULL).refuseCapture e.cls e.first e.last, false)
  else ({ s with acq := { s.acq with opened := SMap.insert s.acq.opened e.cls e } }, true)

/-- A capture request (R245), and whether the firing joined an event. -/
def captureRequest (s : State) (f : Firing) : State × Bool :=
  let c := f.cls
  let nt := s.refIndexAt f.time
  let pre : Int := s.rdF (Reg.ACQ_CAP_PRE c) 0 24
  let post : Int := s.rdF (Reg.ACQ_CAP_POST c) 0 24
  let maxW := max 1 (s.rd Reg.ACQ_MAX_WINDOW).toNat
  let long := decide ((maxW : Int) < pre + post + 1)
  let old := s.oldestIndex
  let a0 := nt - pre
  let b0 := if long then a0 + maxW - 1 else nt + post
  let a := max a0 (old : Int)
  let first := a.toNat
  let last := (max b0 a).toNat
  let ev : CapEvent :=
    { cls := c, first := first, last := last, number := 0, truncPre := decide (a0 < old), truncPost := long, merged := false,
      slow := f.slow, firings := 1, time := f.time, decided := s.timeline, groups := s.rd64 (Reg.ACQ_CAP_GROUPS c),
      payload := f.payload.getD 0, fate := 0 }
  if s.acq.stopped then (s, false)
  else
    match s.acq.opened.find? (fun e => decide (e.1 = c)) with
    | none => s.openEvent ev
    | some o =>
      let e := o.2
      if first ≤ e.last + 1 ∧ e.first ≤ last + 1 then
        let lo := min first e.first
        let hi := max last e.last
        if hi - lo + 1 ≤ maxW then
          let merged : CapEvent :=
            { e with first := lo, last := hi, merged := true, firings := e.firings + 1,
                     truncPre := e.truncPre || ev.truncPre, truncPost := e.truncPost || ev.truncPost }
          (({ s with acq := { s.acq with opened := SMap.insert s.acq.opened c merged } } : State).count Reg.ACQ_MERGED, true)
        else
          let s1 := s.closeEvent c
          if last ≤ e.last then (s1, false)
          else s1.openEvent { ev with first := max first (e.last + 1), truncPre := ev.truncPre || decide (first ≤ e.last) }
      else (s.closeEvent c).openEvent ev

/-- A trigger output beside its registers. -/
def tout (s : State) (o : Nat) : TOut := SMap.get TOut.none s.trg.outs o
def setTout (s : State) (o : Nat) (x : TOut) : State := { s with trg := { s.trg with outs := SMap.set TOut.none s.trg.outs o x } }

/-- The outputs are held at idle (R239). -/
def outHeld (s : State) : Bool := decide (s.ctx ≠ ctxRunning) || s.rdB Reg.ERR_STATUS 31

/-- The cycles of a pulse (R238): WIDTH ns, at least 2. -/
def outWidth (s : State) (o : Nat) : Nat := max 2 (s.rdF (Reg.TRG_OUT_CFG o) 0 16)

/-- Start a pulse; one that falls while the output is high is counted in MERGED (R238). -/
def startPulse (s : State) (o : Nat) : State :=
  let x := s.tout o
  if x.high then s.countF (Reg.TRG_OUT_STAT o) 16 16
  else (s.setTout o { x with high := true, stop := s.lineCycle + s.outWidth o }).drivePin o true

/-- A pulse ends after WIDTH ns (R238). -/
def endPulse (s : State) (o : Nat) : State :=
  let x := s.tout o
  if x.high && decide (x.stop ≤ s.lineCycle) then (s.setTout o { x with high := false }).drivePin o false else s

/-- The timeline at the line-clock edge before this one (R289). -/
def lastEdge (s : State) : Int := ((s.timeline.toNat * 2 ^ 32 + s.time.frac.toNat : Int) - s.edgeStep) / 2 ^ 32

/-- An accepted firing drives one output (R238); answers whether its pulse was late: the first line-clock edge at or after
trigger time plus OFFSET has passed. -/
def driveOutput (s : State) (o : Nat) (t : Int) : State × Bool :=
  let x := s.tout o
  let due := t + (s.rd (Reg.TRG_OUT_OFFSET o)).toNat * finePerNs
  if !s.rdB (Reg.TRG_OUT_CFG o) 29 then (s.startPulse o, false)
  else if fineLe due (256 * s.lastEdge) then ((s.countF (Reg.TRG_OUT_STAT o) 8 8).startPulse o, true)
  else if 64 ≤ x.pulses.length then (s.countF (Reg.TRG_OUT_STAT o) 0 8, false)
  else (s.setTout o { x with pulses := x.pulses ++ [due] }, false)

/-- The earliest of the pending pulses. -/
def firstDue (p : Int) (ps : List Int) : Int := ps.foldl (fun m q => if fineLe m q then m else q) p

/-- The earliest pending pulse starts once its line-clock edge has come (R238). -/
def startTimed (s : State) (o : Nat) : State :=
  match (s.tout o).pulses with
  | [] => s
  | p :: ps =>
    let due := firstDue p ps
    if fineLe due (256 * s.timeline.toNat) then
      (s.setTout o { s.tout o with pulses := (p :: ps).erase due }).startPulse o
    else s

/-- An accepted firing drives every output whose mask names its class (R238, R239). -/
def driveOutputs (s : State) (c : Nat) (t : Int) : State × Bool :=
  if s.outHeld then (s, false)
  else
    ((List.range 16).filter (fun o => s.rdB (Reg.TRG_OUT_CFG o) 31 && (s.rd64 (Reg.TRG_OUT_MASK o)).getLsbD c)).foldl
      (fun (r : State × Bool) o => let q := r.1.driveOutput o t; (q.1, r.2 || q.2)) (s, false)

/-- A trigger notice (R240). -/
def noticeBytes (s : State) (f : Firing) (seq : Nat) (late : Bool) (event : BitVec 64) : List Byte :=
  let capture := bit (s.clsRd f.cls Reg.TRG_CLASS_CFG) 27
  leBytes 2 0x4E54 ++ [1, BitVec.ofNat 8 f.cls] ++ leBytes 2 s.systemIndex ++
  leBytes 2 (f.slow.toNat + 2 * f.bad.toNat + 4 * capture.toNat + 8 * f.coarse.toNat + 16 * late.toNat) ++
  leBytes 8 seq ++ leBytes 8 (tlPart f.time) ++ leBytes 1 (finePart f.time) ++ leBytes 7 0 ++
  leBytes 8 s.timeline.toNat ++ leBytes 8 event.toNat ++ leBytes 16 (f.payload.getD 0).toNat

/-- The notice of an accepted firing goes to subscribers and launch queues (R240, R314, R315, R343). -/
def notify (s : State) (f : Firing) (seq : Nat) (late : Bool) (event : BitVec 64) : State :=
  let cfg := s.clsRd f.cls Reg.TRG_CLASS_CFG
  let n := s.noticeBytes f seq late event
  let s1 := if bit cfg 26 then s.produce (fun x => x.kinds.testBit 0 && x.classes.getLsbD f.cls) n else s
  [0, 1].foldl (fun t p =>
    if bit cfg (28 + p) then
      t.enqueueLaunch p { sched := f.time / 256 + 64 * fieldNat (s.clsRd f.cls Reg.TRG_CLASS_LAUNCH) 0 24, seq := seq, notice := n, coarse := f.coarse }
    else t) s1

/-- An accepted firing (R236): outputs, capture request, notice.  An event has no number before it closes (R246), so a
notice's EVENT_NUMBER is open where the firing joined one. -/
def accept (s : State) (f : Firing) : State :=
  let cfg := s.clsRd f.cls Reg.TRG_CLASS_CFG
  let s1 := s.count (Reg.cls f.cls Reg.TRG_CLASS_ACCEPTED)
  let seq := s1.trg.seq
  let s2 : State := ({ s1 with trg := { s1.trg with seq := seq + 1 } } : State).noteFiring f.cls (s.indexOn s.adaptChannel f.time)
  let o := s2.driveOutputs f.cls f.time
  let c := if bit cfg 27 then o.1.captureRequest f else (o.1, false)
  if bit cfg 26 || bit cfg 28 || bit cfg 29 then
    if c.2 then c.1.free.2.notify f seq o.2 c.1.free.1 else c.1.notify f seq o.2 (BitVec.allOnes 64)
  else c.1

/-- A class fires (R236): as a source it presents the firing to the classes above it. -/
def fireClass (s : State) (f : Firing) (mark : Int) : State :=
  let x := s.tcls f.cls
  let k := x.firings
  let s1 := (s.setTcls f.cls { x with lastFire := some mark, firings := k + 1 }).count (Reg.cls f.cls Reg.TRG_CLASS_FIRED)
  let s2 := s1.pushEvent .cls f.cls { slot := 0, time := f.time, cycle := f.cycle, payload := f.payload, bad := f.bad, coarse := f.coarse }
  let p := fieldNat (s.clsRd f.cls Reg.TRG_CLASS_PRESCALE) 0 24
  if k % max 1 p = 0 then s2.accept f else s2

/-- The bit of a class's truth table (R233). -/
def lutBit (s : State) (c i : Nat) : Bool := bit (s.clsRd c (Reg.TRG_CLASS_LUT (i / 32))) (i % 32)

/-- The event of the least time. -/
def earliest (es : List SlotEvent) : Option SlotEvent :=
  es.foldl (fun (b : Option SlotEvent) e => match b with
    | none => some e
    | some x => if fineLe x.time e.time then some x else some e) none

/-- One evaluation instant (R233, R234): `es` are the instant's events, `live` all those whose slots are 1, `mark` the
instant, `again` a firing within the window before it. -/
def instant (s : State) (c : Nat) (es live : List SlotEvent) (mark : Int) (cycle : Nat) (again : Bool) : State :=
  let idx := (List.range 8).foldl (fun n i => if live.any (fun e => decide (e.slot = i)) then n + 2 ^ i else n) 0
  let timing := fieldNat (s.clsRd c Reg.TRG_CLASS_CFG) 0 8
  if !s.lutBit c idx then s
  else if again then s.count (Reg.cls c Reg.TRG_CLASS_MERGED)
  else
    match earliest (match live.filter (fun e => timing.testBit e.slot) with | [] => es | xs => xs) with
    | none => s
    | some e =>
      let pay := (live.find? (fun x => decide (x.time = e.time) && x.payload.isSome)).bind SlotEvent.payload
      s.fireClass { cls := c, slow := s.isSlow c, time := e.time, cycle := cycle, payload := pay, bad := live.any (·.bad),
                    coarse := live.any (·.coarse) } mark

/-- A fast class evaluates the earliest cycle in which an event waits, once that cycle has come (R226, R232, R233). -/
def fastEvaluate (s : State) (c : Nat) : State :=
  let x := s.tcls c
  match x.waiting with
  | [] => s
  | e0 :: rest =>
    let cyc := rest.foldl (fun m e => min m e.cycle) e0.cycle
    let w := s.clsWin c
    if s.lineCycle < cyc then s else
    let es := x.waiting.filter (fun e => decide (e.cycle = cyc))
    let live := (x.recent ++ es).filter (fun e => decide (cyc < e.cycle + w))
    let again := match x.lastFire with | some f => decide ((cyc : Int) < f + w) | none => false
    (s.setTcls c { x with waiting := x.waiting.filter (fun e => !decide (e.cycle = cyc)), recent := live }).instant c es live cyc cyc again

/-- A slow class evaluates its earliest event time once every slot's watermark has reached it (R232, R233). -/
def slowEvaluate (s : State) (c : Nat) : State :=
  let x := s.tcls c
  match earliest x.waiting with
  | none => s
  | some e0 =>
    let t := e0.time
    if !s.reached 64 c t then s
    else
      let w := s.clsWin c * finePerNs
      let es := x.waiting.filter (fun e => decide (fineSub e.time t = 0))
      let live := (x.recent ++ es).filter (fun e => !fineLe e.time (t - w))
      let again := match x.lastFire with | some f => !fineLe f (t - w) | none => false
      (s.setTcls c { x with waiting := x.waiting.filter (fun e => !decide (fineSub e.time t = 0)), recent := live }).instant c es live t s.lineCycle again

/-- Evaluate a class of its kind while the context runs. -/
def evaluate (s : State) (c : Nat) (slow : Bool) : State :=
  if s.ctx ≠ ctxRunning || !s.clsEn c || s.isSlow c != slow then s
  else if slow then s.slowEvaluate c else s.fastEvaluate c

/-- A class is enabled (R237): during a context it begins at the reference channel's next block boundary. -/
def enableClass (s : State) (c : Nat) : State :=
  if s.clsEn c then s
  else
    let x := s.tcls c
    (s.wrB (Reg.cls c Reg.TRG_CLASS_CFG) 31 true).setTcls c
      { x with begin' := if s.contextRuns then some (s.nextBoundary s.refChannel) else none,
               waiting := [], recent := [], lastFire := none }

/-- The active threshold of a stream for a block (R231). -/
def thrFor (s : State) (v b : Nat) : Int :=
  let staged :=
    if s.rdB Reg.TRG_THR_STATUS 1 && decide (s.trg.thrArm ≤ b) then true
    else match s.trg.thrFrom with | some f => decide (b < f) | none => false
  ((s.rd (if staged then Reg.TRG_VS_THR v else Reg.TRG_VS_ACT v)).extractLsb' 0 16).toInt

/-- The enabled streams. -/
def enabledStreams (s : State) : List Nat := (List.range 256).filter (fun v => s.rdB (Reg.TRG_VS_CFG v) 31)

/-- The staging thresholds become writable once no enabled stream can bring a verdict before the switch (R96, R231). -/
def freeThr (s : State) : State :=
  match s.trg.thrFrom with
  | some b =>
    if s.enabledStreams.all (fun v => decide (b * s.blockLen ≤ (s.stream v).markIdx)) then
      ({ s with trg := { s.trg with thrFrom := none } } : State).wrB Reg.TRG_THR_STATUS 2 true
    else s
  | none => s

/-- Arm a threshold switch at a block, or reject it (R95, R231). -/
def armThr (s : State) (b : Nat) : State × Bool :=
  let late := match s.trg.newestV with | some n => decide (b ≤ s.blockOf n) | none => false
  if s.rdB Reg.TRG_THR_STATUS 1 || late then (s.wrB Reg.TRG_THR_STATUS 3 true, false)
  else
    let s1 := (s.wrB Reg.TRG_THR_STATUS 1 true).wrB Reg.TRG_THR_STATUS 2 false
    ({ s1 with trg := { s1.trg with thrArm := b } }, true)

/-- The write of TRG_THR_SWITCH's high word (R327). -/
def writeThrSwitch (s : State) (hi : Word) : State :=
  let s1 := s.wr (Reg.TRG_THR_SWITCH + 4) hi
  (s1.armThr (s1.rd64 Reg.TRG_THR_SWITCH).toNat).1

/-- Active and staging thresholds of every stream change places (R96). -/
def swapThr (s : State) : State :=
  (List.range 256).foldl (fun t v =>
    (t.wr (Reg.TRG_VS_THR v) (s.rd (Reg.TRG_VS_ACT v))).wr (Reg.TRG_VS_ACT v) (s.rd (Reg.TRG_VS_THR v))) s

/-- The armed threshold switch takes place (R96, R231): the banks change places. -/
def activateThr (s : State) : State :=
  let b := s.trg.thrArm
  let reached := (List.range 256).any (fun v => decide (b * s.blockLen ≤ (s.stream v).markIdx))
  if s.rdB Reg.TRG_THR_STATUS 1 && reached then
    let s2 := (s.swapThr.wrB Reg.TRG_THR_STATUS 1 false).countF Reg.TRG_THR_STATUS 16 16
    ({ s2 with trg := { s2.trg with thrFrom := some b } } : State).freeThr
  else s

/-- The latency of a verdict at the combiner (R210): in ns, against the stated latency. -/
def verdictLatency (s : State) (v idx : Nat) : State :=
  let s1 := s.count (Reg.ARY_VS_COUNT v)
  match s.ing.stamps.find? (fun e => decide (e.1 = s.blockOf idx)) with
  | none => s1
  | some e =>
    let ns := (rnDiv (tlSub s.timeline.toNat e.2) 64).toNat
    let lag := ns - (s.rd (Reg.ARY_VS_STATED v)).toNat
    (s1.wr (Reg.ARY_VS_WORST v) (BitVec.ofNat 32 (min 0xFFFFFFFF (max ns (s.rd (Reg.ARY_VS_WORST v)).toNat)))).wr
      (Reg.ARY_VS_LAG v) (BitVec.ofNat 32 (min 0xFFFFFFFF lag))

/-- A verdict record (R343). -/
def verdictRecord (s : State) (v seq : Nat) (t : Int) (flit : BitVec 256) (asserts bad : Bool) : List Byte :=
  leBytes 2 0x5652 ++ [1, BitVec.ofNat 8 (asserts.toNat + 2 * bad.toNat)] ++ leBytes 2 v ++ leBytes 2 s.systemIndex ++
  leBytes 8 seq ++ leBytes 8 (tlPart t) ++ leBytes 1 (finePart t) ++ leBytes 7 0 ++ leBytes 32 flit.toNat

/-- Dead time of the blocks that a SHED or OVERRUN flit covers, to every enabled class that uses the stream (R230, R241). -/
def chargeStream (s : State) (v cause b span chan : Nat) : State :=
  let a := s.acqTime chan (b * s.blockLen)
  let z := s.acqTime chan ((b + span + 1) * s.blockLen)
  ((List.range 64).filter (fun c => s.clsEn c && s.usesStream v 64 c)).foldl (fun t c => t.charge c cause a z) s

/-- A verdict at the combiner (R210, R229 to R231, R241, R343). -/
def verdict (s : State) (v : Nat) (flit : BitVec 256) (bad : Bool) : State :=
  let x := s.stream v
  let idx := fieldNat flit 0 64
  if idx < x.markIdx then s.count Reg.TRG_VS_ORDER
  else
    let chan := s.rdF (Reg.TRG_VS_CFG v) 0 12
    let b := s.blockOf idx
    let span := fieldNat flit 112 16
    let shed := flit.getLsbD 96
    let ovr := flit.getLsbD 97
    let t := s.acqFine chan idx ((flit.extractLsb' 64 16).toInt) 256
    let score := (flit.extractLsb' 80 16).toInt
    let asserts := !shed && !ovr && !flit.getLsbD 98 && decide (s.thrFor v b ≤ score)
    let mark := if span = 0 then idx + 1 else (b + span + 1) * s.blockLen
    let s1 := (s.verdictLatency v idx).setStream v { markIdx := mark, mark := some (s.acqFine chan mark), seq := x.seq + 1 }
    let s2 : State := { s1 with trg := { s1.trg with
        newestV := some (match s1.trg.newestV with | some n => max n idx | none => idx),
        asserts := if asserts then SMap.set 0 s1.trg.asserts (v * 2 ^ 48 + b) (SMap.get 0 s1.trg.asserts (v * 2 ^ 48 + b) + 1)
                   else s1.trg.asserts } }
    let s3 := s2.freeThr.produce (fun y => y.kinds.testBit 1 && y.streams.getLsbD v) (s.verdictRecord v x.seq t flit asserts bad)
    if !s.rdB (Reg.TRG_VS_CFG v) 31 then s3
    else
      let s4 := if shed then s3.chargeStream v 1 b span chan else s3
      let s5 := if ovr then s4.chargeStream v 2 b span chan else s4
      if asserts then
        s5.pushEvent .stream v { slot := 0, time := t, cycle := s.lineCycle, payload := some (flit.extractLsb' 128 128), bad := bad, coarse := false }
      else s5

end State

/-- VERDICT_ARRIVAL (R230). -/
def execVerdictArrival (stream : Fin 256) (flit : BitVec 256) (bad : Bool) (s : State) : Outcome :=
  .next (if s.ctx = ctxRunning then s.verdict stream.val flit bad else s)

/-- THR_SWITCH_ARM (R231, R327): the high word of TRG_THR_SWITCH. -/
def execThrSwitchArm (m : Master) (hi : Word) (s : State) : Outcome :=
  .next (s.atReg m (Reg.TRG_THR_SWITCH + 4) (fun t => t.writeThrSwitch hi))

/-- THR_SWITCH_ACTIVATE (R231). -/
def execThrSwitchActivate (s : State) : Outcome := .next s.activateThr

/-- CLASS_ENABLE (R237). -/
def execClassEnable (c : Fin 64) (s : State) : Outcome := .next (s.enableClass c.val)

/-- FAST_CLASS_EVALUATE (R233). -/
def execFastClassEvaluate (c : Fin 64) (s : State) : Outcome := .next (s.evaluate c.val false)

/-- SLOW_CLASS_EVALUATE (R233). -/
def execSlowClassEvaluate (c : Fin 64) (s : State) : Outcome := .next (s.evaluate c.val true)

/-- TIMED_PULSE_START (R238). -/
def execTimedPulseStart (o : Fin 16) (s : State) : Outcome := .next (s.startTimed o.val)

/-- OUTPUT_PULSE_END (R238). -/
def execOutputPulseEnd (o : Fin 16) (s : State) : Outcome := .next (s.endPulse o.val)

end Sys2Proof.Machine
end

