-- ==== Sys2Proof/Machine/Capture.lean ====
section
/-!
DEFINITION. The history ring's write point and the capture controller (R243 to R252, R398).
-/

namespace Sys2Proof.Machine

/-- The CRC of R79 over bytes, the least significant bit of each byte first. -/
def crc32 (bs : List Byte) : Nat := revBits 32 ((2 ^ 32 - 1) - crcBits 32 0x04C11DB7 0xFFFFFFFF (bitsLsb bs))

/-- Bytes with a 4-byte CRC put at an offset, computed with that field zero. -/
def withCrc (off : Nat) (bs : List Byte) : List Byte :=
  let z := bs.take off ++ leBytes 4 0 ++ bs.drop (off + 4)
  bs.take off ++ leBytes 4 (crc32 z) ++ bs.drop (off + 4)

/-- Bytes with zeros up to a length. -/
def zeroPad (n : Nat) (bs : List Byte) : List Byte := bs ++ List.replicate (n - bs.length) 0

/-- A record area of DDR5 (R250): the low offsets of its four register pairs. -/
structure Area where
  base : Nat
  size : Nat
  wptr : Nat
  rptr : Nat
  deriving DecidableEq, Repr

/-- The event store and the survey area. -/
def eventArea : Area := { base := Reg.ACQ_STORE_BASE, size := Reg.ACQ_STORE_SIZE, wptr := Reg.ACQ_STORE_WPTR, rptr := Reg.ACQ_STORE_RPTR }
def surveyArea : Area := { base := Reg.ACQ_SURVEY_BASE, size := Reg.ACQ_SURVEY_SIZE, wptr := Reg.ACQ_SURVEY_WPTR, rptr := Reg.ACQ_SURVEY_RPTR }

/-- A PAD record of a length (R250). -/
def padRecord (n : Nat) : List Byte :=
  if n < 128 then leBytes 4 0x45565431 ++ leBytes 2 64 ++ leBytes 2 512 ++ leBytes 8 n ++ List.replicate (n - 16) 0
  else withCrc 0x7C (leBytes 4 0x45565431 ++ leBytes 2 128 ++ leBytes 2 512 ++ leBytes 8 n ++ List.replicate (n - 16) 0)

namespace State

/-- The size of an area, and its free space (R250). -/
def areaSize (s : State) (a : Area) : Nat := (s.rd64 a.size).toNat
def areaFree (s : State) (a : Area) : Nat := s.areaSize a - ((s.rd64 a.wptr).toNat - (s.rd64 a.rptr).toNat)
/-- Bytes to the end of the region. -/
def areaRest (s : State) (a : Area) : Nat := s.areaSize a - (s.rd64 a.wptr).toNat % max 1 (s.areaSize a)

/-- Write a record at WPTR; WPTR advances past it (R250). -/
def areaWrite (s : State) (a : Area) (bs : List Byte) : State :=
  let w := (s.rd64 a.wptr).toNat
  (s.writeBytes (ddrBase + (s.rd64 a.base).toNat + w % max 1 (s.areaSize a)) bs).wr64 a.wptr (BitVec.ofNat 64 (w + bs.length))

/-- A record that would cross the end of the region has a PAD record before it (R250). -/
def areaPad (s : State) (a : Area) (len : Nat) : State :=
  if s.areaRest a < len then s.areaWrite a (padRecord (s.areaRest a)) else s

/-- The capture controller writes `len` bytes of the event store from WPTR on: host requests that wait there go first (R27). -/
def eventDrain (s : State) (len : Nat) : State :=
  s.drainFor (ddrBase + (s.rd64 eventArea.base).toNat + (s.rd64 eventArea.wptr).toNat % max 1 (s.areaSize eventArea)) len

/-- The enabled channels of the groups that an event covers, in ascending order. -/
def eventChannels (s : State) (e : CapEvent) : List Nat :=
  (s.channels.filter (fun c => e.groups.getLsbD (mapGroup c.2))).map Prod.fst

/-- Bytes of a channel section (R252): the BAD bitmap begins at the byte after the codes. -/
def sectionLen (s : State) (c n : Nat) : Nat := padTo 64 (16 + (n * (s.chanFmt c).width + 7) / 8 + (n + 7) / 8)

/-- Samples per channel of an event's window. -/
def eventSamples (e : CapEvent) : Nat := e.last + 1 - e.first

/-- LENGTH of an event's record (R251); a refused or withheld event has a header only. -/
def recordLen (s : State) (e : CapEvent) : Nat :=
  if e.fate ≠ 0 then 128
  else 128 + ((s.eventChannels e).map (fun c => s.sectionLen c (eventSamples e))).foldl (· + ·) 0

/-- The blocks of an event's window. -/
def eventBlocks (s : State) (e : CapEvent) : List Nat :=
  let b := s.blockOf e.first
  (List.range (s.blockOf e.last + 1 - b)).map (b + ·)

/-- A block is at risk (R247): none is in a frozen ring (R396). -/
def atRisk (s : State) (b : Nat) : Bool :=
  decide (s.ctx = ctxRunning) && match s.acq.wblock with
  | some w => decide (b + s.ringSlots < w + 1 + (s.rd Reg.ACQ_GUARD).toNat)
  | none => false

/-- An event of the queue is refused (R247): counted, and its window charged to its class. -/
def refuseEvent (s : State) (e : CapEvent) : State := (s.count64 Reg.ACQ_REFUSED).refuseCapture e.cls e.first e.last

/-- Put an event in the place of the queue's head. -/
def setHead (s : State) (e : CapEvent) : State := { s with acq := { s.acq with queue := e :: s.acq.queue.tail } }

/-- The next block to copy of the event at a place of the queue is at risk (R247): an event whose copy has read every block has
none. -/
def copyAtRisk (s : State) (e : CapEvent) (place : Nat) : Bool :=
  let b := if s.acq.copying && decide (place = 0) then s.acq.copyNext else s.blockOf e.first
  decide (e.fate = 0) && decide (b ≤ s.blockOf e.last) && s.atRisk b

/-- Events of the queue whose next block to copy is at risk are refused; a copy that runs stops (R247). -/
def refuseAtRisk (s : State) : State :=
  let q := s.acq.queue.zipIdx.map (fun x => (x.1, s.copyAtRisk x.1 x.2))
  let s1 := (q.filter Prod.snd).foldl (fun t x => t.refuseEvent x.1) s
  { s1 with acq := { s1.acq with
      copying := s1.acq.copying && !(match q.head? with | some x => x.2 | none => false),
      queue := q.map (fun x => if x.2 then { x.1 with fate := 1 } else x.1) } }

/-- The offset in a slot of a channel's codes (R244). -/
def chanOff (s : State) (c : Nat) : Nat :=
  ((s.channels.map Prod.fst).takeWhile (· ≠ c)).foldl (fun n d => n + s.codeBytes d + s.bitmapBytes) 256

/-- The ring lines that an event reads of a block: its header, and its part of each covered channel's section. -/
def eventLines (s : State) (e : CapEvent) (b : Nat) : List Nat :=
  let lo := max e.first (b * s.blockLen) - b * s.blockLen
  let hi := min e.last (b * s.blockLen + s.blockLen - 1) - b * s.blockLen
  let span (off a z : Nat) : List Nat := (List.range (z / 256 + 1 - a / 256)).map (fun i => (s.slotAt b + off) / 256 + a / 256 + i)
  s.slotAt b / 256 :: (s.eventChannels e).flatMap (fun c =>
    let w := (s.chanFmt c).width
    span (s.chanOff c) (lo * w / 8) ((hi * w + w - 1) / 8) ++ span (s.chanOff c + s.codeBytes c) (lo / 8) (hi / 8))

/-- A ring line that capture found lost lies in a slot header or in a covered channel's section of the window (R398). -/
def eventLost (s : State) (e : CapEvent) : Bool :=
  (s.eventBlocks e).any (fun b => s.acq.lostLines.any (fun l =>
    let inSlot (off len : Nat) : Bool := decide (s.slotAt b + off ≤ 256 * l) && decide (256 * l < s.slotAt b + off + len)
    inSlot 0 256 || (s.eventChannels e).any (fun c => inSlot (s.chanOff c) (s.codeBytes c + s.bitmapBytes))))

/-- The stack of a line of HBM. -/
def stackFin (l : Nat) : Fin 12 := Fin.ofNat 12 (stackOf l)

/-- Read ring lines for a capture, behind array beats that wait for their stack (R26); the first that cannot be read ends it, and
is remembered (R398). -/
def captureRead (s : State) : List Nat → SMap (BitVec 2048) → State × Option (SMap (BitVec 2048))
  | [], m => (s, some m)
  | l :: ls, m =>
    match (s.arrayFirst (stackFin (ringDpa (256 * l) / 256))).readLine (ringDpa (256 * l) / 256) 0 true with
    | (s1, some x) => captureRead s1 ls (SMap.insert m l x)
    | (s1, none) => ({ s1 with acq := { s1.acq with lostLines := l :: s1.acq.lostLines } }, none)

end State

/-- `n` bits from a bit address of the ring, out of the lines read. -/
def ringBits (m : SMap (BitVec 2048)) (addr n : Nat) : Nat :=
  (List.range n).foldl (fun x i =>
    let a := addr + i
    x + ((SMap.get 0 m (a / 2048)).getLsbD (a % 2048)).toNat * 2 ^ i) 0

namespace State

/-- A sample of a channel out of the lines read: its code and its BAD bit. -/
def capSample (s : State) (m : SMap (BitVec 2048)) (c n : Nat) : Nat × Bool :=
  let b := s.blockOf n
  let i := n % s.blockLen
  let w := (s.chanFmt c).width
  let base := s.slotAt b + s.chanOff c
  (ringBits m (8 * base + w * i) w, decide (ringBits m (8 * (base + s.codeBytes c) + i) 1 = 1))

/-- A channel section (R252), and its count of BAD samples. -/
def eventSection (s : State) (e : CapEvent) (m : SMap (BitVec 2048)) (c : Nat) : List Byte × Nat :=
  let n := eventSamples e
  let w := (s.chanFmt c).width
  let xs := (List.range n).map (fun i => s.capSample m c (e.first + i))
  (zeroPad (s.sectionLen c n)
    (leBytes 16 (c + if s.chanFmt c = Fmt.s16 then 4096 else 0) ++ leBytes ((n * w + 7) / 8) (packBits w (xs.map Prod.fst)) ++
      leBytes ((n + 7) / 8) (packBits 1 (xs.map (fun x => x.2.toNat)))),
    (xs.filter (·.2)).length)

/-- An event record (R251): `secs` are its sections, none for a header-only record. -/
def eventRecord (s : State) (e : CapEvent) (secs : List (List Byte × Nat)) (shed ovr : Bool) : List Byte :=
  let bads := (secs.map Prod.snd).foldl (· + ·) 0
  let body := secs.flatMap Prod.fst
  let flags := (decide (e.fate = 1)).toNat + 2 * (decide (e.fate = 2)).toNat + 4 * e.truncPre.toNat + 8 * e.truncPost.toNat +
    16 * e.merged.toNat + 32 * (decide (0 < bads)).toNat + 64 * shed.toNat + 128 * ovr.toNat + 256 * e.slow.toNat
  withCrc 0x7C (
    leBytes 4 0x45565431 ++ leBytes 2 128 ++ leBytes 2 flags ++ leBytes 8 (128 + body.length) ++ leBytes 8 e.number ++
    leBytes 2 s.systemIndex ++ leBytes 1 e.cls ++ leBytes 1 0 ++ leBytes 4 e.firings ++ leBytes 8 (tlPart e.time) ++
    leBytes 1 (finePart e.time) ++ leBytes 7 0 ++ leBytes 8 e.first ++
    leBytes 4 (if e.fate = 0 then eventSamples e else 0) ++ leBytes 2 secs.length ++ leBytes 2 0 ++ leBytes 8 e.groups.toNat ++
    leBytes 8 e.decided.toNat ++ leBytes 4 bads ++ leBytes 4 0 ++ leBytes 8 (codeOf 64 (s.acqTime s.refChannel e.first)) ++
    leBytes 16 e.payload.toNat ++ leBytes 12 0 ++ leBytes 4 0 ++ body)

/-- The head of the capture queue leaves it. -/
def dropHead (s : State) : State :=
  ({ s with acq := { s.acq with queue := s.acq.queue.tail, copying := false, copyNext := 0, copied := [] } } : State).queueStatus

/-- Write a record of the head event, and take the event out of the queue (R250). -/
def finishEvent (s : State) (bs : List Byte) : State :=
  (((s.eventDrain bs.length).areaWrite eventArea bs).count64 Reg.ACQ_EVENTS).dropHead

/-- A header-only record: its window overlapped shed or overrun blocks as the front end has marked them (R251). -/
def headerOnly (s : State) (e : CapEvent) : List Byte :=
  let bs := s.eventBlocks e
  s.eventRecord e [] (bs.any (fun b => decide (SMap.get 0 s.ing.shed b &&& e.groups ≠ 0))) (bs.any (fun b => decide (b ∈ s.ing.overrun)))

/-- A withheld event (R249, R398): a header-only record with INCOMPLETE set, without dead time. -/
def withholdHead (s : State) (e : CapEvent) : State :=
  (s.count Reg.ACQ_WITHHELD).finishEvent (s.headerOnly { e with fate := 2 })

/-- The shed groups and the OVERRUN flag of a block's slot header (R244). -/
def slotMarks (s : State) (m : SMap (BitVec 2048)) (b : Nat) : Nat × Bool :=
  (ringBits m (8 * (s.slotAt b + 16)) 64, decide (ringBits m (8 * (s.slotAt b + 24)) 1 = 1))

/-- The ring lines of an event from block `b` on. -/
def linesFrom (s : State) (e : CapEvent) (b : Nat) : List Nat :=
  ((s.eventBlocks e).filter (fun x => decide (b ≤ x))).flatMap (s.eventLines e)

/-- The copy of the head event reads its next block (R247); a line that cannot be read ends the copy (R398). -/
def copyBlock (s : State) : State :=
  match s.acq.copying, s.acq.queue with
  | true, e :: _ =>
    if e.fate ≠ 0 ∨ s.blockOf e.last < s.acq.copyNext ∨ s.eventLost e then s
    else
      match s.captureRead (s.eventLines e s.acq.copyNext) s.acq.copied with
      | (s1, none) => s1.setHead { e with fate := 2 }
      | (s1, some m) => { s1 with acq := { s1.acq with copied := m, copyNext := s1.acq.copyNext + 1 } }
  | _, _ => s

/-- The record of the head event is complete (R247, R249 to R252, R398): what its copy has not read yet is read now. -/
def copyComplete (s : State) : State :=
  match s.acq.copying, s.acq.queue with
  | true, e :: _ =>
    if e.fate = 1 then s.finishEvent (s.headerOnly e)
    else if e.fate = 2 || s.eventLost e then s.withholdHead e
    else
      match s.captureRead (s.linesFrom e s.acq.copyNext) s.acq.copied with
      | (s1, none) => s1.withholdHead e
      | (s1, some m) =>
        let marks := (s1.eventBlocks e).map (s1.slotMarks m)
        let shed := marks.any (fun (x : Nat × Bool) => BitVec.ofNat 64 x.1 &&& e.groups ≠ 0)
        s1.finishEvent (s1.eventRecord e ((s1.eventChannels e).map (s1.eventSection e m)) shed (marks.any Prod.snd))
  | _, _ => s

/-- The head event cannot fit in the whole store, or the store is disabled (R248). -/
def refuseOversize (s : State) : State :=
  match s.acq.copying, s.acq.queue with
  | false, e :: _ =>
    if s.acq.stopped then s
    else
      let size := s.areaSize eventArea
      let s1 := if e.fate = 0 ∧ (size = 0 ∨ size < s.recordLen e) then (s.refuseEvent e).setHead { e with fate := 1 } else s
      if size = 0 then s1.dropHead else s1
  | _, _ => s

/-- Every block that an event needs has been written (R247). -/
def blocksWritten (s : State) (e : CapEvent) : Bool :=
  match s.acq.wblock with
  | some w => decide (s.blockOf e.last ≤ w)
  | none => false

/-- The head event begins its copy (R247, R250): a PAD record goes first where its record would cross the region's end,
and the copy waits once more if the record no longer fits. -/
def copyStart (s : State) : State :=
  match s.acq.copying, s.acq.queue with
  | false, e :: _ =>
    let len := s.recordLen e
    if s.acq.stopped || decide (s.areaSize eventArea < len) || decide (s.areaFree eventArea < len) ||
        (decide (e.fate = 0) && !s.blocksWritten e) then s
    else
      let s1 := (if s.areaRest eventArea < len then s.eventDrain (s.areaRest eventArea) else s).areaPad eventArea len
      if s1.areaFree eventArea < len then s1
      else { s1 with acq := { s1.acq with copying := true, copyNext := s1.blockOf e.first, copied := [] } }
  | _, _ => s

/-- The class can no longer merge into its open event (R246). -/
def canClose (s : State) (e : CapEvent) : Bool :=
  s.decidedTo e.cls (s.acqFine s.refChannel ((e.last : Int) + s.rdF (Reg.ACQ_CAP_PRE e.cls) 0 24 + 2))

/-- ACQ_STORE_RPTR or ACQ_SURVEY_RPTR is written (R250). -/
def writeRptr (s : State) (m : Master) (a : Area) (v : DWord) : State :=
  if (s.rd64 a.rptr).toNat ≤ v.toNat ∧ v.toNat ≤ (s.rd64 a.wptr).toNat then s.wr64 a.rptr v else s.refuse m a.rptr

/-- ACQ_BACKLOG (R247): the ring bytes of the blocks of queued events that are not copied. -/
def captureBacklog (s : State) : Nat :=
  ((s.acq.queue.filter (fun e => decide (e.fate = 0))).map (fun e => (s.eventBlocks e).length * s.ringBlock)).foldl (· + ·) 0

end State

/-- RING_BLOCK_COMPLETE (R243): W advances, and an event whose next block is then at risk is refused (R247). -/
def execRingBlockComplete (s : State) : Outcome := .next s.ringBlockDone.refuseAtRisk

/-- CAPTURE_EVENT_CLOSE (R246). -/
def execCaptureEventClose (c : Fin 64) (s : State) : Outcome :=
  .next (
    match s.acq.opened.find? (fun e => decide (e.1 = c.val)) with
    | some e => if s.canClose e.2 then s.closeEvent c.val else s
    | none => s)

/-- CAPTURE_COPY_START (R247). -/
def execCaptureCopyStart (s : State) : Outcome := .next s.refuseAtRisk.copyStart

/-- CAPTURE_REFUSE_OVERSIZE (R248). -/
def execCaptureRefuseOversize (s : State) : Outcome := .next s.refuseOversize

/-- CAPTURE_COPY_COMPLETE (R250). -/
def execCaptureCopyComplete (s : State) : Outcome := .next s.copyComplete

/-- STORE_RPTR_WRITE (R250). -/
def execStoreRptrWrite (m : Master) (survey : Bool) (v : DWord) (s : State) : Outcome :=
  let a := if survey then surveyArea else eventArea
  .next (s.atReg m a.rptr (fun t => t.writeRptr m a v))

end Sys2Proof.Machine
end

