-- ==== Sys2Proof/Machine/Fill.lean ====
section
/-!
DEFINITION. Fills, bindings, the overlapped switch and flips (R135 to R140, R148).
-/

namespace Sys2Proof.Machine

namespace State

/-- The steering unit u under a newly bound pricking (R148, R182): between items it takes the configuration at once. -/
def configureUnit (s : State) (p : Nat) (k : Nat) (u : Nat) : State :=
  if (BitVec.ofNat 8 (s.bodyNat p k 20 1)).getLsbD (4 + u) then
    let c : BitVec 64 := BitVec.ofNat 64 (s.bodyNat p k (64 + 8 * u) 8)
    let x := (s.picot p).unit u
    let y := if x.left = 0 then { x with cfg := c, next := none } else { x with next := some c }
    s.setPicot p ((s.picot p).setUnit u { y with running := true, stopPending := false })
  else s

/-- The capacity of data queue q under a newly bound pricking, where it owns the queue (R192). -/
def configureQueue (s : State) (p : Nat) (k : Nat) (q : Nat) : State :=
  let c := s.bodyNat p k (32 + 2 * q) 2
  if c = 0 then s else s.setPicot p ((s.picot p).setQueue q { (s.picot p).queue q with cap := c })

/-- The capacity of token queue q under a newly bound pricking, where it owns the queue (R192). -/
def configureTqueue (s : State) (p : Nat) (k : Nat) (q : Nat) : State :=
  let c := s.bodyNat p k (4 + q) 1
  if c = 0 then s else s.setPicot p ((s.picot p).setTqueue q { (s.picot p).tqueue q with cap := c })

/-- Queues and steering units under the pricking in slot k. -/
def configure (s : State) (p k : Nat) : State :=
  let s1 := (List.range 16).foldl (fun t q => t.configureQueue p k q) s
  let s2 := (List.range 8).foldl (fun t q => t.configureTqueue p k q) s1
  (List.range 4).foldl (fun t u => t.configureUnit p k u) s2

/-- A logical pricking at bundle 0 with its registers zero (R148). -/
def restart (l : Logical) : Logical :=
  { l with gp := [], prd := 0, badl := false, loops := [], pc := 0, ended := false, waiting := none, waited := 0, waitAt := 0 }

/-- Bind logical pricking l of picot p to slot k; the slot bound before becomes `old`. -/
def bind (s : State) (p : Nat) (l : Fin 8) (k : Fin 8) (old : SlotKind) : State :=
  let x := s.picot p
  let x1 :=
    match (x.logical l).slot with
    | some j => if j = k then x else x.setSlot j { x.slot j with kind := old }
    | none => x
  let x2 := x1.setSlot k { x1.slot k with kind := .bound }
  let y := x2.logical l
  (s.setPicot p (x2.setLogical l (restart { y with slot := some k }))).configure p k

/-- The last flit of a fill is stored (R136, R137, R139).  Beside those rules (DESIGN CHOICE, log entry 81): a shadow fill for a
logical pricking that has a shadow leaves the older slot of kind shadow; a follow fill's slot keeps kind free until it is
bound, and PCT_STATE shows it so; a start fill for a bound logical pricking frees the old slot. -/
def fillDone (s : State) (p : Nat) (f : FillIn) : State :=
  let x := s.picot p
  match f.mode.toNat with
  | 0 => s.setPicot p ((x.setSlot f.slot { x.slot f.slot with kind := .shadow }).setLogical f.logical
          { x.logical f.logical with shadow := some f.slot })
  | 1 => s.setPicot p (x.setLogical f.logical { x.logical f.logical with follow := some f.slot })
  | _ => s.bind p f.logical f.slot .free

/-- A fill header (R135). -/
def fillHeader (s : State) (p : Fin 1024) (data : BitVec 256) : State :=
  let x := s.picot p
  let len := fieldNat data 32 16
  let mine := decide (fieldNat data 0 5 = p.val % 32) && decide (fieldNat data 5 5 = p.val / 32)
  let slot : Fin 8 := (field data 10 3).toFin
  let f : FillIn := { slot := slot, logical := (field data 13 3).toFin, mode := field data 16 2, left := len, index := 0,
                      discard := true }
  let take (d : Bool) : State :=
    if len = 0 then s else s.setPicot p { x with fills := SMap.insert x.fills x.fillLink { f with discard := d } }
  if ¬ mine then take true
  else if field data 16 2 = 3 ∨ len = 0 ∨ fieldNat data 18 14 ≠ 0 ∨ fieldNat data 48 16 ≠ 0 ∨ fieldNat data 64 192 ≠ 0 ∨
      (x.slot slot).kind ≠ .free then
    (take true).arrayFault 5 p (s.faultLg p) x.fillLink 0
  else
    let s1 := s.setPicot p ((x.setSlot slot { x.slot slot with flits := [] }))
    s1.setPicot p { s1.picot p with fills := SMap.insert x.fills x.fillLink { f with discard := false } }

/-- A body flit of a fill (R135, R192).  LENGTH ends the fill; LAST is not looked at, so a LAST that stands elsewhere changes
nothing (DESIGN CHOICE, log entry 81). -/
def fillBody (s : State) (p : Fin 1024) (f : FillIn) (data : BitVec 256) : State :=
  let x := s.picot p
  let sl := x.slot f.slot
  let x1 :=
    if f.discard then x
    else x.setSlot f.slot { sl with flits := SMap.set Stored.blank sl.flits f.index { gen := s.keyGen, word := data } }
  if f.left ≤ 1 then
    let s1 := s.setPicot p { x1 with fills := SMap.erase x1.fills x1.fillLink }
    if f.discard then s1 else s1.fillDone p f
  else s.setPicot p { x1 with fills := SMap.insert x1.fills x1.fillLink { f with left := f.left - 1, index := f.index + 1 } }

/-- The fill that the link of the last FILL flit carries (R135). -/
def filling (x : Picot) : Option FillIn := (x.fills.find? (fun e => decide (e.1 = x.fillLink))).map Prod.snd

/-- A FILL flit at the fill machinery: a header, or the next body flit of the fill that its link carries (R135). -/
def fillFlit (s : State) (p : Fin 1024) (data : BitVec 256) : State :=
  match filling (s.picot p) with
  | none => s.fillHeader p data
  | some f => s.fillBody p f data

/-- The switch of R137: the follow slot is bound once the old pricking has ended; the old slot becomes free.  Where nothing is
bound, the follow fill is bound at once (DESIGN CHOICE, log entry 81). -/
def followBind (s : State) (loc : At) : State :=
  let l := s.lg loc
  match l.follow with
  | none => s
  | some k =>
    if l.ended || l.slot.isNone then
      let s1 := s.setLg loc { l with follow := none }
      (s1.trace loc 2 0 l.pc).bind loc.pic loc.lg k .free
    else s

/-- Does any picot lack a shadow for logical pricking l (R140)? -/
def lacksShadow (s : State) (l : Nat) : Bool :=
  (List.range 1024).any (fun p => ((s.picot p).logical l).shadow.isNone)

/-- Arm a flip of the selected logical prickings at a round, or reject it (R139, R140); the round and the selection are kept
as they are armed, so that no later write moves them.  Answers whether it is armed. -/
def armFlipAt (s : State) (n : DWord) (sel : Word) : State × Bool :=
  let missing := (List.range 8).any (fun l => bit sel l && s.lacksShadow l)
  if n.toNat ≤ s.arr.round.toNat ∨ s.rdB Reg.ARY_FLIP_STATUS 0 ∨ missing then
    let s1 := s.wrB Reg.ARY_FLIP_STATUS 1 true
    (if missing then s1.wrB Reg.ARY_FLIP_STATUS 2 true else s1, false)
  else (({ s with arr := { s.arr with flip := (n, sel) } } : State).wrB Reg.ARY_FLIP_STATUS 0 true, true)

/-- The write of ARY_FLIP's high word (R139, R140), and whether it armed the flip. -/
def armFlip (s : State) (hi : Word) : State × Bool :=
  let s1 := s.wr (Reg.ARY_FLIP + 4) hi
  s1.armFlipAt (s1.rd64 Reg.ARY_FLIP) (s.rd Reg.ARY_FLIP_CFG)

/-- The write of ARY_FLIP's high word by a master: a rejected arming of the Legend controller is a POLICY_MISS (R280). -/
def writeFlip (s : State) (m : Master) (hi : Word) : State :=
  let r := s.armFlip hi
  if m = .legend ∧ !r.2 ∧ s.adaptive then r.1.policyMiss else r.1

/-- One picot's part of a flip for one logical pricking (R139): bound and shadow change places. -/
def flipOne (s : State) (p : Fin 1024) (l : Fin 8) : State :=
  let x := (s.picot p).logical l
  match x.shadow with
  | none => s
  | some k =>
    let s1 := (s.trace { pic := p, lg := l } 3 0 x.pc).bind p l k .shadow
    s1.setLg { pic := p, lg := l } { s1.lg { pic := p, lg := l } with shadow := x.slot }

/-- The flip of every picot (R139). -/
def flipAll (s : State) : State :=
  let sel := s.arr.flip.2
  let ps := s.arr.picots.map Prod.fst
  let s1 := ps.foldl (fun t p =>
    (List.finRange 8).foldl (fun u l =>
      if bit sel l.val then (if h : p < 1024 then u.flipOne ⟨p, h⟩ l else u) else u) t) s
  ((s1.countF Reg.ARY_FLIP_STATUS 16 16).wrB Reg.ARY_FLIP_STATUS 0 false).adaptFlip sel

end State

/-- FILL_RECEIVE (R135). -/
def execFillReceive (p : Fin 1024) (data : BitVec 256) (_last : Bool) (s : State) : Outcome := .next (s.fillFlit p data)

/-- FOLLOW_BIND (R137). -/
def execFollowBind (loc : At) (s : State) : Outcome := .next (s.followBind loc)

/-- FLIP_ARM (R140): the write of ARY_FLIP's high word. -/
def execFlipArm (m : Master) (hi : Word) (s : State) : Outcome :=
  .next (s.atReg m (Reg.ARY_FLIP + 4) (fun t => t.writeFlip m hi))

/-- FLIP_EXECUTE (R139): cycle 0 of round N with a flip armed. -/
def execFlipExecute (s : State) : Outcome := .next (if s.rdB Reg.ARY_FLIP_STATUS 0 then s.flipAll else s)

end Sys2Proof.Machine
end

