-- ==== Sys2Proof/Machine/Rings.lean ====
section
/-!
DEFINITION. Submission and completion rings at work (R330 to R333, R345, R346): doorbells, enabling, fetching, NOP.
-/

namespace Sys2Proof.Machine

/-- The opcodes that are assigned (R334, R381, R412, R438). -/
def opAssigned (op : Byte) : Bool :=
  let n := op.toNat
  decide (n ≤ 0x0B) || (decide (0x40 ≤ n) && decide (n ≤ 0x48)) || (decide (0x60 ≤ n) && decide (n ≤ 0x63)) ||
    (decide (0x70 ≤ n) && decide (n ≤ 0x73))

namespace State

/-- The tail doorbell (R330). -/
def writeTail (s : State) (r : Nat) (v : Word) : State :=
  let i := fieldNat v 0 12
  if s.sqSize r ≤ i then s.wrB (Reg.HQ_RING_STAT r) 1 true else s.wrF (Reg.HQ_SQ_TAIL r) 0 12 i

/-- A completion held back is written once the completion ring has space (R330). -/
def releaseHeld (s : State) (r : Nat) : State :=
  match (s.ring r).held with
  | some c => if s.cqFull r then s else s.writeCompletion r c
  | none => s

/-- The completion head (R330). -/
def writeHead (s : State) (r : Nat) (v : Word) : State := (s.wrF (Reg.HQ_CQ_HEAD r) 0 12 (fieldNat v 0 12)).releaseHeld r

/-- Ring sizes are 2^4 to 2^12. -/
def ringSizesOk (v : Word) : Bool :=
  decide (4 ≤ fieldNat v 16 4) && decide (fieldNat v 16 4 ≤ 12) && decide (4 ≤ fieldNat v 20 4) && decide (fieldNat v 20 4 ≤ 12)

/-- HQ_RING_CFG is written (R331, R333): enabling starts both rings at index 0 with PHASE 1; while the ring is enabled
only a write that clears EN takes effect. -/
def writeRingCfg (s : State) (m : Master) (r : Nat) (v : Word) : State :=
  let k := Reg.HQ_RING_CFG r
  if s.rdB k 31 then
    if bit v 31 then s.refuse m k
    else (s.mergeWord k v).setRing r { s.ring r with dead := false }
  else if bit v 31 then
    if ringSizesOk v then
      ((s.mergeWord k v).wrF (Reg.HQ_RING_STAT r) 20 12 0).setRing r
        { s.ring r with cqTail := 0, phase := true, waiting := 0, held := none, dead := false }
    else s.refuse m k
  else s.mergeWord k v

/-- May the ring fetch (R330, R332, R333): enabled, not stopped by a failed fetch, no command running, completion space,
and an entry outstanding? -/
def mayFetch (s : State) (r : Nat) : Bool :=
  s.rdB (Reg.HQ_RING_CFG r) 31 && !(s.ring r).dead && (s.ring r).running.isNone && (s.ring r).held.isNone && !s.cqFull r &&
    decide (s.rdF (Reg.HQ_RING_STAT r) 20 12 ≠ s.rdF (Reg.HQ_SQ_TAIL r) 0 12)

/-- The entry at the submission head is fetched, and its command runs (R330); an opcode that is not assigned completes at
once (R334). -/
def fetch (s : State) (r : Nat) (entry : BitVec 512) : State :=
  if !s.mayFetch r then s
  else
    let h := (s.rdF (Reg.HQ_RING_STAT r) 20 12 + 1) % s.sqSize r
    let turn := (s.rings.map (fun e => e.2.turn)).foldl max 0 + 1
    let s1 := ((s.wrF (Reg.HQ_RING_STAT r) 20 12 h).wrB (Reg.HQ_RING_STAT r) 0 false).setRing r
      { s.ring r with running := some entry, turn := turn }
    if opAssigned (SubEntry.mk entry).opcode then s1 else s1.complete r stInvalidOpcode

/-- A fetch ends in an error completion (R333). -/
def fetchFails (s : State) (r : Nat) : State :=
  if s.mayFetch r then (s.wrB (Reg.HQ_RING_STAT r) 2 true).setRing r { s.ring r with dead := true } else s

/-- The coalescing time has passed since the first pending completion (R346). -/
def coalesceTimer (s : State) (r : Nat) : State :=
  if 0 < (s.ring r).waiting ∧ s.rdF (Reg.HQ_RING_STAT r) 8 8 ≠ 0 then s.ringIrq r else s

/-- Refuse a command under a rule (R334). -/
def completeRefused (s : State) (r rule : Nat) : State := s.complete r stRefused 0 0 (BitVec.ofNat 32 rule)

/-- Complete with BAD_PARAM at a byte offset. -/
def completeBad (s : State) (r off : Nat) : State := s.complete r stBadParam 0 0 (BitVec.ofNat 32 off)

/-- A DMA transfer failed (R333). -/
def completeDma (s : State) (r : Nat) (which : Fin 3) : State := s.complete r stBadAddress 0 0 (BitVec.ofNat 32 which.val)

/-- An UNCORRECTABLE error came in OPENING, READY or LOADED: until STOP only ATTEST, READ_EVENTS, READ_SURVEY and STOP are taken
(R396). -/
def stoppedFor (s : State) (op : Byte) : Bool :=
  s.ueStop && decide (1 ≤ s.ctx) && decide (s.ctx ≤ 3) && decide (op ∉ [0x41, 0x04, 0x05, 0x03])

/-- Does the device take an opcode (R396, R429, R437)?  In phase READY every command that no error stops; from the end of
FIRMWARE, and in FAILED, attestation, certificates, privilege and firmware; in RECOVERY privilege, FW_WRITE and FW_STAGE. -/
def phaseTakes (s : State) (op : Byte) : Bool :=
  let n := op.toNat
  let priv := decide (n = 0x45) || decide (n = 0x46)
  if s.phase = 7 then !s.stoppedFor op
  else if s.phase = 8 then priv || decide (n = 0x70) || decide (n = 0x71)
  else decide (4 ≤ s.phase) && (priv || decide (n = 0x41) || decide (n = 0x44) || (decide (0x70 ≤ n) && decide (n ≤ 0x73)))

/-- Run a ring's command when its turn has come (R332): its entry must carry the opcode, every reserved byte and every PARAM byte from `used` on must
be zero (R333, R334), and the boot phase must accept it (R429). -/
def onRing (s : State) (r : Fin 16) (op : Byte) (used : Nat) (f : SubEntry → State) : State :=
  match s.running r.val with
  | none => s
  | some e =>
    if e.opcode ≠ op ∨ s.isTurn r.val = false then s
    else match e.badByte used with
      | some i => s.completeBad r.val i
      | none => if s.phaseTakes op then f e else s.completeState r.val

/-- A command that needs a context (R351): CONTEXT_UNAVAILABLE without one. -/
def needsContext (s : State) (r : Nat) (f : State) : State :=
  if s.ctx = ctxNone ∨ s.ctx = ctxOpening ∨ s.ctx = ctxEnding ∨ s.ctx = ctxScrubbing then s.complete r stUnavailable
  else f

/-- A command that its table gives some context states only (R332, R349). -/
def needsState (s : State) (r : Nat) (ok : Bool) (f : State) : State := s.needsContext r (if ok then f else s.completeState r)

end State

/-- SQ_TAIL_WRITE (R330). -/
def execSqTailWrite (m : Master) (r : Fin 16) (v : Word) (s : State) : Outcome :=
  .next (s.atReg m (Reg.HQ_SQ_TAIL r.val) (fun t => t.writeTail r.val v))

/-- CQ_HEAD_WRITE (R330). -/
def execCqHeadWrite (m : Master) (r : Fin 16) (v : Word) (s : State) : Outcome :=
  .next (s.atReg m (Reg.HQ_CQ_HEAD r.val) (fun t => t.writeHead r.val v))

/-- RING_ENABLE (R331): HQ_RING_CFG written with EN 1. -/
def execRingEnable (m : Master) (r : Fin 16) (v : Word) (s : State) : Outcome :=
  .next (s.atReg m (Reg.HQ_RING_CFG r.val) (fun t => t.writeRingCfg m r.val v))

/-- RING_DISABLE (R333): HQ_RING_CFG written with EN 0. -/
def execRingDisable (m : Master) (r : Fin 16) (v : Word) (s : State) : Outcome :=
  .next (s.atReg m (Reg.HQ_RING_CFG r.val) (fun t => t.writeRingCfg m r.val v))

/-- SUBMISSION_FETCH (R330). -/
def execSubmissionFetch (r : Fin 16) (entry : BitVec 512) (s : State) : Outcome := .next (s.fetch r.val entry)

/-- FETCH_ERROR (R333). -/
def execFetchError (r : Fin 16) (s : State) : Outcome := .next (s.fetchFails r.val)

/-- COALESCE_TIMER_EXPIRY (R346). -/
def execCoalesceTimerExpiry (r : Fin 16) (s : State) : Outcome := .next (s.coalesceTimer r.val)

/-- NOP (R332). -/
def execNop (r : Fin 16) (s : State) : Outcome := .next (s.onRing r 0x00 0 (fun _ => s.complete r.val stOk))

end Sys2Proof.Machine
end

