-- ==== Sys2Proof/Machine/Seal.lean ====
section
/-!
DEFINITION. Sealing of a protected context's outputs under K_OUT (R372, R373).
-/

namespace Sys2Proof.Machine

/-- Octets of a key, byte 0 the key's first octet. -/
def keyOctets (k : BitVec 256) : List Byte := bytesOf 32 k

/-- The 16 keystream bytes of a counter block. -/
def ctrBlock (key : BitVec 256) (cb : Nat) : List Byte := bytesOf 16 (aesNum key (BitVec.ofNat 128 cb))

/-- AES-256-CTR over bytes `lo` to `hi − 1` of a record: byte i takes byte i mod 16 of the keystream of block i ÷ 16,
whose counter block is `cb (i ÷ 16)`. -/
def ctrSeal (key : BitVec 256) (cb : Nat → Nat) (lo hi : Nat) (bs : List Byte) : List Byte :=
  let ks := ((List.range ((bs.length + 15) / 16)).map (fun j => ctrBlock key (cb j))).flatten
  (bs.zipIdx.zip ks).map (fun p => if lo ≤ p.1.2 ∧ p.1.2 < hi then p.1.1 ^^^ p.2 else p.1.1)

namespace State

/-- K_OUT of the context. -/
def kOut (s : State) : BitVec 256 := Config.outputKey s.keyGen

/-- A subscriber's record as it is written (R372). -/
def sealRecord (s : State) (n serial index : Nat) (bs : List Byte) : List Byte :=
  if s.isProtected then ctrSeal s.kOut (fun j => index + n * 2 ^ 64 + serial * 2 ^ 80 + j * 2 ^ 112) 8 64 bs else bs

/-- An eject-queue flit as it is written. -/
def sealFlit (s : State) (q k : Nat) (bs : List Byte) : List Byte :=
  if s.isProtected then ctrSeal s.kOut (fun j => k + q * 2 ^ 64 + j * 2 ^ 80 + 1 * 2 ^ 114) 0 32 bs else bs

/-- A notice in a launch frame. -/
def sealNotice (s : State) (port seq : Nat) (bs : List Byte) : List Byte :=
  if s.isProtected then ctrSeal s.kOut (fun j => seq + port * 2 ^ 64 + j * 2 ^ 112 + 2 * 2 ^ 114) 8 64 bs else bs

/-- LIVE_LOSS and SHADOW_LOSS of an adaptation status record: the eight bytes take the first eight of one block. -/
def sealLosses (s : State) (written : Nat) (bs : List Byte) : List Byte :=
  if s.isProtected then ctrSeal s.kOut (fun _ => written + 3 * 2 ^ 114) 0 8 bs else bs

/-- The copy of a record by READ_EVENTS (4) or READ_SURVEY (5) (R336, R372, R373): the leading octets, ciphertext and tag. -/
def sealCopy (s : State) (kind pos : Nat) (bs : List Byte) : List Byte :=
  if s.isProtected then
    let lead := leBytes 8 pos ++ leBytes 8 bs.length
    let c := gcmSeal (keyOctets s.kOut) (leBytes 12 (pos + kind * 2 ^ 64)) lead bs
    lead ++ c.1 ++ c.2
  else bs

end State

end Sys2Proof.Machine
end

