-- ==== Sys2Proof/Machine/TrainMem.lean ====
section
/-!
DEFINITION. The trainer's arithmetic and its weights in memory (R257, R267 to R274, R278).  What an image's trainer fixes, its tensors
with their rows, constants and loss, is `Config.trainPlan`, `Config.gclipAct` and `Config.winLoss` (log entry 15).
-/

namespace Sys2Proof.Machine

open Sys2Proof.Config (RowPlan RowWeight TensorPlan)

/-! FP32 arithmetic with one rounding per operation (R271). -/

/-- Round to FP32. -/
def rnWord (v : Val) : Word := BitVec.ofNat 32 (convert Fmt.fp32 .rn v).1
def fAdd (a b : Word) : Word := rnWord ((fp32Val a).add (fp32Val b))
def fSub (a b : Word) : Word := rnWord ((fp32Val a).add (fp32Val b).neg)
def fMul (a b : Word) : Word := rnWord ((fp32Val a).mul (fp32Val b))
def fFma (a b c : Word) : Word := rnWord (((fp32Val a).mul (fp32Val b)).add (fp32Val c))
def fFun (f : Val → Sum Nat Val × Ev) (a : Word) : Word :=
  match (f (fp32Val a)).1 with
  | .inl c => BitVec.ofNat 32 c
  | .inr v => rnWord v
def fRcp (a : Word) : Word := fFun rcpVal a
def fRsq (a : Word) : Word := fFun rsqVal a
def fNeg (a : Word) : Word := a ^^^ 0x80000000
/-- a ≤ b; false with a NaN. -/
def fLe (a b : Word) : Bool := (fp32Val a).lt (fp32Val b) || (fp32Val a).eqv (fp32Val b)

/-- Clamp to ±bound, and whether the value changed (R268). -/
def clampVal (v : Val) (bound : Word) : Val × Bool :=
  let b := fp32Val bound
  if b.lt v then (b, true) else if v.lt b.neg then (b.neg, true) else (v, false)

/-- The same of an FP32 word. -/
def clampGrad (g bound : Word) : Word × Bool :=
  if (fp32Val bound).lt (fp32Val g) then (bound, true)
  else if (fp32Val g).lt (fp32Val (fNeg bound)) then (fNeg bound, true) else (g, false)

/-- SCALE, then BQNT, of one block of up to 32 values (R166, R167): the block scale in its interval, the codes, and the format
events. -/
def quantBlock (fmt : Fmt) (rnd : Nat → Rnd) (iv : Nat × Nat) (vs : List Val) : Nat × List Nat × Ev :=
  if vs.any Val.isNan then (0xFF, vs.map (fun _ => 0), { nan := 1 + vs.length })
  else
    let e :=
      if vs.any (fun v => match v with | .inf _ => true | _ => false) then iv.2
      else blockScale fmt iv.1 iv.2 (vs.foldl Vec.maxMag none)
    let s := fmtValue Fmt.e8m0 e
    let cs := vs.zipIdx.map (fun p => convert fmt (rnd p.2) (p.1.div s))
    (e, cs.map Prod.fst, (cs.map Prod.snd).foldl Ev.add {})

/-- A code under a block scale, exact. -/
def scaledVal (fmt : Fmt) (code scale : Nat) : Val := (fmtValue fmt code).mul (fmtValue Fmt.e8m0 scale)

/-- The constants of a step (R271): 1 − β1, 1 − β2, β1, β2, A, Dk, GCLIP, ε², s. -/
structure StepConst where
  b1  : Word
  b2  : Word
  a   : Word
  dk  : Word
  clip : Word
  eps : Word
  s   : Nat
  deriving DecidableEq, Repr

/-- The first lines of R271: s, P1, P2 advance, and the step's constants. -/
def Adapt.beginStep (d : Adapt) (t : Trainer) : Trainer × StepConst :=
  let b1 : Word := BitVec.ofNat 32 (d.dsc 0x2C 4)
  let b2 : Word := BitVec.ofNat 32 (d.dsc 0x30 4)
  let s := (t.step + 1) % 2 ^ 32
  let p1 := fMul t.p1 b1
  let p2 := fMul t.p2 b2
  let c1 := fSub fpOne p1
  let c2 := fSub fpOne p2
  let a := fMul (fMul t.lr (fMul c2 (fRsq c2))) (fRcp c1)
  ({ t with step := s, p1 := p1, p2 := p2 },
   { b1 := b1, b2 := b2, a := a, dk := fSub fpOne (fMul t.lr t.wdecay), clip := t.gclip,
     eps := BitVec.ofNat 32 (d.dsc 0x34 4), s := s })

/-- Elements of a tensor (R270). -/
def elems (t : TensorPlan) : Nat := t.rowsA.length * t.cols

/-- What R271 makes of one block of 32 elements. -/
structure BlockOut where
  moments : Moments
  scale   : Nat
  codes   : List Nat
  clips   : Nat
  ev      : Ev

/-- One block of up to 32 elements through R271 and R272: `e0` its first element, `ws` and `gs` its weights and gradients. -/
def stepBlock (t : TensorPlan) (seed : BitVec 64) (k : StepConst) (e0 : Nat) (ws gs : List Word) (mo : Moments) : BlockOut :=
  let b := e0 / 32
  let draw (id : BitVec 32) (i : Nat) : Rnd := .sr (bobbin seed id (BitVec.ofNat 64 ((k.s - 1) * elems t + e0 + i)))
  let gc := gs.map (fun g => clampGrad g k.clip)
  let m32 := gc.zipIdx.map (fun p =>
    let m := rnWord (scaledVal Fmt.e4m3 (SMap.get 0 mo.m (e0 + p.2)) (SMap.get 0 mo.mScale b))
    fFma (fSub fpOne k.b1) p.1.1 (fMul k.b1 m))
  let mq := quantBlock Fmt.e4m3 (draw t.idM) t.mScale (m32.map fp32Val)
  let v8 := gc.zipIdx.map (fun p =>
    let v := rnWord (fmtValue Fmt.l8 (SMap.get 0 mo.v (e0 + p.2)))
    let q := fMul (fSub fpOne k.b2) p.1.1
    convert Fmt.l8 .rn (fp32Val (fFma q p.1.1 (fMul k.b2 v))))
  let w32 := ((mq.2.1.zip (v8.map Prod.fst)).zip ws).map (fun p =>
    let m := rnWord (scaledVal Fmt.e4m3 p.1.1 mq.1)
    let v := rnWord (fmtValue Fmt.l8 p.1.2)
    let d := fMul (fMul k.a m) (fRsq (fAdd v k.eps))
    fFma p.2 k.dk (fNeg d))
  let wq : Nat × List Nat × Ev :=
    if t.scaled then quantBlock t.fmt (draw t.idW) t.wScale (w32.map fp32Val)
    else
      let cs := w32.zipIdx.map (fun p =>
        convert t.fmt (draw t.idW p.2) ((fp32Val p.1).mul (Q.pow2 (-(t.exps.getD ((e0 + p.2) / t.cols) 0))).toVal))
      (0, cs.map Prod.fst, (cs.map Prod.snd).foldl Ev.add {})
  let put (f : SMap Nat) (xs : List Nat) : SMap Nat := xs.zipIdx.foldl (fun m p => SMap.insert m (e0 + p.2) p.1) f
  { moments := { m := put mo.m mq.2.1, mScale := SMap.insert mo.mScale b mq.1, v := put mo.v (v8.map Prod.fst) }
    scale := wq.1, codes := wq.2.1, clips := (gc.filter (·.2)).length
    ev := (v8.map Prod.snd).foldl Ev.add (mq.2.2.add wq.2.2) }

/-! Weight gradients (R267 to R269). -/

/-- The activation gradients of a column as they are streamed through MMA: the output gradient times WEIGHT ÷ 64, clamped to
±GCLIP_ACT, then quantized by blocks of 32 under RN; and how many the clamp changed. -/
def colGrads (t : TensorPlan) (clip : Word) (weight : Nat) (c : GradCol) : List Val × Nat × Ev :=
  let ds := c.d.map (fun x =>
    let v := fp32Val x
    clampVal (if c.out then v.mul ({ num := weight, den := 64 } : Q).toVal else v) clip)
  let blocks := (List.range ((ds.length + 31) / 32)).map (fun i =>
    let q := quantBlock t.dFmt (fun _ => .rn) t.dScale (((ds.drop (32 * i)).take 32).map Prod.fst)
    (q.2.1.map (fun y => scaledVal t.dFmt y q.1), q.2.2))
  (blocks.flatMap Prod.fst, (ds.filter (·.2)).length, (blocks.map Prod.snd).foldl Ev.add {})

/-- G of an element (R269): the exact X128 sum of the products of its row's gradient and its column's input, over every column of every
window. -/
def gradSum (e cols : Nat) (xs : List (GradCol × List Val)) : Int :=
  (xs.map (fun c => (toX128 ((c.2.getD (e / cols) (Q.ofInt 0).toVal).mul (fp32Val (c.1.x.getD (e % cols) 0)))).1)).foldl (· + ·) 0

/-- g = RN_FP32(G × 64 ÷ ΣWEIGHT) (R269). -/
def gradOf (g : Int) (weights : Nat) : Word := rnWord ({ num := g * 64, den := 2 ^ 64 * max 1 weights } : Q).toVal

namespace State

/-! The weights in memory (R257). -/

/-- The adaptable tensors of the loaded image. -/
def tensors (s : State) : List TensorPlan := Config.trainPlan s.img.measure
/-- A weight row of the loaded image. -/
def rowAt (s : State) (i : Nat) : RowPlan := (Config.rowPlan s.img.measure).getD i RowPlan.none

/-- Replace `n` bits at bit `lo` of a word. -/
def insertBits {w : Nat} (x : BitVec w) (lo n v : Nat) : BitVec w :=
  (x &&& ~~~(BitVec.ofNat w ((2 ^ n - 1) * 2 ^ lo))) ||| BitVec.ofNat w (v % 2 ^ n * 2 ^ lo)

/-- Write `n` bits at such a place; a line goes through the controllers' commit (R204). -/
def putBits (s : State) (pic : Nat) (w : RowWeight) (n code : Nat) : State :=
  if w.hbm then
    let p : Fin 1024 := Fin.ofNat 1024 pic
    let off := 256 * (w.addr % pillowLines)
    let x := insertBits (s.tapLine p off (s.lineNow p w.addr)) w.bit n code
    { s with arr := { s.arr with stores := s.arr.stores ++ [{ wait := 0, line := laneLine p w.addr, data := s.tapLine p off x }] } }
  else s.sramWrite pic w.addr (insertBits (s.sramRead pic w.addr) w.bit n code)

/-- A tensor's rows and block scales in buffer A or B. -/
def rowsIn (t : TensorPlan) (b : Bool) : List Nat := if b then t.rowsB else t.rowsA
def scalesIn (t : TensorPlan) (b : Bool) : List RowWeight := if b then t.scalesB else t.scalesA

/-- The row and the place of element e in a buffer. -/
def elemAt (s : State) (t : TensorPlan) (b : Bool) (e : Nat) : RowPlan × RowWeight :=
  let r := s.rowAt ((rowsIn t b).getD (e / t.cols) 0)
  (r, r.weights.getD (e % t.cols) RowWeight.none)

/-- The picot of a tensor's trainer. -/
def tensorPic (s : State) (t : TensorPlan) (b : Bool) : Nat := (s.rowAt ((rowsIn t b).getD 0 0)).pic

/-- The code of element e in a buffer, and of block i's scale. -/
def codeIn (s : State) (t : TensorPlan) (b : Bool) (e : Nat) : Nat := let x := s.elemAt t b e; s.weightCode x.1 x.2
def scaleIn (s : State) (t : TensorPlan) (b : Bool) (i : Nat) : Nat :=
  s.placeBits (s.tensorPic t b) ((scalesIn t b).getD i RowWeight.none) 8

/-- Write the code of element e, and block i's scale. -/
def putCode (s : State) (t : TensorPlan) (b : Bool) (e code : Nat) : State :=
  let x := s.elemAt t b e
  s.putBits x.1.pic x.2 (Fmt.width t.fmt) code
def putScale (s : State) (t : TensorPlan) (b : Bool) (i code : Nat) : State :=
  if t.scaled then s.putBits (s.tensorPic t b) ((scalesIn t b).getD i RowWeight.none) 8 code else s

/-- The value of weight e in a buffer, in FP32. -/
def weightIn (s : State) (t : TensorPlan) (b : Bool) (e : Nat) : Word :=
  rnWord (if t.scaled then scaledVal t.fmt (s.codeIn t b e) (s.scaleIn t b (e / 32))
          else (fmtValue t.fmt (s.codeIn t b e)).mul (Q.pow2 (t.exps.getD (e / t.cols) 0)).toVal)

/-- After a row's weights are written, its descriptor: RSUM by CSUM, FOLD in X128 from the new weights (R273). -/
def closeRow (s : State) (i : Nat) : State :=
  let r := s.rowAt i
  (s.setDesc r (4 * r.row) 4 (codeOf 32 (s.rowSum r))).putFold (s.rdF Reg.ING_REC_STATUS 0 1) (r, s.arr.biases.getD i 0)

/-- Copy a row's descriptor: RSUM, ZW, SW and FOLD. -/
def copyDesc (s : State) (i j : Nat) : State :=
  let a := s.rowAt i
  let b := s.rowAt j
  [(0, 4), (128, 4), (256, 4), (512, 16)].foldl (fun t x =>
    t.setDesc b (x.1 + x.2 * b.row) x.2 (t.descNat a (x.1 + x.2 * a.row) x.2)) s

/-- Copy one tensor's live weights and descriptors into the other buffer (R274). -/
def copyTensor (s : State) (t : TensorPlan) (live : Bool) : State :=
  let s1 := (List.range (elems t)).foldl (fun u e => u.putCode t (!live) e (u.codeIn t live e)) s
  let s2 := (List.range (if t.scaled then (elems t + 31) / 32 else 0)).foldl (fun u i => u.putScale t (!live) i (u.scaleIn t live i)) s1
  ((rowsIn t live).zip (rowsIn t (!live))).foldl (fun u x => u.copyDesc x.1 x.2) s2

/-- What the trainer's program changes in the array: SRAM, the beats that wait to be written, format events. -/
def takeArr (s t : State) : State :=
  { s with arr := { s.arr with picots := t.arr.picots, stores := t.arr.stores, events := t.arr.events } }

/-- The live network is copied into the buffer that the trainer writes (R274). -/
def copyLive (s : State) : State :=
  let live := !s.adapt.trainer.target
  s.takeArr (s.tensors.foldl (fun t x => t.copyTensor x live) s)

/-- The seed of a tensor, in the constant words that SEEDS filled (R196, R272). -/
def tensorSeed (s : State) (t : TensorPlan) : BitVec 64 :=
  s.slotConst t.seed.1 t.seed.2.1 (t.seed.2.2 + 1) ++ s.slotConst t.seed.1 t.seed.2.1 t.seed.2.2

/-- What a step changes beside the step state: the array, the moments, the clamps that changed a value. -/
structure StepOut where
  st      : State
  moments : SMap Moments
  clips   : Nat

/-- One tensor of a step (R267 to R273): its gradients from the columns of the minibatch, then R271 block by block into the target
buffer, then the descriptors of its rows. -/
def stepTensor (k : StepConst) (wins : List TrainWin) (cols : List GradCol) (o : StepOut) (i : Nat) (t : TensorPlan) : StepOut :=
  let b := o.st.adapt.trainer.target
  let clip := Config.gclipAct o.st.img.measure
  let xs := (cols.filter (fun c => decide (c.tensor = i))).map (fun c => (c, colGrads t clip ((wins[c.win]?.map TrainWin.weight).getD 0) c))
  let total := (wins.map TrainWin.weight).foldl (· + ·) 0
  let pic := t.seed.1
  let s0 := xs.foldl (fun u x => u.countEvents pic x.2.2.2) o.st
  let r := (List.range ((elems t + 31) / 32)).foldl (fun (a : StepOut) n =>
    let e0 := 32 * n
    let es := (List.range (min 32 (elems t - e0))).map (e0 + ·)
    let gs := es.map (fun e => gradOf (gradSum e t.cols (xs.map (fun x => (x.1, x.2.1)))) total)
    let q := stepBlock t (a.st.tensorSeed t) k e0 (es.map (fun e => a.st.weightIn t b e)) gs (SMap.get Moments.none a.moments i)
    let s1 := q.codes.zipIdx.foldl (fun u p => u.putCode t b (e0 + p.2) p.1) (a.st.putScale t b n q.scale)
    { st := s1.countEvents pic q.ev, moments := SMap.set Moments.none a.moments i q.moments, clips := a.clips + q.clips })
    { st := s0, moments := o.moments, clips := o.clips + (xs.map (fun x => x.2.2.1)).foldl (· + ·) 0 }
  { r with st := (rowsIn t b).foldl (fun u j => u.closeRow j) r.st }

/-- All tensors of a step, in the image's order. -/
def stepTensors (s : State) (k : StepConst) (wins : List TrainWin) (cols : List GradCol) : StepOut :=
  s.tensors.zipIdx.foldl (fun o x => stepTensor k wins cols o x.2 x.1) { st := s, moments := s.adapt.trainer.moments, clips := 0 }

/-! Validation (R278). -/

/-- The weights of a network: the codes and block scales of its tensors. -/
def network (s : State) (b : Bool) : List Nat :=
  s.tensors.flatMap (fun t => (List.range (elems t)).map (s.codeIn t b) ++
    (List.range (if t.scaled then (elems t + 31) / 32 else 0)).map (s.scaleIn t b))

/-- The weighted losses of a network over windows, summed exactly in X128 and rounded once (R278): a weight counts as WEIGHT ÷ 64
(DEDUCED, log entry 89). -/
def lossSum (s : State) (b : Bool) (ws : List TrainWin) : Word :=
  let sum := (ws.map (fun w =>
    (toX128 ((fp32Val (Config.winLoss s.img.measure w.data w.label (s.network b))).mul ({ num := w.weight, den := 64 } : Q).toVal)).1)).foldl
      (· + ·) 0
  rnWord ({ num := sum, den := 2 ^ 64 } : Q).toVal

end State

end Sys2Proof.Machine
end

