-- ==== Sys2Proof/Machine/Trainer.lean ====
section
/-!
DEFINITION. The trainer: windows, selection and parameter flits, the optimiser step, reports (R260 to R278).
-/

namespace Sys2Proof.Machine

namespace State

/-- The block whose rounds the array runs (R209). -/
def arrayBlock (s : State) : Nat := s.ing.first + s.arr.round.toNat / max 1 s.img.k

/-- The index rule of R95: a block after that of the newest sample delivered. -/
def afterNewest (s : State) (b : Nat) : Bool :=
  match s.newestSample with
  | some n => decide (s.blockOf n < b)
  | none => true

/-- A value in the range of a trainer parameter (R275). -/
def paramOk (id : Nat) (v : Word) : Bool :=
  match id with
  | 0 => decide (0 < v.toNat) && decide (v.toNat < 0x7F800000)
  | 1 => decide (v.toNat ≤ 0x7F800000) || decide (v = 0x80000000)
  | 2 => decide (0 < v.toNat) && decide (v.toNat < 0x7F800000)
  | 3 => decide (v.toNat ≤ 1)
  | 4 => true
  | _ => false

/-- The reference block of a window's source position (R262). -/
def winBlocks (s : State) (index : Nat) : List Nat :=
  let lo := s.blockOf (index - s.adapt.dsc 0x14 4)
  let hi := s.blockOf (index + s.adapt.dsc 0x18 4)
  (List.range (hi + 1 - lo)).map (fun i => lo + i)

/-- The trainer forms a report and ejects it at REP_PORT (R278). -/
def formReport (s : State) (kind : Nat) (live shadow : Word) (windows : Nat) : State :=
  let t := s.adapt.trainer
  let f : BitVec 256 := BitVec.ofNat 256 (kind + t.step * 2 ^ 32 + s.arrayBlock % 2 ^ 64 * 2 ^ 64 + live.toNat * 2 ^ 128 +
    shadow.toNat * 2 ^ 160 + windows % 65536 * 2 ^ 192 + t.partial'.toNat * 2 ^ 208)
  { s with adapt := { s.adapt with trainer := { t with partial' := false, reports := t.reports ++ [f] } } }

/-- A report without losses. -/
def plainReport (s : State) (kind : Nat) : State := s.formReport kind 0 0 0

/-- After a flip the variant now bound copies the live network; where it finds a step in progress, the optimiser's state is lost
(R274). -/
def resumeTrainer (s : State) : State :=
  let t := s.adapt.trainer
  if t.copying then
    let s1 := s.copyLive
    let t1 : Trainer := { t with copying := false }
    if t.until'.isSome then
      ({ s1 with adapt := { s1.adapt with trainer := { t1.resetState with until' := none } } } : State).plainReport 4
    else { s1 with adapt := { s1.adapt with trainer := t1 } }
  else s

/-- A finished step frees the minibatch buffer of its B windows, and is reported (R266, R267, R278). -/
def settleStep (s0 : State) : State :=
  let s := s0.resumeTrainer
  let t := s.adapt.trainer
  match t.until' with
  | some u =>
    if u ≤ s.arrayBlock then
      ({ s with adapt := { s.adapt with trainer := { t with until' := none, windows := t.windows.drop (s.adapt.dsc 0x10 2) } } } : State).plainReport 2
    else s
  | none => s

/-- One accepted parameter takes effect at the trainer (R275). -/
def applyParam (t : Trainer) (p : ParamReq) : Trainer :=
  match p.id with
  | 0 => { t with lr := p.value }
  | 1 => { t with wdecay := p.value }
  | 2 => { t with gclip := p.value }
  | 3 => { t with paused := decide (p.value = 1) }
  | _ => t.resetState

/-- The entries of a block's parameter flit: host requests before Legend requests, each in order of arrival (R276). -/
def blockParams (s : State) (b : Nat) : List ParamReq :=
  let ps := SMap.get [] s.adapt.params b
  ps.filter (·.host) ++ ps.filter (fun p => !p.host)

/-- The parameters of the blocks up to `b` take effect, at a trainer between steps (R275); one that a request then pauses reports it
(R278). -/
def applyParams (s : State) (b : Nat) : State :=
  let t := s.adapt.trainer
  if t.until'.isSome then s
  else
    let due := (s.adapt.params.filter (fun e => decide (t.applied ≤ e.1) && decide (e.1 ≤ b))).flatMap (fun e => s.blockParams e.1)
    let t1 := due.foldl applyParam t
    let s1 : State := { s with adapt := { s.adapt with trainer := { t1 with applied := max t.applied (b + 1) },
                                                       params := s.adapt.params.filter (fun e => decide (b ≤ e.1)) } }
    if due.any (fun p => decide (p.id = 3) && decide (p.value = 1)) && t1.paused then s1.plainReport 3 else s1

/-- A window as the trainer copies it: the journal's entries of the blocks that it touches (R260, R266). -/
def copyWindow (s : State) (w : TrainWin) : TrainWin :=
  { w with data := (s.winBlocks w.index).flatMap (fun b => (SMap.get [] s.adapt.jdata b).map Prod.snd) }

/-- Once VAL_PERIOD validation windows are buffered, they run through both networks, and their losses are reported (R278). -/
def validate (s : State) : State :=
  let t := s.adapt.trainer
  if t.vals.length < s.adapt.dsc 0x12 2 then s
  else
    let s1 := s.formReport 1 (s.lossSum (!t.target) t.vals) (s.lossSum t.target t.vals) t.vals.length
    { s1 with adapt := { s1.adapt with trainer := { s1.adapt.trainer with vals := [] } } }

/-- The trainer takes one window of a selection flit (R266); paused, it collects none (R275). -/
def takeWindow (s : State) (w : TrainWin) : State :=
  let a := s.adapt
  let t := a.trainer
  if t.paused then s
  else if (s.winBlocks w.index).any (fun b => decide (SMap.get 0 a.journal b ≠ 0) || decide (b < s.ing.first)) ||
      decide (w.index < a.dsc 0x14 4) then
    { s with adapt := { a with unusable := a.unusable + 1 } }
  else
    let n := t.usable + 1
    let every := a.dsc 0x0F 1
    if every ≠ 0 ∧ n % every = 0 then
      ({ s with adapt := { a with trainer := { t with usable := n, vals := t.vals ++ [s.copyWindow w] } } } : State).validate
    else if 2 * a.dsc 0x10 2 ≤ t.windows.length then
      { s with adapt := { a with trainer := { t with usable := n }, dropped := a.dropped + 1 } }
    else { s with adapt := { a with trainer := { t with usable := n, windows := t.windows ++ [s.copyWindow w] } } }

/-- The classes that the policy names as teachers (R286). -/
def teachers (s : State) : List Nat := (List.range 64).filter (fun c => (s.adapt.pol 8 8).testBit c)

/-- A teacher class has decided for the window of a reference index: its decision watermark has passed the window's end (R246,
R264). -/
def decidedFor (s : State) (c n : Nat) : Bool := s.decidedTo c (s.acqFine s.adaptChannel ((n : Int) + s.adapt.dsc 0x18 4 + 1))

/-- Reference indices of accepted firings of teacher classes. -/
def teacherFirings (s : State) : List (Nat × Nat) := s.adapt.firings.filter (fun f => decide (f.1 ∈ s.teachers))

/-- A window of the list holds the reference index already. -/
def addWindow (ws : List TrainWin) (w : TrainWin) : List TrainWin :=
  if ws.any (fun x => decide (x.index = w.index)) then ws else ws ++ [w]

/-- Windows in ascending order of reference index. -/
def insertWindow (w : TrainWin) : List TrainWin → List TrainWin
  | [] => [w]
  | x :: xs => if w.index < x.index then w :: x :: xs else x :: insertWindow w xs

/-- The windows of a block in order of source, then index, without repeats (R261, R262).  A class that has not decided for a window
contributes nothing to it, and PARTIAL says that a teacher class had not decided for a window that the block may hold (R264). -/
def gatherWindows (s : State) (b : Nat) : List TrainWin × Bool :=
  let p := s.adapt.policy
  let inB (n : Nat) : Bool := decide (s.blockOf n = b)
  let host := if polOn p 4 then s.adapt.labels.filter (fun w => inB w.index) else []
  let teach : List TrainWin :=
    if polOn p 5 then
      (s.teacherFirings.filter (fun f => inB f.2 && s.decidedFor f.1 f.2)).map (fun f =>
        { index := f.2, label := polS16 p 0x10, weight := leAt p 0x14 1, source := 1 })
    else []
  let n0 := b * s.blockLen
  let negative := polOn p 6 && decide (b % max 1 (leAt p 0x16 2) = 0)
  let near := s.teacherFirings.any (fun f =>
    decide (n0 ≤ f.2 + s.adapt.dsc 0x14 4) && decide (f.2 ≤ n0 + s.adapt.dsc 0x18 4) && s.decidedFor f.1 n0)
  let neg : List TrainWin :=
    if negative && !near then [{ index := n0, label := polS16 p 0x12, weight := leAt p 0x15 1, source := 2 }] else []
  let sorted (ws : List TrainWin) : List TrainWin := ws.foldl (fun acc w => insertWindow w acc) []
  let undecided (n : Nat) : Bool := s.teachers.any (fun c => !s.decidedFor c n)
  ((sorted host ++ sorted teach ++ neg).foldl addWindow [],
   (polOn p 5 && undecided (n0 + s.blockLen - 1)) || (negative && undecided n0))

/-- The selection flit (R263). -/
def selectionFlit (s : State) (b : Int) (ws : List TrainWin) (partial' ovr : Bool) : BitVec 256 :=
  let entry (w : TrainWin) : Nat :=
    w.index % s.blockLen + codeOf 16 w.label * 2 ^ 16 + w.weight * 2 ^ 32 + w.source * 2 ^ 40
  BitVec.ofNat 256 (ws.length + partial'.toNat * 4 + ovr.toNat * 8 + codeOf 32 b * 2 ^ 32 +
    (ws.zipIdx.map (fun p => entry p.1 * 2 ^ (64 * p.2 + 64))).foldl (· + ·) 0)

/-- Adaptation runs: a loaded adaptive image in a running context. -/
def adapts (s : State) : Bool := s.adaptive && decide (s.ctx = ctxRunning)

/-- The hub forms and injects the selection flit of block b' − D, once in block b' (R262 to R264). -/
def selectionInject (s : State) : State :=
  let b' := s.arrayBlock
  if !s.adapts || !s.issues || decide (s.adapt.selDone = some b') then s
  else
    let d := s.adapt.dsc 0x0C 2
    let g := if d ≤ b' then s.gatherWindows (b' - d) else ([], false)
    let ws := g.1.take (s.adapt.dsc 0x0E 1)
    let lost := g.1.length - ws.length
    let f := s.selectionFlit ((b' : Int) - d) ws g.2 (decide (0 < lost))
    let s1 := s.hubInject ⟨s.adapt.dsc 0x40 1 % 32, Nat.mod_lt _ (by decide)⟩ 1 { data := f, kind := 0, bad := false, last := false } 0
    let s2 : State := { s1 with adapt := { s1.adapt with
      selDone := some b', overflow := s1.adapt.overflow + lost,
      labels := s1.adapt.labels.filter (fun w => decide (b' < s.blockOf w.index + d)),
      firings := s1.adapt.firings.filter (fun w => decide (b' < s.blockOf (w.2 + s.adapt.dsc 0x14 4 + s.adapt.dsc 0x18 4) + d)) } }
    let s3 := (s2.settleStep).applyParams (b' - 1)
    ws.foldl takeWindow
      { s3 with adapt := { s3.adapt with trainer := { s3.adapt.trainer with partial' := s3.adapt.trainer.partial' || g.2 } } }

/-- The hub injects the parameter flit of the block, once (R263, R275). -/
def parameterInject (s : State) : State :=
  let b' := s.arrayBlock
  if !s.adapts || !s.issues || decide (s.adapt.parDone = some b') then s
  else
    let ps := s.blockParams b'
    let f : BitVec 256 := BitVec.ofNat 256 (ps.length +
      (ps.zipIdx.map (fun p => (p.1.id + p.1.value.toNat * 2 ^ 32) * 2 ^ (64 * p.2 + 64))).foldl (· + ·) 0)
    let s1 := s.hubInject ⟨s.adapt.dsc 0x40 1 % 32, Nat.mod_lt _ (by decide)⟩ 1 { data := f, kind := 0, bad := false, last := false } 0
    (({ s1 with adapt := { s1.adapt with parDone := some b' } } : State).settleStep).applyParams b'

/-- A step begins with the oldest B windows (R267, R271).  `cols` are the columns that its forward and backward passes, which the image
defines, stream through MMA; the whole update is made at the step's begin (log entry 15). -/
def trainStep (s : State) (cols : List GradCol) : State :=
  let b := s.arrayBlock
  let s1 := (s.settleStep).applyParams b
  let t := s1.adapt.trainer
  if !s.adapts || !s.issues || t.paused || t.until'.isSome || decide (t.windows.length < s.adapt.dsc 0x10 2) then
    if s.adapts && s.issues then s1 else s
  else
    let k := s1.adapt.beginStep t
    let r := s1.stepTensors k.2 (t.windows.take (s.adapt.dsc 0x10 2)) cols
    let s2 := s1.takeArr r.st
    { s2 with adapt := { s2.adapt with
        trainer := { k.1 with moments := r.moments, until' := some (b + s.adapt.dsc 0x48 4) }, clipped := s2.adapt.clipped + r.clips } }

end State

/-- SELECTION_FLIT_INJECT (R263). -/
def execSelectionFlitInject (s : State) : Outcome := .next s.selectionInject

/-- PARAMETER_FLIT_INJECT (R275). -/
def execParameterFlitInject (s : State) : Outcome := .next s.parameterInject

/-- TRAINING_STEP_START (R267). -/
def execTrainingStepStart (cols : List GradCol) (s : State) : Outcome := .next (s.trainStep cols)

end Sys2Proof.Machine
end

