-- ==== Sys2Proof/Machine/Ingress.lean ====
section
/-!
DEFINITION. Lanes, Noler frames and JESD204C links (R74 to R91, R370).
-/

namespace Sys2Proof.Machine

/-- One step of the PRBS31 generator, and its output bit (R79). -/
def prbsStep (st : Nat) : Nat :=
  let b := ((st / 2 ^ 30) + (st / 2 ^ 27)) % 2
  st * 2 % 2 ^ 31 + b

/-- `n` bits of the sequence, the first as bit 0. -/
def prbsBits : Nat → Nat → Nat
  | 0, _ => 0
  | n + 1, st => let st' := prbsStep st; st' % 2 + 2 * prbsBits n st'

/-- The scrambler's sequence over bits [1023:32] of a frame (R79). -/
def scrambleMask : BitVec 1024 := BitVec.ofNat 1024 (prbsBits 992 (2 ^ 31 - 1) * 2 ^ 32)

/-- The bits of a received frame after INVERT (ING_LANE_CFG) and the descrambler (R79). -/
def frameBits (wire : BitVec 1024) (invert pam4 : Bool) : BitVec 1024 :=
  let odd : BitVec 1024 := BitVec.ofNat 1024 ((4 ^ 512 - 1) / 3 * 2)
  let x := if invert then (if pam4 then wire ^^^ odd else ~~~wire) else wire
  x ^^^ scrambleMask

/-- The CRC field of a frame (R79): CRC-32 over bits [991:32] in wire order, bit 992 the coefficient of x³¹. -/
def frameCrc (f : BitVec 1024) : Nat :=
  let bits := (List.range 960).map (fun i => f.getLsbD (32 + i))
  revBits 32 ((2 ^ 32 - 1) - crcBits 32 0x04C11DB7 0xFFFFFFFF bits)

/-- The fields of a Noler frame (R77). -/
structure NolerFrame where
  bits : BitVec 1024
  deriving DecidableEq, Repr

namespace NolerFrame
def ver (f : NolerFrame) : Nat := fieldNat f.bits 32 4
def typ (f : NolerFrame) : Nat := fieldNat f.bits 36 4
def sfmt (f : NolerFrame) : Nat := fieldNat f.bits 40 2
def nch (f : NolerFrame) : Nat := fieldNat f.bits 48 8
def ttValid (f : NolerFrame) : Bool := f.bits.getLsbD 72
def ovr (f : NolerFrame) : Bool := f.bits.getLsbD 73
def index (f : NolerFrame) : Nat := fieldNat f.bits 96 64
def timeTag (f : NolerFrame) : Nat := fieldNat f.bits 160 64
/-- P: 63 elements of S12, 48 of S16. -/
def count (f : NolerFrame) : Nat := if f.sfmt = 0 then 63 else 48
/-- Sample indices per frame: P ÷ NCH. -/
def span (f : NolerFrame) : Nat := f.count / f.nch
/-- VER, TYPE, SFMT and NCH are valid (R77, R80). -/
def valid (f : NolerFrame) : Bool :=
  decide (f.ver = 1) && decide (f.typ ≤ 2) && decide (f.sfmt ≤ 1) && decide (f.nch ≠ 0) && decide (f.count % f.nch = 0)
/-- Payload element i, signed. -/
def elem (f : NolerFrame) (i : Nat) : Int :=
  if f.sfmt = 0 then (f.bits.extractLsb' (224 + 12 * i) 12).toInt else (f.bits.extractLsb' (224 + 16 * i) 16).toInt
/-- The payload deciphered under a lane key (R370). -/
def decipher (f : NolerFrame) (key : BitVec 256) (lane : Nat) : NolerFrame :=
  { bits := (List.range 6).foldl (fun x b =>
      let cb : BitVec 128 := BitVec.ofNat 128 (f.index + lane * 2 ^ 64 + b * 2 ^ 70)
      x ^^^ ((aesNum key cb).setWidth 1024 <<< (224 + 128 * b))) f.bits }
end NolerFrame

/-- Is a number a power of two? -/
def isPow2 (n : Nat) : Bool := decide (n ≠ 0) && decide (2 ^ Nat.log2 n = n)

namespace State

/-- Set GAP of a lane. -/
def setGap (s : State) (n : Nat) : State := s.wrB (Reg.ING_LANE_STATUS n) 3 true

/-- A lane enters FAULT (R81, R90, R389). -/
def laneFault (s : State) (n : Nat) : State :=
  (s.wrB (Reg.ING_LANE_STATUS n) 5 true).logMinor 0x0C clsInfo (BitVec.ofNat 64 n)

/-- A CRC failure on a lane (R80, R88). -/
def crcError (s : State) (n : Nat) : State := (s.countF (Reg.ING_LANE_STATUS n) 16 16).wrB (Reg.ING_LANE_STATUS n) 2 true

/-- What the equalizer of a lane has adapted to while the lane held lock (R75): open, so free values. -/
def adaptEq (s : State) (n : Nat) : State :=
  let f := s.free256
  f.2.setLane n { f.2.lane n with eq := bytesOf 14 f.1 }

/-- A lane that is disabled loses LOCK and ALIGNED; FAULT stays (R82). -/
def dropLane (s : State) (n : Nat) : State :=
  if s.laneOn n then s
  else
    let s1 := if s.rdB (Reg.ING_LANE_STATUS n) 0 then s.adaptEq n else s
    (s1.wrB (Reg.ING_LANE_STATUS n) 0 false).wrB (Reg.ING_LANE_STATUS n) 1 false

/-- A started link whose lane is off or has lost its alignment stops delivering (R88). -/
def dropLinks (s : State) : State :=
  (List.range 16).foldl (fun t k =>
    if (t.link k).started && !(t.linkEn k && t.linkOk k && (t.linkLanes k).all (fun n => t.rdB (Reg.ING_LANE_STATUS n) 1)) then
      t.setLink k { t.link k with started := false }
    else t) s

/-- What follows a write of a lane's or a link's configuration. -/
def reconfigure (s : State) : State :=
  ((List.range 64).foldl (fun t n => t.dropLane n) s.setCfgErrs).dropLinks

/-- A write of ING_LANE_CFG (R74, R89): the write that enables the lane again clears FAULT (R82).  A write that would change
MODE during a context is ignored whole, with its other fields (DESIGN CHOICE, log entry 79). -/
def writeLaneCfg (s : State) (m : Master) (n : Nat) (v : Word) : State :=
  let k := Reg.ING_LANE_CFG n
  if s.contextRuns && decide (fieldNat v 29 2 ≠ s.laneMode n) then s.refuse m k
  else
    let s1 := if bit v 31 && !s.rdB k 31 then s.wrB (Reg.ING_LANE_STATUS n) 5 false else s
    (s1.mergeWord k v).reconfigure

/-- A write of ING_JESD_LINK (R85, R90). -/
def writeLinkCfg (s : State) (k : Nat) (v : Word) : State :=
  let off := Reg.ING_JESD_LINK k
  let was := s.linkEn k
  let s1 := s.mergeWord off v
  let odd := s1.linkS k ∈ [3, 5, 6, 7]
  let refused := bit v 0 && s.contextRuns && odd
  let x := s1.link k
  let s2 := s1.setLink k { x with refused := refused, started := x.started && was && bit v 0 }
  s2.reconfigure

/-- The anchor that a frame gives its lane (R91): its tag, or its arrival when it is the first since alignment. -/
def frameAnchor (x : LaneIn) (f : NolerFrame) (stamp : DWord) : LaneIn :=
  if f.ttValid then { x with anchor := some { time := f.timeTag, index := f.index, tagged := true }, fresh := false }
  else if x.fresh then { x with anchor := some { time := stamp.toNat, index := f.index, tagged := false }, fresh := false }
  else x

/-- The samples of an accepted DATA frame go to the channels of their slots (R78, R89). -/
def frameRaw (s : State) (n : Nat) (f : NolerFrame) (stamp : DWord) : List RawSample :=
  (List.range f.count).flatMap (fun i =>
    (s.fedBy n (i % f.nch)).map (fun c =>
      { chan := c, index := f.index + i / f.nch, code := f.elem i, bad := false, ovr := f.ovr, s16 := decide (f.sfmt = 1),
        stamp := stamp.toNat }))

/-- A DATA frame against the expected index E (R81, R82, R90). -/
def dataFrame (s : State) (n : Nat) (f : NolerFrame) (stamp : DWord) : State :=
  let x := s.lane n
  let s0 := s.countIdle (s.blockOf f.index) 1
  if s.rdB (Reg.ING_LANE_STATUS n) 5 then s0
  else if s.contextRuns && !isPow2 f.span then (s0.setGap n).laneFault n
  else
    let e := x.expect.getD f.index
    let take (t : State) : State :=
      (t.deliverRaw (t.frameRaw n f stamp)).setLane n { t.lane n with expect := some (f.index + f.span), synced := true, s16 := decide (f.sfmt = 1) }
    if !x.synced then
      if e < f.index ∧ f.index - e ≤ 2 ^ 20 then take (s0.fillRaw n e (f.index - e)) else take s0
    else if f.index = e then take s0
    else if e < f.index ∧ f.index - e ≤ 2 ^ 20 then take ((s0.fillRaw n e (f.index - e)).setGap n)
    else if e < f.index then (s0.setGap n).laneFault n
    else s0.setGap n

/-- A frame of an ALIGNED lane (R80, R81, R91, R370).  An IDLE frame gives no anchor, even with TT_VALID = 1, and is not the
lane's first frame of R91; a DATA frame that R81 discards for its index still gives one (DESIGN CHOICE, log entry 79). -/
def frame (s : State) (n : Nat) (f : NolerFrame) (stamp : DWord) : State :=
  if fieldNat f.bits 992 32 ≠ frameCrc f.bits then s.crcError n
  else if !f.valid then s.setGap n
  else
    let crypt := s.isProtected && (s.rd64 Reg.SEC_LANE_CRYPT).getLsbD n && !s.rdB (Reg.ING_LANE_CFG n) 28
    let g := if crypt then f.decipher (Config.laneKey s.keyGen) n else f
    if f.typ = 1 then s.countIdle (s.blockOf f.index) 1
    else if f.typ = 2 then (s.setLane n (frameAnchor (s.lane n) f stamp)).countIdle (s.blockOf f.index) 1
    else (s.setLane n (frameAnchor (s.lane n) f stamp)).dataFrame n g stamp

/-- One fill sample of a source that delivers none (R82, R88, R89). -/
def fillTick (s : State) (n : Nat) : State :=
  let x := s.lane n
  let e := x.expect.getD (s.ing.first * s.blockLen)
  let s1 := s.setLane n { x with expect := some (e + 1) }
  if s.flows (s.blockOf e) then (s1.setGap n).fillRaw n e 1 else s1

/-- The equalizer's start values at a lock (R75, R405): zero where the calibration set has none.  What it adapts to from there
is drawn where it can be seen: when the lock ends (`adaptEq`), and when CAL_SAVE reads it. -/
def startEq (s : State) (n : Nat) : State :=
  s.setLane n { s.lane n with eq := (s.cal.inForce 1 n).getD (List.replicate 14 0) }

/-- An alignment is lost (R80, R88). -/
def loseAlign (s : State) (n : Nat) : State :=
  ((s.wrB (Reg.ING_LANE_STATUS n) 1 false).wrB (Reg.ING_LANE_STATUS n) 4 true).dropLinks

/-- A link takes a SYSREF edge (R87, R91). -/
def linkSysref (s : State) (k : Nat) (stamp : DWord) (off : Bool) : State :=
  let x := s.link k
  let n0 := (s.rd64 (Reg.ING_JESD_INDEX k)).toNat
  let first := s.linkFirst k
  if !(s.linkEn k && s.linkOk k) then s
  else if x.started then
    if off then s.countF (Reg.ING_LANE_STATUS first) 8 8
    else s.setLink k { x with anchor := some { time := stamp.toNat, index := x.next, tagged := true } }
  else if (s.linkLanes k).all (fun n => s.laneOn n && decide (s.laneMode n = 0) && s.rdB (Reg.ING_LANE_STATUS n) 1) then
    (s.setLink k { x with started := true, next := n0, anchor := some { time := stamp.toNat, index := n0, tagged := true } }).setLane
      first { s.lane first with expect := some n0, synced := true }
  else s

/-- An edge that the links accept: one starts on it, or it falls on the LEMC boundary of a started one (R87). -/
def sysrefAccepted (s : State) (off : BitVec 16) : Bool :=
  (List.range 16).any (fun k => s.linkEn k && s.linkOk k &&
    (if (s.link k).started then !off.getLsbD k
     else (s.linkLanes k).all (fun n => s.laneOn n && decide (s.laneMode n = 0) && s.rdB (Reg.ING_LANE_STATUS n) 1)))

/-- A sample word of a link (R86). -/
def linkCode (np16 : Bool) (w : BitVec 16) : Int := if np16 then w.toInt else (w.extractLsb' 0 12).toInt

/-- A multiblock of a started link (R86 to R89). -/
def multiblock (s : State) (k : Nat) (words : List (BitVec 16)) (badLanes : BitVec 64) : State :=
  let x := s.link k
  let span := s.linkSpan k
  let first := s.linkFirst k
  let np16 := decide (s.linkNp k = 16)
  let bads := (s.linkLanes k).filter (fun n => badLanes.getLsbD n)
  let s1 := bads.foldl (fun t n => t.crcError n) s
  let raw := (List.range span).flatMap (fun i => (List.range (s.linkM k)).flatMap (fun m =>
    (s.fedBy first m).map (fun c =>
      { chan := c, index := x.next + i, code := linkCode np16 (words.getD (i * s.linkM k + m) 0), bad := !bads.isEmpty,
        ovr := false, s16 := np16, stamp := s.timeline.toNat })))
  let s2 := ((s1.countIdle (s.blockOf x.next) (s.linkE k * 256 / s.linkF k)).deliverRaw raw).setLink k { x with next := x.next + span }
  s2.setLane first { s.lane first with expect := some (x.next + span), s16 := np16 }

end State

/-- ING_LANE_CFG_WRITE (R74). -/
def execIngLaneCfgWrite (m : Master) (lane : Fin 64) (v : Word) (s : State) : Outcome :=
  .next (s.atReg m (Reg.ING_LANE_CFG lane.val) (fun t => t.writeLaneCfg m lane.val v))

/-- LANE_LOCK (R80, R75). -/
def execLaneLock (lane : Fin 64) (locked : Bool) (s : State) : Outcome :=
  .next (
    let n := lane.val
    if !s.laneOn n || s.rdB (Reg.ING_LANE_STATUS n) 0 == locked then s
    else if locked then (s.wrB (Reg.ING_LANE_STATUS n) 0 true).startEq n
    else ((s.adaptEq n).wrB (Reg.ING_LANE_STATUS n) 0 false).loseAlign n)

/-- LANE_ALIGNED (R80). -/
def execLaneAligned (lane : Fin 64) (s : State) : Outcome :=
  .next (
    let n := lane.val
    if s.laneOn n && s.noler n then
      (s.wrB (Reg.ING_LANE_STATUS n) 1 true).setLane n { s.lane n with fresh := true }
    else s)

/-- LANE_ALIGNMENT_LOST (R80). -/
def execLaneAlignmentLost (lane : Fin 64) (s : State) : Outcome :=
  .next (if s.noler lane.val && s.rdB (Reg.ING_LANE_STATUS lane.val) 1 then s.loseAlign lane.val else s)

/-- NOLER_FRAME_RECEIVE (R81): a lane that is not ALIGNED takes none, and 1,024 bits without SYNC are none. -/
def execNolerFrameReceive (lane : Fin 64) (wire : BitVec 1024) (stamp : DWord) (s : State) : Outcome :=
  .next (
    let n := lane.val
    let f : NolerFrame := { bits := frameBits wire (s.rdB (Reg.ING_LANE_CFG n) 27) (decide (s.laneMode n = 2)) }
    if s.laneOn n && s.noler n && s.rdB (Reg.ING_LANE_STATUS n) 1 && fieldNat f.bits 0 32 == 0x5F3A0C96 then s.frame n f stamp
    else s)

/-- FILL_SAMPLE_TICK (R82). -/
def execFillSampleTick (lane : Fin 64) (s : State) : Outcome := .next (if s.delivers lane.val then s else s.fillTick lane.val)

/-- JESD_LINK_CFG_WRITE (R85). -/
def execJesdLinkCfgWrite (m : Master) (link : Fin 16) (v : Word) (s : State) : Outcome :=
  .next (s.atReg m (Reg.ING_JESD_LINK link.val) (fun t => t.writeLinkCfg link.val v))

/-- JESD_MULTIBLOCK_RECEIVE (R88). -/
def execJesdMultiblockReceive (link : Fin 16) (words : List (BitVec 16)) (badLanes : BitVec 64) (s : State) : Outcome :=
  .next (if (s.link link.val).started then s.multiblock link.val words badLanes else s)

/-- JESD_SYNC_LOST (R88). -/
def execJesdSyncLost (lane : Fin 64) (s : State) : Outcome :=
  .next (if !s.noler lane.val && s.rdB (Reg.ING_LANE_STATUS lane.val) 1 then s.loseAlign lane.val else s)

/-- SYNC_HEADER_LOCK (R87). -/
def execSyncHeaderLock (lane : Fin 64) (s : State) : Outcome :=
  .next (if s.laneOn lane.val && decide (s.laneMode lane.val = 0) then s.wrB (Reg.ING_LANE_STATUS lane.val) 1 true else s)

end Sys2Proof.Machine
end

