-- ==== Sys2Proof/Machine/Trigger.lean ====
section
/-!
DEFINITION. Primitive units, contour masks, external inputs and the TDC (R215 to R228).
-/

namespace Sys2Proof.Machine

namespace State

/-- A word of a primitive unit and of a mask. -/
def primRd (s : State) (u off : Nat) : Word := s.rd (Reg.prim u off)
def maskRd (s : State) (k off : Nat) : Word := s.rd (Reg.mask k off)
/-- Thresholds A and B, signed history codes. -/
def primA (s : State) (u : Nat) : Int := ((s.primRd u Reg.TRG_PRIM_THR).extractLsb' 0 16).toInt
def primB (s : State) (u : Nat) : Int := ((s.primRd u Reg.TRG_PRIM_THR).extractLsb' 16 16).toInt
def primKind (s : State) (u : Nat) : Nat := fieldNat (s.primRd u Reg.TRG_PRIM_CFG) 28 3
def primDir (s : State) (u : Nat) : Bool := bit (s.primRd u Reg.TRG_PRIM_CFG) 27
def primChan (s : State) (u : Nat) : Nat := fieldNat (s.primRd u Reg.TRG_PRIM_CFG) 0 12
def primEn (s : State) (u : Nat) : Bool := bit (s.primRd u Reg.TRG_PRIM_CFG) 31 && decide (s.primKind u ≤ 3)
/-- TMIN of TOT and D of SLOPE; TMAX. -/
def primTmin (s : State) (u : Nat) : Nat := fieldNat (s.primRd u Reg.TRG_PRIM_PARAM) 0 16
def primTmax (s : State) (u : Nat) : Nat := fieldNat (s.primRd u Reg.TRG_PRIM_PARAM) 16 16

/-- The active condition of a unit's sample (R216, R218). -/
def primActive (s : State) (u : Nat) (prev : List TSample) (x : TSample) : Bool :=
  let a := s.primA u
  let b := s.primB u
  let dir := s.primDir u
  !x.bad && match s.primKind u with
    | 0 => if dir then decide (x.code ≤ a) else decide (a ≤ x.code)
    | 1 =>
      let d := s.primTmin u
      match prev.find? (fun y => decide (y.index + d = x.index)) with
      | some y => decide (1 ≤ d) && decide (d ≤ 16) && !y.bad &&
          (if dir then decide (x.code - y.code ≤ -a) else decide (a ≤ x.code - y.code))
      | none => false
    | 2 => if dir then decide (a ≤ x.code) && decide (x.code ≤ b) else decide (x.code < a) || decide (b < x.code)
    | _ => decide (a ≤ x.code)

/-- The level whose crossing times a unit's event (R216, R217): none for SLOPE. -/
def primLevel (s : State) (u : Nat) (y x : TSample) : Option Int :=
  match s.primKind u with
  | 1 => none
  | 2 =>
    if s.primDir u then some (if y.code < s.primA u then s.primA u else s.primB u)
    else some (if s.primB u < x.code then s.primB u else s.primA u)
  | _ => some (s.primA u)

/-- The event time at sample x (R216, R217): interpolated between x and its predecessor, but not when the predecessor is
BAD, active, or the first sample the unit has seen. -/
def primTime (s : State) (u : Nat) (p : Prim) (x : TSample) : Int :=
  let c := s.primChan u
  match p.prev with
  | y :: _ :: _ =>
    match (if y.bad || p.active then none else s.primLevel u y x) with
    | some v =>
      let den := x.code - y.code
      s.acqFine c ((x.index : Int) - 1) ((v - y.code) * den.sign) den.natAbs
    | none => s.acqFine c x.index
  | _ => s.acqFine c x.index

/-- Points of a mask (R223): FIRST and COUNT, where they meet the rule. -/
def maskPoints (s : State) (k : Nat) : Option (Nat × Nat) :=
  let w := s.maskRd k Reg.TRG_MASK_POINTS
  let first := fieldNat w 16 14
  let n := fieldNat w 0 13
  if 1 ≤ n ∧ n ≤ 4096 ∧ first + n ≤ 16384 then some (first, n) else none

/-- A mask is enabled. -/
def maskEn (s : State) (k : Nat) : Bool := bit (s.maskRd k Reg.TRG_MASK_CFG) 31
/-- Its anchor unit. -/
def maskAnchor (s : State) (k : Nat) : Nat := fieldNat (s.maskRd k Reg.TRG_MASK_CFG) 16 10
/-- Stop-on-violation has disarmed it. -/
def maskStopped (s : State) (k : Nat) : Bool := bit (s.maskRd k Reg.TRG_MASK_STATUS) 1

/-- A unit that fires at sample n starts an instance of each mask it anchors (R223, R225). -/
def startMasks (s : State) (u n : Nat) (t : Int) : State :=
  ((List.range 64).filter (fun k => s.maskEn k && decide (s.maskAnchor k = u) && (s.maskPoints k).isSome)).foldl (fun st k =>
    let m := st.mask k
    if m.inst.isSome then st.count (Reg.mask k Reg.TRG_MASK_IGNORED)
    else if st.maskStopped k then st
    else st.setMask k { m with inst := some (n, 0, t) }) s

/-- A unit fires (R216, R220, R223). -/
def firePrim (s : State) (u n : Nat) (t : Int) : State :=
  let s1 := (s.setPrim u { s.prim u with disarmed := true, idle := 0 }).count (Reg.prim u Reg.TRG_PRIM_FIRED)
  (s1.startMasks u n t).pushEvent .prim u (s1.plainEvent t)

/-- The samples that re-arm a unit (R220): a holdoff of zero takes one. -/
def primHold (s : State) (u : Nat) : Nat := max 1 (fieldNat (s.primRd u Reg.TRG_PRIM_HOLDOFF) 0 16)

/-- A TOT run that ends at an inactive sample fires (R216, R218, R221). -/
def totFires (s : State) (u : Nat) (p : Prim) (x : TSample) : Bool :=
  decide (s.primKind u = 3) && !x.bad && decide (0 < p.run) && !p.disarmed && decide (s.primTmin u ≤ p.run) &&
    (decide (s.primTmax u = 0) || decide (p.run ≤ s.primTmax u))

/-- A unit evaluates one sample (R216 to R221). -/
def evalPrim (s : State) (u : Nat) (x : TSample) : State :=
  let p := s.prim u
  let act := s.primActive u p.prev x
  let t := s.primTime u p x
  let now := s.acqFine (s.primChan u) x.index
  let tot := decide (s.primKind u = 3)
  let merged := p.disarmed && act && !p.active
  let idle := if act then 0 else p.idle + 1
  let fires := if tot then !act && s.totFires u p x else act && !p.disarmed
  let disarmed := p.disarmed && !(!act && decide (s.primHold u ≤ idle))
  let q : Prim := { p with
    begin' := none, prev := (x :: p.prev).take 16, disarmed := disarmed, idle := idle, active := act,
    since := if act && !p.active then now else p.since, run := if tot && act then p.run + 1 else 0,
    runStart := if tot && act && decide (p.run = 0) then t else p.runStart, watermark := some now }
  let s1 := s.setPrim u q
  let s2 := if merged then s1.count (Reg.prim u Reg.TRG_PRIM_MERGED) else s1
  if fires then
    if tot then (s2.wrF (Reg.prim u Reg.TRG_PRIM_STATUS) 16 16 (min p.run 0xFFFF)).firePrim u x.index p.runStart
    else s2.firePrim u x.index t
  else s2

/-- A unit takes the oldest sample at its input; one enabled during the context passes over earlier blocks (R219). -/
def stepPrim (s : State) (u : Nat) : State :=
  match SMap.get [] s.trg.primQ u with
  | [] => s
  | x :: rest =>
    let s1 : State := { s with trg := { s.trg with primQ := SMap.set [] s.trg.primQ u rest } }
    let early := match (s.prim u).begin' with | some b => decide (s.blockOf x.index < b) | none => false
    if early || !s.primEn u || s.ctx ≠ ctxRunning then s1 else s1.evalPrim u x

/-- A unit is enabled (R219): during a context it begins at the next block. -/
def enablePrim (s : State) (u : Nat) : State :=
  if bit (s.primRd u Reg.TRG_PRIM_CFG) 31 then s
  else
    let s1 := s.wrB (Reg.prim u Reg.TRG_PRIM_CFG) 31 true
    let s2 := s1.setPrim u { Prim.none with begin' := if s.contextRuns then some (s.nextBoundary (s.primChan u)) else none }
    { s2 with trg := { s2.trg with primQ := SMap.erase s2.trg.primQ u } }

/-- The word of a mask's point (R223): LO and HI. -/
def pointLo (s : State) (p : Nat) : Int := ((SMap.get 0 s.trg.points p).extractLsb' 0 16).toInt
def pointHi (s : State) (p : Nat) : Int := ((SMap.get 0 s.trg.points p).extractLsb' 16 16).toInt

/-- An instance meets a sample (R223 to R225). -/
def testPoint (s : State) (k : Nat) (x : TSample) (n i : Nat) (t0 : Int) : State :=
  let m := s.mask k
  let now := s.acqFine (fieldNat (s.maskRd k Reg.TRG_MASK_CFG) 0 12) x.index
  let pass := s.maskPass k
  let done := s.setMask k { m with inst := none, watermark := some now }
  match s.maskPoints k with
  | none => done
  | some (first, cnt) =>
    if x.bad then done.count (Reg.mask k Reg.TRG_MASK_ABORT)
    else if x.code < s.pointLo (first + i) ∨ s.pointHi (first + i) < x.code then
      let s1 := done.count (Reg.mask k Reg.TRG_MASK_VIOL)
      let s2 := if bit (s.maskRd k Reg.TRG_MASK_CFG) 29 then s1.wrB (Reg.mask k Reg.TRG_MASK_STATUS) 1 true else s1
      if pass then s2 else s2.pushEvent .mask k (s2.plainEvent now)
    else if i + 1 = cnt then
      if pass then (done.count (Reg.mask k Reg.TRG_MASK_PASS)).pushEvent .mask k (done.plainEvent t0) else done
    else s.setMask k { inst := some (n, i + 1, t0), watermark := some now }

/-- The anchor unit has not yet evaluated the sample that the mask would take (R223). -/
def anchorBehind (s : State) (k : Nat) (x : TSample) : Bool :=
  let a := s.maskAnchor k
  s.primEn a && match (s.prim a).prev with
    | y :: _ => decide (y.index < x.index)
    | [] => true

/-- A mask takes the oldest sample at its input; one before the instance, or without one, is passed over. -/
def stepMask (s : State) (k : Nat) : State :=
  match SMap.get [] s.trg.maskQ k with
  | [] => s
  | x :: rest =>
    let s1 : State := { s with trg := { s.trg with maskQ := SMap.set [] s.trg.maskQ k rest } }
    let pass := s1.setMask k { s.mask k with watermark := some (s.acqFine (fieldNat (s.maskRd k Reg.TRG_MASK_CFG) 0 12) x.index) }
    if !s.maskEn k || s.ctx ≠ ctxRunning then s1
    else match (s.mask k).inst with
      | some (n, i, t0) => if x.index < n + i then pass else s1.testPoint k x n i t0
      | none => if s.anchorBehind k x then s else pass

/-- A word of an input's configuration. -/
def inCfg (s : State) (n : Nat) : Word := s.rd (Reg.TRG_IN_CFG n)

/-- CAL_VALID (TRG_STATUS): every TDC line in service has calibrated widths. -/
def calValid (s : State) : Bool := (List.range 16).all (fun n => decide (2 * n + (s.extIn n).line.toNat ∈ s.trg.calib))

/-- The tap widths of a delay line. -/
def tapWidths (s : State) (line : Nat) : List Nat := SMap.get [] s.trg.widths line

/-- TCLK's period as a fraction of fine units (R227). -/
def tclk (s : State) : Q := { num := (s.rd64 Reg.TRG_TDC_PERIOD).toNat, den := 2 ^ s.rdF Reg.TRG_TDC_CFG 0 2 * 2 ^ 32 }

/-- The tap that stands for a code (R227): one of zero width gives way to the highest tap of nonzero width. -/
def tapOf (ws : List Nat) (n : Nat) : Nat :=
  if ws.getD n 0 ≠ 0 then n
  else (((List.range 1024).filter (fun i => ws.getD i 0 ≠ 0)).getLast?).getD n

/-- The TDC's event time (R227), and whether a code was replaced. -/
def tdcTime (s : State) (n : Nat) (x : TdcCapture) : Int × Bool :=
  let ws := s.tapWidths (2 * n + (s.extIn n).line.toNat)
  let m := tapOf ws x.code
  let c : Q := { num := 2 * ((ws.take m).foldl (· + ·) 0 : Nat) + (ws.getD m 0 : Nat), den := 4 }
  let p := s.tclk
  ((((Q.ofInt (256 * (s.rd64 Reg.TRG_TDC_ANCHOR).toNat)).add ((Q.ofInt x.k).mul p)).add c.neg).rn, decide (m ≠ x.code))

/-- The TDC times this input's edges (R226, R228). -/
def tdcServes (s : State) (n : Nat) : Bool :=
  bit (s.inCfg n) 29 && s.rdB Reg.TRG_TDC_CFG 31 && s.rdB Reg.TRG_STATUS 1 && s.calValid && s.trg.anchored

/-- An input fires (R226 to R228): it reaches the combiner after ALIGN. -/
def fireInput (s : State) (n : Nat) (stamp : DWord) (tdc : Option TdcCapture) : State :=
  let s1 := (s.setExtIn n { s.extIn n with disarmed := true }).count (Reg.TRG_IN_FIRED n)
  let align := fieldNat (s.inCfg n) 16 8
  let r : (Int × Bool) × Bool :=
    match (if s.tdcServes n then tdc else none) with
    | some x => (s.tdcTime n x, false)
    | none => ((256 * (stamp.toNat : Int), false), true)
  let s2 := if r.1.2 then s1.count Reg.TRG_TDC_RANGE else s1
  s2.pushEvent .input n { slot := 0, time := r.1.1, cycle := s.lineCycle + align, payload := none, bad := false, coarse := r.2 }

/-- Whether an input detects a level that lasts so many timeline units (R226): never below 0.8 ns, always from 1.2 ns
(51.2 and 76.8 units), and between them the detection is open. -/
def detects (s : State) (lasts : Nat) : Bool × State :=
  if 10 * lasts < 512 then (false, s)
  else if 768 ≤ 10 * lasts then (true, s)
  else (s.free.1.getLsbD 0, s.free.2)

/-- A detected edge of an input (R220, R221, R226). -/
def takeEdge (s : State) (n : Nat) (lvl : Bool) (stamp : DWord) (tdc : Option TdcCapture) : State :=
  let x := s.extIn n
  let s1 := s.setExtIn n { x with level := lvl, since := stamp.toNat }
  if !lvl || !bit (s.inCfg n) 31 then s1
  else if x.disarmed && decide (tlSub stamp.toNat x.since < 64 * fieldNat (s.inCfg n) 0 16) then s1.count (Reg.TRG_IN_MERGED n)
  else s1.fireInput n stamp tdc

/-- An edge at an input's pins (R226), whose new level lasts `lasts` timeline units: a pulse or a gap that is too short
changes nothing. -/
def inputEdge (s : State) (n : Nat) (pin : Bool) (stamp : DWord) (tdc : Option TdcCapture) (lasts : Nat) : State :=
  let lvl := pin != bit (s.inCfg n) 30
  if lvl = (s.extIn n).level then s
  else
    let d := s.detects lasts
    if d.1 then d.2.takeEdge n lvl stamp tdc else d.2

/-- A source re-arms (R220). -/
def rearm (s : State) : TrigSrc → State
  | .prim u =>
    let p := s.prim u.val
    if p.disarmed && !p.active && decide (s.primHold u.val ≤ p.idle) then s.setPrim u.val { p with disarmed := false } else s
  | .input n =>
    let x := s.extIn n.val
    if x.disarmed && !x.level && decide ((64 * fieldNat (s.inCfg n.val) 0 16 : Int) ≤ tlSub s.timeline.toNat x.since) then
      s.setExtIn n.val { x with disarmed := false }
    else s

/-- A source sets STUCK (R222): units measure the span in acquisition time, inputs in timeline time. -/
def stuck (s : State) : TrigSrc → State
  | .prim u =>
    let p := s.prim u.val
    let span : Int := (s.rd Reg.TRG_STUCK_TIME).toNat * finePerNs
    if p.active && (match p.watermark with | some w => fineLe (p.since + span) w | none => false) then
      (s.wrB (Reg.prim u.val Reg.TRG_PRIM_STATUS) 2 true).wrB Reg.TRG_STATUS 3 true
    else s
  | .input n =>
    let x := s.extIn n.val
    if x.level && decide ((64 * (s.rd Reg.TRG_STUCK_TIME).toNat : Int) ≤ tlSub s.timeline.toNat x.since) then
      (s.wrB (Reg.TRG_IN_STATUS n.val) 2 true).wrB Reg.TRG_STATUS (16 + n.val) true
    else s

/-- Widths that a line starts from (R405, R407): the calibration set's, or equal widths that span one TCLK period. -/
def startWidths (s : State) (line : Nat) : List Nat :=
  match s.cal.inForce 3 line with
  | some bs => (List.range 1024).map (fun i => leAt bs (2 * i) 2)
  | none =>
    let p := s.tclk
    List.replicate 1024 (rnDiv (2 * p.num) (1024 * p.den)).toNat

/-- The TDC starts (R226, R405). -/
def startTdc (s : State) (t0 : DWord) : State :=
  let lines := List.range 32
  let s1 : State := { s with trg := { s.trg with
    widths := lines.foldl (fun m l => SMap.set [] m l (s.startWidths l)) s.trg.widths,
    calib := lines.filter (fun l => (s.cal.inForce 3 l).isSome), anchored := !s.rdB Reg.TRG_TDC_CFG 30 } }
  if s.rdB Reg.TRG_TDC_CFG 30 then s1 else s1.wr64 Reg.TRG_TDC_ANCHOR t0

/-- A write of TRG_TDC_CFG: changes take effect only while EN is 0 (R329). -/
def writeTdcCfg (s : State) (m : Master) (v : Word) (t0 : DWord) : State :=
  if s.rdB Reg.TRG_TDC_CFG 31 then (if bit v 31 then s.refuse m Reg.TRG_TDC_CFG else s.mergeWord Reg.TRG_TDC_CFG v)
  else
    let s1 := s.mergeWord Reg.TRG_TDC_CFG v
    if bit v 31 then s1.startTdc t0 else s1

/-- The stamp of the anchor edge of a register write (R226, R292): Meridian's stamp of the first SAMPLE_CLK edge after EN
lies within one SAMPLE_CLK period from now, and where in it is open. -/
def anchorStamp (s : State) : DWord × State :=
  let period := (s.rd64 Reg.TRG_TDC_PERIOD).toNat / 2 ^ 40
  (s.timeline + BitVec.ofNat 64 (s.free.1.toNat % (period + 1)), s.free.2)

/-- The idle delay line of an input. -/
def idleLine (s : State) (n : Nat) : Nat := 2 * n + (!(s.extIn n).line).toNat

/-- Calibration of a line from a histogram (R228). -/
def calibrate (s : State) (line : Nat) (counts : List Nat) : State :=
  let total := counts.foldl (· + ·) 0
  let p := s.tclk
  if total = 0 then s
  else
    { s with trg := { s.trg with
        widths := SMap.set [] s.trg.widths line ((List.range 1024).map (fun i =>
          (rnDiv (2 * p.num * (counts.getD i 0 : Nat)) (p.den * total)).toNat)),
        calib := if line ∈ s.trg.calib then s.trg.calib else line :: s.trg.calib } }

end State

/-- PRIMITIVE_SAMPLE (R216). -/
def execPrimitiveSample (u : Fin 1024) (s : State) : Outcome := .next (s.stepPrim u.val)

/-- PRIMITIVE_ENABLE (R219). -/
def execPrimitiveEnable (u : Fin 1024) (s : State) : Outcome := .next (s.enablePrim u.val)

/-- HOLDOFF_EXPIRY (R220). -/
def execHoldoffExpiry (src : TrigSrc) (s : State) : Outcome := .next (s.rearm src)

/-- STUCK_DETECT (R222). -/
def execStuckDetect (src : TrigSrc) (s : State) : Outcome := .next (s.stuck src)

/-- MASK_POINT_TEST (R224). -/
def execMaskPointTest (k : Fin 64) (s : State) : Outcome := .next (s.stepMask k.val)

/-- A write of TRG_MASK_STATUS (R225). -/
def State.writeMaskStatus (s : State) (v : Word) : State :=
  if bit v 1 then s.wrB (Reg.mask (s.rdF Reg.TRG_MASK_SEL 0 6) Reg.TRG_MASK_STATUS) 1 false else s

/-- MASK_REARM (R225): a write of TRG_MASK_STATUS of the mask that TRG_MASK_SEL names. -/
def execMaskRearm (m : Master) (v : Word) (s : State) : Outcome :=
  .next (s.atReg m Reg.TRG_MASK_STATUS (fun t => t.writeMaskStatus v))

/-- EXTERNAL_INPUT_EDGE (R226). -/
def execExternalInputEdge (n : Fin 16) (level : PinLevel) (stamp : DWord) (tdc : Option TdcCapture) (s : State) : Outcome :=
  .next (s.inputEdge n.val level.high stamp tdc level.lasts)

/-- TDC_ENABLE (R226). -/
def execTdcEnable (m : Master) (v : Word) (t0 : DWord) (s : State) : Outcome :=
  .next (s.atReg m Reg.TRG_TDC_CFG (fun t => t.writeTdcCfg m v t0))

/-- TDC_LINE_CALIBRATE (R228). -/
def execTdcLineCalibrate (n : Fin 16) (counts : List Nat) (s : State) : Outcome := .next (s.calibrate (s.idleLine n.val) counts)

/-- TDC_LINE_SWAP (R228): an uncalibrated line never serves in its turn. -/
def execTdcLineSwap (n : Fin 16) (s : State) : Outcome :=
  .next (
    if s.idleLine n.val ∈ s.trg.calib then s.setExtIn n.val { s.extIn n.val with line := !(s.extIn n.val).line } else s)

/-- TDC_LOCK (R228). -/
def execTdcLock (locked : Bool) (s : State) : Outcome := .next (s.wrB Reg.TRG_STATUS 1 locked)

/-- SYSREF_EDGE (R87, R226): the TDC takes its anchor from the first edge that the links accept. -/
def execSysrefEdge (stamp : DWord) (off : BitVec 16) (s : State) : Outcome :=
  let s1 :=
    if s.rdB Reg.TRG_TDC_CFG 31 && !s.trg.anchored && s.sysrefAccepted off then
      ({ s with trg := { s.trg with anchored := true } } : State).wr64 Reg.TRG_TDC_ANCHOR stamp
    else s
  .next ((List.range 16).foldl (fun t k => t.linkSysref k stamp (off.getLsbD k)) s1)

end Sys2Proof.Machine
end

