-- ==== Sys2Proof/Machine/Adapt.lean ====
section
/-!
DEFINITION. The Legend controller's policies and the commands LABEL, TRAIN_PARAM and POLICY (R275 to R288, R338).
-/

namespace Sys2Proof.Machine

/-- Does a policy block keep every stated range (R286, R287)? -/
def policyOk (p : List Byte) : Bool :=
  let f (off n : Nat) : Nat := leAt p off n
  let margin := f 0x1C 4
  decide (f 0 4 = 0x594C4F50) && decide (f 4 2 = 1) && decide (f 6 2 < 256) && decide (1 ≤ f 0x14 1) &&
  decide (1 ≤ f 0x15 1) && decide (1 ≤ f 0x16 2) && (decide (margin < 0x3F800000) || decide (margin = 0x80000000)) &&
  decide (1 ≤ f 0x24 4) && decide (1 ≤ f 0x2C 4) && decide (1 ≤ polS16 p 0x34) && decide (f 0x36 2 ≤ 999) &&
  decide (polS16 p 0x38 ≤ polS16 p 0x3A) && decide (1 ≤ f 0x3C 4) && decide (f 0x48 56 = 0)

/-- A symmetric or asymmetric record of a channel from its range: FMT, SCALE, ZP, OFFSET, CLIP_LO, CLIP_HI (R66, R67). -/
def deriveRecord (w0 : Word) (lo hi : Int) : List Word :=
  let f : Fmt := field w0 0 4
  let fmt : Word := w0 &&& 0x2F
  let fp (x : Int) : Word := BitVec.ofNat 32 (convert Fmt.fp32 .rn (Q.ofInt x).toVal).1
  let scale (x : Q) : Word := let c := (convert Fmt.fp32 .rn x.toVal).1; BitVec.ofNat 32 (max 1 c)
  if lo = hi then
    [fmt ||| 0x10, 0x3F800000, if f = Fmt.u8 then 128 else 0, fp lo, fp lo, fp lo]
  else if f.isInt && (f = Fmt.u8 || bit w0 5) then
    let s := scale { num := hi - lo, den := (f.qmax - f.qmin).toNat }
    let z := min (max (f.qmin - ((Q.ofInt lo).div (fp32Val s).toQ).rn) f.qmin) f.qmax
    [fmt, s, BitVec.ofInt 32 z, 0, fp lo, fp hi]
  else
    let a := max lo.natAbs hi.natAbs
    let s := if f.isInt then scale { num := (a : Int), den := f.qmax.toNat }
             else scale ((Q.ofInt a).div (fmtValue f f.maxCode).toQ)
    [fmt, s, 0, 0, fp lo, fp hi]

namespace State

/-- Put a request for a block, or refuse it with the number of the rule (R275, R276). -/
def requestParam (s : State) (host : Bool) (b id : Nat) (v : Word) : State × Option Nat :=
  let ps := SMap.get [] s.adapt.params b
  if !paramOk id v then (s, some 275)
  else if !s.afterNewest b || decide (3 ≤ ps.length) then (s, some 276)
  else ({ s with adapt := { s.adapt with params := SMap.set [] s.adapt.params b (ps ++ [{ host := host, id := id, value := v }]) } }, none)

/-- The Legend controller requests PAUSE for a block; answers whether the request is accepted. -/
def requestPause (s : State) (b : Nat) (on : Bool) : State × Bool :=
  let r := s.requestParam false b 3 (if on then 1 else 0)
  (r.1, r.2.isNone)

/-- PAUSE for the earliest block that takes it (R280, R283). -/
def pauseSoon (s : State) (on : Bool) : State :=
  let b0 := s.freshBlock
  match (List.range 4096).find? (fun i => decide ((SMap.get [] s.adapt.params (b0 + i)).length < 3)) with
  | some i => (s.requestPause (b0 + i) on).1
  | none => s

/-- The adaptation status record (R288); in a protected context its losses are sealed (R372). -/
def statusBytes (s : State) : List Byte :=
  let a := s.adapt
  let cap (n : Nat) : Nat := min n 0xFFFFFFFF
  let losses := s.sealLosses a.written (leBytes 4 a.liveLoss.toNat ++ leBytes 4 a.shLoss.toNat)
  withCrc 0x3C (zeroPad 64 (leBytes 2 0x5341 ++
    leBytes 2 (a.trainer.paused.toNat + 2 * (polOn a.policy 7).toNat + 4 * a.lost.toNat + 8 * a.partial'.toNat +
      16 * (decide (0 < a.miss)).toNat) ++
    leBytes 4 a.repStep.toNat ++ leBytes 8 a.block ++ leBytes 4 (cap a.swaps) ++ leBytes 4 (cap a.unusable) ++
    leBytes 4 (cap a.dropped) ++ leBytes 4 (cap a.overflow) ++ leBytes 4 (cap a.late) ++ leBytes 4 (cap a.clipped) ++
    leBytes 4 (cap a.miss) ++ losses ++ leBytes 8 a.lastSwap))

/-- The status record is written after every report and action (R288). -/
def writeStatus (s : State) : State :=
  let s1 := s.emit (.hostWrite s.adapt.status s.statusBytes)
  { s1 with adapt := { s1.adapt with written := s1.adapt.written + 1 } }

/-- An action of a policy for a block: a miss is counted (R284), and the status record written. -/
def acted (s : State) (b : Nat) (ok : Bool) : State :=
  let s1 := if ok then s else s.policyMiss
  ({ s1 with adapt := { s1.adapt with block := b } } : State).writeStatus

/-- SWAP_LEAD of a policy block. -/
def leadOf (p : List Byte) : Nat := leAt p 0x24 4

/-- The swap is abandoned (R280). -/
def abandonSwap (s : State) : State :=
  let s1 := (s.pauseSoon false).policyMiss
  ({ s1 with adapt := { s1.adapt with swapping := false } } : State).writeStatus

/-- A validation report starts a swap where all of R279 holds. -/
def startSwap (s : State) (live shadow : Word) (windows block : Nat) : State :=
  let p := s.adapt.policy
  let margin : Val := ((Q.ofInt 1).toVal).add (fp32Val (BitVec.ofNat 32 (leAt p 0x1C 4))).neg
  let bound := rnWord ((fp32Val live).mul margin)
  if polOn p 1 && !s.adapt.swapping && fLe shadow bound && decide (leAt p 0x20 4 ≤ windows) &&
      decide (leAt p 0x18 4 ≤ s.adapt.steps) && (decide (leAt p 0x28 4 = 0) || decide (s.adapt.swaps < leAt p 0x28 4)) then
    let r := s.requestPause (block + leadOf p) true
    if r.2 then ({ r.1 with adapt := { r.1.adapt with swapping := true } } : State).acted (block + leadOf p) true else r.1.abandonSwap
  else s

/-- The paused report of a swap: the flip, the staged thresholds, the resume (R279).  A rejected arming changes no flip that is
armed (R140, R280). -/
def carrySwap (s : State) (block : Nat) : State :=
  let f := block + leadOf s.adapt.policy
  let n : DWord := BitVec.ofNat 64 (s.img.k * (f - s.ing.first))
  let sel : Word := BitVec.ofNat 32 (s.adapt.dsc 7 1)
  let r := s.armFlipAt n sel
  if !r.2 then r.1.abandonSwap
  else
    let s1 := ((r.1.wr Reg.ARY_FLIP_CFG sel).wr64 Reg.ARY_FLIP n)
    let s2 :=
      if s1.adapt.staged then
        let t := s1.armThr f
        let t1 : State := { t.1 with adapt := { t.1.adapt with staged := false } }
        if t.2 then t1 else t1.policyMiss
      else s1
    let q := s2.requestPause f false
    let done : State := { q.1 with adapt := { q.1.adapt with swapAt := some f } }
    if q.2 then ({ done with adapt := { done.adapt with swapping := false } } : State).acted f true else done.abandonSwap

/-- The Legend controller takes a trainer report (R278 to R280, R288). -/
def takeReport (s : State) (flit : BitVec 256) : State :=
  let kind := fieldNat flit 0 4
  let block := fieldNat flit 64 64
  let a := s.adapt
  let s1 := ({ s with adapt := { a with
    repStep := field flit 32 32, block := block, lost := a.lost || decide (kind = 4),
    partial' := a.partial' || flit.getLsbD 208, steps := if kind = 2 then a.steps + 1 else a.steps,
    liveLoss := if kind = 1 then field flit 128 32 else a.liveLoss,
    shLoss := if kind = 1 then field flit 160 32 else a.shLoss } } : State).writeStatus
  if kind = 1 then s1.startSwap (field flit 128 32) (field flit 160 32) (fieldNat flit 192 16) block
  else if kind = 3 ∧ s1.adapt.swapping then s1.carrySwap block
  else s1

/-- A report at host queue 0x3FFE (R278): one that prickings ejected, or the oldest that the trainer of the state has formed. -/
def receiveReport (s : State) (flit : Option (BitVec 256)) : State :=
  match flit, s.adapt.trainer.reports with
  | some f, _ => s.takeReport f
  | none, f :: rest =>
    ({ s with adapt := { s.adapt with trainer := { s.adapt.trainer with reports := rest } } } : State).takeReport f
  | none, [] => s

/-- The next threshold interval begins under the policy in force (R286). -/
def nextThr (s : State) (b : Nat) : State :=
  { s with adapt := { s.adapt with thr := if polOn s.adapt.policy 2 then some (s.adapt.policy, b) else none } }

/-- The threshold interval that runs, once the stream's watermark has passed it (R281). -/
def thresholdInterval (s : State) : State :=
  match s.adapt.thr with
  | none => s
  | some (p, b) =>
    let n := leAt p 0x2C 4
    let v := s.adapt.dsc 8 2 % 256
    if !s.adapts || decide ((s.stream v).markIdx < (b + n) * s.blockLen) then s
    else
      let c : Nat := ((List.range n).map (fun i => SMap.get 0 s.trg.asserts (v * 2 ^ 48 + b + i))).foldl (· + ·) 0
      let target := leAt p 0x30 4
      let tol := leAt p 0x36 2
      let thr := ((s.rd (Reg.TRG_VS_ACT v)).extractLsb' 0 16).toInt
      let step := polS16 p 0x34
      let new := if target * (1000 + tol) < 1000 * c then thr + step
                 else if 1000 * c < target * (1000 - tol) then thr - step else thr
      let kept := max (polS16 p 0x38) (min (polS16 p 0x3A) new)
      let at' := b + n - 1 + leadOf p
      let s1 : State := { s with trg := { s.trg with asserts := s.trg.asserts.filter (fun e => decide (e.1 / 2 ^ 48 ≠ v) || decide (v * 2 ^ 48 + b + n ≤ e.1)) } }
      if !s1.rdB Reg.TRG_THR_STATUS 2 || s.boot.legendDown then (s1.nextThr (b + n)).acted at' false
      else
        let s2 := s1.wr (Reg.TRG_VS_THR v) (BitVec.ofNat 32 (codeOf 16 kept))
        let r := s2.armThr at'
        let s3 : State := { r.1 with adapt := { r.1.adapt with staged := !r.2 } }
        (s3.nextThr (b + n)).acted at' r.2

/-- The next range span begins under the policy in force: `mid` says that the statistics interval which runs began
before it (R282, R286). -/
def nextRange (s : State) (mid : Bool) : State :=
  { s with adapt := { s.adapt with rng := if polOn s.adapt.policy 3 then some (s.adapt.policy, s.ing.statFrom) else none },
           ing := { s.ing with ranges := [], rangeN := 0, rangeSkip := mid } }

/-- The staging record of a channel: derived from its range, or its active record (R282). -/
def stageRange (s : State) (act chan : Nat) : State :=
  let w := s.recWord act chan
  let old := (List.range 12).map w
  let a := SMap.get StatAcc.none s.ing.ranges chan
  let new := if a.good = 0 then old else deriveRecord (w 0) a.min a.max ++ old.drop 6
  new.zipIdx.foldl (fun (t : State) p => t.setRec (1 - act) chan p.2 p.1) s

/-- The range span that runs, once its statistics intervals have closed (R282). -/
def rangeInterval (s : State) : State :=
  match s.adapt.rng with
  | none => s
  | some (p, _) =>
    let n := leAt p 0x3C 4
    if !s.adapts || decide (s.ing.rangeN < n) then s
    else
      let last := s.ing.statFrom - 1 - (s.ing.rangeN - n) * s.rdF Reg.ING_STAT_CFG 0 16
      let at' := last + leadOf p
      if !s.rdB Reg.ING_REC_STATUS 2 || s.boot.legendDown then (s.nextRange false).acted at' false
      else
        let act := s.rdF Reg.ING_REC_STATUS 0 1
        let s1 := (s.channels.map Prod.fst).foldl (fun t c => t.stageRange act c) s
        let same := (s.channels.map Prod.fst).all (fun c => (List.range 12).all (fun w => decide (s1.recWord 0 c w = s1.recWord 1 c w)))
        if same then s1.nextRange false
        else
          let r := s1.armRec at'
          (r.1.nextRange false).acted at' r.2

/-- A training-period boundary (R283); actions due while the Legend controller restarts are misses (R401). -/
def periodBoundary (s : State) : State :=
  let p := s.adapt.policy
  match s.adapt.period with
  | some (b, on) =>
    if !s.adapts || !polOn p 0 || decide (leAt p 0x44 4 = 0) then s
    else
      let r := if s.boot.legendDown then (s, false) else s.requestPause b (!on)
      let s1 : State := { r.1 with adapt := { r.1.adapt with period := some (b + (if on then leAt p 0x40 4 else leAt p 0x44 4), !on) } }
      s1.acted b r.2
  | none => s

/-- The first boundary of the training periods after the newest block, counted from the context's first block: its block,
and whether training is on from it. -/
def firstBoundary (s : State) (on off : Nat) : Nat × Bool :=
  let b := s.freshBlock - s.ing.first
  let r := b % (on + off)
  if r = 0 then (s.ing.first + b, true)
  else if r ≤ on then (s.ing.first + b - r + on, false) else (s.ing.first + b - r + on + off, true)

/-- The policy block in force starts to act (R283, R286). -/
def startPolicy (s : State) : State :=
  let p := s.adapt.policy
  let on := leAt p 0x40 4
  let off := leAt p 0x44 4
  let x := s.firstBoundary on off
  let pause := if !polOn p 0 then true else if off = 0 then false else x.2
  let t := s.pauseSoon pause
  let s1 := ({ t with adapt := { t.adapt with period := if polOn p 0 ∧ off ≠ 0 then some x else none } } : State).acted s.freshBlock true
  let s2 := if s1.adapt.thr.isNone then s1.nextThr s1.freshBlock else s1
  if s2.adapt.rng.isNone then s2.nextRange (match s2.newestSample with | some n => decide (s2.ing.statFrom * s2.blockLen ≤ n) | none => false)
  else s2

/-- Every policy stops with the context (R287). -/
def stopPolicies (s : State) : State :=
  { s with adapt := { s.adapt with policy := [], thr := none, rng := none, period := none, swapping := false } }

/-- An adaptation command: it needs a loaded adaptive image (R256, R332). -/
def needsAdapt (s : State) (r : Nat) (f : State) : State :=
  s.needsContext r (if s.adaptive ∧ (s.ctx = ctxLoaded ∨ s.ctx = ctxRunning) then f else s.completeState r)

/-- One label record (R265, R338): accepted, late or out of range. -/
def takeLabel (s : State) (w : List Byte) : State × Bool :=
  let idx := leAt w 0 8
  let b := s.blockOf idx
  if leAt w 10 1 = 0 || leAt w 11 5 ≠ 0 then (s, false)
  else if s.afterNewest (b + s.adapt.dsc 0x0C 2) then
    ({ s with adapt := { s.adapt with labels := s.adapt.labels ++
        [{ index := idx, label := signedCode 16 (leAt w 8 2), weight := leAt w 10 1, source := 0 }] } }, true)
  else ({ s with adapt := { s.adapt with late := s.adapt.late + 1 } }, false)

end State

/-- TRAINER_REPORT_RECEIVE (R279). -/
def execTrainerReportReceive (flit : Option (BitVec 256)) (s : State) : Outcome := .next (if s.adapts then s.receiveReport flit else s)

/-- THRESHOLD_POLICY_INTERVAL (R281). -/
def execThresholdPolicyInterval (s : State) : Outcome := .next s.thresholdInterval

/-- RANGE_POLICY_INTERVAL (R282). -/
def execRangePolicyInterval (s : State) : Outcome := .next s.rangeInterval

/-- TRAIN_PERIOD_BOUNDARY (R283). -/
def execTrainPeriodBoundary (s : State) : Outcome := .next s.periodBoundary

/-- LABEL (R265, R338). -/
def execLabel (r : Fin 16) (records : List Byte) (dma : Option (Fin 3)) (s : State) : Outcome :=
  .next (s.onRing r 0x07 0 (fun e =>
    if e.len0.toNat % 16 ≠ 0 then s.completeBad r.val 0x10
    else s.needsAdapt r.val (
      match dma with
      | some d => s.completeDma r.val d
      | none =>
        let n := e.len0.toNat / 16
        let x := (List.range (min n (records.length / 16))).foldl (fun (a : State × Nat) i =>
          let q := a.1.takeLabel ((records.drop (16 * i)).take 16)
          (q.1, a.2 + q.2.toNat)) (s, 0)
        x.1.complete r.val stOk (BitVec.ofNat 64 x.2) (BitVec.ofNat 64 (n - x.2)))))

/-- TRAIN_PARAM (R275, R276): PARAM bytes 9 to 11 and 16 on are unused. -/
def execTrainParam (r : Fin 16) (s : State) : Outcome :=
  .next (s.onRing r 0x08 16 (fun e =>
    match e.firstNonzero 0x31 0x34 with
    | some i => s.completeBad r.val i
    | none => s.needsAdapt r.val (
        let q := s.requestParam true (e.param 0 8) (e.param 8 1) (BitVec.ofNat 32 (e.param 12 4))
        match q.2 with
        | none => q.1.complete r.val stOk
        | some rule => s.completeRefused r.val rule)))

/-- POLICY (R286, R287). -/
def execPolicy (r : Fin 16) (block : List Byte) (dma : Option (Fin 3)) (s : State) : Outcome :=
  .next (s.onRing r 0x09 8 (fun e =>
    s.needsAdapt r.val (
      match dma with
      | some d => s.completeDma r.val d
      | none =>
        if polOn s.adapt.policy 7 then s.completeRefused r.val 286
        else if !policyOk block then s.completeRefused r.val 287
        else
          let s1 : State := { s with adapt := { s.adapt with policy := block.take 128, status := BitVec.ofNat 64 (e.param 0 8) } }
          (s1.startPolicy).complete r.val stOk)))

end Sys2Proof.Machine
end

