-- ==== Sys2Proof/Machine/Atomics.lean ====
section
/-!
DEFINITION. HATOM at the hub (R177, R342).
-/

namespace Sys2Proof.Machine

namespace State

/-- The column's oldest atomic that the host has not completed, once its commit lag is over (R204, R342). -/
def nextAtomic (s : State) (col : Fin 32) : Option Atomic :=
  match s.arr.atomics.find? (fun a => decide (a.col = col) && a.result.isNone) with
  | some a => if a.wait = 0 then some a else none
  | none => none

/-- Cycles from an atomic at the hub port to its return flit: the image states the return's cycle (R177), no section gives it a
place, so it is a free function of the image and the column; the commit lag and the hold's lead always fit. -/
def atomicDelay (s : State) (col : Fin 32) : Nat := 16 + Config.hatomDelay s.img.measure col.val

/-- The old value goes up the column as a DATA flit (R177): the hub port counts as hop 0. -/
def returnAtomic (s : State) (col : Fin 32) (old : Word) : State :=
  { s with arr := { s.arr with beats := s.arr.beats ++
      [Beat.ofFlit ⟨col.val, by omega⟩ .s 1 { data := old.setWidth 256, kind := 0, bad := false, last := false }] } }

/-- What the CXL hold waits for has come (R177, R340): a host queue's flit, or an atomic's old value. -/
def needMet (s : State) (x : Nat × Nat) : Bool :=
  if x.1 < 0x4000 then
    match s.hostq.find? (fun e => decide (e.1 = x.1)) with
    | some e => decide (x.2 < e.2.next + e.2.held.length)
    | none => true
  else
    !s.arr.atomics.any (fun a => decide (0x4000 + a.col.val = x.1) && decide (a.taken = x.2) && a.result.isNone)

/-- The hub raises the CXL hold for something that will not be there, once for each. -/
def needCxl (s : State) (x : Nat × Nat) : State :=
  let s1 := s.requestHold 4 .cxl false
  { s1 with hold := { s1.hold with needs := if x ∈ s1.hold.needs then s1.hold.needs else s1.hold.needs ++ [x] } }

/-- The CXL hold clears once everything it waits for has come. -/
def cxlMet (s : State) : State := if s.hold.needs.all s.needMet then s.clearHold 4 .cxl else s

/-- One cycle of the atomics: a return that is due goes up its column; what has been returned 8 cycles ago cannot be cancelled
any more and is forgotten. -/
def atomicsCycle (s : State) : State :=
  let as := s.arr.atomics.map (fun a => { a with wait := a.wait - 1, age := a.age + 1 })
  let s1 : State := { s with arr := { s.arr with
    atomics := as.filter (fun a => a.result.isNone || decide (a.age < s.atomicDelay a.col + 8)) } }
  as.foldl (fun t a =>
    match a.result with
    | some x => if a.age = s.atomicDelay a.col then t.returnAtomic a.col x else t
    | none => t) s1

/-- An atomic whose return is due in `n` cycles and that the host has not completed. -/
def lateAtomic (s : State) (n : Nat) : Option Atomic :=
  s.arr.atomics.find? (fun a => a.result.isNone && decide (s.atomicDelay a.col ≤ a.age + n))

/-- The word that an atomic leaves: AOP 0 ADD, 1 SWAP, 2 CAS (R177); none where nothing is written. -/
def atomicNew (flit : BitVec 256) (old : Word) : Option Word :=
  match fieldNat flit 128 2 with
  | 0 => some (old + field flit 64 32)
  | 1 => some (field flit 64 32)
  | 2 => if old = field flit 64 32 then some (field flit 96 32) else none
  | _ => none

/-- The host has completed an atomic: its old value waits for the cycle in which the return is due (R177). -/
def setAtomic (s : State) (a : Atomic) (old : Word) : State :=
  { s with arr := { s.arr with atomics := s.arr.atomics.map (fun b => if b = a then { b with result := some old } else b) } }

/-- One atomic is carried out (R342). -/
def runAtomic (s : State) (a : Atomic) (old : Option Word) : State :=
  match old with
  | none => ((s.count Reg.HQ_HATOM_ERR).setAtomic a 0xFFFF_FFFF).cxlMet
  | some x =>
    let addr : DWord := (field a.flit 0 64) &&& ~~~3#64
    match atomicNew a.flit x with
    | some y => ((s.emit (.hostWrite addr (bytesOf 4 y))).setAtomic a x).cxlMet
    | none => (s.setAtomic a x).cxlMet

end State

/-- HATOM_EXECUTE (R342). -/
def execHatomExecute (col : Fin 32) (old : Option Word) (s : State) : Outcome :=
  .next (
    match s.nextAtomic col with
    | some a => s.runAtomic a old
    | none => s)

end Sys2Proof.Machine
end

