-- ==== Sys2Proof/Machine/Debug.lean ====
section
/-!
DEFINITION. Debug reads of picot storage (R145, R379) and field repair (R141, R144).
-/

namespace Sys2Proof.Machine

namespace State

/-- The write of PCT_PEEK_ADDR: a debug read is asked for. -/
def startPeek (s : State) (p : Fin 1024) (v : Word) : State :=
  let s1 := (s.mergeWord (Reg.PCT_PEEK_ADDR p) v).wrF (Reg.PCT_PEEK_STATUS p) 0 2 0
  { s1 with peeks := if p ∈ s1.peeks then s1.peeks else s1.peeks ++ [p] }

/-- PCT_PEEK_DATA and DONE. -/
def finishPeek (s : State) (p : Fin 1024) (masked : Bool) (v : BitVec 256) : State :=
  let s1 := (List.range 8).foldl (fun t i => t.wr (Reg.PCT_PEEK_DATA p i) (v.extractLsb' (32 * i) 32)) s
  s1.wrF (Reg.PCT_PEEK_STATUS p) 0 2 (1 + 2 * masked.toNat)

/-- The debug read of the word that PCT_PEEK_ADDR names. -/
def runPeek (s : State) (p : Fin 1024) : State :=
  let a := s.rd (Reg.PCT_PEEK_ADDR p)
  let w := fieldNat a 0 17
  if s.isProtected then (s.count Reg.SEC_MASKED).finishPeek p true (BitVec.ofNat 256
    (0x4D534B44_4D534B44_4D534B44_4D534B44_4D534B44_4D534B44_4D534B44_4D534B44))
  else
    match fieldNat a 30 2 with
    | 0 =>
      if w < 98304 then
        let c := s.sramCheck p [w]
        if c.2 then c.1.finishPeek p false (s.sramRead p w) else c.1.finishPeek p false 0
      else s.finishPeek p false 0
    | 1 =>
      if w < 16384 then let f := s.free256; f.2.finishPeek p false f.1 else s.finishPeek p false 0
    | 2 =>
      if w / 2048 < 8 ∧ w % 2048 < 1077 then s.finishPeek p false (s.slotFlit p (w / 2048) (w % 2048))
      else s.finishPeek p false 0
    | _ => s.finishPeek p false 0

/-- The row of a repair list that an ARY_REPAIR_CMD names. -/
def repairRow (v : Word) : Nat := 16 * fieldNat v 12 2 + fieldNat v 8 4

/-- The write of ARY_REPAIR_CMD (R144): GO burns the row's fuses where its spare is unused. -/
def burnRepair (s : State) (m : Master) (v : Word) : State :=
  if s.privileged m then
    let s1 := (s.mergeWord Reg.ARY_REPAIR_CMD v).wrB Reg.ARY_REPAIR_CMD 31 false
    let row := repairRow v
    if bit v 31 then
      if 16 ≤ fieldNat v 0 5 then s1.refuse m Reg.ARY_REPAIR_CMD
      else if fieldNat (SMap.get 0x1F s.fuse.repair row) 0 5 ≠ 0x1F then s1.wrB Reg.ARY_REPAIR_STATUS 1 true
      else
        let s2 : State := { s1 with fuse := { s1.fuse with
          repair := SMap.set 0x1F s1.fuse.repair row (BitVec.ofNat 8 (0x80 + fieldNat v 0 5)) } }
        s2.wrB Reg.ARY_REPAIR_STATUS 0 true
    else s1
  else s.violation kPriv m Reg.ARY_REPAIR_CMD

/-- The physical picot of pillow row `r` that is powered off (R141). -/
def unpowered (s : State) (r : Nat) : Nat :=
  let f := fieldNat (SMap.get 0x1F s.repair r) 0 5
  if f = 0x1F then 16 else f

/-- The physical picot that holds logical position q of a pillow row (R141). -/
def physical (s : State) (r q : Nat) : Nat :=
  let f := fieldNat (SMap.get 0x1F s.repair r) 0 5
  if q < f then q else q + 1

/-- The results of self-test (R144, ARY_BIST_STATUS): `failed` names pillow × 272 + row × 17 + p; the picot that a row
leaves powered off is not tested. -/
def bistResult (s : State) (failed : List Nat) : State :=
  let f := failed.filter (fun i => decide (i < 1088) && decide (i % 17 ≠ s.unpowered (i / 17)))
  let n := min f.length 65535
  match f.foldl (fun b i => match b with | none => some i | some x => some (min x i)) (none : Option Nat) with
  | none => (s.wr Reg.ARY_BIST_STATUS 0).wrB Reg.ARY_STATUS 7 false
  | some i =>
    let row := i / 17
    (s.wr Reg.ARY_BIST_STATUS (BitVec.ofNat 32 (n * 2 ^ 16 + 2 ^ 15 + row / 16 * 2 ^ 12 + row % 16 * 2 ^ 8 + i % 17))).wrB
      Reg.ARY_STATUS 7 true

end State

/-- PEEK_START (R145): a write of PCT_PEEK_ADDR. -/
def execPeekStart (m : Master) (p : Fin 1024) (v : Word) (s : State) : Outcome :=
  .next (s.atReg m (Reg.PCT_PEEK_ADDR p) (fun t => t.startPeek p v))

/-- PEEK_COMPLETE (R145): a free fill-port cycle serves the debug read that waits. -/
def execPeekComplete (p : Fin 1024) (s : State) : Outcome :=
  .next (if p ∈ s.peeks then ({ s with peeks := s.peeks.erase p } : State).runPeek p else s)

/-- REPAIR_BURN (R144): a write of ARY_REPAIR_CMD. -/
def execRepairBurn (m : Master) (v : Word) (s : State) : Outcome :=
  .next (if s.privileged m then s.atReg m Reg.ARY_REPAIR_CMD (fun t => t.burnRepair m v) else s.burnRepair m v)

end Sys2Proof.Machine
end

