-- ==== Sys2Proof/Machine/Health.lean ====
section
/-!
DEFINITION. Errors from outside, the calibration store, ageing monitors, error injection (R389 to R396, R399, R405 to
R412).
-/

namespace Sys2Proof.Machine

/-! The calibration store (R405 to R409). -/

/-- LENGTH of a record TYPE; none for an unknown TYPE. -/
def calLen (typ : Nat) : Option Nat :=
  match typ with
  | 1 => some 16
  | 2 => some 12
  | 3 => some 2048
  | 4 => some 12
  | 0x10 => some 64
  | _ => none

/-- KEYs of a TYPE of the calibration set. -/
def calKeys (typ : Nat) : Nat :=
  match typ with
  | 1 => 64
  | 2 => 4096
  | 3 => 32
  | 4 => 2
  | _ => 0

/-- Bytes of a record up to the next one. -/
def CalRec.size (r : CalRec) : Nat := padTo 16 (20 + r.payload.length)

/-- The bytes of a record in journal format; the gap after it stays erased. -/
def CalRec.bytes (r : CalRec) : List Byte :=
  let b := leBytes 2 0x4352 ++ [BitVec.ofNat 8 r.typ, if r.factory then 1 else 0] ++ leBytes 4 r.seq ++ leBytes 4 r.key ++
    leBytes 4 r.payload.length ++ r.payload
  let c := b ++ leBytes 4 (crc32 b)
  c ++ List.replicate (r.size - c.length) 0xFF

/-- Used bytes of a bank. -/
def CalBank.used (b : CalBank) : Nat := 256 + (b.recs.map CalRec.size).foldl (· + ·) 0

/-- The last record of every KEY of every TYPE, by TYPE and KEY. -/
def lastRecs (rs : List CalRec) : List CalRec :=
  (rs.foldl (fun (m : SMap CalRec) r => SMap.insert m (r.typ * 2 ^ 32 + r.key) r) []).map Prod.snd

/-- The records in force, in SEQ order. -/
def inForceRecs (rs : List CalRec) : List CalRec := rs.filter (fun r => decide (r ∈ lastRecs rs))

/-- The bank in use. -/
def CalStore.bank (c : CalStore) : CalBank := if c.inUse = some true then c.bank1 else c.bank0

/-- Put the bank in use. -/
def CalStore.setBank (c : CalStore) (b : CalBank) : CalStore :=
  if c.inUse = some true then { c with bank1 := b } else { c with bank0 := b }

/-- A bank with nothing in it. -/
def CalBank.erased : CalBank := { valid := false, gen := 0, recs := [], torn := false }

/-- Compaction (R408): the records in force move to the other bank under GENERATION + 1. -/
def CalStore.compact (c : CalStore) : CalStore :=
  let n : CalBank := { valid := true, gen := c.bank.gen + 1, recs := inForceRecs c.bank.recs, torn := false }
  if c.inUse = some true then { c with bank0 := n, bank1 := CalBank.erased, inUse := some false }
  else { c with bank1 := n, bank0 := CalBank.erased, inUse := some true }

/-- Append a record (R406, R408).  An empty store first gets bank 0 with GENERATION 1. -/
def CalStore.append (c : CalStore) (typ key : Nat) (payload : List Byte) : CalStore :=
  let c0 : CalStore := if c.inUse.isNone then { c with bank0 := { CalBank.erased with valid := true, gen := 1 }, inUse := some false } else c
  let r : CalRec := { seq := c0.seq, typ := typ, key := key, factory := false, payload := payload }
  let c1 := if c0.bank.torn || decide (786432 < c0.bank.used + r.size) then c0.compact else c0
  { c1.setBank { c1.bank with recs := c1.bank.recs ++ [r] } with seq := c1.seq + 1 }

/-- The bank that COLD reset selects: a valid header, the higher GENERATION (R407). -/
def CalStore.select (c : CalStore) : CalStore :=
  { c with inUse :=
      if c.bank0.valid && (!c.bank1.valid || decide (c.bank1.gen ≤ c.bank0.gen)) then some false
      else if c.bank1.valid then some true else Option.none }

/-- One record of a CAL_WRITE buffer at an offset (R412): TYPE, KEY, payload and size, or the offset of its first bad field (R334). -/
def calRecAt (bs : List Byte) (off : Nat) : Except Nat (Nat × Nat × List Byte × Nat) :=
  let typ := leAt bs (off + 2) 1
  let key := leAt bs (off + 8) 4
  let len := leAt bs (off + 12) 4
  if leAt bs off 2 ≠ 0x4352 then .error off
  else if typ < 1 ∨ 4 < typ then .error (off + 2)
  else if calKeys typ ≤ key then .error (off + 8)
  else if calLen typ ≠ some len ∨ bs.length < off + 20 + len then .error (off + 12)
  else .ok (typ, key, (bs.drop (off + 16)).take len, padTo 16 (20 + len))

/-- The records of a CAL_WRITE buffer, or the offset of the first bad field. -/
def calRecs (bs : List Byte) : Nat → Nat → List (Nat × Nat × List Byte) → Except Nat (List (Nat × Nat × List Byte))
  | 0, _, acc => .ok acc
  | fuel + 1, off, acc =>
    if bs.length ≤ off then .ok acc
    else match calRecAt bs off with
      | .ok (t, k, p, n) => calRecs bs fuel (off + n) (acc ++ [(t, k, p)])
      | .error e => .error e

/-! Ageing monitors (R410, R411). -/

/-- The code of an FP64 value n × 2^−k, rounded to nearest, ties to even. -/
def fp64Code (n : Int) (k : Nat) : Nat :=
  let a := n.natAbs
  if a = 0 then 0
  else
    let l := Nat.log2 a
    let m := if l ≤ 52 then a * 2 ^ (52 - l) else (rnDiv a (2 ^ (l - 52))).toNat
    let e := if m = 2 ^ 53 then l + 1 else l
    let f := if m = 2 ^ 53 then 2 ^ 52 else m
    (if n < 0 then 2 ^ 63 else 0) + (e + 1023 - k) * 2 ^ 52 + (f - 2 ^ 52)

/-- A HEALTH record's payload. -/
def Monitor.payload (m : Monitor) : List Byte :=
  leBytes 8 (fp64Code m.base 32) ++ leBytes 8 (fp64Code m.n 0) ++ leBytes 8 (fp64Code m.st 0) ++ leBytes 8 (fp64Code m.stt 0) ++
  leBytes 8 (fp64Code m.sy 32) ++ leBytes 8 (fp64Code m.sty 32) ++ leBytes 8 (fp64Code m.syy 64) ++ leBytes 8 (fp64Code m.last 32)

/-- A day's sample: the first one is the baseline, whose own y is 0 for the kinds that compare with it. -/
def Monitor.sample (m : Monitor) (kind : Nat) (v : Int) : Monitor :=
  let t := m.n
  let y := if m.n = 0 ∧ kind ≤ 1 then 0 else v
  { n := t + 1, st := m.st + t, stt := m.stt + t * t, sy := m.sy + y, sty := m.sty + t * y, syy := m.syy + y * y,
    base := if m.n = 0 then v else m.base, last := y }

/-- The wear limit Y in units of 2^−32. -/
def Monitor.limit (m : Monitor) (kind : Nat) : Int :=
  match kind with
  | 0 => 5 * 2 ^ 32
  | 1 => m.base - 12 * 2 ^ 32
  | 2 => 1000 * 2 ^ 32
  | 3 => 1000 * 2 ^ 32
  | _ => 100000 * 2 ^ 32

/-- Whole months of 30.4375 days left for the slope b + c × s_b with c in thousandths (R411): the slope is p ÷ q, its root
taken to 32 fraction bits. -/
def Monitor.months (m : Monitor) (kind : Nat) (c : Int) : Nat :=
  let n : Int := m.n
  let d : Int := n * m.stt - (m.st : Int) * m.st
  let nn : Int := n * m.sty - (m.st : Int) * m.sy
  let v : Int := n * m.syy - m.sy * m.sy
  let root : Int := isqrt (((v * d - nn * nn) * 2 ^ 64 / (n - 2)).toNat)
  let p : Int := 1000 * 2 ^ 32 * nn + c * root
  let q : Int := 1000 * 2 ^ 32 * d
  if p ≤ 0 then 255
  else
    let num := (m.st - n * (n - 1)) * p + (m.limit kind * n - m.sy) * q
    (max 0 (min 254 (16 * num / (487 * n * p)))).toNat

/-- HLT_MON_EOL. -/
def Monitor.eol (m : Monitor) (kind : Nat) : Word :=
  if m.n < 14 then 0
  else BitVec.ofNat 32 (2 ^ 31 + m.months kind 0 * 2 ^ 16 + m.months kind 1645 * 2 ^ 8 + m.months kind (-1645))

/-- EOL_LO where it is valid. -/
def Monitor.lo (m : Monitor) (kind : Nat) : Option Nat := if m.n < 14 then Option.none else some (m.months kind 1645)

/-- A value in units of 2^−32 as FP32. -/
def fp32Of (x : Int) : Word := BitVec.ofNat 32 (convert Fmt.fp32 .rn (Q.toVal { num := x, den := 2 ^ 32 })).1

namespace State

/-- HLT_CAL_STATUS and HLT_CAL_GEN follow the store (R407). -/
def calStatus (s : State) : State :=
  let rs := (lastRecs s.cal.journal).filter (fun r => decide (r.typ ≤ 4))
  let w := s.wrF Reg.HLT_CAL_STATUS 0 21 (if s.cal.inUse.isNone then 0 else s.cal.bank.used)
  let w1 := (w.wrB Reg.HLT_CAL_STATUS 31 s.cal.inUse.isNone).wrB Reg.HLT_CAL_STATUS 28 (rs.all CalRec.factory)
  w1.wr Reg.HLT_CAL_GEN (BitVec.ofNat 32 (if s.cal.inUse.isNone then 0 else s.cal.bank.gen))

/-- Append records to the journal. -/
def appendCal (s : State) (rs : List (Nat × Nat × List Byte)) : State :=
  (({ s with cal := rs.foldl (fun c x => c.append x.1 x.2.1 x.2.2) s.cal }) : State).calStatus

/-- The LANE and TDC values in use: lanes that have trained, lines that have widths. -/
def calInUse (s : State) : List (Nat × Nat × List Byte) :=
  (List.range 64).filterMap (fun n => if (s.lane n).eq = [] then none else some (1, n, ((s.lane n).eq ++ List.replicate 16 0).take 16)) ++
  (List.range 32).filterMap (fun l =>
    let w := SMap.get [] s.trg.widths l
    if w = [] then none else some (3, l, (w ++ List.replicate 1024 0).take 1024 |>.flatMap (fun x => leBytes 2 x)))

/-- The equalizers of the lanes that hold lock show what they have adapted to (R75). -/
def adaptEqs (s : State) : State :=
  (List.range 64).foldl (fun t n => if s.rdB (Reg.ING_LANE_STATUS n) 0 then t.adaptEq n else t) s

/-- A calibration or error command that needs function 1 with privilege (R412). -/
def needsPriv (s : State) (r : Nat) (m : Master) (rule : Nat) (f : State) : State :=
  if m = .f1 && s.privileged m then f else s.completeRefused r rule

/-- The lowest valid EOL_LO of all monitors with its kind and index. -/
def worstEol (s : State) : Option (Nat × Nat) :=
  s.health.foldl (fun b e => match e.2.lo (e.1 / 65536) with
    | some l => (match b with
      | some x => if l < x.1 then some (l, e.1) else some x
      | none => some (l, e.1))
    | none => b) none

/-- HLT_EOL_MIN follows the monitors. -/
def eolStatus (s : State) : State :=
  match s.worstEol with
  | some (l, k) => s.wrF Reg.HLT_EOL_MIN 0 24 (l * 2 ^ 16 + (k / 65536) * 2 ^ 13 + k % 8192)
  | none => s

/-- A daily sample of a monitor (R410, R411): the record is appended, and EOL_WARN is set where EOL_LO falls below WARN. -/
def ageing (s : State) (kind index : Nat) (v : Int) : State :=
  let k := kind * 65536 + index
  let old := SMap.get Monitor.none s.health k
  let new := old.sample kind v
  let s1 := (({ s with health := SMap.set Monitor.none s.health k new } : State).appendCal [(0x10, k, new.payload)]).eolStatus
  let warn := s.rdF Reg.HLT_EOL_MIN 24 8
  let below (x : Option Nat) : Bool := match x with | some l => decide (l < warn) | none => false
  if below (new.lo kind) && !below (old.lo kind) then (s1.wrB Reg.HLT_STATUS 3 true).irq 1 else s1

/-- The first SYMBOLS data symbols of a stored codeword are XORed with 1 (R412). -/
def inject (s : State) (target symbols loc : Nat) : State :=
  if target = 0 then
    let p := loc % 1024
    let a := loc / 2 ^ 13 % 2 ^ 17
    let x := s.picot p
    s.setPicot p { x with sramErr := SMap.set 0 x.sramErr a (SMap.get 0 x.sramErr a ^^^ (if symbols = 2 then 0x11 else 0x1)) }
  else
    let l := loc % 2 ^ 44 / 256
    let j := loc / 2 ^ 44 % 4
    s.putLine l { s.line l with err := (s.line l).err ^^^ ((if symbols = 2 then 0x11 else 0x1) <<< (512 * j)) }

/-- Does a LOCATION name a codeword of a target (R391)? -/
def injectable (s : State) (target loc : Nat) : Bool :=
  let l := loc % 2 ^ 44 / 256
  match target with
  | 0 => decide (loc / 2 ^ 10 % 8 = 0) && decide (loc / 2 ^ 13 % 2 ^ 17 < 98304)
  | 1 => isHbm l && s.backed (256 * l)
  | _ => !isHbm l && s.backed (256 * l)

/-- The CXL link goes down (R389, R390): UNCORRECTABLE during a context, INFO at other times. -/
def linkDown (s : State) : State :=
  let t : State := { s with boot := { s.boot with linkUp := false } }
  if s.contextRuns then t.uncorrectable 0x0A 0 else t.logMinor 0x0A clsInfo 0

end State

/-- UNCORRECTABLE_ERROR (R396): a source that R391 assigns. -/
def execUncorrectableError (src : Byte) (loc : DWord) (s : State) : Outcome :=
  .next (if 1 ≤ src.toNat ∧ src.toNat ≤ 0x10 then s.uncorrectable src loc else s)

/-- FATAL_ERROR (R399): a source that R391 assigns. -/
def execFatalError (src : Byte) (loc : DWord) (s : State) : Outcome :=
  .next (if 1 ≤ src.toNat ∧ src.toNat ≤ 0x10 then s.fatal src loc else s)

/-- ERR_LOG_POP (R392): ERR_LOG_CTL is written; POP reads 0. -/
def execErrLogPop (m : Master) (v : Word) (s : State) : Outcome :=
  .next (s.atReg m Reg.ERR_LOG_CTL (fun t => if bit v 0 then t.popLog else t))

/-- CXL_LINK_DOWN (R389). -/
def execCxlLinkDown (s : State) : Outcome := .next s.linkDown

/-- CARTOUCHE_WATCHDOG_EXPIRY (R401). -/
def execCartoucheWatchdogExpiry (s : State) : Outcome := .next (s.fatal 0x10 0x1F)

/-- AGEING_SAMPLE (R410, R411). -/
def execAgeingSample (kind : Fin 5) (index : BitVec 16) (y : Int) (s : State) : Outcome := .next (s.ageing kind.val index.toNat y)

/-- CAL_READ (R412). -/
def execCalRead (r : Fin 16) (dma : Option (Fin 3)) (s : State) : Outcome :=
  .next (s.onRing r 0x60 0 (fun e =>
    let rs := (lastRecs s.cal.journal).filter (fun x => decide (x.typ ≤ 4))
    let bs := rs.flatMap CalRec.bytes
    if e.len0.toNat < bs.length then s.completeBad r.val 0x10
    else match dma with
      | some d => s.completeDma r.val d
      | none => (s.emit (.hostWrite e.addr0 bs)).complete r.val stOk (BitVec.ofNat 64 bs.length) (BitVec.ofNat 64 rs.length)))

/-- CAL_WRITE (R412): accepted in NONE alone. -/
def execCalWrite (r : Fin 16) (m : Master) (records : List Byte) (dma : Option (Fin 3)) (s : State) : Outcome :=
  .next (s.onRing r 0x61 4 (fun e =>
    if e.param 0 4 ≠ 0x57524C43 then s.completeBad r.val 0x28
    else s.needsPriv r.val m 412 (
      if s.ctx ≠ ctxNone then s.completeState r.val
      else match dma with
        | some d => s.completeDma r.val d
        | none =>
          match calRecs (records.take e.len0.toNat) (records.length + 1) 0 [] with
          | .error off => s.completeBad r.val off
          | .ok rs => (s.appendCal rs).complete r.val stOk (BitVec.ofNat 64 rs.length))))

/-- CAL_SAVE (R412): accepted in NONE alone. -/
def execCalSave (r : Fin 16) (m : Master) (s : State) : Outcome :=
  .next (s.onRing r 0x62 0 (fun _ => s.needsPriv r.val m 412 (
    if s.ctx ≠ ctxNone then s.completeState r.val
    else
      let t := s.adaptEqs
      (t.appendCal t.calInUse).complete r.val stOk (BitVec.ofNat 64 t.calInUse.length))))

/-- ERR_INJECT (R412). -/
def execErrInject (r : Fin 16) (m : Master) (s : State) : Outcome :=
  .next (s.onRing r 0x63 16 (fun e =>
    if 2 < e.param 0 1 then s.completeBad r.val 0x28
    else if e.param 1 1 ≠ 1 ∧ e.param 1 1 ≠ 2 then s.completeBad r.val 0x29
    else match e.firstNonzero 0x2A 0x30 with
      | some i => s.completeBad r.val i
      | none =>
        if !s.injectable (e.param 0 1) (e.param 8 8) then s.completeBad r.val 0x30
        else s.needsPriv r.val m 412 ((s.inject (e.param 0 1) (e.param 1 1) (e.param 8 8)).complete r.val stOk)))

end Sys2Proof.Machine
end

