-- ==== Sys2Proof/Machine/Bundles.lean ====
section
/-!
DEFINITION. What the loader checks of bundles (R155 to R182, R445): reserved bits, field values, operands, the constants
they name, unused outputs, and spacing.
-/

namespace Sys2Proof.Machine

/-- A pricking as a fill carries it (R192): where it goes, MODE and its body. -/
structure FillRec where
  pic     : Nat
  slot    : Nat
  logical : Nat
  mode    : Nat
  body    : List Byte
  deriving DecidableEq, Repr

namespace FillRec
/-- A little-endian field of the body. -/
def nat (f : FillRec) (off n : Nat) : Nat := leAt f.body off n
/-- NBUNDLES. -/
def bundles (f : FillRec) : Nat := f.nat 0 2
/-- Capacities, ownership masks and steering configurations (R192). -/
def tqCap (f : FillRec) (q : Nat) : Nat := f.nat (4 + q) 1
def dqCap (f : FillRec) (q : Nat) : Nat := f.nat (32 + 2 * q) 2
def dqMask (f : FillRec) : Nat := f.nat 12 2
def tqMask (f : FillRec) : Nat := ((List.range 8).map (fun q => if f.tqCap q = 0 then 0 else 2 ^ q)).foldl (· + ·) 0
def lcMask (f : FillRec) : Nat := f.nat 14 1
def vrMask (f : FillRec) : Nat := f.nat 16 4
def accMask (f : FillRec) : Nat := f.nat 20 1 % 16
def unitMask (f : FillRec) : Nat := f.nat 20 1 / 16
def unitCfg (f : FillRec) (u : Nat) : Nat := f.nat (64 + 8 * u) 8
/-- A link-slot entry, a memory-lane entry, a constant word, a bundle (R192). -/
def linkSlot (f : FillRec) (c : Nat) : Nat := f.nat (96 + 8 * c) 8
def laneEntry (f : FillRec) (c : Nat) : Nat := f.nat (608 + c) 1
def const (f : FillRec) (c : Nat) : Nat := f.nat (672 + 4 * c) 4
def bundle (f : FillRec) (i : Nat) : BitVec 128 := BitVec.ofNat 128 (f.nat (1696 + 16 * i) 16)
end FillRec

/-- A slot's word with its opcode taken off: field access, and whether every bit outside the named fields is zero. -/
structure SlotWord where
  op : Nat
  w  : Nat
  deriving DecidableEq, Repr

/-- The M, L and C slots of a bundle (R155, R156). -/
def mSlot (b : BitVec 128) : SlotWord := { op := fieldNat b 58 6, w := fieldNat b 8 50 }
def lSlot (b : BitVec 128) : SlotWord := { op := fieldNat b 98 6, w := fieldNat b 64 34 }
def cSlot (b : BitVec 128) : SlotWord := { op := fieldNat b 123 5, w := fieldNat b 104 19 }

namespace SlotWord
/-- Bits [lo + n − 1 : lo]. -/
def f (s : SlotWord) (lo n : Nat) : Nat := s.w / 2 ^ lo % 2 ^ n
/-- Every bit outside these fields is zero (R156, R157). -/
def only (s : SlotWord) (fs : List (Nat × Nat)) : Bool :=
  (List.range 50).all (fun i => !s.w.testBit i || fs.any (fun p => decide (p.1 ≤ i) && decide (i < p.1 + p.2)))
end SlotWord

/-- The fields of layout MV by name. -/
abbrev mvFmt : Nat × Nat := (46, 4)
abbrev mvRnd : Nat × Nat := (44, 2)
abbrev mvVd : Nat × Nat := (39, 5)
abbrev mvVa : Nat × Nat := (34, 5)
abbrev mvVb : Nat × Nat := (29, 5)
abbrev mvVc : Nat × Nat := (24, 5)
abbrev mvCk : Nat × Nat := (16, 8)
abbrev mvGi : Nat × Nat := (12, 4)
abbrev mvSub : Nat × Nat := (8, 4)

/-- The formats of integer and bitwise vector work (chapter 05), of the MAC array (R105), of scaled blocks (R44, R167). -/
def intFmt (f : Nat) : Bool := decide (f ∈ [1, 2, 4, 5])
def macFmt (f : Nat) : Bool := decide (f ∈ [0, 1, 2, 6, 7, 8, 9, 10, 11])
def blockFmt (f : Nat) : Bool := decide (f ∈ [1, 6, 7, 8, 9])

/-- A rounding choice (R156, R170): SR needs an even GI and three constant words. -/
def rndOk (rnd gi ck : Nat) : Bool := decide (rnd = 0) || (decide (rnd = 1) && decide (gi % 2 = 0) && decide (ck + 2 ≤ 255))

/-- The layer descriptor of an ACCQ (R160, R161). -/
def layerOk (ck : Nat → Nat) (c seg : Nat) : Bool :=
  let w := ck (c + 6)
  let f : Fmt := BitVec.ofNat 4 w
  decide (c + 7 ≤ 255) && decide (f ≠ Fmt.s12) && decide (f ≠ Fmt.e8m0) && decide (f ≠ Fmt.x128) && decide (w / 16 % 4 ≤ 1) &&
    decide (w / 64 = 0) && decide (ck (c + 7) = 0) &&
    (decide (f.width ≠ 32) || decide (seg = 0) || decide (seg = 4)) && (decide (f.width ≠ 16) || decide (seg % 2 = 0))

/-- The quantization record of a QNT or DQT (R62, R165). -/
def recordOk (ck : Nat → Nat) (c : Nat) : Bool :=
  decide (c + 5 ≤ 255) && decide (ck c % 16 ∈ [0, 1, 2, 4, 6, 7, 8, 9, 0xA, 0xB, 0xC])

/-- An M slot passes (R157 to R172). -/
def mOk (s : SlotWord) (ck : Nat → Nat) : Bool :=
  let fmt := s.f 46 4
  let rnd := s.f 44 2
  let sr := rndOk rnd (s.f 12 4) (s.f 16 8)
  let fp := decide (fmt = 12)
  let any5 := fp || intFmt fmt
  let bin := s.only [mvFmt, mvVd, mvVa, mvVb]
  match s.op with
  | 0x00 => s.only []
  | 0x01 => s.only [(38, 12), (34, 4), (33, 1)] && decide (s.f 38 12 ≤ 3071) && macFmt (s.f 34 4) &&
      (decide (s.f 33 1 = 0) || decide (s.f 34 4 = 10) || decide (s.f 34 4 = 11))
  | 0x02 => s.only [(33, 17), (32, 1)] && decide (s.f 33 17 ≤ 98303)
  | 0x03 => s.only []
  | 0x04 => s.only [(30, 20)] && macFmt (s.f 42 4) &&
      (decide (s.f 42 4 < 10) || decide (s.f 34 3 % 2 = 0)) && (decide (s.f 46 1 = 0) || blockFmt (s.f 42 4))
  | 0x05 => s.only [(2, 48)] && decide (s.f 28 12 ≤ 3071) && rndOk (s.f 14 2) (s.f 10 4) (s.f 2 8) && layerOk ck (s.f 20 8) (s.f 40 3)
  | 0x06 | 0x07 => s.only [(48, 2), (47, 1), (42, 5)]
  | 0x08 => s.only [(48, 2), (36, 6)]
  | 0x10 | 0x11 | 0x12 => s.only [mvFmt, mvRnd, mvVd, mvVa, mvVb, mvCk, mvGi] && fp && sr
  | 0x13 => s.only [mvFmt, mvRnd, mvVd, mvVa, mvVb, mvVc, mvCk, mvGi] && fp && sr
  | 0x14 | 0x15 => bin && fp
  | 0x16 | 0x17 | 0x18 | 0x19 => s.only [mvFmt, mvRnd, mvVd, mvVa, mvCk, mvGi] && fp && sr
  | 0x20 | 0x21 | 0x22 | 0x23 | 0x24 => bin && intFmt fmt
  | 0x25 | 0x26 | 0x27 | 0x28 | 0x29 | 0x2A => bin && any5
  | 0x2C => s.only [mvFmt, mvVd, mvVa, mvVb, mvSub] && any5 && decide (s.f 8 4 ≤ 7) && (decide (s.f 8 4 < 6) || fp)
  | 0x2D => s.only [mvFmt, mvVd, mvVa, mvVb, mvVc] && any5
  | 0x30 => s.only [mvFmt, mvRnd, mvVd, mvVa, mvCk, mvGi, mvSub] && sr && decide (fmt ≠ 13) && decide (fmt ≠ 15) &&
      decide (s.f 8 4 ∉ [3, 13, 15])
  | 0x31 => s.only [mvFmt, mvVd, mvVa, mvCk] && decide (fmt ∈ [12, 4, 5]) && recordOk ck (s.f 16 8)
  | 0x32 => s.only [mvFmt, mvVd, mvVa, mvCk] && recordOk ck (s.f 16 8) && decide (fmt = ck (s.f 16 8) % 16)
  | 0x33 => s.only [mvFmt, mvVd, mvVa, mvCk] && fp
  | 0x34 => s.only [mvFmt, mvRnd, mvVd, mvVa, mvVb, mvCk, mvGi, mvSub] && fp && sr && blockFmt (s.f 8 4)
  | 0x35 => s.only [mvFmt, mvVd, mvVa, mvVc] && decide (fmt ∈ [0, 1, 2, 4])
  | 0x38 => s.only [mvFmt, mvVd, mvVa, mvCk] && decide (fmt ∈ [12, 5])
  | 0x39 => s.only [mvVd, mvVa, mvVb]
  | 0x3A => s.only [mvFmt, mvRnd, mvVd, mvVa, mvCk, mvGi] && sr && decide (fmt ∉ [3, 13, 15])
  | 0x3B => s.only [mvFmt, mvVd, mvVa, mvCk] && any5
  | 0x3C => s.only [mvFmt, mvVd, mvVa] && any5
  | 0x3E => s.only [mvVd, mvCk, mvGi] && decide (s.f 12 4 % 2 = 0) && decide (s.f 16 8 + 2 ≤ 255)
  | 0x3F => s.only [(45, 5), (28, 17)] && decide (s.f 28 17 ≤ 98303) && decide (s.f 28 17 % 8 = 0)
  | _ => false

/-- An output that the edge of the graticule leaves unused (R125): 0 N, 1 E, 2 S, 3 W. -/
def unusedOut (pic dir : Nat) : Bool :=
  (decide (dir = 0) && decide (pic / 32 = 31)) || (decide (dir = 1) && decide (pic % 32 = 31)) || (decide (dir = 3) && decide (pic % 32 = 0))

/-- An L slot passes (R157, R173 to R178, R445). -/
def lOk (s : SlotWord) (pic : Nat) : Bool :=
  match s.op with
  | 0x00 => s.only []
  | 0x01 | 0x02 => s.only [(9, 25)] && decide (s.f 9 17 ≤ 98303)
  | 0x03 => decide (s.f 30 2 ≠ 3) && decide (s.f 1 17 ≤ 98303) && !unusedOut pic (s.f 32 2)
  | 0x04 => s.only [(4, 30)] && decide (s.f 4 17 ≤ 98303)
  | 0x05 => s.only [(21, 13)]
  | 0x06 => s.only [(8, 26)] && decide (s.f 8 17 ≤ 98303) && decide (s.f 8 17 % 8 = 0)
  | 0x07 => s.only [(24, 10)] && decide (s.f 32 2 ≠ 3) && decide (s.f 28 4 % 2 = 0) &&
      (decide (s.f 32 2 ≠ 2) || decide (s.f 24 4 % 2 = 0))
  | 0x08 | 0x0B => s.only [(30, 4)] && decide (s.f 30 4 % 2 = 0)
  | 0x09 => s.only [(26, 8)] && decide (s.f 26 4 ≤ 2)
  | 0x0A => s.only [(25, 9)] && (decide (s.f 29 1 = 0) || decide (s.f 25 4 ≤ 7))
  | 0x10 => s.only [(6, 28)]
  | 0x11 => s.only [(22, 12)]
  | 0x12 => s.only [(9, 25)] && (decide (s.f 9 1 = 0) || (decide (s.f 30 4 % 2 = 0) && decide (s.f 26 4 % 2 = 0)))
  | 0x13 | 0x14 | 0x15 | 0x16 | 0x17 | 0x18 => s.only [(22, 12)]
  | 0x19 | 0x1A => s.only [(21, 13)]
  | 0x1B | 0x1C => s.only [(19, 15)]
  | 0x1D => s.only [(19, 15)] && decide (s.f 22 4 ≤ 11)
  | _ => false

/-- A C slot passes (R157, R179 to R182). -/
def cOk (s : SlotWord) (pic : Nat) : Bool :=
  let tok : BitVec 16 := BitVec.ofNat 16 (s.f 0 16)
  match s.op with
  | 0x00 | 0x10 => s.only []
  | 0x01 | 0x02 => decide (s.f 0 16 ≠ 0)
  | 0x03 => s.only [(13, 6)]
  | 0x04 => s.only [(12, 7)]
  | 0x05 => s.only [(16, 3), (0, 11)] && decide (s.f 0 11 ≠ 0)
  | 0x06 => s.only [(16, 3)]
  | 0x07 => s.only [(0, 11)]
  | 0x08 => s.only [(14, 5), (0, 11)] && decide (s.f 15 4 ≤ 11)
  | 0x09 => s.only [(0, 18)] && !tokenInvalid tok && !unusedOut pic (s.f 16 2)
  | 0x0A => s.only [(16, 2), (12, 4)] && !unusedOut pic (s.f 16 2)
  | 0x0B => !tokenInvalid tok && decide (tok ≠ 0)
  | 0x0C => s.only [(12, 7)]
  | 0x0D => s.only [(13, 3)]
  | 0x0E => s.only [(6, 13)] && decide (s.f 15 4 ≤ 11)
  | 0x0F => s.only [(16, 3)]
  | _ => false

/-- A bundle passes in its pricking (R125, R155, R157). -/
def bundleOk (f : FillRec) (b : BitVec 128) : Bool :=
  decide (fieldNat b 6 2 = 0) && decide (fieldNat b 1 4 ∉ [12, 13, 14]) && !(decide (fieldNat b 1 4 = 15) && bit b 5) &&
    mOk (mSlot b) f.const && lOk (lSlot b) f.pic && cOk (cSlot b) f.pic

/-- A bundle names a steering unit that its pricking does not own (R182). -/
def steersForeign (f : FillRec) (b : BitVec 128) : Bool :=
  let c := cSlot b
  decide (c.op = 0x0F) && !f.unitMask.testBit (c.f 17 2)

/-- A bundle takes from a queue that a steering unit of its pricking reads (R175). -/
def takesSteered (f : FillRec) (b : BitVec 128) : Bool :=
  let l := lSlot b
  let c := cSlot b
  let on := (List.range 4).filter (fun u => decide (f.unitCfg u % 4 ≠ 0))
  let dqRead (q : Nat) : Bool := on.any (fun u => (List.range 4).any (fun i =>
    (f.unitCfg u).testBit (26 + i) && decide (f.unitCfg u / 2 ^ (10 + 4 * i) % 16 = q)))
  let tqRead (q : Nat) : Bool := on.any (fun u => decide (f.unitCfg u / 4 % 8 = q))
  (decide (l.op = 0x04) && dqRead (l.f 30 4)) || (decide (l.op = 0x03) && decide (l.f 30 2 = 2) && dqRead (l.f 18 4)) ||
    ((decide (c.op = 0x03) || decide (c.op = 0x0D)) && tqRead (c.f 13 3)) || (decide (c.op = 0x0C) && tqRead (c.f 12 3))

/-- A steering configuration is valid for its mode (R131, R192). -/
def unitOk (w : Nat) : Bool :=
  let ins := w / 2 ^ 26 % 16
  let outs := w / 2 ^ 46 % 16
  decide (w / 2 ^ 5 % 32 = 0) && decide (w / 2 ^ 62 = 0) &&
    match w % 4 with
    | 0 => true
    | 1 => decide (ins = 1) && decide (outs ≠ 0)
    | _ => decide (outs = 1) && decide (ins ≠ 0)

/-! Spacing (R159, R180). -/

/-- The bundles that may issue next after bundle i (R153, R180). -/
def nextBundles (f : FillRec) (i : Nat) : List Nat :=
  let b := f.bundle i
  let c := cSlot b
  if bit b 0 then []
  else
    let jumps := if c.op = 0x07 ∨ c.op = 0x08 then [c.f 0 11] else []
    let skip := if c.op = 0x05 then [i + c.f 0 11 + 1] else []
    let back := (List.range i).filterMap (fun p =>
      let d := cSlot (f.bundle p)
      if d.op = 0x05 ∧ p + d.f 0 11 = i then some (p + 1) else none)
    let fall := if c.op = 0x07 then [] else [i + 1]
    (jumps ++ skip ++ back ++ fall).filter (fun j => decide (j < f.bundles))

/-- Bundles that may issue within `limit` cycles of one issued at distance `d`, in order along every path; `gaps` are the
distances from each owned cycle to the next.  The list holds each bundle with its distance. -/
def reachSoon (f : FillRec) (limit : Nat) : Nat → List Nat → Nat → Nat → List (Nat × Nat)
  | 0, _, _, _ => []
  | fuel + 1, gaps, i, d =>
    match gaps with
    | [] => []
    | g :: gs =>
      if limit ≤ d + g then []
      else (nextBundles f i).flatMap (fun j => (j, d + g) :: reachSoon f limit fuel gs j (d + g))

/-- Distances between successive owned cycles, from the n-th on, for 8 issues. -/
def ownedGaps (owned : List Nat) (r n : Nat) : List Nat :=
  (List.range 8).map (fun j =>
    let a := owned.getD ((n + j) % owned.length) 0
    let b := owned.getD ((n + j + 1) % owned.length) 0
    if a < b then b - a else b + r - a)

/-- An MMA of a 16-bit format. -/
def wideMma (s : SlotWord) : Bool := decide (s.op = 0x04) && decide (10 ≤ s.f 42 4)

/-- Bundle i of a pricking breaks R159 or R180 under the owned cycles of its logical pricking. -/
def badSpacing (f : FillRec) (owned : List Nat) (r i : Nat) : Bool :=
  let b := f.bundle i
  let m := mSlot b
  let c := cSlot b
  let inner := decide (c.op = 0x05) && (List.range i).any (fun p =>
    let d := cSlot (f.bundle p)
    decide (d.op = 0x05) && decide (i ≤ p + d.f 0 11) && decide (p + d.f 0 11 < i + c.f 0 11))
  let clash := decide (m.op = 0x04) && (List.range owned.length).any (fun n =>
    (reachSoon f 7 8 (ownedGaps owned r n) i 0).any (fun e =>
      let x := mSlot (f.bundle e.1)
      (wideMma m && decide (e.2 < 4) && decide (x.op ∈ [0x01, 0x04, 0x05])) ||
        (decide (x.op ∈ [0x05, 0x06]) && decide (x.f 48 2 = m.f 48 2) && decide (e.2 < if wideMma m then 7 else 4))))
  inner || clash

end Sys2Proof.Machine
end

