-- ==== Sys2Proof/Machine/Macsec.lean ====
section
/-!
DEFINITION. IEEE 802.1AE on the Ethernet ports (R303, R371).  The SecTAG, the IVs and the packet numbers are those of IEEE 802.1AE,
which R303 names for them (log entry 86).
-/

namespace Sys2Proof.Machine.State

/-- A port protects its frames. -/
def macsec (s : State) (p : Nat) : Bool := s.rdB (Reg.TIM_PORT_CFG p) 29
/-- The live association of a port. -/
def macSa (s : State) (p : Nat) : Option MacSa := SMap.get none s.sec.sak p
def setMacSa (s : State) (p : Nat) (x : MacSa) : State := { s with sec := { s.sec with sak := SMap.set none s.sec.sak p (some x) } }

/-- The IV of a packet: SCI and PN, or with XPN the salt over SSCI and the 64-bit PN. -/
def macIv (a : MacSa) (sci : List Byte) (ssci pn : Nat) : List Byte :=
  if a.xpn then xorBytes a.salt (beOctets 4 ssci ++ beOctets 8 pn) else sci ++ beOctets 4 pn

/-- A frame as it is sent under an association: addresses, SecTAG with an explicit SCI, ciphertext, ICV. -/
def protect (a : MacSa) (sci f : List Byte) : List Byte :=
  let body := f.drop 12
  let tag := [0x88, 0xE5, BitVec.ofNat 8 (0x2C + a.an), BitVec.ofNat 8 (if body.length < 48 then body.length else 0)] ++
    beOctets 4 (a.tx % 2 ^ 32) ++ sci
  let aad := f.take 12 ++ tag
  let c := gcmSeal a.key (macIv a sci a.ssci a.tx) aad body
  aad ++ c.1 ++ c.2

/-- The full packet number that the low 32 bits stand for: with XPN the least at or above the lowest acceptable one's half range. -/
def fullPn (a : MacSa) (low : Nat) : Nat :=
  if a.xpn then
    let hi := a.rx / 2 ^ 32
    let n := hi * 2 ^ 32 + low
    if n + 2 ^ 31 < a.rx then n + 2 ^ 32 else n
  else low

/-- A received frame under an association: the plaintext frame and its packet number, none where it fails validation. -/
def unprotect (a : MacSa) (f : List Byte) : Option (List Byte × Nat) :=
  let tci := ((f.drop 14).take 1).headD 0
  let sci := (f.drop 20).take 8
  let pn := fullPn a (beNat ((f.drop 16).take 4))
  let ct := (f.drop 28).take (f.length - 44)
  if f.length < 44 ∨ (f.drop 12).take 2 ≠ [0x88, 0xE5] ∨ tci.toNat / 4 ≠ 0x2C / 4 ∨ tci.toNat % 4 ≠ a.an ∨ pn < a.rx ∨ pn = 0 then none
  else (gcmOpen a.key (macIv a sci a.peer pn) (f.take 28) ct (f.drop (f.length - 16))).map (fun x => (f.take 12 ++ x, pn))

/-- What a port takes of a received frame (R303): none where MACsec fails. -/
def macReceive (s : State) (p : Nat) (f : List Byte) : Option (List Byte) × State :=
  if s.macsec p then
    match s.macSa p with
    | none => (none, s)
    | some a =>
      match unprotect a f with
      | none => (none, s)
      | some x => (some x.1, s.setMacSa p { a with rx := x.2 + 1 })
  else (some f, s)

/-- A frame leaves a port (R303): under MACsec it is protected, and none leaves without a live SAK. -/
def sendFrame (s : State) (p : Nat) (mac f : List Byte) : State :=
  if s.macsec p then
    match s.macSa p with
    | none => s
    | some a => (s.setMacSa p { a with tx := a.tx + 1 }).emit (.frame ⟨p % 2, Nat.mod_lt _ (by decide)⟩ (protect a (mac ++ [0, 1]) f))
  else s.emit (.frame ⟨p % 2, Nat.mod_lt _ (by decide)⟩ f)

/-- A new SAK of a port (R371): the key is the Cartouche's; suite, salt and SSCIs come from the key agreement, whose messages the spec
does not lay out. -/
def newSak (s : State) (p : Nat) (key : List Byte) (x : BitVec 256) : State :=
  let an := match s.macSa p with
    | some a => (a.an + 1) % 4
    | none => 0
  (s.setMacSa p { key := key, an := an, xpn := x.getLsbD 0, salt := bytesOf 12 (x >>> 64), ssci := fieldNat x 160 32, peer := fieldNat x 192 32,
                  tx := 1, rx := 1 })

end Sys2Proof.Machine.State
end

