-- ==== Sys2Proof/Machine/Ports.lean ====
section
/-!
DEFINITION. The Ethernet ports: PTP messages, the transparent clock, the ordinary clock's messages, timed launch (R294 to
R304, R314 to R318).  Where the spec leaves a message's layout to IEEE 1588-2019, that standard's is taken (log entry 17).
-/

namespace Sys2Proof.Machine

/-- Big-endian number of `n` octets at an offset. -/
def beAt (bs : List Byte) (off n : Nat) : Nat := beNat ((bs.drop off).take n)
/-- Replace octets at an offset. -/
def putAt (bs : List Byte) (off : Nat) (xs : List Byte) : List Byte := bs.take off ++ xs ++ bs.drop (off + xs.length)

/-- Where a frame's EtherType is: behind one 802.1Q tag where there is one. -/
def typeOff (f : List Byte) : Nat := if beAt f 12 2 = 0x8100 then 16 else 12

/-- The offset of a frame's PTP message under a transport (R295): EtherType 0x88F7, or UDP over IPv4 to port 319 or 320. -/
def ptpOff (udp : Bool) (f : List Byte) : Option Nat :=
  let t := typeOff f
  if !udp then (if beAt f t 2 = 0x88F7 then some (t + 2) else none)
  else
    let ip := t + 2
    let ihl := 4 * (beAt f ip 1 % 16)
    let port := beAt f (ip + ihl + 2) 2
    if beAt f t 2 = 0x0800 ∧ beAt f (ip + 9) 1 = 17 ∧ (port = 319 ∨ port = 320) then some (ip + ihl + 8) else none

/-- Message types of IEEE 1588. -/
abbrev mSync : Nat := 0
abbrev mDelayReq : Nat := 1
abbrev mPdelayReq : Nat := 2
abbrev mPdelayResp : Nat := 3
abbrev mFollowUp : Nat := 8
abbrev mPdelayFollow : Nat := 10
abbrev mAnnounce : Nat := 11

/-- The largest correctionField (R299). -/
abbrev corrMax : Int := 2 ^ 63 - 1

namespace State

/-- The transport is UDP over IPv4 (TIM_PTP_CFG). -/
def udp (s : State) : Bool := s.rdB Reg.TIM_PTP_CFG 14
/-- A port is enabled. -/
def portOn (s : State) (p : Nat) : Bool := s.rdB (Reg.TIM_PORT_CFG p) 31
/-- A frame is dropped (R294, R303). -/
def rxDrop (s : State) (p : Nat) : State := s.countF (Reg.TIM_PORT_ERR p) 8 8
/-- An egress queue (R302). -/
def ethQueue (s : State) (p : Nat) : List EthFrame := SMap.get [] s.time.queues p
def setEthQueue (s : State) (p : Nat) (q : List EthFrame) : State := { s with time := { s.time with queues := SMap.set [] s.time.queues p q } }
/-- A port's MAC address, first octet first. -/
def portMac (s : State) (p : Nat) : List Byte := bytesOf 6 (s.rd64 (Reg.TIM_PORT_MAC p))

/-- Does the transparent clock forward a message of a type (R298, R302)? -/
def tcForwards (s : State) (typ : Nat) : Bool :=
  match s.tcMode with
  | 1 => true
  | 2 => !(decide (typ = mPdelayReq) || decide (typ = mPdelayResp) || decide (typ = mPdelayFollow))
  | _ => false

/-- An Announce to the Legend controller's best master clock algorithm: the master is the one that ranks lowest by
priority, quality, identity and steps (log entry 17). -/
def announce (s : State) (m : List Byte) : State :=
  let src := (m.drop 20).take 10
  let rank := (m.drop 47).take 16 ++ src
  let better := decide (beNat rank < beNat s.time.rank)
  match s.time.master with
  | none => { s with time := { s.time with master := some src, rank := rank } }
  | some x =>
    if x = src then { s with time := { s.time with rank := rank } }
    else if better then { s with time := { s.time with master := some src, rank := rank, sync := none, done := none } }
    else s

/-- A Sync that is complete is the latest exchange of R304. -/
def finishSync (s : State) (x : PtpSync) : State :=
  match x.t1 with
  | some t1 => { s with time := { s.time with sync := some x, done := some (x.t2, t1, x.corr) } }
  | none => { s with time := { s.time with sync := some x } }

/-- A PTP timestamp of ten octets in timeline units (R290). -/
def ptpStamp (m : List Byte) (off : Nat) : Int := ((beAt m off 6 : Int) * giga + beAt m (off + 6) 4) * 64

/-- A message of the ordinary clock's domain on its port (R302, R304): Announce, Sync and Follow_Up.  A response has a row
of its own. -/
def ocMessage (s : State) (m : List Byte) (t : DWord) : State :=
  let typ := beAt m 0 1 % 16
  let src := (m.drop 20).take 10
  let corr := signedCode 64 (beAt m 8 8)
  let seq := beAt m 30 2
  if typ = mAnnounce then s.announce m
  else if s.time.master ≠ some src then s
  else if typ = mSync then
    let two := beAt m 6 1 / 2 % 2 = 1
    s.finishSync { seq := seq, t2 := t, corr := corr, t1 := if two then none else some (ptpStamp m 34),
                   logInt := signedCode 8 (beAt m 33 1), void := decide (corr = corrMax) }
  else if typ = mFollowUp then
    match s.time.sync with
    | some x =>
      if x.seq = seq ∧ x.t1.isNone then
        s.finishSync { x with t1 := some (ptpStamp m 34), corr := x.corr + corr, void := x.void || decide (corr = corrMax) }
      else s
    | none => s
  else s

/-- The octets of a PTP message of the device: type, length, correctionField, sourcePortIdentity, sequenceId, body. -/
def ptpMessage (s : State) (typ len : Nat) (corr : Int) (port seq control : Nat) (body : List Byte) : List Byte :=
  [BitVec.ofNat 8 typ, 0x12] ++ beOctets 2 len ++ [BitVec.ofNat 8 (s.rdF Reg.TIM_PTP_CFG 0 8), 0, 0, 0] ++
  beOctets 8 (codeOf 64 corr) ++ [0, 0, 0, 0] ++ Config.clockIdentity ++ beOctets 2 (port + 1) ++
  beOctets 2 seq ++ [BitVec.ofNat 8 control, 0x7F] ++ body

/-- The one-step Pdelay_Resp to a Pdelay_Req (R295, R305): the request's correction, to which the egress adds the time since its
ingress (log entry 17). -/
def pdelayAnswer (s : State) (p off : Nat) (f : List Byte) : List Byte :=
  let m := f.drop off
  putAt (putAt (f.take off) 6 (s.portMac p) ++
    s.ptpMessage mPdelayResp 54 (signedCode 64 (beAt m 8 8)) p (beAt m 30 2) 5 (beOctets 10 0 ++ (m.drop 20).take 10))
    (off + 4) ((m.drop 4).take 1)

/-- A frame at a port, in plaintext, with its stamp (R294, R302, R305). -/
def takeFrame (s : State) (p : Nat) (f : List Byte) (t : DWord) : State :=
  let mine := decide (f.take 6 = s.portMac p)
  let e : EthFrame := { bytes := f, from' := p, stamp := t }
  let other := 1 - p
  match ptpOff s.udp f with
  | some off =>
    let m := f.drop off
    let typ := beAt m 0 1 % 16
    let oc := s.ocEn && decide (s.ocPort = p) && decide (beAt m 4 1 = s.rdF Reg.TIM_PTP_CFG 0 8)
    let peer := s.peerDelay && decide (typ ∈ [mPdelayReq, mPdelayResp, mPdelayFollow])
    let fwd := s.tcForwards typ && s.portOn other
    let s1 := if fwd then s.setEthQueue other (s.ethQueue other ++ [e]) else s
    let s2 := if oc then s1.ocMessage m t else s1
    let s3 := if peer && decide (typ = mPdelayReq) then s2.setEthQueue p (s2.ethQueue p ++ [{ e with bytes := s.pdelayAnswer p off f }]) else s2
    if fwd || oc || peer then s3 else s3.rxDrop p
  | none =>
    if s.rdB Reg.TIM_PTP_CFG 13 && !mine && s.portOn other then s.setEthQueue other (s.ethQueue other ++ [e])
    else s.rxDrop p

/-- A frame at a port (R294, R303): it is stamped before it is deciphered; one that fails its FCS, its length or MACsec is dropped. -/
def receiveFrame (s : State) (p : Nat) (f : List Byte) (capture : DWord) (fcsOk : Bool) : State :=
  if !s.portOn p then s
  else if !fcsOk || decide (1522 < f.length + 4) then s.rxDrop p
  else
    let r := s.macReceive p f
    match r.1 with
    | none => r.2.rxDrop p
    | some g => r.2.takeFrame p g (s.inStamp p capture)

/-- A correction with Δ added (R299), and whether it saturates. -/
def addCorr (c d : Int) : Int × Bool :=
  if c = corrMax ∨ corrMax < c + d ∨ c + d < -(2 ^ 63) then (corrMax, true) else (c + d, false)

/-- A frame with a new correctionField (R298, R299, R301). -/
def withCorr (s : State) (p : Nat) (f : List Byte) (off : Nat) (d : Int) : State × List Byte :=
  let r := addCorr (signedCode 64 (beAt f (off + 8) 8)) d
  let f1 := putAt f (off + 8) (beOctets 8 (codeOf 64 r.1))
  (if r.2 then s.countF (Reg.TIM_PORT_ERR p) 16 8 else s, if s.udp then putAt f1 (off - 2) [0, 0] else f1)

/-- The key of a two-step Sync in the match table (R300). -/
def tcKey (m : List Byte) : List Byte := (m.drop 20).take 10 ++ (m.drop 4).take 1 ++ (m.drop 30).take 2

/-- The guard band (R316): would the frame's transmission not end before the head notice's scheduled time?  A byte takes
20.48 timeline units at 25 Gb/s and 51.2 at 10 Gb/s. -/
def guarded (s : State) (p : Nat) (len : Nat) (t : DWord) : Bool :=
  match s.launchQ p with
  | [] => false
  | l :: _ =>
    let per : Nat := if s.rdB (Reg.TIM_PORT_CFG p) 30 then 5120 else 2048
    decide (100 * tlDiff (BitVec.ofInt 64 l.sched) t ≤ (len + 4) * per)

/-- The head of an egress queue leaves (R298 to R303, R316); a request of the device's own that the guard band held back gives its stamp
now. -/
def transmit (s : State) (p : Nat) (capture : DWord) : State :=
  match s.ethQueue p with
  | [] => s
  | e :: rest =>
    let t := s.outStamp p capture
    if !s.portOn p || s.guarded p e.bytes.length t then s
    else
      let s1 := s.setEthQueue p rest
      if 2 ≤ e.from' then
        ({ s1 with time := { s1.time with req := if e.from' = 3 then some t else s1.time.req } } : State).sendFrame p (s.portMac p) e.bytes
      else
      match ptpOff s.udp e.bytes with
      | none => s1.sendFrame p (s.portMac p) e.bytes
      | some off =>
        let m := e.bytes.drop off
        let typ := beAt m 0 1 % 16
        let two := beAt m 6 1 / 2 % 2 = 1
        let peer := if s.tcMode = 2 ∧ typ = mSync then sword (s.rd (Reg.TIM_PORT_LINK e.from')) + s.asym e.from' else 0
        let d := tlDiff t e.stamp * 1024 + peer
        let send (x : State × List Byte) : State := x.1.sendFrame p (s.portMac p) x.2
        if typ = mSync ∧ two then
          let tbl := if 64 ≤ s.time.table.length then s.time.table.tail else s.time.table
          send ({ s1 with time := { s1.time with table := tbl ++ [{ key := tcKey m, delta := d, made := t }] } }, e.bytes)
        else if typ = mFollowUp then
          match s.time.table.find? (fun x => decide (x.key = tcKey m)) with
          | some x => send (({ s1 with time := { s1.time with table := s1.time.table.erase x } } : State).withCorr p e.bytes off x.delta)
          | none => send (s1.countF (Reg.TIM_PORT_ERR p) 24 8, e.bytes)
        else if typ ≤ mPdelayResp then send (s1.withCorr p e.bytes off d)
        else send (s1, e.bytes)

/-- The 44 octets of a Delay_Req (R297), and the 54 of a Pdelay_Req. -/
def delayReqBytes (s : State) (port : Nat) : List Byte := s.ptpMessage mDelayReq 44 (-s.asym port) port s.time.reqSeq 1 (beOctets 10 0)
def pdelayReqBytes (s : State) (port : Nat) : List Byte := s.ptpMessage mPdelayReq 54 0 port s.time.reqSeq 5 (beOctets 20 0)

/-- A frame of the device's own (R316): the guard band holds it back, and it then leaves by the port's queue.  `kind` is 3 for a
Delay_Req, whose stamp is kept, else 2. -/
def sendOwn (s : State) (p kind : Nat) (f : List Byte) (capture : DWord) : State :=
  let t := s.outStamp p capture
  if s.guarded p f.length t then s.setEthQueue p (s.ethQueue p ++ [{ bytes := f, from' := kind, stamp := t }])
  else ({ s with time := { s.time with req := if kind = 3 then some t else s.time.req } } : State).sendFrame p (s.portMac p) f

/-- The Ethernet, IP and UDP headers of a message of the device; the latter two are open. -/
def ptpHead (s : State) (p : Nat) (dst : List Byte) : List Byte × State :=
  let head := dst ++ s.portMac p
  if s.udp then let f := s.free256; (head ++ [0x08, 0x00] ++ bytesOf 28 f.1, f.2) else (head ++ [0x88, 0xF7], s)

/-- One port sends its Pdelay_Req (R305). -/
def sendPdelayReq (s : State) (capture : DWord) (p : Nat) : State :=
  let h := s.ptpHead p [0x01, 0x80, 0xC2, 0, 0, 0x0E]
  if s.portOn p then h.2.sendOwn p 2 (h.1 ++ s.pdelayReqBytes p) capture else s

/-- The ordinary clock sends a Delay_Req, or where peer delay is measured, both ports send a Pdelay_Req (R297, R304, R305). -/
def sendDelayReq (s : State) (capture : DWord) : State :=
  let p := s.ocPort
  let next (t : State) : State := { t with time := { t.time with reqSeq := (s.time.reqSeq + 1) % 65536 } }
  let s1 := if s.peerDelay then next ([0, 1].foldl (fun t q => t.sendPdelayReq capture q) s) else s
  if !s.ocEn || s.ocPeer || !s.portOn p then s1
  else
    let h := s1.ptpHead p [0x01, 0x1B, 0x19, 0, 0, 0]
    next (h.2.sendOwn p 3 (h.1 ++ s.delayReqBytes p) capture)

/-- The launch frame of a notice (R314). -/
def launchFrame (s : State) (p : Nat) (l : Launch) (late : Bool) (actual : DWord) : List Byte :=
  let d := s.rd64 (Reg.TIM_LAUNCH_DST p)
  let tag : List Byte := if d.getLsbD 60 then [0x81, 0x00] ++ beOctets 2 (fieldNat d 61 3 * 2 ^ 13 + fieldNat d 48 12) else []
  bytesOf 6 d ++ s.portMac p ++ tag ++ beOctets 2 (s.rdF Reg.TIM_LAUNCH_CFG 0 16) ++
  leBytes 2 0x4C54 ++ [1, BitVec.ofNat 8 (late.toNat + 2 * p + 4 * l.coarse.toNat)] ++ leBytes 4 0 ++
  leBytes 8 (codeOf 64 l.sched) ++ leBytes 8 actual.toNat ++ s.sealNotice p l.seq l.notice

/-- The head notice of a launch queue at the first block boundary at which it could start (R317): sent on time, sent late,
or dropped.  ACTUAL is the egress stamp (R296). -/
def launchHead (s : State) (p : Nat) (capture : DWord) : State :=
  let actual := s.outStamp p capture
  match s.launchQ p with
  | [] => s
  | l :: rest =>
    let late := tlDiff actual (BitVec.ofInt 64 l.sched)
    if !s.portOn p || decide (late < 0) then s
    else
      let s1 := s.setLaunchQ p rest
      let period : Int := if s.rdB (Reg.TIM_PORT_CFG p) 30 then 40960 else 16384
      if 64000 ≤ late then s1.count (Reg.TIM_LAUNCH_DROPPED p)
      else
        let isLate := decide (period ≤ 100 * late)
        let s2 := s1.count (Reg.TIM_LAUNCH_SENT p)
        let s3 := if isLate then s2.count (Reg.TIM_LAUNCH_LATE p) else s2
        s3.sendFrame p (s.portMac p) (s.launchFrame p l isLate actual)

/-- Every notice still queued is removed and counted (R318). -/
def cancelLaunches (s : State) : State :=
  [0, 1].foldl (fun t p => (t.count (Reg.TIM_LAUNCH_CANCELLED p) (t.launchQ p).length).setLaunchQ p []) s

end State

/-- ETH_FRAME_RECEIVE (R294). -/
def execEthFrameReceive (port : Fin 2) (addrs body : List Byte) (stamp : DWord) (fcsOk : Bool) (s : State) : Outcome :=
  .next (s.receiveFrame port.val (addrs ++ body) stamp fcsOk)

/-- ETH_FRAME_TRANSMIT (R302). -/
def execEthFrameTransmit (port : Fin 2) (stamp : DWord) (s : State) : Outcome := .next (s.transmit port.val stamp)

/-- TC_MATCH_ENTRY_EXPIRE (R300): the oldest entry has been unmatched for 1 s. -/
def execTcMatchEntryExpire (s : State) : Outcome := .next { s with time := { s.time with table := s.time.table.tail } }

/-- PTP_DELAY_REQ_SEND (R297). -/
def execPtpDelayReqSend (stamp : DWord) (s : State) : Outcome := .next (s.sendDelayReq stamp)

/-- LAUNCH_NOTICE_SEND (R317). -/
def execLaunchNoticeSend (port : Fin 2) (capture : DWord) (s : State) : Outcome := .next (s.launchHead port.val capture)

end Sys2Proof.Machine
end

