-- ==== Sys2Proof/Machine/ImageFile.lean ====
section
/-!
DEFINITION. A Berbin image as bytes (R189 to R196, R446 to R449): its parts, and the format checks of the loader.
-/

namespace Sys2Proof.Machine

/-- Load refusal codes (R186). -/
abbrev ldState : Nat := 1
abbrev ldFormat : Nat := 2
abbrev ldMeasure : Nat := 3
abbrev ldStepping : Nat := 4
abbrev ldKey : Nat := 5
abbrev ldResource : Nat := 6
abbrev ldHeadroom : Nat := 7
abbrev ldSlotplan : Nat := 8
abbrev ldQueue : Nat := 9
abbrev ldOwnership : Nat := 10
abbrev ldSteering : Nat := 11
abbrev ldBundle : Nat := 12
abbrev ldSpacing : Nat := 13

/-- A refusal located at a fill, and at a bundle of it (ARY_LOAD_STATUS). -/
def atFill (code : Nat) (f : FillRec) (bundle : Nat := 0) : Nat :=
  code + f.pic % 32 * 2 ^ 8 + f.pic / 32 % 32 * 2 ^ 13 + f.slot * 2 ^ 18 + bundle % 2 ^ 11 * 2 ^ 21

/-- A refusal located at a picot. -/
def atPicot (code p : Nat) : Nat := code + p % 32 * 2 ^ 8 + p / 32 * 2 ^ 13

/-- A section of an image: its table entry and its bytes as stored (R190). -/
structure Section where
  typ    : Nat
  enc    : Bool
  entry  : List Byte
  off    : Nat
  stored : List Byte
  deriving DecidableEq, Repr

/-- The bytes [off, off + n) of a buffer are zero. -/
def zeroAt (bs : List Byte) (off n : Nat) : Bool := ((bs.drop off).take n).all (· == 0)

/-- The image header keeps its ranges (R189). -/
def headerOk (b : List Byte) : Bool :=
  decide (128 ≤ b.length) && decide (leAt b 0 4 = 0x33494242) && decide (leAt b 4 2 = 1) && decide (leAt b 6 2 < 16) &&
  decide (1 ≤ leAt b 0x0C 2) && decide (leAt b 0x0C 2 ≤ 16) && zeroAt b 0x0E 2 && decide (leAt b 0x10 1 ≤ 3) &&
  decide (1 ≤ leAt b 0x11 1) && decide (leAt b 0x11 1 ≤ 64) && decide (6 ≤ leAt b 0x12 1) && decide (leAt b 0x12 1 ≤ 16) &&
  decide (1 ≤ leAt b 0x14 2) && decide (1 ≤ leAt b 0x16 2) && decide (leAt b 0x16 2 ≤ 16384) &&
  decide (leAt b 0x18 2 < leAt b 0x16 2) && decide (leAt b 0x1A 2 ≤ 256) && zeroAt b 0x1C 4 && zeroAt b 0x30 16 && zeroAt b 0x50 16

/-- The sections of an image, in table order. -/
def sectionsOf (b : List Byte) : List Section :=
  (List.range (leAt b 0x0C 2)).map (fun i =>
    let e := (b.drop (128 + 32 * i)).take 32
    { typ := leAt e 0 2, enc := decide (leAt e 2 2 = 1), entry := e, off := leAt e 8 8,
      stored := (b.drop (leAt e 8 8)).take (leAt e 16 8) })

/-- One section-table entry keeps R190. -/
def sectionOk (b : List Byte) (x : Section) : Bool :=
  decide (1 ≤ x.typ) && decide (x.typ ≤ 9) && decide (leAt x.entry 2 2 ≤ 1) && zeroAt x.entry 4 4 && zeroAt x.entry 28 4 &&
  decide (x.off % 256 = 0) && decide (128 + 32 * leAt b 0x0C 2 ≤ x.off) && decide (x.off + leAt x.entry 16 8 ≤ b.length) &&
  decide (leAt x.entry 24 4 = crc32 x.stored)

/-- The section table keeps R190: entries, overlaps, types at most once, required types. -/
def tableOk (b : List Byte) : Bool :=
  let ss := sectionsOf b
  let idx := ss.zipIdx
  decide (128 + 32 * leAt b 0x0C 2 ≤ b.length) && ss.all (sectionOk b) &&
  idx.all (fun x => idx.all (fun y => decide (x.2 = y.2) ||
    (decide (x.1.typ ≠ y.1.typ) && (decide (x.1.off + x.1.stored.length ≤ y.1.off) || decide (y.1.off + y.1.stored.length ≤ x.1.off))))) &&
  [1, 2, 3, 6, 9].all (fun t => ss.any (fun x => decide (x.typ = t)))

/-- The measurement of an image (R191). -/
def imageMeasure (b : List Byte) : List Byte :=
  sha256 (b.take 0x60 ++ List.replicate 32 0 ++ (b.drop 0x80).take (32 * leAt b 0x0C 2) ++
    (sectionsOf b).flatMap Section.stored)

/-- Fills of a PRICKINGS section, or the refusal (R192). -/
def parseFills : Nat → List Byte → Except Nat (List FillRec)
  | 0, _ => .error ldFormat
  | fuel + 1, b =>
    if b.isEmpty then .ok []
    else if b.length < 32 then .error ldFormat
    else
      let h := leAt b 0 4
      let len := leAt b 4 2
      let f : FillRec := { pic := h % 1024, slot := h / 2 ^ 10 % 8, logical := h / 2 ^ 13 % 8, mode := h / 2 ^ 16 % 4,
                           body := (b.drop 32).take (32 * len) }
      let n := f.bundles
      if h / 2 ^ 18 ≠ 0 ∨ !zeroAt b 6 26 ∨ (f.mode ≠ 0 ∧ f.mode ≠ 2) ∨ b.length < 32 + 32 * len ∨ n = 0 ∨ 2048 < n ∨
          len ≠ 53 + (n + 1) / 2 ∨ f.nat 2 1 ≠ f.logical ∨ !zeroAt f.body 3 1 ∨ !zeroAt f.body 15 1 ∨ !zeroAt f.body 21 11 then
        .error (atFill ldFormat f)
      else (parseFills fuel (b.drop (32 + 32 * len))).map (f :: ·)

/-- Two fills name one slot of a picot (R192). -/
def slotTwice (fs : List FillRec) : Option FillRec :=
  (fs.zipIdx.find? (fun x => (fs.take x.2).any (fun y => decide (y.pic = x.1.pic) && decide (y.slot = x.1.slot)))).map Prod.fst

/-- The owner of a cycle in a picot's fold map (R133, R193). -/
def foldAt (slotplan : List Byte) (p c : Nat) : Option Nat :=
  let n := leAt slotplan (32 * p + c / 2) 1 / (if c % 2 = 0 then 1 else 16) % 16
  if 8 ≤ n then some (n - 8) else none

/-- A hub-port entry (R193). -/
def hubAt (slotplan : List Byte) (port c : Nat) : Nat := leAt slotplan (32768 + 2 * (64 * port + c)) 2

/-- An entry of the input plan (R194). -/
def planEntry (w : Nat) : InEntry :=
  { port := ⟨w % 32, by omega⟩, round := w / 2 ^ 5 % 2 ^ 16, cycle := w / 2 ^ 21 % 64, group := w / 2 ^ 32 % 64, layout := w / 2 ^ 38 % 2 ^ 16 }

/-- The raw entries of an INPUTPLAN section, and its layout runs; none where LENGTH differs (R194). -/
def planWords (b : List Byte) : List Nat := (List.range (leAt b 0 4)).map (fun i => leAt b (4 + 8 * i) 8)

/-- Descriptors from a position on: the runs as words, and whether the reserved bytes are zero. -/
def parseLayouts (b : List Byte) : Nat → Nat → Option (List (List Nat) × Bool)
  | 0, pos => if pos = b.length then some ([], true) else none
  | d + 1, pos =>
    let n := leAt b pos 4
    if b.length < pos + 8 + 8 * n then none
    else
      (parseLayouts b d (pos + 8 + 8 * n)).map (fun r =>
        ((List.range n).map (fun i => leAt b (pos + 8 + 8 * i) 8) :: r.1, zeroAt b (pos + 4) 4 && r.2))

/-- The layout descriptors of an INPUTPLAN section. -/
def planLayouts (b : List Byte) : Option (List (List Nat) × Bool) :=
  let pos := 4 + 8 * leAt b 0 4
  if b.length < pos + 8 then none
  else (parseLayouts b (min (leAt b pos 4) 65537) (pos + 8)).map (fun r =>
    (r.1, r.2 && zeroAt b (pos + 4) 4 && decide (1 ≤ leAt b pos 4) && decide (leAt b pos 4 ≤ 65536)))

/-- A run of a layout (R194). -/
def layoutRun (w : Nat) : LayoutRun :=
  { first := w % 2 ^ 12, off := w / 2 ^ 12 % 2 ^ 16, codes := w / 2 ^ 28 % 2 ^ 8, axis := w.testBit 36, sum := w.testBit 37 }

/-- The verdict streams of a STREAMS section (R195). -/
def streamsOf (b : List Byte) : List StreamEnt :=
  (List.range (b.length / 16)).map (fun i =>
    { num := leAt b (16 * i) 2, port := leAt b (16 * i + 2) 1, vdep := decide (leAt b (16 * i + 3) 1 = 1),
      cycles := leAt b (16 * i + 4) 4, ns := leAt b (16 * i + 8) 4 })

/-- A STREAMS section keeps R195. -/
def streamsOk (b : List Byte) (count : Nat) : Bool :=
  decide (b.length = 16 * count) && (List.range count).all (fun i =>
    decide (leAt b (16 * i) 2 < 256) && decide (leAt b (16 * i + 2) 1 ≤ 31) && decide (leAt b (16 * i + 3) 1 ≤ 1) &&
    zeroAt b (16 * i + 12) 4 && (List.range i).all (fun j => decide (leAt b (16 * j) 2 ≠ leAt b (16 * i) 2)))

/-- A seed of a SEEDS section (R196): SEED_ID, DEFAULT and its patch words. -/
structure SeedRec where
  id    : Nat
  dflt  : Nat
  sites : List Nat
  deriving DecidableEq, Repr

/-- The seeds of a SEEDS section. -/
def parseSeeds : Nat → List Byte → Option (List SeedRec)
  | 0, _ => none
  | fuel + 1, b =>
    if b.isEmpty then some []
    else
      let n := leAt b 4 4
      let len := 16 + (n + n % 2) * 4
      if b.length < 16 ∨ b.length < len then none
      else (parseSeeds fuel (b.drop len)).map
        ({ id := leAt b 0 4, dflt := leAt b 8 8, sites := (List.range n).map (fun i => leAt b (16 + 4 * i) 4) } :: ·)

/-- The picot, slot and constant word of a patch word. -/
def sitePic (w : Nat) : Nat := w % 1024
def siteSlot (w : Nat) : Nat := w / 2 ^ 10 % 8
def siteWord (w : Nat) : Nat := w / 2 ^ 13 % 2 ^ 8

/-- Seeds keep R196: no SEED_ID twice, patch words in range and at fills. -/
def seedsOk (xs : List SeedRec) (fs : List FillRec) : Bool :=
  xs.zipIdx.all (fun x => (xs.take x.2).all (fun y => decide (y.id ≠ x.1.id))) &&
  xs.all (fun x => x.sites.all (fun w => decide (w / 2 ^ 21 = 0) && decide (siteWord w ≤ 254) &&
    fs.any (fun f => decide (f.pic = sitePic w) && decide (f.slot = siteSlot w))))

/-- A record of SRAMINIT (R448). -/
structure SramRec where
  pic   : Nat
  word  : Nat
  words : List (BitVec 256)
  deriving DecidableEq, Repr

/-- The records of an SRAMINIT section. -/
def parseSram : Nat → List Byte → Option (List SramRec)
  | 0, _ => none
  | fuel + 1, b =>
    if b.isEmpty then some []
    else
      let h := leAt b 0 4
      let w := leAt b 4 4
      let n := leAt b 8 4
      if b.length < 16 ∨ h / 1024 ≠ 0 ∨ n = 0 ∨ 98304 < n ∨ 98304 < w + n ∨ !zeroAt b 12 4 ∨ b.length < 16 + 32 * n then none
      else (parseSram fuel (b.drop (16 + 32 * n))).map
        ({ pic := h, word := w, words := (List.range n).map (fun i => BitVec.ofNat 256 (leAt b (16 + 32 * i) 32)) } :: ·)

/-- Two records write one word (R448). -/
def sramClash (xs : List SramRec) : Bool :=
  xs.zipIdx.any (fun x => (xs.take x.2).any (fun y => decide (y.pic = x.1.pic) &&
    decide (y.word < x.1.word + x.1.words.length) && decide (x.1.word < y.word + y.words.length)))

/-- The regions of an HBMPLAN section (R446). -/
def regionsOf (b : List Byte) : List HbmRegion :=
  (List.range (leAt b 2 2)).map (fun i =>
    let e := (b.drop (8 + 32 * i)).take 32
    { kind := leAt e 0 2, hostW := decide (leAt e 2 2 = 1), pillow := leAt e 4 1, off := leAt e 8 8, len := leAt e 16 8, init := leAt e 24 8 })

/-- All ones: a region without initial contents. -/
abbrev noInit : Nat := 0xFFFFFFFFFFFFFFFF

/-- The ranges of an HBMPLAN section (R446, R449): `data` bytes of HBMINIT, HBM_BYTES of the header. -/
def hbmPlanOk (b : List Byte) (data hbmBytes : Nat) : Bool :=
  let rs := regionsOf b
  decide (8 ≤ b.length) && decide (1 ≤ leAt b 0 2) && decide (leAt b 0 2 ≤ 512) && decide (leAt b 2 2 ≤ 1024) && zeroAt b 4 4 &&
  decide (b.length = 8 + 32 * leAt b 2 2) &&
  (List.range (leAt b 2 2)).all (fun i => decide (leAt b (8 + 32 * i + 2) 2 ≤ 1) && zeroAt b (8 + 32 * i + 5) 3) &&
  rs.all (fun r => decide (1 ≤ r.kind) && decide (r.kind ≤ 4) && decide (r.pillow ≤ 3) && decide (r.off % 256 = 0) &&
    decide (r.len % 256 = 0) && decide (256 ≤ r.len) && (decide (r.init = noInit) || decide (r.init + r.len ≤ data))) &&
  decide ((rs.filter (fun r => decide (r.kind = 1))).length ≤ 1) && decide ((rs.filter (fun r => decide (r.kind = 3))).length ≤ 1) &&
  decide ((rs.map HbmRegion.len).foldl (· + ·) 0 = hbmBytes)

/-- The ring and the regions fit (R446). -/
def regionsFit (gib : Nat) (rs : List HbmRegion) (ringBlock : Nat) : Bool :=
  decide (ringBlock ≠ 0) && decide (ringBlock ≤ gib * 2 ^ 30) &&
  rs.all (fun r => decide (gib * 2 ^ 28 ≤ r.off) && decide (r.off + r.len ≤ 144 * 2 ^ 30)) &&
  rs.zipIdx.all (fun x => (rs.take x.2).all (fun y => decide (y.pillow ≠ x.1.pillow) ||
    decide (y.off + y.len ≤ x.1.off) || decide (x.1.off + x.1.len ≤ y.off)))

/-- The adaptation descriptor keeps its ranges (R256); `streams` are the image's verdict streams. -/
def descOk (d : List Byte) (streams : List StreamEnt) (tensors : List Config.TensorPlan) : Bool :=
  let unit (o : Nat) : Bool := decide (0 < leAt d o 4) && decide (leAt d o 4 < 0x3F800000)
  decide (d.length = 256) && decide (leAt d 0 4 = 0x54504441) && decide (leAt d 4 2 = 1) &&
  streams.any (fun x => decide (x.num = leAt d 8 2)) && decide (leAt d 0x0A 2 ≤ 1024) && decide (1 ≤ leAt d 0x0C 2) &&
  decide (1 ≤ leAt d 0x0E 1) && decide (leAt d 0x0E 1 ≤ 3) && decide (1 ≤ leAt d 0x10 2) && decide (leAt d 0x10 2 ≤ 4096) &&
  decide (1 ≤ leAt d 0x12 2) && tensors.all (fun t => decide (t.rowsA.length * t.cols ≤ 2 ^ 32)) && unit 0x2C && unit 0x30 &&
  decide (0x00800000 ≤ leAt d 0x34 4) && decide (leAt d 0x34 4 ≤ 0x7F800000) &&
  (decide (leAt d 0x38 4 ≤ 0x7F800000) || decide (leAt d 0x38 4 = 0x80000000)) &&
  decide (0 < leAt d 0x3C 4) && decide (leAt d 0x3C 4 ≤ 0x7F800000) && decide (leAt d 0x40 1 ≤ 31) && decide (leAt d 0x41 1 ≤ 31) &&
  zeroAt d 0x42 6 && zeroAt d 0x4C 180

/-- What the loader works with: the header, the sections in plaintext (none where a section is absent or cannot be
opened), and what they hold. -/
structure Parsed where
  hdr     : List Byte
  secs    : List Section
  plain   : Nat → Option (List Byte)
  fills   : List FillRec
  layouts : List (List Nat) × Bool
  seeds   : List SeedRec
  sram    : List SramRec
  /-- The data of HBMINIT as stored (R449). -/
  data    : List Byte

namespace Parsed
/-- Header fields (R189). -/
def h (p : Parsed) (off n : Nat) : Nat := leAt p.hdr off n
def roundLen (p : Parsed) : Nat := p.h 0x11 1
def blockLog (p : Parsed) : Nat := p.h 0x12 1
def k (p : Parsed) : Nat := p.h 0x14 2
/-- A section's plaintext, empty where it has none. -/
def sec (p : Parsed) (t : Nat) : List Byte := (p.plain t).getD []
def streams (p : Parsed) : List StreamEnt := streamsOf (p.sec 4)
def plan (p : Parsed) : List InEntry := (planWords (p.sec 3)).map planEntry
def regions (p : Parsed) : List HbmRegion := regionsOf (p.sec 9)
/-- The adaptation descriptor of an image with an ADAPT region (R256): none where the region has no contents. -/
def desc (p : Parsed) : Option (Option (List Byte)) :=
  (p.regions.find? (fun r => decide (r.kind = 3))).map (fun r =>
    if r.init = noInit then none else some ((p.data.drop r.init).take 256))
/-- Fills of one picot. -/
def fillsAt (p : Parsed) (pic : Nat) : List FillRec := p.fills.filter (fun f => decide (f.pic = pic))
/-- Picots that some fill names. -/
def pics (p : Parsed) : List Nat := (p.fills.map FillRec.pic).eraseDups
end Parsed

end Sys2Proof.Machine
end

