-- ==== Sys2Proof/Machine/Loader.lean ====
section
/-!
DEFINITION. The loader (R186 to R200, R256, R258, R339, R367, R368, R446 to R449) and LOAD.
-/

namespace Sys2Proof.Machine

/-- The latencies of unit classes 0 to 7 on a stepping (R198). -/
def classTable (b0 : Bool) : List Nat := if b0 then [7, 7, 8, 2, 4, 4, 5, 104] else [9, 10, 12, 3, 5, 5, 6, 120]

/-- H's numerator over its denominator (R188), both exact: `num ÷ den = H + 1`; the sample period is in units of 2^-32 of
1/64 ns, and the array runs cyclesPerRef cycles in 10 ns. -/
def headroomNum (p : Parsed) (period : Nat) : Nat := State.cyclesPerRef (p.h 0x10 1) * 2 ^ p.blockLog * period
def headroomDen (p : Parsed) : Nat := 10 * 2 ^ 38 * p.roundLen * p.k

/-- Seeds as they are applied: supplied values, or DEFAULT (R196). -/
def seedValues (p : Parsed) (given : List (Nat × Nat)) : List (SeedRec × Nat) :=
  p.seeds.map (fun x => (x, match given.find? (fun g => decide (g.1 = x.id)) with | some g => g.2 | none => x.dflt))

/-- A fill with the seed values in its constant words c (low) and c + 1 (high) (R196). -/
def patchFill (vals : List (SeedRec × Nat)) (f : FillRec) : FillRec :=
  vals.foldl (fun g x => x.1.sites.foldl (fun g w =>
    if g.pic = sitePic w ∧ g.slot = siteSlot w then { g with body := putAt g.body (672 + 4 * siteWord w) (leBytes 8 x.2) } else g) g) f

/-- The supplied seed values (R196): a reserved byte that is not zero, a SEED_ID that the image does not hold or that is
supplied twice gives the byte offset. -/
def givenSeeds (b : List Byte) (ids : List Nat) : Except Nat (List (Nat × Nat)) :=
  (List.range (b.length / 16)).foldl (fun r i =>
    match r with
    | .error e => .error e
    | .ok xs =>
      let id := leAt b (16 * i) 4
      if !zeroAt b (16 * i + 4) 4 then .error (16 * i + 4)
      else if id ∉ ids ∨ xs.any (fun x => decide (x.1 = id)) then .error (16 * i)
      else .ok (xs ++ [(id, leAt b (16 * i + 8) 8)])) (.ok [])

/-- Logical prickings whose fills are bound at load in a picot. -/
def startsAt (p : Parsed) (pic : Nat) : List Nat := ((p.fillsAt pic).filter (fun f => decide (f.mode = 2))).map FillRec.logical

/-- Owners in a picot's fold map. -/
def owners (p : Parsed) (pic : Nat) : List Nat := ((List.range 64).filterMap (foldAt (p.sec 2) pic)).eraseDups

/-- A fold map is bad: it owns a cycle that the round does not have, or names a logical pricking with nothing bound. -/
def badFold (p : Parsed) (pic : Nat) : Bool :=
  (List.range 64).any (fun c => match foldAt (p.sec 2) pic c with
    | some l => decide (p.roundLen ≤ c) || decide (l ∉ startsAt p pic)
    | none => false)

/-- A link-slot or memory-lane entry of a fill is bad (R123, R125, R192). -/
def badLinks (f : FillRec) : Bool :=
  (List.range 64).any (fun c =>
    let w := f.linkSlot c
    decide (w / 2 ^ 60 ≠ 0) || decide (4 ≤ f.laneEntry c) ||
    (List.range 4).any (fun k =>
      let fl := w / 2 ^ (8 * k) % 256
      let tk := w / 2 ^ (32 + 7 * k) % 128
      (decide (128 ≤ fl) && (decide (fl / 16 % 4 = k) || unusedOut f.pic (fl / 16 % 4))) ||
      (decide (64 ≤ tk) && (decide (tk / 8 % 4 = k) || unusedOut f.pic (tk / 8 % 4)))))

/-- A hub-port entry is bad (R193). -/
def badHub (p : Parsed) (port c : Nat) : Bool :=
  let w := hubAt (p.sec 2) port c
  let act := w / 2 ^ 14
  (decide (act = 0) && decide (w ≠ 0)) ||
  (decide (act ≠ 0) && p.plan.any (fun e => decide (e.port.val = port) && decide (e.cycle = c))) ||
  (decide (act = 1) && !p.streams.any (fun x => decide (x.num = w % 2 ^ 14) && decide (x.port = port)))

/-- The input plan or a layout is bad (R194). -/
def badPlan (p : Parsed) : Bool :=
  let blen := 2 ^ p.blockLog
  !p.layouts.2 ||
  (planWords (p.sec 3)).any (fun w => decide (w / 2 ^ 27 % 32 ≠ 0) || decide (w / 2 ^ 54 ≠ 0)) ||
  p.plan.zipIdx.any (fun x => decide (p.k ≤ x.1.round) || decide (p.roundLen ≤ x.1.cycle) || decide (p.layouts.1.length ≤ x.1.layout) ||
    (p.plan.take x.2).any (fun y => decide (y.port = x.1.port) && decide (y.round = x.1.round) && decide (y.cycle = x.1.cycle))) ||
  p.layouts.1.any (fun rs => rs.any (fun w =>
    let r := layoutRun w
    decide (w / 2 ^ 38 ≠ 0) || decide (blen ≤ r.off) ||
    (if r.axis then decide (blen < r.off + r.codes) else decide (4096 < r.first + r.codes))))

/-- Capacities of a fill are bad (R128, R192). -/
def badCaps (f : FillRec) : Bool :=
  (List.range 16).any (fun q => decide (4064 < f.dqCap q) || (decide (f.dqCap q = 0) == f.dqMask.testBit q)) ||
  (List.range 8).any (fun q => decide (224 < f.tqCap q))

/-- The data queues of a picot pass 16,384 entries (R128). -/
def badSum (fs : List FillRec) : Bool :=
  decide (16384 < ((List.range 16).map (fun q =>
    let c := (fs.map (fun f => f.dqCap q)).foldl max 0
    if c = 0 then 0 else c + 32)).foldl (· + ·) 0)

/-- Two fills own common state (R115). -/
def shareState (f g : FillRec) : Bool :=
  decide (f.dqMask &&& g.dqMask ≠ 0) || decide (f.tqMask &&& g.tqMask ≠ 0) || decide (f.lcMask &&& g.lcMask ≠ 0) ||
  decide (f.vrMask &&& g.vrMask ≠ 0) || decide (f.accMask &&& g.accMask ≠ 0) || decide (f.unitMask &&& g.unitMask ≠ 0)

/-- Two fills of one picot that `q` finds at odds: the later one. -/
def clash (fs : List FillRec) (q : FillRec → FillRec → Bool) : Option FillRec :=
  (fs.zipIdx.find? (fun x => (fs.take x.2).any (fun y => decide (y.pic = x.1.pic) && q y x.1))).map Prod.fst

/-- The first bundle of a fill that `q` finds bad. -/
def findBundle (f : FillRec) (q : Nat → Bool) : Option Nat := (List.range f.bundles).find? q

/-- A location for the first fill that `q` finds bad. -/
def refuseFill (code : Nat) (fs : List FillRec) (q : FillRec → Bool) : Option Nat := (fs.find? q).map (atFill code)

/-- The first bad bundle of any fill. -/
def refuseBundle (code : Nat) (fs : List FillRec) (q : FillRec → Nat → Bool) : Option Nat :=
  fs.findSome? (fun f => (findBundle f (q f)).map (atFill code f))

/-- A plain test. -/
def refuseIf (code : Nat) (b : Bool) : Option Nat := if b then some code else none

/-- The trainer's logical prickings share a queue with the live network's (R258). -/
def trainerShares (d : List Byte) (f g : FillRec) : Bool :=
  let live (x : FillRec) : Bool := (leAt d 6 1).testBit x.logical
  let train (x : FillRec) : Bool := (leAt d 7 1).testBit x.logical && !live x
  ((live f && train g) || (train f && live g)) && (decide (f.dqMask &&& g.dqMask ≠ 0) || decide (f.tqMask &&& g.tqMask ≠ 0))

/-- The cycles of the round in which a fill's memory-lane entries put beats, as they reach the outer end of its lane (R126, R133). -/
def laneSlots (p : Parsed) (f : FillRec) : List Nat :=
  let x : Fin 1024 := Fin.ofNat 1024 f.pic
  ((List.range p.roundLen).filter (fun c =>
    (f.laneEntry c).testBit 0 && decide (foldAt (p.sec 2) f.pic c = some f.logical))).map (fun c => (c + lanePos x) % max 1 p.roundLen)

/-- A beat of the trainer's and one of the live network's would meet on a memory lane: the trainer's HBM share overlaps the live
network's (R258).  Slots and hub-port cycles belong to one fill each by the fold map and the SLOT check, and cannot overlap. -/
def laneShares (p : Parsed) (d : List Byte) : Bool :=
  let live := p.fills.filter (fun x => (leAt d 6 1).testBit x.logical)
  let train := p.fills.filter (fun x => (leAt d 7 1).testBit x.logical && !(leAt d 6 1).testBit x.logical)
  live.any (fun f => train.any (fun g =>
    decide (laneOuter (Fin.ofNat 1024 f.pic) = laneOuter (Fin.ofNat 1024 g.pic)) &&
      (laneSlots p f).any (fun c => decide (c ∈ laneSlots p g))))

/-- RESOURCE (R258, R446). -/
def badResource (p : Parsed) : Bool :=
  !regionsFit (leAt (p.sec 9) 0 2) p.regions (p.h 0x20 8) ||
  match p.desc with
  | some (some d) =>
    decide (leAt d 0x1C 4 < leAt d 0x0C 2 + (leAt d 0x14 4 + leAt d 0x18 4 + 2 ^ p.blockLog) / 2 ^ p.blockLog + 1) ||
      (clash p.fills (trainerShares d)).isSome || laneShares p d
  | _ => false

/-- The SLOTPLAN checks (R123, R125, R193, R194). -/
def slotplanCheck (p : Parsed) : Option Nat :=
  ((List.range 1024).find? (badFold p)).map (atPicot ldSlotplan) <|>
  refuseIf ldSlotplan (decide (((List.range 1024).map (fun x => (owners p x).length)).foldl max 1 ≠ p.h 0x13 1 + 1)) <|>
  refuseFill ldSlotplan p.fills badLinks <|>
  refuseIf ldSlotplan ((List.range 32).any (fun port => (List.range 64).any (badHub p port))) <|>
  refuseIf ldSlotplan (badPlan p)

/-- The checks of codes 6 to 11. -/
def planChecks (p : Parsed) (period : Nat) : Option Nat :=
  refuseIf ldResource (badResource p) <|>
  refuseIf ldHeadroom (decide (100 * headroomNum p period < 102 * headroomDen p)) <|>
  slotplanCheck p <|>
  refuseFill ldQueue p.fills badCaps <|>
  ((p.pics.find? (fun x => badSum (p.fillsAt x))).map (atPicot ldQueue)) <|>
  (clash p.fills (fun f g => decide (f.logical ≠ g.logical) && shareState f g)).map (atFill ldOwnership) <|>
  refuseFill ldOwnership p.fills (fun f => (findBundle f (fun i => steersForeign f (f.bundle i) || takesSteered f (f.bundle i))).isSome) <|>
  refuseFill ldSteering p.fills (fun f => (List.range 4).any (fun u => !unitOk (f.unitCfg u)))

/-- The checks of codes 12 and 13, on fills with their seed values. -/
def bundleChecks (p : Parsed) (fs : List FillRec) : Option Nat :=
  refuseBundle ldBundle fs (fun f i => !bundleOk f (f.bundle i)) <|>
  refuseBundle ldSpacing fs (fun f i =>
    badSpacing f ((List.range p.roundLen).filter (fun c => decide (foldAt (p.sec 2) f.pic c = some f.logical))) p.roundLen i)

/-- Host queues that the hub-port table names (R193, R339). -/
def queuesNamed (p : Parsed) : List Nat :=
  ((List.range 32).flatMap (fun port => (List.range 64).filterMap (fun c =>
    let w := hubAt (p.sec 2) port c
    if 2 ≤ w / 2 ^ 14 ∧ w % 2 ^ 14 < 0x3FFE then some (w % 2 ^ 14) else none))).eraseDups

/-- The ring of an inject queue lies in a host-writable HBM region (R339). -/
def ringWritable (regions : List HbmRegion) (dpa len : Nat) : Bool :=
  regions.any (fun r => r.hostW && decide (State.pillowDpa r.pillow r.off ≤ dpa) && decide (dpa + len ≤ State.pillowDpa r.pillow r.off + r.len))

/-- The first bad field of a host-queue table (R339), where `used` count words are taken and the image has these regions; a queue
without an entry gives the table's end. -/
def hqTableBad (t : List Byte) (count : Nat) (named : List Nat) (used : Nat → Bool) (regions : List HbmRegion) : Option Nat :=
  ((List.range count).findSome? (fun i =>
    let b := 32 * i
    if 0x3FFE ≤ leAt t b 2 ∨ (List.range i).any (fun j => decide (leAt t (32 * j) 2 = leAt t b 2)) then some b
    else if 1 < leAt t (b + 2) 1 then some (b + 2)
    else if 1 < leAt t (b + 3) 1 then some (b + 3)
    else if leAt t (b + 4) 1 < 6 ∨ 24 < leAt t (b + 4) 1 then some (b + 4)
    else if !zeroAt t (b + 5) 3 then some (b + 5)
    else if leAt t (b + 2) 1 = 1 ∧ ringWritable regions (leAt t (b + 8) 8) (32 * 2 ^ leAt t (b + 4) 1) = false then some (b + 8)
    else if 32768 ≤ leAt t (b + 0x18) 2 ∨ used (leAt t (b + 0x18) 2) = true ∨ (List.range i).any (fun j => decide (leAt t (32 * j + 0x18) 2 = leAt t (b + 0x18) 2)) then some (b + 0x18)
    else if !zeroAt t (b + 0x1A) 6 then some (b + 0x1A)
    else none)) <|>
  refuseIf (32 * count) (named.any (fun q => !(List.range count).any (fun i => decide (leAt t (32 * i) 2 = q))))

/-- The host queues of a table (R339). -/
def hqTable (t : List Byte) (count : Nat) : SMap HostQ :=
  (List.range count).foldl (fun m i =>
    let e := (t.drop (32 * i)).take 32
    SMap.insert m (leAt e 0 2)
      { inject := decide (leAt e 2 1 = 1), peer := decide (leAt e 3 1 = 1), log2 := leAt e 4 1, ring := BitVec.ofNat 64 (leAt e 8 8),
        far := BitVec.ofNat 64 (leAt e 0x10 8), loc := leAt e 0x18 2, next := 0, held := [], told := 0, owed := [] }) []

namespace State

/-- A section in plaintext (R365, R367, R368): none where its key is not released, was bound to another measurement, or
its tag fails. -/
def openSection (s : State) (img : List Byte) (x : Section) : Option (List Byte) :=
  if !x.enc then some x.stored
  else if !s.isProtected then none
  else
    match s.sec.keys.find? (fun k => decide (k.id = leAt x.stored 0 4)) with
    | none => none
    | some k =>
      if k.measure ≠ (img.drop 0x60).take 32 then none
      else
        let n := x.stored.length
        gcmOpen k.key ((x.stored.drop 16).take 12) ((img.drop 0x40).take 16 ++ x.entry.take 24 ++ leBytes 4 0 ++ x.entry.drop 28)
          ((x.stored.drop 32).take (n - 48)) (x.stored.drop (n - 16))

/-- Code FORMAT, and the image's parts (R189 to R196, R256, R446 to R449).  A section that cannot be opened is left to
code KEY. -/
def parseImage (s : State) (b : List Byte) : Except Nat Parsed :=
  if !headerOk b ∨ !tableOk b then .error ldFormat
  else
    let ss := sectionsOf b
    let find (t : Nat) : Option Section := ss.find? (fun x => decide (x.typ = t))
    let plain (t : Nat) : Option (List Byte) := (find t).bind (s.openSection b)
    let sec (t : Nat) : List Byte := (plain t).getD []
    let data := match find 8 with
      | some x => if x.enc then (x.stored.drop 32).take (x.stored.length - 48) else x.stored
      | none => []
    if ss.any (fun x => x.enc && (decide (x.stored.length < 48) || !zeroAt x.stored 4 12 || !zeroAt x.stored 28 4)) then .error ldFormat
    else
      match parseFills (b.length + 1) (sec 1), planLayouts (sec 3), parseSeeds (b.length + 1) (sec 5), parseSram (b.length + 1) (sec 7) with
      | .error e, _, _, _ => .error e
      | .ok fs, lay, seeds, sram =>
        let p : Parsed := { hdr := b.take 128, secs := ss, plain := plain, fills := fs, layouts := lay.getD ([], true),
                            seeds := seeds.getD [], sram := sram.getD [], data := data }
        let bad : Bool :=
          ((plain 2).isSome && decide ((sec 2).length ≠ 36864)) || ((plain 3).isSome && lay.isNone) ||
          (((plain 4).isSome || (find 4).isNone) && !streamsOk (sec 4) (p.h 0x1A 2)) ||
          seeds.isNone || ((plain 1).isSome && !seedsOk p.seeds fs) || ((plain 6).isSome && decide ((sec 6).length ≠ 32)) ||
          sram.isNone || sramClash p.sram ||
          ((plain 9).isSome && !hbmPlanOk (sec 9) data.length (p.h 0x28 8)) ||
          (match p.desc with | some (some d) => (plain 4).isSome && !descOk d p.streams (Config.trainPlan (imageMeasure b)) | some none => true | none => false)
        match slotTwice fs with
        | some f => .error (atFill ldFormat f)
        | none => if bad then .error ldFormat else .ok p

/-- Code MEASURE, STEPPING and KEY (R191, R197, R200, R367, R447). -/
def identityChecks (s : State) (b : List Byte) (p : Parsed) : Option Nat :=
  let b0stamp := decide (p.h 8 4 = 0x110)
  refuseIf ldMeasure (decide (imageMeasure b ≠ (b.drop 0x60).take 32)) <|>
  refuseIf ldStepping (!(decide (p.h 8 4 = 0x100) || (b0stamp && s.b0)) ||
    ((p.plain 6).isSome && decide ((List.range 8).map (fun i => leAt (p.sec 6) (4 * i) 4) ≠ classTable b0stamp))) <|>
  refuseIf ldKey (p.secs.any (fun x => (s.openSection b x).isNone))

/-- The whole check of an image (R186): the refusal word, or the byte offset of a bad seed value, or the parts and the
seed values. -/
def checkImage (s : State) (b seeds : List Byte) : Except (Nat ⊕ Nat) (Parsed × List (SeedRec × Nat)) :=
  if s.aryState ≠ aryIdle ∨ s.rdB Reg.ARY_STATUS 7 then .error (.inl ldState)
  else
    match s.parseImage b with
    | .error e => .error (.inl e)
    | .ok p =>
      match s.identityChecks b p <|> planChecks p (s.rd64 Reg.ING_SAMPLE_PERIOD).toNat with
      | some e => .error (.inl e)
      | none =>
        match givenSeeds seeds (p.seeds.map SeedRec.id) with
        | .error off => .error (.inr off)
        | .ok given =>
          let vals := seedValues p given
          match bundleChecks p (p.fills.map (patchFill vals)) with
          | some e => .error (.inl e)
          | none => .ok (p, vals)

/-- A fill lands in its slot and binds or waits (R135, R136, R192). -/
def storeFill (s : State) (f : FillRec) : State :=
  let flits : SMap Stored := ((List.range (f.body.length / 32)).map (fun i =>
    (i, { gen := s.keyGen, word := BitVec.ofNat 256 (leAt f.body (32 * i) 32) }))).filter (fun e => decide (e.2 ≠ Stored.blank))
  let k : Fin 8 := Fin.ofNat 8 f.slot
  let x := s.picot f.pic
  (s.setPicot f.pic (x.setSlot k { x.slot k with flits := flits })).fillDone f.pic
    { slot := k, logical := Fin.ofNat 8 f.logical, mode := BitVec.ofNat 2 f.mode, left := 0, index := 0, discard := false }

/-- ARY_VS_STATED of every stream at the current step (R195). -/
def restateLatencies (s : State) : State :=
  s.img.streams.foldl (fun t x => t.wr (Reg.ARY_VS_STATED x.num)
    (BitVec.ofInt 32 (rnDiv (10 * x.cycles) (cyclesPerRef (s.rdF Reg.GLB_CLK_STATUS 0 2)) + x.ns))) s

/-- The registers that the loader sets (R186, R188, R200). -/
def loaderRegs (s : State) (p : Parsed) : State :=
  let num := headroomNum p (s.rd64 Reg.ING_SAMPLE_PERIOD).toNat
  let den := headroomDen p
  let h := min 0xFFFF (10000 * (num - den) / den)
  let pad := decide (p.h 8 4 = 0x100) && s.b0
  let s1 := (s.wr Reg.ARY_LOAD_STATUS 0).wr Reg.ARY_IMAGE_STAMP (BitVec.ofNat 32 (p.h 8 4))
  let s2 := s1.wr Reg.ARY_RATED (BitVec.ofNat 32 (h * 2 ^ 16 + p.h 0x10 1))
  let s3 := (s2.wr Reg.ARY_LEQ0 (if pad then 0x1111432 else 0)).wr Reg.ARY_LEQ1 (if pad then 16 else 0)
  let s4 := s3.wr Reg.ARY_ROUND_CFG (BitVec.ofNat 32 (p.h 0x13 1 * 2 ^ 8 + p.roundLen))
  s4.wrF Reg.ING_BLOCK_CFG 0 5 p.blockLog

/-- What the loader keeps of the image. -/
def imageOf (s : State) (p : Parsed) (vals : List (SeedRec × Nat)) (measure : List Byte) : Image :=
  { flags := BitVec.ofNat 16 (p.h 6 2), stamp := BitVec.ofNat 32 (p.h 8 4), rated := p.h 0x10 1, roundLen := p.roundLen,
    blockLog2 := p.blockLog, k := p.k, ringBlock := p.h 0x20 8, ringGib := leAt (p.sec 9) 0 2, measure := measure,
    seedMeas := sha256 (vals.flatMap (fun x => leBytes 4 x.1.id ++ leBytes 8 x.2)),
    hubTable := ((List.range 2048).map (fun i => (i, BitVec.ofNat 16 (hubAt (p.sec 2) (i / 64) (i % 64))))).filter (fun e => decide (e.2 ≠ 0)),
    inputs := p.plan, layouts := p.layouts.1.map (fun rs => rs.map layoutRun), streams := p.streams, regions := p.regions,
    folds := ((List.range 1024).map (fun x => (x, (List.range 64).filterMap (fun c =>
      (foldAt (p.sec 2) x c).map (fun l => (c, Fin.ofNat 8 l)))))).filter (fun e => !e.2.isEmpty),
    hbmKey := (p.secs.find? (fun x => decide (x.typ = 8) && x.enc)).bind (fun x =>
      (s.sec.keys.find? (fun k => decide (k.id = leAt x.stored 0 4))).map (fun k => (k.key, (x.stored.drop 16).take 12))) }

/-- Initial SRAM words and HBM contents (R448, R449). -/
def initialContents (s : State) (p : Parsed) : State :=
  let s1 := p.sram.foldl (fun t r => r.words.zipIdx.foldl (fun t w => t.sramWrite r.pic (r.word + w.2) w.1) t) s
  p.regions.foldl (fun t r =>
    if r.init = noInit then t else t.writeBytes (pillowDpa r.pillow r.off) ((p.data.drop r.init).take r.len)) s1

/-- Adaptation as an image starts it (R256): the trainer has the descriptor's default LR, WDECAY and GCLIP. -/
def freshAdapt (desc : Option (List Byte)) : Adapt :=
  let a : Adapt := { Adapt.none with desc := desc }
  let w (off : Nat) : Word := BitVec.ofNat 32 (a.dsc off 4)
  { a with trainer := { Trainer.none with lr := w 0x28, wdecay := w 0x38, gclip := w 0x3C } }

/-- The image is loaded (R70, R73, R186, R349). -/
def applyImage (s : State) (b : List Byte) (p : Parsed) (vals : List (SeedRec × Nat)) (queues : SMap HostQ) : State :=
  let s1 : State := { s with img := s.imageOf p vals ((b.drop 0x60).take 32), hostq := queues,
                             adapt := freshAdapt (p.desc.bind id) }
  let s2 := (p.fills.map (patchFill vals)).foldl storeFill ((s1.loaderRegs p).restateLatencies)
  (((s2.initialContents p).loadRows).setAryState aryLoading).setCtx ctxLoaded

/-- LOAD in state READY (R186, R196, R339). -/
def loadImage (s : State) (r : Nat) (b seeds table : List Byte) (count : Nat) : State :=
  match s.checkImage b seeds with
  | .error (.inr off) => s.completeBad r off
  | .error (.inl w) =>
    let t := s.wr Reg.ARY_LOAD_STATUS (BitVec.ofNat 32 w)
    t.complete r stImageRefused 0 0 (BitVec.ofNat 32 w)
  | .ok (p, vals) =>
    match hqTableBad table count (queuesNamed p) s.countUsed p.regions with
    | some off => s.completeBad r off
    | none =>
      let t := s.applyImage b p vals (hqTable table count)
      t.complete r stOk ((t.rd Reg.ARY_RATED).setWidth 64) (BitVec.ofNat 64 (p.h 6 2))

end State

/-- LOAD (R186, R332, R349): accepted in READY alone. -/
def execLoad (r : Fin 16) (image seeds hqTable : List Byte) (dma : Option (Fin 3)) (s : State) : Outcome :=
  .next (s.onRing r 0x01 12 (fun e =>
    if e.len1.toNat % 16 ≠ 0 then s.completeBad r.val 0x20
    else s.needsState r.val (decide (s.ctx = ctxReady))
      (match dma with
       | some d => s.completeDma r.val d
       | none => s.loadImage r.val image seeds hqTable (e.param 8 4))))

end Sys2Proof.Machine
end

