-- ==== Sys2Proof/Machine/Stop.lean ====
section
/-!
DEFINITION. The common stop of the array and what a cancelling hold takes back (R129, R202 to R205, R212).
-/

namespace Sys2Proof.Machine

namespace State

/-- A host queue (R339). -/
def hq (s : State) (q : Nat) : Option HostQ := (s.hostq.find? (fun e => decide (e.1 = q))).map Prod.snd
def setHq (s : State) (q : Nat) (x : HostQ) : State := { s with hostq := SMap.insert s.hostq q x }

/-- Picots that hold anything. -/
def livePicots (s : State) : List (Fin 1024) :=
  s.arr.picots.filterMap (fun e => if h : e.1 < 1024 then some ⟨e.1, h⟩ else none)

/-- Do something in every picot that holds anything. -/
def eachPicot (s : State) (f : State → Fin 1024 → State) : State := s.livePicots.foldl f s

/-- What a cancelling hold would return to (R203). -/
def snapshot (s : State) : Snap :=
  { core := s.arr, taken := s.ing.taken, entries := s.ing.feed ++ s.ing.eb, hostq := s.hostq, adapt := s.adapt,
    flip := s.rd Reg.ARY_FLIP_STATUS }

/-- Keep the start of this cycle among the last 8. -/
def remember (s : State) : State := { s with hold := { s.hold with past := (s.snapshot :: s.hold.past).take 8 } }

/-- A host queue at its hold point: flits that cancelled cycles injected wait again; flits that came in stay. -/
def rewindQueue (s : State) (e : Nat × HostQ) : HostQ :=
  match s.hq e.1 with
  | some x => if x.inject then { x with next := e.2.next, held := e.2.held.take (x.next - e.2.next) ++ x.held } else x
  | none => e.2

/-- An atomic at its hold point: what the host has completed since stays completed. -/
def rewindAtomic (s : State) (n : Nat) (a : Atomic) : Atomic :=
  match s.arr.atomics.find? (fun b => decide (b.col = a.col) && decide (b.taken = a.taken)) with
  | some b => { a with wait := if a.wait ≤ n then 0 else a.wait, result := b.result }
  | none => a

/-- The array at its hold point, `n` cycles back (R203): what has left it since, 8 cycles after the cycle that produced it, does
not leave again (R204), and a flip armed since stays armed. -/
def rewindCore (s : State) (x : Snap) (n : Nat) (flipped : Bool) : ArrCore :=
  { x.core with
    commits := s.arr.commits.filter (fun c => decide (c.wait = 0)) ++ x.core.commits.filter (fun c => decide (n < c.wait))
    atomics := x.core.atomics.map (s.rewindAtomic n)
    lanes := x.core.lanes.filter (fun b => !b.out || b.req || decide (n < max (lanePos b.pic + 1) (8 - b.age)))
    stores := x.core.stores.filter (fun b => decide (n < b.wait))
    flip := if flipped then x.core.flip else s.arr.flip }

/-- A flip fell on a cancelled cycle. -/
def flipUndone (s : State) (x : Snap) : Bool :=
  decide (fieldNat x.flip 16 16 ≠ s.rdF Reg.ARY_FLIP_STATUS 16 16) || (bit x.flip 0 && !s.rdB Reg.ARY_FLIP_STATUS 0)

/-- Adaptation at its hold point, where a cancelled cycle flipped the array or injected an adaptation flit; labels and
firings that came in stay, and so does a rejected arming. -/
def rewindAdapt (s : State) (x : Snap) (flipped : Bool) : State :=
  let a := s.adapt
  let o := x.adapt
  if !flipped && decide (a.selDone = o.selDone) && decide (a.parDone = o.parDone) then s
  else
    let s1 : State := { s with adapt := { a with
      trainer := o.trainer, selDone := o.selDone, parDone := o.parDone,
      labels := o.labels ++ a.labels.filter (fun w => decide (w ∉ o.labels)),
      firings := o.firings ++ a.firings.filter (fun w => decide (w ∉ o.firings)),
      params := o.params, unusable := o.unusable, dropped := o.dropped, overflow := o.overflow, clipped := o.clipped } }
    if flipped then (s1.wrF Reg.ARY_FLIP_STATUS 16 16 (fieldNat x.flip 16 16)).wrB Reg.ARY_FLIP_STATUS 0 (bit x.flip 0) else s1

/-- Requests that picots raised in cancelled cycles after the hold point are gone with them (R203). -/
def rewindReqs (s : State) (x : Snap) : State :=
  let point := x.core.round.toNat * 64 + x.core.cycle
  let rs := s.hold.reqs.filter (fun r =>
    match r.src with
    | .picotDq _ _ => decide (r.cyc ≤ point)
    | .picotTq _ _ => decide (r.cyc ≤ point)
    | _ => true)
  if rs = [] ∧ s.hold.reqs ≠ [] then { s with hold := { s.hold with reqs := [], goIn := some 8, lagging := true } }
  else { s with hold := { s.hold with reqs := rs } }

/-- The array returns to its hold point (R203). -/
def restore (s : State) (x : Snap) (n : Nat) : State :=
  let back := x.entries.filter (fun e =>
    !(s.ing.feed ++ s.ing.eb).any (fun y => decide (y.block = e.block) && decide (y.k = e.k)))
  let s1 : State := { s with
    arr := s.rewindCore x n (s.flipUndone x)
    ing := { s.ing with taken := x.taken, feed := back ++ s.ing.feed }
    hostq := x.hostq.map (fun e => (e.1, s.rewindQueue e)) }
  ((s1.ebStatus).rewindAdapt x (s.flipUndone x)).rewindReqs x

/-- A trace entry of the hold in every picot that traces: EVENT 4 at its start, 5 at its end; DETAIL names the cause that
came first. -/
def traceHold (s : State) (event : Nat) : State :=
  let cause := s.hold.seen.getLastD 0
  s.eachPicot (fun t p =>
    let l : Fin 8 := (t.owner p).getD 0
    t.trace { pic := p, lg := l } event (cause % 16 + 16 * s.hold.cancel.isSome.toNat) (t.lg { pic := p, lg := l }).pc)

/-- The common stop: no picot issues from this cycle on, and cancelled cycles are taken back (R202, R203). -/
def enterStop (s : State) : State :=
  let n := s.hold.cancel.getD 0
  let s1 := match n, s.hold.past[n - 1]? with
    | 0, _ => s
    | _, some x => (s.restore x n).count Reg.ARY_CANCEL_CYCLES n
    | _, none => s
  ({ s1 with hold := { s1.hold with stopped := true, stopIn := none } } : State).traceHold 4

/-- Something that the coming cycle needs is not there: the array stops in this cycle. -/
def stopNow (s : State) (cause : Nat) (src : HoldSrc) : State :=
  let left := s.hold.stopIn.getD 0
  let s1 : State := { s with hold := { s.hold with cancel := s.hold.cancel.map (· - left) } }
  (s1.requestHold cause src false).enterStop

end State

end Sys2Proof.Machine
end

