-- ==== Sys2Proof/Machine/Clock.lean ====
section
/-!
DEFINITION. The throttle steps and the Legend controller's thermal policy (R17, R20, R34, R402 to R404).
-/

namespace Sys2Proof.Machine

namespace State

/-- The current step, and whether it changes. -/
def stepCode (s : State) : Nat := s.rdF Reg.GLB_CLK_STATUS 0 2
def changing (s : State) : Bool := s.rdB Reg.GLB_CLK_STATUS 2

/-- The Legend controller's policies run: the device is READY and the controller is up (R401, R428). -/
def legendUp (s : State) : Bool := decide (s.phase = 7) && !s.boot.legendDown

/-- T ≥ HIGH, T < LOW of a pair of S16 limits. -/
def isHot (t : BitVec 16) (cfg : Word) : Bool := decide ((cfg.extractLsb' 16 16).toInt ≤ t.toInt)
def isCool (t : BitVec 16) (cfg : Word) : Bool := decide (t.toInt < (cfg.extractLsb' 0 16).toInt)

/-- A sample of the Legend controller (R402). -/
def thermal (s : State) (tl th p : BitVec 16) : State :=
  let pc := s.rd Reg.HLT_POWER_CFG
  let hot := isHot tl (s.rd Reg.HLT_THERM_CFG) || isHot th (s.rd Reg.HLT_HBM_CFG) || decide (fieldNat pc 16 16 ≤ p.toNat)
  let cool := isCool tl (s.rd Reg.HLT_THERM_CFG) && isCool th (s.rd Reg.HLT_HBM_CFG) &&
    decide ((p.toNat : Int) < (fieldNat pc 16 16 : Int) - fieldNat pc 0 16)
  let s1 := s.wr Reg.HLT_TEMP (th ++ tl)
  let s2 := s1.wr Reg.HLT_POWER (BitVec.ofNat 32 (max p.toNat (s1.rdF Reg.HLT_POWER 16 16) * 2 ^ 16 + p.toNat))
  { s2 with boot := { s2.boot with hot := if hot then s2.boot.hot + 1 else 0, cool := if cool then s2.boot.cool + 1 else 0 } }

/-- Ask for a step; a request that arrives during a change waits (R20). -/
def askStep (s : State) (n : Nat) : State := { s with boot := { s.boot with target := some n } }

/-- Ten hot samples in a row (R403). -/
def hotExpiry (s : State) : State :=
  if s.legendUp && decide (10 ≤ s.boot.hot) && decide (s.stepCode < 3) then s.askStep (s.stepCode + 1) else s

/-- FASTEST. -/
def fastest (s : State) : Nat := s.rdF Reg.HLT_STEP_CAP 0 2

/-- A thousand cool samples in a row (R403): HLT_STATUS.CAPPED where FASTEST forbids the step. -/
def coolExpiry (s : State) : State :=
  if s.legendUp && decide (1000 ≤ s.boot.cool) then
    if s.stepCode = 0 then s
    else if s.stepCode - 1 < s.fastest then s.wrB Reg.HLT_STATUS 0 true
    else s.askStep (s.stepCode - 1)
  else s

/-- FASTEST slower than the current step: one step slower per change (R403). -/
def followCap (s : State) : State := if s.stepCode < s.fastest then s.askStep (s.stepCode + 1) else s

/-- HLT_STEP_CAP is written (R403). -/
def writeStepCap (s : State) (v : Word) : State :=
  ((s.mergeWord Reg.HLT_STEP_CAP v).wrB Reg.HLT_STATUS 0 false).followCap

/-- A ref cycle, and the 200 of a relock, in units of 1/18 ns (R17, R20). -/
abbrev refPeriod : Nat := 180
abbrev relockTime : Nat := 36000

/-- A requested step change can begin at the next reference edge. -/
def stepPending (s : State) : Bool := match s.boot.target with | some n => !s.changing && decide (n ≠ s.stepCode) | none => false

/-- The STEP request goes up, 8 array cycles of the old step before the reference edge at which the change begins (R20). -/
def raiseStep (s : State) (period : Nat) : State :=
  if s.stepPending && s.boot.edge.isNone && decide ((s.now + 8 * period) % refPeriod = 0) then
    ({ s with boot := { s.boot with edge := some (s.now + 8 * period) } } : State).requestHold 5 .legend false
  else s

/-- A reference edge at which a requested step change begins (R20, R34); at any other time the request waits for that edge.  The
STEP request has been up for 8 cycles, and the array is in the hold from this edge: an array that the request has not
stopped stops here. -/
def beginStep (s : State) : State :=
  match s.boot.target with
  | none => s
  | some n =>
    if s.changing || decide (s.now % refPeriod ≠ 0) then s
    else if n = s.stepCode then { s with boot := { s.boot with target := none } }
    else
      let s1 := if s.hold.stopped then s.requestHold 5 .legend false else s.stopNow 5 .legend
      let s2 : State := { s1 with boot := { s1.boot with target := none, edge := none, relock := some (s1.now + relockTime), hot := 0, cool := 0 } }
      (((s2.wrF Reg.GLB_CLK_STATUS 0 4 (n + 4)).wrB Reg.HLT_STATUS 1 true).wrB Reg.HLT_STATUS 0 false).irq 1

/-- Every island has relocked (R20, R34): the STEP request clears, and a cap that is slower still asks for one more step. -/
def endStep (s : State) : State :=
  if s.changing then
    let s1 : State := { s with boot := { s.boot with relock := none } }
    (((s1.wrF Reg.GLB_CLK_STATUS 2 2 2).countF Reg.GLB_CLK_STATUS 16 16).clearHold 5 .legend).followCap
  else s

/-- The fixed trips (R404): 110 °C for logic, 100 °C for HBM, and THERMTRIP_L at 125 °C. -/
def tripCheck (s : State) (tl th : BitVec 16) : State :=
  let s1 := if 1760 ≤ tl.toInt then s.fatal 0x0E (tl.setWidth 64) else s
  let s2 := if 1600 ≤ th.toInt then s1.fatal 0x0E (th.setWidth 64 ||| 0x10000) else s1
  if (2000 ≤ tl.toInt ∨ 2000 ≤ th.toInt) ∧ !s2.boot.thermtrip then
    ({ s2 with boot := { s2.boot with thermtrip := true } } : State).emit .thermtrip
  else s2

end State

/-- THERMAL_SAMPLE (R402). -/
def execThermalSample (tLogic tHbm power : BitVec 16) (s : State) : Outcome :=
  .next (if s.legendUp then s.thermal tLogic tHbm power else s)

/-- HOT_SAMPLE_COUNT_EXPIRY (R403). -/
def execHotSampleCountExpiry (s : State) : Outcome := .next s.hotExpiry

/-- COOL_SAMPLE_COUNT_EXPIRY (R403). -/
def execCoolSampleCountExpiry (s : State) : Outcome := .next s.coolExpiry

/-- STEP_CAP_WRITE (R403). -/
def execStepCapWrite (m : Master) (v : Word) (s : State) : Outcome :=
  .next (s.atReg m Reg.HLT_STEP_CAP (fun t => t.writeStepCap v))

/-- STEP_CHANGE_BEGIN (R20). -/
def execStepChangeBegin (s : State) : Outcome := .next s.beginStep

/-- THERMAL_TRIP_CHECK (R404). -/
def execThermalTripCheck (tLogic tHbm : BitVec 16) (s : State) : Outcome := .next (s.tripCheck tLogic tHbm)

end Sys2Proof.Machine
end

