-- ==== Sys2Proof/Machine/HostMem.lean ====
section
/-!
DEFINITION. Device memory on CXL.mem, count words, host queues and subscribers (R321 to R323, R339 to R344).
-/

namespace Sys2Proof.Machine

/-- The count area (R321). -/
abbrev countBase : Nat := 0x90_0000_0000
abbrev countEnd : Nat := 0x90_0004_0000

namespace State

/-- HBM and DDR5 cannot be reached: no context runs, or one ends (R323, R376). -/
def memUnavailable (s : State) : Bool := decide (s.ctx = ctxNone) || decide (s.ctx = ctxEnding) || decide (s.ctx = ctxScrubbing)

/-- A count word. -/
def countWord (s : State) (i : Nat) : DWord := SMap.get 0 s.counts i
/-- A write of 8 bytes or more to a count word takes effect where it increases it; a narrower one is dropped (R341). -/
def writeCount (s : State) (i bytes : Nat) (v : DWord) : State :=
  if bytes < 8 then s.count Reg.HQ_HDM_WDROP
  else if s.countWord i < v then { s with counts := SMap.set 0 s.counts i v } else s

/-- A request for cached state is counted (R322). -/
def hdmMeta (s : State) (cached : Bool) : State := if cached then s.count Reg.HQ_HDM_META else s

/-- Bytes of the count area. -/
def countBytes (s : State) (off len : Nat) : List Byte :=
  (List.range len).map (fun i => (s.countWord ((off + i) / 8)).extractLsb' (8 * ((off + i) % 8)) 8)

/-- The spans of the two HDM decoders, which interleave one way (R321): decoder 0 over HBM and the count area, decoder 1 over the
installed DDR5; modules that break R14 leave it zero bytes (R431). -/
def hdmSpans (s : State) : List (Nat × Nat) :=
  [(0, 0x90_1000_0000), (ddrBase, if s.rdB Reg.GLB_BOOT_STATUS 11 then 0 else s.ddrGib * 2 ^ 30)]

/-- A DPA that a host can reach and that memory backs (R321). -/
def hdmBacked (s : State) (dpa : Nat) : Bool :=
  s.backed dpa && s.hdmSpans.any (fun d => decide (d.1 ≤ dpa) && decide (dpa < d.1 + d.2))

/-- A host or peer read (R323, R347): the count area at once, HBM and DDR5 through their controllers. -/
def hdmRead (s : State) (dpa len : Nat) : State :=
  if countBase ≤ dpa ∧ dpa < countEnd then s.emit (.readData .f0 (s.countBytes (dpa - countBase) len))
  else if s.hdmBacked dpa then
    if s.memUnavailable || s.isProtected then (s.count Reg.HQ_HDM_UNAVAIL).emit (.readData .f0 (List.replicate len 0))
    else s.enqueueMem { cls := if dpa < countBase then 4 else 2, dpa := dpa, len := len, data := none }
  else s.emit (.readData .f0 (List.replicate len 0))

/-- A range lies in the area that an ACQ base and size name in DDR5. -/
def meetsArea (s : State) (a : Area) (dpa len : Nat) : Bool :=
  let b := ddrBase + (s.rd64 a.base).toNat
  decide (dpa < b + s.areaSize a) && decide (b < dpa + len)

/-- May a host write land at a DPA (R323)? -/
def hostWritable (s : State) (dpa len : Nat) : Bool :=
  if dpa < countBase then
    s.img.regions.any (fun r => r.hostW && decide (pillowDpa r.pillow r.off ≤ dpa) && decide (dpa + len ≤ pillowDpa r.pillow r.off + r.len))
  else !s.meetsArea eventArea dpa len && !s.meetsArea surveyArea dpa len

/-- A host or peer write (R323, R341). -/
def hdmWrite (s : State) (dpa : Nat) (bs : List Byte) : State :=
  if countBase ≤ dpa ∧ dpa < countEnd then
    if bs.length < 8 ∨ dpa % 8 ≠ 0 ∨ bs.length % 8 ≠ 0 then s.count Reg.HQ_HDM_WDROP
    else (List.range (bs.length / 8)).foldl (fun t i =>
      t.writeCount ((dpa - countBase) / 8 + i) 8 (BitVec.ofNat 64 (leAt bs (8 * i) 8))) s
  else if s.hdmBacked dpa then
    if s.memUnavailable then s.count Reg.HQ_HDM_UNAVAIL
    else if s.hostWritable dpa bs.length then
      s.enqueueMem { cls := if dpa < countBase then 4 else 2, dpa := dpa, len := bs.length, data := some bs }
    else s.count Reg.HQ_HDM_WDROP
  else s.count Reg.HQ_HDM_WDROP

/-! Host queues (R339 to R341). -/

/-- The hub prefetches the next flit of an inject queue once its count allows (R340); the CXL hold clears with the flits that it
waits for. -/
def prefetch (s : State) (q : Nat) : State :=
  match s.hq q with
  | some x =>
    let k := x.next + x.held.length
    if !x.inject || decide ((s.countWord x.loc).toNat ≤ k) then s
    else
      let r := s.readBytes (x.ring.toNat + 32 * (k % 2 ^ x.log2)) 32
      (r.1.setHq q { x with held := x.held ++ [{ data := BitVec.ofNat 256 (ofBytes r.2), last := false }] }).cxlMet
  | none => s

/-- Write a count to the far side of a queue; the count of flits ejected to a PEER waits for their UIO writes (R341). -/
def tellFar (s : State) (q : Nat) (x : HostQ) : State :=
  if x.peer && !x.inject then s.setHq q { x with owed := x.owed ++ [x.next] }
  else (s.setHq q { x with told := x.next }).emit (.hostWrite x.far (bytesOf 8 (BitVec.ofNat 64 x.next)))

/-- The UIO writes of a PEER queue have completed, and its counts follow (R341). -/
def settlePeer (s : State) (q : Nat) : State :=
  match s.hq q with
  | some x => x.owed.foldl (fun t n => t.emit (.hostWrite x.far (bytesOf 8 (BitVec.ofNat 64 n))))
      (if x.owed.isEmpty then s else s.setHq q { x with told := x.owed.getLastD x.told, owed := [] })
  | none => s

/-- The hub-port entry of a port in the current cycle (R193): ACTION and the number. -/
def hubEntry (s : State) (port : Nat) : Nat × Nat :=
  let e : BitVec 16 := SMap.get 0 s.img.hubTable (64 * port + s.arr.cycle)
  (fieldNat e 14 2, fieldNat e 0 14)

/-- A hub port injects the next flit of the queue that its entry names (R193, R340): a flit that is not there raises the
CXL hold, for which the array stops in this cycle. -/
def queueInject (s : State) (port : Fin 32) : State :=
  let e := s.hubEntry port.val
  if !s.issues || decide (e.1 ≠ 3) then s
  else
    match s.hq e.2 with
    | some x =>
      match x.held with
      | f :: rest =>
        let s1 := s.hubInject port 1 { data := f.data, kind := 0, bad := false, last := f.last } 0
        let y : HostQ := { x with next := x.next + 1, held := rest }
        if y.next % 64 = 0 || f.last then s1.tellFar e.2 y else s1.setHq e.2 y
      | [] => (s.stopNow 4 .cxl).needCxl (e.2, x.next)
    | none => s

/-- Flits in the hub's eject buffer. -/
def ejectHeld (s : State) : Nat := ((s.hostq.filter (fun e => !e.2.inject)).map (fun e => e.2.held.length)).foldl (· + ·) 0

/-- Write the flits of an eject queue for which its ring has room (R341). -/
def drainEject : Nat → Nat → State → State
  | 0, _, s => s
  | fuel + 1, q, s =>
    match s.hq q with
    | some x =>
      match x.held with
      | f :: rest =>
        if (s.countWord x.loc).toNat + 2 ^ x.log2 ≤ x.next then s
        else
          let s1 := s.emit (.hostWrite (x.ring + BitVec.ofNat 64 (32 * (x.next % 2 ^ x.log2))) (s.sealFlit q x.next (bytesOf 32 f.data)))
          let y : HostQ := { x with next := x.next + 1, held := rest }
          drainEject fuel q (if f.last || y.next % 64 = 0 then s1.tellFar q y else s1.setHq q y)
      | [] => s
    | none => s

/-- A flit that has waited out the commit lag enters the eject buffer; a full buffer drops it (R204, R341). -/
def takeCommit (s : State) (q : Nat) : State :=
  match s.arr.commits.find? (fun c => decide (c.action = 2) && decide (c.dest = q)), s.hq q with
  | some c, some x =>
    if c.wait ≠ 0 then s
    else
      let s1 : State := { s with arr := { s.arr with commits := s.arr.commits.erase c } }
      if 16384 ≤ s.ejectHeld then (s1.countF Reg.HQ_EJECT_DROPS 0 31).wrB Reg.HQ_EJECT_DROPS 31 true
      else s1.setHq q { x with held := x.held ++ [{ data := c.flit.data, last := c.flit.last }] }
  | _, _ => s

/-- An eject queue at work (R341): the UIO writes of its last turn have completed by now. -/
def queueEject (s : State) (q : Nat) : State :=
  let s1 := (s.settlePeer q).takeCommit q
  match s1.hq q with
  | some x => if x.inject then s else drainEject (x.held.length + 1) q s1
  | none => s

/-! Subscribers (R343, R344). -/

/-- HQ_SUB_STAT and HQ_SUB_COUNT follow the table. -/
def subStatus (s : State) (n : Nat) : State :=
  let x := s.sub n
  (s.wr (Reg.sub n Reg.HQ_SUB_STAT) (BitVec.ofNat 32 (x.state * 2 ^ 30 + x.kinds))).wr Reg.HQ_SUB_COUNT
    (BitVec.ofNat 32 (s.subs.filter (fun e => decide (e.2.state ≠ 0))).length)

/-- FAR_COUNT of a subscriber is written, and its vector raised after it (R343 to R345). -/
def tellSub (s : State) (x : Sub) (n : Nat) : State :=
  let t := s.emit (.hostWrite x.far (bytesOf 8 (BitVec.ofNat 64 n)))
  if x.vector < 64 then t.raise (BitVec.ofNat 6 x.vector) else t

/-- A leaving subscriber whose records are all written or dropped is free again: its final count is written, and its
SUB_LEAVE completes (R344). -/
def freeIfDone (s : State) (n : Nat) : State :=
  let x := s.sub n
  if x.state = 2 ∧ x.queue.isEmpty then
    let s1 := (s.tellSub x x.written).setSub n Sub.free
    let s2 := s1.subStatus n
    match x.leaver with
    | some r => s2.completeOp 0x0B r stOk (s.rd64 (Reg.sub n Reg.HQ_SUB_DELIVERED)) ((s.rd (Reg.sub n Reg.HQ_SUB_DROPS)).setWidth 64)
    | none => s2
  else s

/-- The oldest record of a subscriber is written, or dropped where its ring is full (R343). -/
def writeRecord (s : State) (n : Nat) : State :=
  let x := s.sub n
  match x.queue with
  | [] => s.freeIfDone n
  | b :: rest =>
    if (s.countWord x.locCnt).toNat + 2 ^ x.log2 ≤ x.written then
      ((s.setSub n { x with queue := rest }).count (Reg.sub n Reg.HQ_SUB_DROPS)).freeIfDone n
    else
      let s1 := s.emit (.hostWrite (x.ring + BitVec.ofNat 64 (64 * (x.written % 2 ^ x.log2))) (s.sealRecord n x.serial x.written b))
      (((s1.tellSub x (x.written + 1)).setSub n { x with queue := rest, written := x.written + 1 }).count64 (Reg.sub n Reg.HQ_SUB_DELIVERED)).freeIfDone n

/-- Write or drop every record of a subscriber (R344, R374). -/
def drainSub (n : Nat) : Nat → State → State
  | 0, s => s
  | fuel + 1, s => if (s.sub n).state = 0 then s else drainSub n fuel (s.writeRecord n)

/-- The first bad byte of a subscription descriptor. -/
def subBad (d : List Byte) : Option Nat :=
  if leAt d 0 8 % 64 ≠ 0 then some 0
  else if 32768 ≤ leAt d 0x10 2 then some 0x10
  else if leAt d 0x12 1 < 6 ∨ 20 < leAt d 0x12 1 then some 0x12
  else if 1 < leAt d 0x13 1 then some 0x13
  else if 63 < leAt d 0x14 1 ∧ leAt d 0x14 1 ≠ 0xFF then some 0x14
  else if leAt d 0x15 3 ≠ 0 then some 0x15
  else if 15 < leAt d 0x18 4 then some 0x18
  else if leAt d 0x1C 4 ≠ 0 then some 0x1C
  else if leAt d 0x28 24 ≠ 0 then some 0x28
  else none

/-- A subscriber joins (R343, R372). -/
def joinSub (s : State) (r : Nat) (d : List Byte) : State :=
  match (List.range 1024).find? (fun n => decide ((s.sub n).state = 0)) with
  | none => s.complete r stTableFull
  | some n =>
    if s.countUsed (leAt d 0x10 2) then s.complete r stTableFull
    else
      let x : Sub :=
        { state := 1, ring := BitVec.ofNat 64 (leAt d 0 8), far := BitVec.ofNat 64 (leAt d 8 8), locCnt := leAt d 0x10 2,
          log2 := leAt d 0x12 1, vector := leAt d 0x14 1, kinds := leAt d 0x18 4, classes := BitVec.ofNat 64 (leAt d 0x20 8),
          streams := BitVec.ofNat 256 (leAt d 0x40 32), serial := s.joins, queue := [], written := 0, leaver := none }
      let s1 : State := { (s.setSub n x) with joins := s.joins + 1 }
      let s2 := ((s1.wr64 (Reg.sub n Reg.HQ_SUB_DELIVERED) 0).wr (Reg.sub n Reg.HQ_SUB_DROPS) 0).subStatus n
      s2.complete r stOk (BitVec.ofNat 64 (n + s.joins * 2 ^ 16)) (BitVec.ofNat 64 s.trg.seq)

/-- A subscriber leaves (R344). -/
def leaveSub (s : State) (r n : Nat) : State :=
  let x := s.sub n
  if x.state ≠ 1 then s.completeBad r 0x28
  else ((s.setSub n { x with state := 2, leaver := some r }).subStatus n).freeIfDone n

/-! READ_EVENTS and READ_SURVEY (R336). -/

/-- A PAD record (R250, R251). -/
def isPad (h : List Byte) : Bool := decide (leAt h 0 4 = 0x45565431) && decide (leAt h 6 2 / 512 % 2 = 1)

/-- The length of a record from its first 64 bytes: LENGTH of an event or PAD record (R251), or what a survey record's
MAGIC and ENTRIES give (R253 to R255). -/
def storedLen (h : List Byte) : Nat :=
  match leAt h 0 2 with
  | 0x5341 => 64 + padTo 64 (32 * leAt h 2 2)
  | 0x5352 => 64 + padTo 64 (16 * leAt h 2 2)
  | _ => leAt h 8 8

/-- Copy whole records of an area from a position on: the bytes so far, records copied, and whether the head record is too
large.  `fuel` bounds the records. -/
def copyRecords (a : Area) (kind room : Nat) : Nat → Nat → List Byte → Nat → State → State × List Byte × Nat × Bool
  | 0, _, acc, n, s => (s, acc, n, false)
  | fuel + 1, pos, acc, n, s =>
    let size := s.areaSize a
    if size = 0 ∨ (s.rd64 a.wptr).toNat ≤ pos then (s, acc, n, false)
    else
      let dpa := ddrBase + (s.rd64 a.base).toNat + pos % size
      let h := s.readBytes dpa 64
      let len := storedLen h.2
      if len < 64 ∨ size < len then (h.1, acc, n, false)
      else if isPad h.2 then copyRecords a kind room fuel (pos + len) acc n h.1
      else
        let b := h.1.readBytes dpa len
        let c := b.1.sealCopy kind pos b.2
        if room < acc.length + c.length then (b.1, acc, n, decide (n = 0))
        else copyRecords a kind room fuel (pos + len) (acc ++ c) (n + 1) b.1

/-- READ_EVENTS or READ_SURVEY: the copy goes to ADDR0. -/
def readArea (s : State) (r : Nat) (e : SubEntry) (a : Area) (kind : Nat) (dma : Option (Fin 3)) : State :=
  let x := copyRecords a kind e.len0.toNat (s.areaSize a / 64 + 1) (s.rd64 a.rptr).toNat [] 0 s
  if x.2.2.2 then x.1.completeBad r 0x10
  else match dma with
    | some d => x.1.completeDma r d
    | none =>
      (if x.2.1.isEmpty then x.1 else x.1.emit (.hostWrite e.addr0 x.2.1)).complete r stOk
        (BitVec.ofNat 64 x.2.1.length) (BitVec.ofNat 64 x.2.2.1)

end State

/-- HDM_READ (R323). -/
def execHdmRead (dpa : BitVec 44) (len : Nat) (cached : Bool) (s : State) : Outcome :=
  .next ((s.hdmMeta cached).hdmRead dpa.toNat len)

/-- HDM_WRITE (R323). -/
def execHdmWrite (dpa : BitVec 44) (bytes : List Byte) (cached : Bool) (s : State) : Outcome :=
  .next ((s.hdmMeta cached).hdmWrite dpa.toNat bytes)

/-- COUNT_WORD_WRITE (R341). -/
def execCountWordWrite (i : Fin 32768) (bytes : Nat) (v : DWord) (s : State) : Outcome := .next (s.writeCount i.val bytes v)

/-- HOST_QUEUE_PREFETCH (R340). -/
def execHostQueuePrefetch (q : BitVec 14) (s : State) : Outcome := .next (s.prefetch q.toNat)

/-- HOST_QUEUE_INJECT (R340). -/
def execHostQueueInject (port : Fin 32) (s : State) : Outcome := .next (s.queueInject port)

/-- HOST_QUEUE_EJECT (R341). -/
def execHostQueueEject (q : BitVec 14) (s : State) : Outcome := .next (s.queueEject q.toNat)

/-- SUB_JOIN (R343). -/
def execSubJoin (r : Fin 16) (desc : List Byte) (dma : Option (Fin 3)) (s : State) : Outcome :=
  .next (s.onRing r 0x0A 0 (fun _ => s.needsState r.val (decide (s.ctx ≠ ctxHalted))
    (match dma with
     | some d => s.completeDma r.val d
     | none =>
       match State.subBad desc with
       | some i => s.completeBad r.val i
       | none => s.joinSub r.val desc)))

/-- SUB_LEAVE (R344): accepted in every state. -/
def execSubLeave (r : Fin 16) (s : State) : Outcome :=
  .next (s.onRing r 0x0B 2 (fun e => if 1024 ≤ e.param 0 2 then s.completeBad r.val 0x28 else s.leaveSub r.val (e.param 0 2)))

/-- SUBSCRIBER_RECORD_WRITE (R343). -/
def execSubscriberRecordWrite (n : Fin 1024) (s : State) : Outcome := .next (s.writeRecord n.val)

/-- READ_EVENTS (R336). -/
def execReadEvents (r : Fin 16) (dma : Option (Fin 3)) (s : State) : Outcome :=
  .next (s.onRing r 0x04 0 (fun e => s.needsContext r.val (s.readArea r.val e eventArea 4 dma)))

/-- READ_SURVEY (R336). -/
def execReadSurvey (r : Fin 16) (dma : Option (Fin 3)) (s : State) : Outcome :=
  .next (s.onRing r 0x05 0 (fun e => s.needsContext r.val (s.readArea r.val e surveyArea 5 dma)))

end Sys2Proof.Machine
end

