-- ==== Sys2Proof/Machine/Context.lean ====
section
/-!
DEFINITION. The life of a context: START, REPLAY, STOP, the end of a context and its scrub (R335, R337, R350, R374 to
R377).
-/

namespace Sys2Proof.Machine

/-- The bits that the register word of a BAR0 offset keeps at context start: counters and sticky fields clear unless their
register says otherwise (chapters 03, 04, 06, 07, 09, 10). -/
def startKeeps (o : Nat) : Word :=
  let is (lo hi : Nat) : Bool := decide (lo ≤ o) && decide (o < hi)
  if is 0x0002_0100 0x0002_0200 then 0xE3
  else if is 0x0002_0548 0x0002_057C || is 0x0002_05A4 0x0002_05A8 || is 0x0002_05B0 0x0002_05C8 then 0
  else if is 0x0002_0588 0x0002_058C then 0x7
  else if is 0x0004_0000 0x0004_0004 || is 0x0004_0088 0x0004_008C then 0x7
  else if is 0x0004_008C 0x0004_0090 || is 0x0004_0180 0x0004_0200 || is 0x0004_0218 0x0004_021C then 0
  else if is 0x0004_0140 0x0004_0180 then 0x3
  else if is 0x0004_0414 0x0004_0418 then 0xFFFF_0003
  else if is 0x0004_0418 0x0004_0420 || is 0x0004_0510 0x0004_0520 then 0
  else if is 0x0004_050C 0x0004_0510 then 0x1
  else if is 0x0004_2050 0x0004_2080 || is 0x0004_2084 0x0004_2088 || is 0x0004_3100 0x0004_3140 then 0
  else if is 0x0005_0010 0x0005_0018 || is 0x0005_0040 0x0005_0078 || is 0x0005_0820 0x0005_0834 then 0
  else if is 0x0006_00E0 0x0006_00E8 then 0xFFFF
  else if is 0x0006_0100 0x0006_0140 then 0
  else if is 0x0008_001C 0x0008_0020 then 0x1
  else if is 0x0008_0090 0x0008_0098 || is 0x0008_0134 0x0008_01B4 then 0
  else if is 0x0008_1000 0x0008_2000 then (if o % 16 = 0 then 0xFFFF_FFFF else 0)
  else if is 0x000A_0424 0x000A_0428 then 0
  else if is 0x0100_0000 0x0140_0000 && decide (o % 0x1000 = 0x120) then 0
  else 0xFFFF_FFFF

/-- The fields of the context that a hub clears with it (R374 step 4): the loader's registers, the staged and active
thresholds, the shed level, the TDC anchor, the lane-encryption mask. -/
def endDrops (o : Nat) : Bool :=
  let is (lo hi : Nat) : Bool := decide (lo ≤ o) && decide (o < hi)
  is 0x0002_0548 0x0002_0560 || is 0x0002_0570 0x0002_0574 || is 0x0002_0578 0x0002_0590 ||
  is 0x0004_0080 0x0004_008C || is 0x0004_0210 0x0004_0218 || is 0x0004_0C00 0x0004_1400 ||
  is 0x0008_0004 0x0008_0008 || is 0x0008_0010 0x0008_0020 || is 0x0008_0104 0x0008_0114 || is 0x0008_1000 0x0008_2000 ||
  is 0x000C_0030 0x000C_0038

/-- Register words under masks; a word at its reset value is not listed. -/
def maskRegs (keep : Nat → Word) (m : SMap Word) : SMap Word :=
  m.filterMap (fun e =>
    let v := e.2 &&& keep (Reg.canon e.1)
    if v = resetWord e.1 then none else some (e.1, v))

/-- The front end's event counters and their flags (R61). -/
def isFeEvent (o : Nat) : Bool := decide (0x0002_05B0 ≤ o) && decide (o < 0x0002_05C8)

/-- Register words of the subscriber table. -/
def isSubWord (o : Nat) : Bool := decide (0x000A_0500 ≤ o) && decide (o < 0x000A_0520)

namespace State

/-- Register words that `p` picks return to their reset values. -/
def dropRegs (s : State) (p : Nat → Bool) : State := { s with regs := s.regs.filter (fun e => !p (Reg.canon e.1)) }

/-- R116 in every picot, with the flits on the links, and the front end's event counters and flags (R61); the array is
IDLE (R374, R427). -/
def arrayClear (s : State) : State :=
  let s1 : State := { s with
    arr := { ArrCore.reset with
      picots := (s.arr.picots.map (fun e => (e.1, e.2.cleared))).filter (fun e => decide (e.2 ≠ Picot.blank)) },
    hold := Hold.reset, peeks := [] }
  ({ s1 with regs := s1.regs.filter (fun e => !isFeEvent (Reg.canon e.1)) } : State).setAryState aryIdle

/-! START (R335). -/

/-- The indices that the enabled sources deliver next (R80, R87). -/
def laneIndices (s : State) : List Nat :=
  (List.range 64).filterMap (fun n => if s.noler n && s.laneOn n then (s.lane n).expect else none) ++
  (List.range 16).filterMap (fun k => if s.linkEn k && (s.link k).started then some (s.link k).next else none)

/-- The newest block that a lane has delivered; none before the first sample. -/
def newestBlock (s : State) : Option Nat :=
  let m := s.laneIndices.foldl max 0
  if m = 0 then none else some (s.blockOf (m - 1))

/-- The first block whose first sample arrives from now on. -/
def nextBlock (s : State) : Nat := (s.laneIndices.foldl max 0 + s.blockLen - 1) / s.blockLen

/-- Every enabled link's S divides the block length (R90, R335): a power of two. -/
def linksDivide (s : State) : Bool :=
  (List.range 16).all (fun k => !s.linkEn k || decide (s.blockLen % s.linkS k = 0))

/-- The calibration fields of the channel records (R94, R405): offset 0, gain 1 and delay 0 where the set has no record
(R407). -/
def copyCalibration (s : State) : State :=
  let s0 : State := { s with ing := { s.ing with recs := s.ing.recs.filter (fun e => decide (e.1 % 16 < 6) || decide (8 < e.1 % 16)) } }
  (List.range 4096).foldl (fun t c =>
    match s.cal.inForce 2 c with
    | some bs => [6, 7, 8].foldl (fun u w =>
        let v := BitVec.ofNat 32 (leAt bs (4 * (w - 6)) 4)
        (u.setRec 0 c w v).setRec 1 c w v) t
    | none => t) s0

/-- Every picot leaves the boot table for the image's fold map (R136). -/
def leaveBoot (s : State) : State :=
  (List.range 1024).foldl (fun t p =>
    t.setPicot p { t.picot p with boot := false, fold := SMap.get [] s.img.folds p }) s

/-- The front end, the trigger block and the capture controller at the start of a context from its first block. -/
def startHub (s : State) (first : Nat) : State :=
  { s with
    ing := { Ingress.none with
      lanes := s.ing.lanes, links := s.ing.links, s12 := s.ing.s12, recs := s.ing.recs,
      recArm := s.ing.recArm, first := first, ebNext := (first, 0), fed := (first, 0), taken := (first, 0), statFrom := first },
    trg := { Trigger.none with
      points := s.trg.points, inputs := s.trg.inputs, widths := s.trg.widths,
      calib := s.trg.calib, anchored := s.trg.anchored, thrArm := s.trg.thrArm },
    acq := { Acq.none with avgFrom := first, redFrom := first * s.blockLen } }

/-- What a context start clears beside its registers: the round and cycle, a replay that ran, adaptation's counts. -/
def clearForStart (s : State) (first : Nat) (replay : Bool) : State :=
  { s with
    arr := { s.arr with round := 0, cycle := 0, events := [] },
    replay := { ring := none, blocks := [], next := (if replay then some first else none), taken := 0 },
    adapt := { s.adapt with
      unusable := 0, dropped := 0, overflow := 0, late := 0, clipped := 0, miss := 0, thr := none, rng := none,
      period := none } }

/-- The ring's registers at a context start (R335). -/
def sizeRing (s : State) : State :=
  (s.wr Reg.ACQ_RING_CFG (BitVec.ofNat 32 s.img.ringGib)).wr64 Reg.ACQ_RING_SLOTS (BitVec.ofNat 64 s.ringSlots)

/-- The context starts (R61, R73, R136, R335). -/
def startContext (s : State) (first : Nat) (replay : Bool) : State :=
  let s1 := ((({ s with regs := maskRegs startKeeps s.regs } : State).startHub first).copyCalibration).leaveBoot
  let s2 := (s1.clearForStart first replay).sizeRing
  let s3 := ((s2.wrB Reg.ING_EB_MODE 1 replay).setCtx ctxRunning).setAryState aryRunning
  let s4 := s3.foldRows (s3.recBank first)
  if s4.adapt.policy = [] then s4 else s4.startPolicy

/-- The image accepts the ING registers (R335): links that divide the block (R90), the image's block length, and its headroom at
the sample period in force (R188). -/
def ingAccepted (s : State) : Bool :=
  s.linksDivide && decide (s.blockLen = 2 ^ s.img.blockLog2) &&
    decide (102 * (10 * 2 ^ 38 * s.img.roundLen * s.img.k) ≤
      100 * (cyclesPerRef s.img.rated * 2 ^ s.img.blockLog2 * (s.rd64 Reg.ING_SAMPLE_PERIOD).toNat))

/-- START in LOADED (R335). -/
def start (s : State) (r fb : Nat) (replay : Bool) : State :=
  if !s.ingAccepted || (replay && !bit s.img.flags 1) then s.completeState r
  else
    let first := if fb = 0 ∧ !replay then s.nextBlock else fb
    let late := !replay && decide (fb ≠ 0) && (match s.newestBlock with | some n => decide (fb ≤ n) | none => false)
    if late then s.completeBad r 0x28
    else (s.startContext first replay).complete r stOk (BitVec.ofNat 64 first)

/-! REPLAY (R337). -/

/-- The first byte of a REPLAY buffer whose header does not carry the index that its place asks for. -/
def replayBad (s : State) (first : Nat) (bs : List (List Byte)) : Option Nat :=
  bs.zipIdx.findSome? (fun x => if leAt x.1 0 8 = first + x.2 then none else some (x.2 * s.ringBlock))

/-- REPLAY: its blocks wait until the input gate needs them. -/
def startReplay (s : State) (r : Nat) (e : SubEntry) (buf : ReplayBuf) : State :=
  let n := e.param 8 4
  let first := e.param 0 8
  let bs := (List.range n).map (fun i => (buf.bytes.drop (i * s.ringBlock)).take s.ringBlock)
  if s.replay.next ≠ some first then s.completeBad r 0x28
  else if e.len0.toNat ≠ n * s.ringBlock then s.completeBad r 0x10
  else match s.replayBad first bs with
    | some off => s.completeBad r off
    | none =>
      let t : State := { s with replay := { ring := some r, blocks := bs, next := some (first + n), taken := 0, lost := buf.lost } }
      if n = 0 then ({ t with replay := { t.replay with ring := none } } : State).complete r stOk else t

/-- The replay queue takes one block: its codes enter stage 5, which counts them (R61, R64, R93, R97, R337), and its header
anchors R91. -/
def replayBlock (s : State) : State :=
  match s.replay.ring, s.replay.blocks with
  | some r, b :: rest =>
    if !s.replaying || s.blockPresent s.gateBlock then s
    else
      let n := leAt b 0 8
      let s1 : State := { s with
        ing := { s.ing with
          replay := some (BitVec.ofNat 64 (leAt b 8 8), n * s.blockLen),
          stamps := SMap.insert s.ing.stamps n s.timeline.toNat, replayed := some n },
        replay := { s.replay with blocks := rest, taken := s.replay.taken + 1, lost := s.replay.lost.map (· - 1) } }
      let s2 : State := ({ s1 with ing := { s1.ing with feed := s1.ing.feed ++ s1.blockEntries n 0 (s1.quantSlot n b), fed := (n + 1, 0) } } : State).notePresent n |>.countSlot n b
      if rest.isEmpty then
        ({ s2 with replay := { s2.replay with ring := none } } : State).completeOp 0x06 r stOk (BitVec.ofNat 64 s2.replay.taken)
      else s2
  | _, _ => s

/-- The fetch of the next block ends in error (R333): the command completes, the blocks taken stay, and the block that could not
be read is the next one expected. -/
def replayFails (s : State) : State :=
  match s.replay.ring, s.replay.blocks with
  | some r, b :: _ =>
    if !s.replaying || s.blockPresent s.gateBlock then s
    else
      ({ s with replay := { s.replay with ring := none, blocks := [], next := some (leAt b 0 8), lost := none } } : State).completeDma r 0
  | _, _ => s

/-! STOP and the end of a context (R350, R374). -/

/-- Requests that wait at the controllers of HBM and DDR5 as a context ends: reads return zeros, writes are dropped, and
both are counted (R323, R376). -/
def dropRequests (s : State) : State :=
  let qs := (s.mem.queue.map Prod.snd).flatten
  let s1 := qs.foldl (fun (t : State) x =>
    let u := t.count Reg.HQ_HDM_UNAVAIL
    if x.data.isSome then u else u.emit (.readData .f0 (List.replicate x.len 0))) s
  { s1 with mem := { s1.mem with queue := [] } }

/-- Steps 1 to 3 of R374 begin.  The commands of the rings in `sec.stops` run on. -/
def beginEnding (s : State) : State :=
  let s1 := ((if s.hold.reqs.any (fun q => decide (q.cause = 7)) then s else s.holdStop).idleOutputs).closeCaptures
  let s2 := (({ s1 with acq := { s1.acq with queue := [], copying := false } } : State).queueStatus).cancelLaunches
  let s3 : State := { s2 with
    subs := s2.subs.map (fun e => (e.1, { e.2 with state := 2, leaver := none })),
    replay := { ring := none, blocks := [], next := none, taken := 0 },
    sec := { s2.sec with opening := none, endFrom := BitVec.ofNat 64 s2.now, events := s2.rd64 Reg.ACQ_EVENTS } }
  let s4 := s3.subs.foldl (fun t e => t.subStatus e.1) s3
  ((((s4.stopPolicies).dropRequests).abortRings s4.sec.stops).setAryState aryStopped).setCtx ctxEnding

/-- STOP as a command of ring r (R350). -/
def stopRing (s : State) (r : Nat) : State :=
  if s.ctx = ctxNone then s.complete r stOk (s.rd64 Reg.ACQ_EVENTS)
  else
    let t : State := { s with sec := { s.sec with stops := s.sec.stops ++ [r] } }
    if s.ctx = ctxEnding ∨ s.ctx = ctxScrubbing then t else t.beginEnding

/-- STOP by register or by a CONTEXT reset (R350). -/
def stopQuiet (s : State) : State :=
  if s.ctx = ctxNone ∨ s.ctx = ctxEnding ∨ s.ctx = ctxScrubbing then s else s.beginEnding

/-- Every context key is destroyed (R354, R374). -/
def destroyKeys (s : State) : State :=
  let t : State := { s with keyGen := 0, sec := { s.sec with owner := [], nonces := [], keys := [], session := 0 } }
  t.wrB Reg.SEC_LINKS 6 false

/-- A scrub begins under a fresh scrub key (R353, R374). -/
def scrubKey (s : State) : State :=
  let g := s.newGen
  { g.2 with sec := { g.2.sec with scrub := g.1 } }

/-- The scrub key is destroyed (R353, R374 step 6). -/
def dropScrubKey (s : State) : State := { s with sec := { s.sec with scrub := 0 } }

/-- DDR5 regions left to scrub, and what the scrub reports as it begins (SEC_SCRUB_STATUS). -/
def beginScrub (s : State) : State :=
  let n := s.mem.dirty.length
  (s.scrubKey.wr Reg.SEC_SCRUB_STATUS (BitVec.ofNat 32 (min n 0xFFF))).setCtx ctxScrubbing

/-- The hub registers and stores of the context clear (R374 step 4). -/
def clearContext (s : State) : State :=
  { s with
    regs := (s.dropRegs endDrops).regs,
    counts := [], img := Image.none, hostq := [], adapt := Adapt.none, ueStop := false, joins := 0,
    ing := { Ingress.none with lanes := s.ing.lanes, links := s.ing.links, s12 := s.ing.s12 },
    trg := { Trigger.none with inputs := s.trg.inputs, widths := s.trg.widths, calib := s.trg.calib },
    acq := { Acq.none with stopped := s.acq.stopped } }

/-- The context state leaves ENDING: a CONTEXT reset is complete, and the subscriber table is clear (R426). -/
def endContextReset (s : State) : State :=
  if s.sec.ctxRst then
    let t : State := ({ s with subs := [], sec := { s.sec with ctxRst := false } } : State).dropRegs isSubWord
    (t.wrB Reg.GLB_RESET_STATUS 7 false).wrB Reg.SEC_CTX_STATUS 10 false
  else s

/-- ENDING is complete (R374 steps 3 and 4). -/
def endEnding (s : State) : State :=
  if s.ctx ≠ ctxEnding then s
  else
    let s0 := s.hostq.foldl (fun t e => t.settlePeer e.1) s
    let s1 := s0.subs.foldl (fun t e => drainSub e.1 (e.2.queue.length + 1) t) s0
    ((((s1.destroyKeys).arrayClear).clearContext).beginScrub).endContextReset

/-- The scrub is complete (R374 steps 5 and 6, R388): every line of HBM and of the dirtied DDR5 regions holds zeros at
VERSION 0, and the STOPs that wait complete. -/
def endScrub (s : State) : State :=
  if s.ctx ≠ ctxScrubbing then s
  else
    let scrubbed (l : Nat) : Bool := isHbm l || decide ((256 * l - ddrBase) / 2 ^ 30 ∈ s.mem.dirty)
    let us := (s.now - s.sec.endFrom.toNat) / 18000
    let s1 : State := { s with mem := { s.mem with
      lines := s.mem.lines.filter (fun e => !scrubbed e.1), lost := s.mem.lost.filter (fun l => !scrubbed l) } }
    let s2 := ((s1.wr Reg.SEC_SCRUB_STATUS 0x6000_0000).wr Reg.SEC_SCRUB_TIME (BitVec.ofNat 32 (min us (2 ^ 32 - 1))))
    let s3 := ((s2.dropScrubKey.wrB Reg.SEC_CTX_STATUS 3 false).setCtx ctxNone).relimit
    s.sec.stops.foldl (fun t r => t.completeOp 0x03 r stOk s.sec.events) { s3 with sec := { s3.sec with stops := [] } }

end State

/-- START (R335): accepted in LOADED alone. -/
def execStart (r : Fin 16) (s : State) : Outcome :=
  .next (s.onRing r 0x02 9 (fun e =>
    if e.param 8 1 / 2 ≠ 0 then s.completeBad r.val 0x30
    else s.needsState r.val (decide (s.ctx = ctxLoaded)) (s.start r.val (e.param 0 8) (decide (e.param 8 1 = 1)))))

/-- REPLAY (R337): accepted while a context runs in replay mode. -/
def execReplay (r : Fin 16) (buf : ReplayBuf) (dma : Option (Fin 3)) (s : State) : Outcome :=
  .next (s.onRing r 0x06 12 (fun e =>
    s.needsState r.val (decide (s.ctx = ctxRunning) && s.replaying && s.replay.ring.isNone)
      (match dma with
       | some d => s.completeDma r.val d
       | none => s.startReplay r.val e buf)))

/-- REPLAY_BLOCK_FETCH (R333, R337). -/
def execReplayBlockFetch (s : State) : Outcome :=
  .next (if s.replay.lost = some 0 then s.replayFails else s.replayBlock)

/-- STOP (R350, R374). -/
def execStop (r : Fin 16) (s : State) : Outcome := .next (s.onRing r 0x03 0 (fun _ => s.stopRing r.val))

/-- CTX_STOP_REGISTER (R350): SEC_CTX_STOP is written, which only function 0 and function 1 may do. -/
def execCtxStopRegister (m : Master) (v : Word) (s : State) : Outcome :=
  .next (s.atReg m Reg.SEC_CTX_STOP (fun t =>
    if m = .f0 ∨ m = .f1 then (if bit v 0 then t.stopQuiet else t) else t.refuse m Reg.SEC_CTX_STOP))

/-- ENDING_COMPLETE (R374). -/
def execEndingComplete (s : State) : Outcome := .next s.endEnding

/-- SCRUB_COMPLETE (R374). -/
def execScrubComplete (s : State) : Outcome := .next s.endScrub

end Sys2Proof.Machine
end

