-- ==== Sys2Proof/Machine/Rsa.lean ====
section
/-!
DEFINITION. RSASSA-PSS verification and RSA-OAEP encryption with SHA-256 and MGF1 (R361, R366, R373, R380, R433).
-/

namespace Sys2Proof.Machine

/-- x^e mod n by squaring; e has at most `fuel` bits. -/
def modPow : Nat → Nat → Nat → Nat → Nat
  | 0, _, _, n => 1 % n
  | fuel + 1, x, e, n =>
    let h := modPow fuel (x * x % n) (e / 2) n
    if e % 2 = 1 then h * x % n else h

/-- The public exponent: R353 states it for the session key (log entry 14). -/
abbrev rsaExp : Nat := 65537

/-- The RSA public operation on octets, most significant first. -/
def rsaPublic (modulus x : List Byte) : List Byte := beOctets 384 (modPow 17 (beNat x) rsaExp (beNat modulus))

/-- MGF1 with SHA-256: `len` octets. -/
def mgf1 (seed : List Byte) (len : Nat) : List Byte :=
  ((List.range ((len + 31) / 32)).flatMap (fun i => sha256 (seed ++ beOctets 4 i))).take len

/-- RSASSA-PSS verification of a 384-octet signature with a salt of 32 octets: the encoded message has 3,071 bits in 384
octets for a 3,072-bit modulus, the top octet's high bit clear. -/
def pssVerify (modulus msg sig : List Byte) : Bool :=
  let n := beNat modulus
  if modulus.length ≠ 384 ∨ sig.length ≠ 384 ∨ n ≤ beNat sig then false
  else
    let em := rsaPublic modulus sig
    let masked := em.take 351
    let h := (em.drop 351).take 32
    let db := xorBytes masked (mgf1 h 351)
    let db' := match db with | b :: bs => (b &&& 0x7F) :: bs | [] => []
    let salt := db'.drop 319
    decide (em.drop 383 = [0xBC]) && !(octet em 0).getLsbD 7 &&
      decide (db'.take 319 = List.replicate 318 0 ++ [1]) &&
      decide (h = sha256 (List.replicate 8 0 ++ sha256 msg ++ salt))

/-- RSA-OAEP encryption of a message under a modulus with a 32-octet seed and an empty label. -/
def oaepEncrypt (modulus msg seed : List Byte) : List Byte :=
  let db := sha256 [] ++ List.replicate (384 - msg.length - 66) 0 ++ [1] ++ msg
  let maskedDb := xorBytes db (mgf1 seed 351)
  let maskedSeed := xorBytes seed (mgf1 maskedDb 32)
  rsaPublic modulus ([0] ++ maskedSeed ++ maskedDb)

end Sys2Proof.Machine
end

