-- ==== Sys2Proof/Machine/Security.lean ====
section
/-!
DEFINITION. The Cartouche's commands and events (R347 to R355, R361 to R373, R380, R381).
-/

namespace Sys2Proof.Machine

/-- Octets cut or filled with zeros to `n`. -/
def fitTo (n : Nat) (bs : List Byte) : List Byte := bs.take n ++ List.replicate (n - bs.length) 0

namespace State

/-- BOOT_ID, least significant byte first. -/
def bootId (s : State) : List Byte := (List.range 4).flatMap (fun i => bytesOf 4 (s.rd (Reg.SEC_BOOT_ID i)))

/-- TRANSITION, IDE on all three protocols, an error entry pending (R363, R394). -/
def transition (s : State) : Bool := s.rdB Reg.SEC_CTX_STATUS 9
def ideActive (s : State) : Bool := s.rdB Reg.SEC_CTX_STATUS 6
def uePending (s : State) : Bool := s.log.oldestPending.isSome

/-- A command that answers by writing `bs` at an address: a failed transfer completes it with BAD_ADDRESS (R333). -/
def writeAnswer (s : State) (r : Nat) (dma : Option (Fin 3)) (addr : DWord) (bs : List Byte) (res0 res1 : Nat) : State :=
  match dma with
  | some d => s.completeDma r d
  | none => (s.emit (.hostWrite addr bs)).complete r stOk (BitVec.ofNat 64 res0) (BitVec.ofNat 64 res1)

/-! Opening a context (R347 to R354, R400, R431). -/

/-- The rule that refuses a CTX_OPEN in NONE; none where it is accepted. -/
def openRefused (s : State) (prot : Bool) (owner : Bool) : Option Nat :=
  if s.rdB Reg.ERR_STATUS 31 || s.uePending then some 400
  else if s.rdF Reg.GLB_BOOT_STATUS 8 4 ≠ 0 then some 431
  else if !s.rdB Reg.SEC_CTX_STATUS 7 then some 352
  else if prot && !(s.ideActive && owner) then some 349
  else none

/-- CTX_OPEN is accepted: the state becomes OPENING (R348, R352, R359, R375). -/
def openContext (s : State) (r : Nat) (prot : Bool) (owner : List Byte) : State :=
  let s1 := ((s.count Reg.SEC_EPOCH).wrB Reg.SEC_CTX_STATUS 3 prot).wrB Reg.SEC_CTX_STATUS 11 false
  let s2 := s1.wr64 Reg.SEC_VERSION_MAX 0
  let s3 : State := { s2 with
    mem := { s2.mem with ctr := [], dirty := [] }, joins := 0, ueStop := false,
    sec := { s2.sec with opening := some r, owner := if prot then owner else [], nonces := [], keys := [], reqs := 0 } }
  (s3.setCtx ctxOpening).relimit

/-- The context keys are installed once a spare session key pair exists (R348, R353, R354). -/
def keysInstalled (s : State) : State :=
  match s.sec.opening with
  | none => s
  | some r =>
    if s.ctx ≠ ctxOpening ∨ !s.rdB Reg.SEC_CTX_STATUS 8 then s
    else
      let g := s.newGen (if s.isProtected then 7 else 5)
      let s1 := ((g.2.wrB Reg.SEC_CTX_STATUS 8 false).wrB Reg.SEC_LINKS 6 s.isProtected).setCtx ctxReady
      let s2 : State := { s1 with keyGen := g.1, sec := { s1.sec with session := g.1, opening := none } }
      s2.completeOp 0x40 r stOk ((s.rd Reg.SEC_EPOCH).setWidth 64)

/-! Attestation (R361 to R364, R378). -/

/-- ARY_REPAIR words: four pillow rows each (R141). -/
def repairWord (s : State) (i : Nat) : Word :=
  BitVec.ofNat 32 (ofBytes ((List.range 4).map (fun k => SMap.get 0x1F s.repair (4 * i + k))))

/-- FLAGS of a report. -/
def reportFlags (s : State) : Nat :=
  s.transition.toNat + 2 * (s.rdB Reg.SEC_CTX_STATUS 10).toNat + 4 * s.isProtected.toNat + 8 * s.ideActive.toNat +
    16 * (s.rdB Reg.SEC_PRIV 0).toNat + 32 * (s.rdB Reg.ERR_STATUS 31).toNat

/-- SHA-256 of the owner key; zero without one. -/
def ownerHash (s : State) : List Byte := if s.sec.owner = [] then List.replicate 32 0 else sha256 s.sec.owner

/-- The measurements of a report in order, the repair map last (R361, R369). -/
def measurements (s : State) : List (List Byte) :=
  [fitTo 32 Config.romMeasure, fitTo 32 Config.cartoucheMeasure, fitTo 32 s.boot.measure,
   if s.transition then fitTo 32 s.boot.staged else fitTo 32 [], fitTo 32 s.img.measure, fitTo 32 s.img.seedMeas, s.ownerHash,
   (List.range 16).flatMap (fun i => bytesOf 4 (s.repairWord i))]

/-- Bytes 0x000 to 0x2FF of a report (R361). -/
def reportBody (s : State) (nonce : List Byte) : List Byte :=
  leBytes 4 0x54524154 ++ leBytes 2 1 ++ leBytes 2 s.reportFlags ++
  [BitVec.ofNat 8 s.ctx, if s.b0 then 0x10 else 0] ++ leBytes 2 s.systemIndex ++ bytesOf 4 (s.rd Reg.SEC_EPOCH) ++ s.bootId ++
  fitTo 32 nonce ++ bytesOf 8 s.timeline ++ bytesOf 4 (s.rd Reg.TIM_ERA) ++ [BitVec.ofNat 8 (s.rdF Reg.TIM_STATUS 0 2), 0, 0, 0] ++
  s.measurements.flatten ++ bytesOf 4 (s.rd Reg.ARY_IMAGE_STAMP) ++ bytesOf 4 (s.rd Reg.GLB_FW_SVN) ++
  [BitVec.ofNat 8 s.sec.keys.length] ++ List.replicate 7 0 ++
  (if s.sec.session = 0 then fitTo 384 [] else fitTo 384 (Config.sessionModulus s.sec.session))

/-- The signed report. -/
def report (s : State) (nonce : List Byte) : List Byte :=
  s.reportBody nonce ++ fitTo 384 (Config.identitySign (s.reportBody nonce))

/-- The nonces of the last 16 reports signed in a context. -/
def keepNonce (s : State) (nonce : List Byte) : State :=
  if s.ctx = ctxNone then s
  else
    let ns := s.sec.nonces ++ [fitTo 32 nonce]
    { s with sec := { s.sec with nonces := ns.drop (ns.length - 16) } }

/-- ATTEST (R361): a nonce that could not be read gives no report. -/
def attest (s : State) (r : Nat) (e : SubEntry) (nonce : List Byte) (dma : Option (Fin 3)) : State :=
  if e.len1.toNat < 1152 then s.completeBad r 0x20
  else if dma = some 0 then s.completeDma r 0
  else (s.keepNonce nonce).writeAnswer r dma e.addr1 (s.report nonce) s.reportFlags s.ctx

/-! Key release and export (R366, R373). -/

/-- May a release message be accepted (R366)? -/
def releaseOk (s : State) (m : List Byte) : Bool :=
  s.isProtected && decide (s.ctx = ctxReady) && !s.transition && !s.rdB Reg.SEC_CTX_STATUS 10 && decide (m.length = 128) &&
    decide (leAt m 0 4 = 0x4C45524B) && decide (leAt m 4 2 = 1) && decide (leAt m 6 2 = 0) &&
    decide (leAt m 0x0C 4 = (s.rd Reg.SEC_EPOCH).toNat) && decide ((m.drop 0x10).take 16 = s.bootId) &&
    decide ((m.drop 0x20).take 32 ∈ s.sec.nonces) && !s.sec.keys.any (fun k => decide (k.id = leAt m 8 4)) &&
    decide (s.sec.keys.length < 16)

/-- KEY_RELEASE on a blob (R366). -/
def release (s : State) (r : Nat) (blob : List Byte) : State :=
  match Config.sessionOpen s.sec.session blob with
  | none => s.completeRefused r 366
  | some m =>
    if s.releaseOk m then
      let k : RelKey := { id := leAt m 8 4, measure := (m.drop 0x40).take 32, key := (m.drop 0x60).take 32 }
      let t : State := { s with sec := { s.sec with keys := s.sec.keys ++ [k] } }
      t.complete r stOk (BitVec.ofNat 64 k.id) (BitVec.ofNat 64 t.sec.keys.length)
    else s.completeRefused r 366

/-- The message of KEY_EXPORT (R373). -/
def exportMessage (s : State) (kind : Nat) : List Byte :=
  leBytes 4 0x5458454B ++ [BitVec.ofNat 8 kind, 0, 0, 0] ++ bytesOf 4 (s.rd Reg.SEC_EPOCH) ++ [0, 0, 0, 0] ++ s.bootId ++
    keyOctets (if kind = 0 then s.kOut else Config.laneKey s.keyGen)

/-- KEY_EXPORT (R373): an open context has neither key. -/
def exportKey (s : State) (r : Nat) (e : SubEntry) (dma : Option (Fin 3)) : State :=
  if !s.isProtected then s.completeRefused r 373
  else
    let d := s.draw 32
    d.2.writeAnswer r dma e.addr0 (oaepEncrypt s.sec.owner (s.exportMessage (e.param 0 1)) d.1) (s.rd Reg.SEC_EPOCH).toNat 0

/-! Privilege (R8, R380). -/

/-- What an operator key signs. -/
def grantMessage (s : State) (challenge : List Byte) (secs : Nat) : List Byte := challenge ++ s.bootId ++ leBytes 4 secs

/-- The completion of a PRIV_GRANT is signed with the identity key (R355). -/
def signCompletion (s : State) (r : Nat) (status : Byte) (res0 : DWord) (detail : Word) : State :=
  match s.running r with
  | some e =>
    let c : Completion := { cid := e.cid, noIrq := e.flags.getLsbD 0, status := status, res0 := res0, res1 := 0, detail := detail }
    (s.emit (.answer (fitTo 384 (Config.identitySign (s.completionBytes r c))))).complete r status res0 0 detail
  | none => s

/-- PRIV_GRANT on a signature: a challenge serves one grant; SECONDS zero takes privilege back. -/
def grant (s : State) (r slot secs : Nat) (sig modulus : List Byte) : State :=
  let hash := (s.fuse.opkeys.find? (fun e => decide (e.1 = slot))).map Prod.snd
  match s.sec.challenge with
  | none => s.signCompletion r stRefused 0 380
  | some c =>
    if hash = some (sha256 modulus) && pssVerify modulus (s.grantMessage c secs) sig then
      let t : State := { s with sec := { s.sec with challenge := none, privAt := s.now } }
      let w : Word := if secs = 0 then 0 else BitVec.ofNat 32 (secs * 2 ^ 8 + slot * 2 ^ 4 + 1)
      (t.wr Reg.SEC_PRIV w).signCompletion r stOk (BitVec.ofNat 64 secs) 0
    else s.signCompletion r stRefused 0 380

/-- OPKEY_ENROL: the first key needs no privilege; a burned slot is not burned again. -/
def enrol (s : State) (r slot : Nat) (m : Master) (modulus : List Byte) : State :=
  if (!s.fuse.opkeys.isEmpty && !s.privileged m) || s.fuse.opkeys.any (fun e => decide (e.1 = slot)) then s.completeRefused r 380
  else
    let t : State := { s with fuse := { s.fuse with opkeys := SMap.insert s.fuse.opkeys slot (sha256 modulus) } }
    (t.wrB Reg.SEC_OPKEYS slot true).complete r stOk

/-! Links (R369, R371). -/

/-- The bit of a protocol in SEC_LINKS. -/
def ideBit : CxlProto → Nat
  | .io => 0
  | .cache => 1
  | .mem => 2

/-- IDE starts or stops on a protocol. -/
def setIde (s : State) (p : CxlProto) (on : Bool) : State :=
  let t := s.wrB Reg.SEC_LINKS (ideBit p) on
  t.wrB Reg.SEC_CTX_STATUS 6 (decide (t.rdF Reg.SEC_LINKS 0 3 = 7))

/-- IDE stops on a protocol: a protected context halts (R369, R391). -/
def loseIde (s : State) (p : CxlProto) : State :=
  let t := s.setIde p false
  if s.rdB Reg.SEC_LINKS (ideBit p) && s.isProtected && decide (1 ≤ s.ctx) && decide (s.ctx ≤ 5) then t.uncorrectable 0x0B 1 else t

/-- An SPDM request (R369): GET_MEASUREMENTS answers eight signed blocks; IDE_KM programs or stops keys; another request has
an answer of which the spec gives no form. -/
def spdm (s : State) (q : SpdmReq) (nonce : List Byte) : State :=
  match q with
  | .getMeasurements =>
    let b := s.measurements.flatten
    s.emit (.answer (b ++ fitTo 384 (Config.identitySign (b ++ nonce))))
  | .ideKeyProgram p => s.setIde p true
  | .ideKeyStop p => s.loseIde p
  | .other =>
    let f := s.free256
    f.2.emit (.answer (bytesOf 32 f.1))

/-- A key-agreement message on a port (R371): under a CAK, a valid one leads to a SAK, which the device distributes in a
message of IEEE 802.1X-2020. -/
def mka (s : State) (p : Nat) (valid : Bool) : State :=
  if valid && (SMap.get [] s.sec.cak p).length ≠ 0 then
    let d := s.draw 32
    let f := (d.2.wrB Reg.SEC_LINKS (4 + p) true).free256
    let g := f.2.free256
    (g.2.newSak p d.1 g.1).emit (.answer (bytesOf 32 f.1))
  else s

end State

/-- CTX_OPEN (R347 to R351, R381). -/
def execCtxOpen (r : Fin 16) (ownerKey : List Byte) (dma : Option (Fin 3)) (s : State) : Outcome :=
  .next (s.onRing r 0x40 1 (fun e =>
    let prot := decide (e.param 0 1 = 1)
    if 1 < e.param 0 1 then s.completeBad r.val 0x28
    else if prot && decide (e.len0.toNat ≠ 0) && decide (e.len0.toNat ≠ 384) then s.completeBad r.val 0x10
    else if s.ctx = ctxEnding ∨ s.ctx = ctxScrubbing then s.complete r.val stUnavailable
    else if s.ctx = ctxHalted then s.completeState r.val
    else if s.ctx ≠ ctxNone then s.completeRefused r.val 349
    else match s.openRefused prot (decide (e.len0.toNat = 384)) with
      | some rule => s.completeRefused r.val rule
      | none => match dma with
        | some d => if prot then s.completeDma r.val d else s.openContext r.val prot []
        | none => s.openContext r.val prot (fitTo 384 ownerKey)))

/-- KEY_INSTALL_COMPLETE (R348). -/
def execKeyInstallComplete (s : State) : Outcome := .next s.keysInstalled

/-- ATTEST (R361). -/
def execAttest (r : Fin 16) (nonce : List Byte) (dma : Option (Fin 3)) (s : State) : Outcome :=
  .next (s.onRing r 0x41 0 (fun e => s.attest r.val e nonce dma))

/-- KEY_RELEASE (R366). -/
def execKeyRelease (r : Fin 16) (blob : List Byte) (dma : Option (Fin 3)) (s : State) : Outcome :=
  .next (s.onRing r 0x42 0 (fun e =>
    if e.len0.toNat ≠ 384 then s.completeBad r.val 0x10
    else s.needsState r.val (decide (s.ctx ≠ ctxHalted))
      (match dma with
       | some d => s.completeDma r.val d
       | none => s.release r.val blob)))

/-- KEY_EXPORT (R373). -/
def execKeyExport (r : Fin 16) (dma : Option (Fin 3)) (s : State) : Outcome :=
  .next (s.onRing r 0x43 1 (fun e =>
    if 1 < e.param 0 1 then s.completeBad r.val 0x28
    else if e.len0.toNat < 384 then s.completeBad r.val 0x10
    else s.needsState r.val (decide (s.ctx ≠ ctxHalted)) (s.exportKey r.val e dma)))

/-- GET_CERT (R355). -/
def execGetCert (r : Fin 16) (dma : Option (Fin 3)) (s : State) : Outcome :=
  .next (s.onRing r 0x44 0 (fun e =>
    let c := s.flash.cert
    if !Config.chainVerifies c then s.completeRefused r.val 355
    else if e.len0.toNat < c.length then s.completeBad r.val 0x10
    else s.writeAnswer r.val dma e.addr0 c c.length (Config.chainCount c)))

/-- PRIV_CHALLENGE (R380). -/
def execPrivChallenge (r : Fin 16) (dma : Option (Fin 3)) (s : State) : Outcome :=
  .next (s.onRing r 0x45 0 (fun e =>
    if e.len0.toNat < 32 then s.completeBad r.val 0x10
    else
      let d := s.draw 32
      let t : State := { d.2 with sec := { d.2.sec with challenge := some d.1 } }
      t.writeAnswer r.val dma e.addr0 d.1 0 0))

/-- PRIV_GRANT (R380). -/
def execPrivGrant (r : Fin 16) (signature modulus : List Byte) (dma : Option (Fin 3)) (s : State) : Outcome :=
  .next (s.onRing r 0x46 8 (fun e =>
    if 3 < e.param 0 1 then s.completeBad r.val 0x28
    else match e.firstNonzero 0x29 0x2C with
      | some i => s.completeBad r.val i
      | none =>
        if 86400 < e.param 4 4 then s.completeBad r.val 0x2C
        else if e.len0.toNat ≠ 384 then s.completeBad r.val 0x10
        else match dma with
          | some d => s.completeDma r.val d
          | none => s.grant r.val (e.param 0 1) (e.param 4 4) signature modulus))

/-- PRIV_EXPIRY (R380). -/
def execPrivExpiry (s : State) : Outcome := .next (s.wr Reg.SEC_PRIV 0)

/-- OPKEY_ENROL (R380). -/
def execOpkeyEnrol (r : Fin 16) (m : Master) (modulus : List Byte) (dma : Option (Fin 3)) (s : State) : Outcome :=
  .next (s.onRing r 0x47 1 (fun e =>
    if 3 < e.param 0 1 then s.completeBad r.val 0x28
    else if e.len0.toNat ≠ 384 then s.completeBad r.val 0x10
    else match dma with
      | some d => s.completeDma r.val d
      | none => s.enrol r.val (e.param 0 1) m (fitTo 384 modulus)))

/-- CAK_SET (R371, R381): function 1 with privilege. -/
def execCakSet (r : Fin 16) (m : Master) (cak : List Byte) (dma : Option (Fin 3)) (s : State) : Outcome :=
  .next (s.onRing r 0x48 24 (fun e =>
    if 1 < e.param 0 1 then s.completeBad r.val 0x28
    else match e.firstNonzero 0x29 0x30 with
      | some i => s.completeBad r.val i
      | none =>
        if e.len0.toNat ≠ 32 then s.completeBad r.val 0x10
        else if m ≠ .f1 ∨ !s.privileged m then s.completeRefused r.val 381
        else match dma with
          | some d => s.completeDma r.val d
          | none =>
            let v := leBytes 16 (e.param 8 16) ++ fitTo 32 cak
            ({ s with sec := { s.sec with cak := SMap.set [] s.sec.cak (e.param 0 1) v } } : State).complete r.val stOk))

/-- MKA_MESSAGE (R371): the message's own checks are `valid`. -/
def execMkaMessage (port : Fin 2) (_msg : List Byte) (valid : Bool) (s : State) : Outcome := .next (s.mka port.val valid)

/-- SPDM_MESSAGE (R369). -/
def execSpdmMessage (req : SpdmReq) (nonce : List Byte) (s : State) : Outcome := .next (s.spdm req nonce)

/-- IDE_LOST (R369). -/
def execIdeLost (p : CxlProto) (s : State) : Outcome := .next (s.loseIde p)

/-- SPARE_KEY_READY (R352, R354). -/
def execSpareKeyReady (s : State) : Outcome := .next (s.request.wrB Reg.SEC_CTX_STATUS 8 true)

/-- DRBG_RESEED (R352). -/
def execDrbgReseed (s : State) : Outcome := .next { s with sec := { s.sec with reqs := 0 } }

/-- ENTROPY_HEALTH_FAIL (R352). -/
def execEntropyHealthFail (s : State) : Outcome := .next (s.wrB Reg.SEC_CTX_STATUS 7 false)

end Sys2Proof.Machine
end

