-- ==== Sys2Proof/Machine/Reset.lean ====
section
/-!
DEFINITION. The four resets (R421 to R427), the pins that start them, and the end of a step change (R20).
-/

namespace Sys2Proof.Machine

/-- Register words of the ring pairs (R426). -/
def isRingWord (o : Nat) : Bool := decide (0x000A_0000 ≤ o) && decide (o < 0x000A_0400)
/-- Words of the MSI-X table and of the pending bits (R426). -/
def isMsixWord (o : Nat) : Bool := decide (Reg.bar2 0 ≤ o)
/-- The ING, TRG and ACQ registers. -/
def isHubWord (o : Nat) : Bool := decide (0x0002_0000 ≤ o) && decide (o < 0x0006_0000)

namespace State

/-- A request of equal or lower order than the reset in progress (R423). -/
def absorbed (s : State) : State := s.wrB Reg.GLB_RESET_STATUS 8 true

/-- A trigger output's pin is high (R238). -/
def pinHigh (s : State) (o : Nat) : Bool := (s.tout o).high != s.rdB (Reg.TRG_OUT_CFG o) 30

/-- The trigger outputs as the reset of the TRG registers leaves them: those whose pins were high go low (R239). -/
def dropOutputs (s : State) (t : State) : State :=
  (List.range 16).foldl (fun u o => if s.pinHigh o then u.emit (.trig o false) else u) t

/-- What a COLD reset leaves as it was: the queue of commands, what the block has driven, the device's stepping and
modules, flash, fuses, ageing monitors, the contents of storage and memory, the pins, and the model's own counters. -/
def coldKept (s : State) : State :=
  { State.reset with
    pending := s.pending, b0 := s.b0, out := s.out, ddrLog := s.ddrLog, fuse := s.fuse, health := s.health, flash := s.flash,
    cal := { s.cal with inUse := none }, freeCount := s.freeCount,
    arr := { ArrCore.reset with
      picots := (s.arr.picots.map (fun e => (e.1, e.2.cleared))).filter (fun e => decide (e.2 ≠ Picot.blank)) },
    mem := { MemState.blank with lines := s.mem.lines },
    sec := { SecSt.none with drawn := s.sec.drawn },
    boot := { BootSt.none with porLow := s.boot.porLow, perstLow := s.boot.perstLow } }

/-- A COLD reset (R421, R422): PPS_OUT and the trigger outputs go low, and GLB_RESET_STATUS names the cause. -/
def coldReset (s : State) (cause : Nat) : State :=
  if s.boot.porLow then s.absorbed
  else
    let t : State := { s.coldKept with boot := { s.coldKept.boot with porLow := decide (cause = 1) } }
    let u := (t.wr Reg.GLB_RESET_STATUS (BitVec.ofNat 32 cause)).wrF Reg.GLB_POWER_STATUS 0 12 (if cause = 1 then 0 else 0xFFF)
    s.dropOutputs (if s.time.ppsOut then u.emit (.pps false s.timeline) else u)

/-- A write of GLB_COLD_RESET (P): the key must be 0x9E37. -/
def writeColdReset (s : State) (m : Master) (v : Word) : State :=
  if !s.privileged m then s.violation kPriv m Reg.GLB_COLD_RESET
  else if fieldNat v 16 16 ≠ 0x9E37 then s.refuse m Reg.GLB_COLD_RESET
  else if bit v 0 then s.coldReset 2 else s

/-- Every entry of the error log stops being pending, and CONTAIN clears (R394, R422). -/
def endPending (s : State) : State :=
  let t : State := { s with log := { s.log with entries := s.log.entries.map (fun e => { e with pending := false }) } }
  t.wrB Reg.ERR_STATUS 31 false

/-- A WARM reset (R421 to R425). -/
def warmReset (s : State) (cause : Nat) : State :=
  if s.boot.porLow || s.boot.perstLow then s.absorbed
  else
    let ends := decide (s.ctx ≠ ctxNone)
    let s1 := (((s.cancelLaunches).destroyKeys).arrayClear).clearContext
    let s2 := (s1.dropRegs (fun o => isRingWord o || isSubWord o || isHubWord o || isMsixWord o)).endPending
    let s3 : State := { s2 with
      latches := [], rings := [], subs := [], ing := Ingress.none, trg := Trigger.none, acq := Acq.none,
      replay := { ring := none, blocks := [], next := none, taken := 0 },
      mem := { s2.mem with queue := [] },
      sec := { s2.sec with opening := none, stops := [], ctxRst := false, scrub := 0 },
      boot := { s2.boot with
        slot := none, perstLow := decide (cause = 3), cold := false, linkUp := false, waiting := none, began := s.now,
        hot := 0, cool := 0, target := none, edge := none, relock := none, legendDown := false, expiries := [] } }
    let s4 := ((s3.wrF Reg.GLB_CLK_STATUS 0 4 0xB).wrF Reg.SEC_LINKS 0 3 0).wrB Reg.SEC_CTX_STATUS 6 false
    let s5 := (s4.wrB Reg.SEC_CTX_STATUS 10 false).setCtx (if ends then ctxScrubbing else ctxNone) |>.relimit
    let s6 := ((s5.countF Reg.GLB_RESET_STATUS 24 8).wrF Reg.GLB_RESET_STATUS 0 8 (16 + cause)).setPhase 0
    s.dropOutputs (s6.wrB Reg.GLB_FW_STATUS 3 false)

/-- The rings and the subscriber table as a CONTEXT reset clears them (R426). -/
def clearRings (s : State) : State :=
  let t := s.dropRegs (fun o => isRingWord o || isMsixWord o)
  { t with rings := [], sec := { t.sec with stops := [], opening := none } }

/-- A CONTEXT reset (R426): a context ends as by STOP; in NONE and SCRUBBING only rings, MSI-X and subscribers clear. -/
def contextReset (s : State) : State :=
  if s.boot.porLow || s.boot.perstLow || s.sec.ctxRst then s.absorbed
  else if s.changing then { s with boot := { s.boot with waiting := some 2 } }
  else
    let s1 := ((s.countF Reg.GLB_RESET_STATUS 16 8).wrF Reg.GLB_RESET_STATUS 4 3 2).clearRings
    if s.ctx = ctxNone ∨ s.ctx = ctxScrubbing then ({ s1 with subs := [] } : State).dropRegs isSubWord
    else
      let s2 : State := { s1 with sec := { s1.sec with ctxRst := true } }
      ((s2.stopQuiet).wrB Reg.GLB_RESET_STATUS 7 true).wrB Reg.SEC_CTX_STATUS 10 true

/-- An ARRAY reset by register (R427): in NONE alone; commands that run complete with ABORTED (R423). -/
def arrayReset (s : State) (m : Master) : State :=
  if s.ctx ≠ ctxNone then s.refuse m Reg.GLB_RESET_CTL
  else if s.boot.porLow || s.boot.perstLow || s.sec.ctxRst then s.absorbed
  else if s.changing then
    if s.boot.waiting = some 2 then s.absorbed else { s with boot := { s.boot with waiting := some 3 } }
  else ((s.wrF Reg.GLB_RESET_STATUS 4 3 3).abortRings []).arrayClear

/-- A write of GLB_RESET_CTL: function 0 or 1, with the key. -/
def writeResetCtl (s : State) (m : Master) (v : Word) : State :=
  if (m ≠ .f0 ∧ m ≠ .f1) ∨ fieldNat v 16 16 ≠ 0xC7A5 then s.refuse m Reg.GLB_RESET_CTL
  else match fieldNat v 0 2 with
    | 1 => s.warmReset 4
    | 2 => s.contextReset
    | 3 => s.arrayReset m
    | _ => s

/-- Every island has relocked (R20): the stated latencies follow the step (R195), and a reset that waited begins (R423). -/
def relocked (s : State) : State :=
  if !s.changing then s
  else
    let t := s.endStep.restateLatencies
    let u : State := { t with boot := { t.boot with waiting := none } }
    match s.boot.waiting with
    | some 2 => u.contextReset
    | some _ => u.arrayReset .f0
    | none => u

/-- A rail leaves its tolerance (R415). -/
def railOut (s : State) (rail : Nat) (long : Bool) : State :=
  if long then (if s.boot.porLow then s else s.coldReset 0) else s.wrB Reg.GLB_POWER_STATUS (16 + rail) true

end State

/-- COLD_RESET (R421): a supply rise, POR_L low, or a write of GLB_COLD_RESET. -/
def execColdReset (cause : Fin 3) (m : Master) (v : Word) (s : State) : Outcome :=
  .next (if cause.val = 2 then s.writeColdReset m v else s.coldReset cause.val)

/-- RAIL_EXCURSION (R415). -/
def execRailExcursion (rail : Fin 12) (long : Bool) (s : State) : Outcome := .next (s.railOut rail.val long)

/-- WARM_RESET (R421): PERST_L low, a write of GLB_RESET_CTL, a timer, or FW_DISCARD; causes 0 to 2 are COLD's. -/
def execWarmReset (cause : Fin 8) (m : Master) (v : Word) (s : State) : Outcome :=
  .next (if cause.val < 3 then s else if cause.val = 4 then s.writeResetCtl m v else s.warmReset cause.val)

/-- CONTEXT_RESET (R426): a Function Level Reset of function 0, or a write of GLB_RESET_CTL. -/
def execContextReset (flr : Bool) (m : Master) (v : Word) (s : State) : Outcome :=
  .next (if flr then s.contextReset else s.writeResetCtl m v)

/-- ARRAY_RESET (R427): a write of GLB_RESET_CTL. -/
def execArrayReset (m : Master) (v : Word) (s : State) : Outcome := .next (s.writeResetCtl m v)

/-- FUNCTION1_FLR (R421): only the configuration space of function 1 is reset. -/
def execFunction1Flr (s : State) : Outcome := .next s

/-- ISLAND_RELOCK_COMPLETE (R20, R34). -/
def execIslandRelockComplete (s : State) : Outcome := .next s.relocked

end Sys2Proof.Machine
end

