-- ==== Sys2Proof/Machine/Boot.lean ====
section
/-!
DEFINITION. Boot, firmware and its update, the Legend controller's watchdog (R401, R428 to R438).
-/

namespace Sys2Proof.Machine

/-- Bytes of a firmware slot (R432). -/
abbrev slotSize : Nat := 30 * 2 ^ 20

/-- Flash offset of a firmware slot. -/
def slotBase (b : Bool) : Nat := if b then 0x01F0_0000 else 0x0010_0000

/-- The record in force where no copy is valid (R434). -/
def BootRec.blank : BootRec := { seq := 0, active := false, staged := 0, tries := 0 }

/-- The slot that a STAGED code names. -/
def stagedSlot (n : Nat) : Option Bool :=
  match n with
  | 1 => some false
  | 2 => some true
  | _ => none

/-- STAGED of a slot. -/
def stagedCode (b : Bool) : Nat := if b then 2 else 1

namespace Flash

/-- A firmware slot. -/
def slot (f : Flash) (b : Bool) : SMap Byte := if b then f.slotB else f.slotA

/-- Bytes of a slot; an unlisted byte is erased. -/
def bytes (f : Flash) (b : Bool) (off n : Nat) : List Byte := (List.range n).map (fun i => SMap.get 0xFF (f.slot b) (off + i))

/-- Copy 1 of the boot control record is in force: valid, with the higher SEQ (R434). -/
def useRec1 (f : Flash) : Bool :=
  match f.rec0, f.rec1 with
  | some a, some b => decide (a.seq < b.seq)
  | .none, some _ => true
  | _, .none => false

/-- The boot control record in force (R434). -/
def record (f : Flash) : BootRec := ((if f.useRec1 then f.rec1 else f.rec0).getD BootRec.blank)

/-- A new record: SEQ + 1, into the copy not in force (R434). -/
def writeRecord (f : Flash) (r : BootRec) : Flash :=
  let n : BootRec := { r with seq := f.record.seq + 1 }
  if f.useRec1 then { f with rec0 := some n } else { f with rec1 := some n }

/-- A slot's header (R433). -/
def header (f : Flash) (b : Bool) : List Byte := f.bytes b 0 1024

/-- SVN of a slot's image. -/
def svn (f : Flash) (b : Bool) : Nat := leAt (f.header b) 8 4

/-- The measurement of a slot's image (R433). -/
def measure (f : Flash) (b : Bool) : List Byte := sha256 ((f.header b).take 512)

/-- Is a slot's image valid for a stepping and a minimum SVN (R433)? -/
def valid (f : Flash) (b : Bool) (b0 : Bool) (minSvn : Nat) : Bool :=
  let h := f.header b
  let len := leAt h 0x10 8
  let modulus := (h.drop 0x80).take 384
  let zeros (off n : Nat) : Bool := decide (leAt h off n = 0)
  decide (leAt h 0 4 = 0x57464C43) && decide (leAt h 4 2 = 1) && decide (leAt h 6 2 / (if b0 then 2 else 1) % 2 = 1) &&
    decide (leAt h 6 2 < 4) && zeros 0x0C 4 && zeros 0x40 64 && zeros 0x380 128 && decide (len ≤ slotSize - 1024) &&
    decide (sha256 modulus = Config.fwKeyHash) && pssVerify modulus (h.take 512) ((h.drop 0x200).take 384) &&
    decide ((h.drop 0x20).take 32 = sha256 (f.bytes b 1024 len)) && decide (minSvn ≤ leAt h 8 4)

/-- Program data into a slot; at offset 0 the whole slot is erased first (R438).  A NOR flash clears bits. -/
def program (f : Flash) (b : Bool) (off : Nat) (data : List Byte) : Flash :=
  let m0 := if off = 0 then [] else f.slot b
  let m := data.zipIdx.foldl (fun m x => SMap.set 0xFF m (off + x.2) (SMap.get 0xFF m (off + x.2) &&& x.1)) m0
  if b then { f with slotB := m } else { f with slotA := m }

end Flash

namespace State

/-- GLB_FW_STATUS: ACTIVE, STAGED and TRIES of the record in force, MIN_SVN of the fuses. -/
def fwStatus (s : State) : State :=
  let r := s.flash.record
  ((s.wrF Reg.GLB_FW_STATUS 0 3 (r.active.toNat + 2 * r.staged)).wrF Reg.GLB_FW_STATUS 24 8 r.tries).wrF Reg.GLB_FW_STATUS 16 8 s.fuse.minSvn

/-- Write a boot control record. -/
def putRecord (s : State) (r : BootRec) : State := ({ s with flash := s.flash.writeRecord r } : State).fwStatus

/-- Is a slot valid now? -/
def slotValid (s : State) (b : Bool) : Bool := s.flash.valid b s.b0 s.fuse.minSvn

/-- The ROM looks at a slot: FW_A_BAD or FW_B_BAD follows what it finds. -/
def look (s : State) (b : Bool) : State := s.wrB Reg.GLB_BOOT_STATUS (if b then 13 else 12) (!s.slotValid b)

/-- The running image is on trial (R436). -/
def onTrial (s : State) : Bool := s.rdB Reg.GLB_FW_STATUS 3
def setTransition (s : State) (b : Bool) : State := s.wrB Reg.SEC_CTX_STATUS 9 b

/-- The firmware of a slot starts (R28, R428, R436): the next phase follows the kind of boot. -/
def runSlot (s : State) (b trial : Bool) : State :=
  let s1 : State := { s with boot := { s.boot with
    slot := some b, measure := s.flash.measure b, kicked := s.timeline,
    staged := if trial then s.flash.measure s.flash.record.active else [] } }
  let s2 := ((s1.wr Reg.GLB_FW_SVN (BitVec.ofNat 32 (s.flash.svn b))).wrB Reg.GLB_BOOT_STATUS 14 b).wrB Reg.GLB_FW_STATUS 3 trial
  (s2.setTransition trial).setPhase (if s.boot.cold then 4 else 5)

/-- Step 3 of R435, and step 4 where no slot is valid (R437). -/
def runActive (s : State) : State :=
  let a := s.flash.record.active
  let s1 := s.look a
  if s.slotValid a then s1.runSlot a false
  else
    let s2 := s1.look (!a)
    if s.slotValid (!a) then
      ((s2.putRecord { s.flash.record with active := !a }).logMinor 0x0F clsInfo (BitVec.ofNat 64 (slotBase a))).runSlot (!a) false
    else
      let t : State := { s2 with boot := { s2.boot with slot := none, measure := [], staged := [] } }
      (((t.wr Reg.GLB_FW_SVN 0).wrB Reg.GLB_FW_STATUS 3 false).setTransition false).setPhase 8

/-- Step 2 of R435. -/
def rollBack (s : State) : State :=
  ((s.putRecord { s.flash.record with staged := 0, tries := 0 }).wrB Reg.GLB_FW_STATUS 4 true).runActive

/-- The ROM chooses the firmware (R435). -/
def chooseSlot (s : State) : State :=
  let s0 := ((s.wrF Reg.GLB_BOOT_STATUS 12 2 0).wrB Reg.GLB_FW_STATUS 4 false).fwStatus
  let r := s0.flash.record
  match stagedSlot r.staged with
  | none => s0.runActive
  | some b =>
    if 0 < r.tries then
      let s1 := (s0.putRecord { r with tries := r.tries - 1 }).look b
      if s0.slotValid b then s1.runSlot b true else s1.rollBack
    else s0.rollBack

/-- The scrub of a boot (R425, R430): what is left of DDR5, and the context state. -/
def beginInit (s : State) : State :=
  let n := if s.boot.cold then s.ddrGib else s.mem.dirty.length
  ((s.scrubKey.wr Reg.SEC_SCRUB_STATUS (BitVec.ofNat 32 (min n 0xFFF))).setCtx ctxScrubbing).setPhase 6

/-- Memory training is over (R14, R431): after a WARM reset the memories leave self-refresh as they were. -/
def trained (s : State) (hbm : BitVec 12) (ddr : BitVec 8) (mismatch : Bool) : State :=
  if !s.boot.cold then s.beginInit
  else
    let n := (List.range 8).countP (fun i => ddr.getLsbD i)
    let s1 := (s.wrF Reg.GLB_BOOT_STATUS 16 12 hbm.toNat).wrB Reg.GLB_BOOT_STATUS 9 (decide (hbm ≠ 0xFFF))
    let s2 := (s1.wrB Reg.GLB_BOOT_STATUS 10 (decide (ddr ≠ 0xFF))).wrB Reg.GLB_BOOT_STATUS 11 mismatch
    (s2.wrF Reg.GLB_TOPOLOGY 20 4 n).beginInit

/-- The device is READY (R428, R430): every line that this boot scrubs holds zeros at VERSION 0. -/
def ready (s : State) : State :=
  let hit (l : Nat) : Bool := s.boot.cold || isHbm l || decide ((256 * l - ddrBase) / 2 ^ 30 ∈ s.mem.dirty)
  let s1 : State := { s with mem := { s.mem with
    lines := s.mem.lines.filter (fun e => !hit e.1), lost := s.mem.lost.filter (fun l => !hit l) } }
  let ms := (s.now - s.boot.began) / 18000000
  let s2 := (s1.wr Reg.SEC_SCRUB_STATUS 0x6000_0000).wr Reg.GLB_BOOT_TIME (BitVec.ofNat 32 ms)
  (((s2.dropScrubKey.wrB Reg.SEC_CTX_STATUS 3 false).setCtx ctxNone).relimit).setPhase 7

/-- The calibration store is read, a torn journal is logged (R389), and the port values are applied (R405, R407). -/
def readStore (s : State) : State :=
  let s1 : State := { s with cal := s.cal.select }
  let torn := !s1.cal.inUse.isNone && s1.cal.bank.torn
  let base := 0x03E0_0000 + (if s1.cal.inUse = some true then 0x10_0000 else 0)
  let log := if torn then s1.logMinor 0x0F clsInfo (BitVec.ofNat 64 (base + s1.cal.bank.used)) else s1
  let s2 := (log.wrB Reg.HLT_CAL_STATUS 29 torn).calStatus
  let port (t : State) (p : Nat) : State :=
    match t.cal.inForce 4 p with
    | some bs =>
      ((t.wr (Reg.TIM_PORT_ILAT p) (BitVec.ofNat 32 (leAt bs 0 4))).wr (Reg.TIM_PORT_ELAT p) (BitVec.ofNat 32 (leAt bs 4 4))).wr
        (Reg.TIM_PORT_ASYM p) (BitVec.ofNat 32 (leAt bs 8 4))
    | none => t
  (port (port s2 0) 1).setPhase 5

/-- The fuses are read; entropy tests and a new BOOT_ID (R352, R428). -/
def readFuses (s : State) (entropyOk : Bool) : State :=
  let d := s.draw 16
  let s1 : State := { d.2 with repair := d.2.fuse.repair }
  let s2 := (List.range 4).foldl (fun t i => t.wr (Reg.SEC_BOOT_ID i) (BitVec.ofNat 32 (leAt d.1 (4 * i) 4))) s1
  let s3 := s.fuse.opkeys.foldl (fun t e => t.wrB Reg.SEC_OPKEYS e.1 true) s2
  ((s3.wrB Reg.SEC_CTX_STATUS 7 entropyOk).fwStatus).setPhase 2

/-- Self-test is over (R144); the islands are locked at step 3. -/
def bistDone (s : State) (failed : List Nat) : State :=
  let t := s.bistResult failed
  ((t.wrB Reg.GLB_BOOT_STATUS 8 (t.rdB Reg.ARY_STATUS 7)).wrB Reg.GLB_CLK_STATUS 3 true).setPhase 3

/-! Firmware commands (R436 to R438). -/

/-- May this master run a firmware command (R437, R438)? -/
def fwAllowed (s : State) (m : Master) : Bool :=
  (m = .f1 && s.privileged m) || (decide (s.phase = 8) && decide (s.rdF Reg.SEC_OPKEYS 0 4 = 0))

/-- A firmware command: REFUSED without privilege. -/
def needsFw (s : State) (r : Nat) (m : Master) (f : State) : State := if s.fwAllowed m then f else s.completeRefused r 438

/-- The measurement of the staged image. -/
def setStaged (s : State) (m : List Byte) : State := { s with boot := { s.boot with staged := m } }

/-- FW_STAGE (R438): in RECOVERY a WARM reset follows (R437). -/
def stage (s : State) (r : Nat) : State :=
  let b := !s.flash.record.active
  if s.transition then s.completeState r
  else if !s.slotValid b then s.completeRefused r 431
  else
    let s1 := (s.putRecord { s.flash.record with staged := stagedCode b, tries := 3 }).setTransition true
    let s2 := s1.setStaged (s.flash.measure b)
    let s3 := s2.complete r stOk (BitVec.ofNat 64 (s.flash.svn b))
    if s.phase = 8 then s3.warmReset 4 else s3

/-- FW_CONFIRM (R436): the trial slot becomes ACTIVE. -/
def confirm (s : State) (r : Nat) (commit : Bool) : State :=
  match s.boot.slot with
  | none => s.completeState r
  | some b =>
    if !s.onTrial ∨ s.phase ≠ 7 then s.completeState r
    else
      let fuse : Fuses := if commit then { s.fuse with minSvn := max s.fuse.minSvn (min (s.rd Reg.GLB_FW_SVN).toNat 64) } else s.fuse
      let s1 := ({ s with fuse := fuse } : State).putRecord { s.flash.record with active := b, staged := 0, tries := 0 }
      let s2 := (s1.wrB Reg.GLB_FW_STATUS 3 false).setTransition false
      (s2.setStaged []).complete r stOk (BitVec.ofNat 64 fuse.minSvn)

/-- FW_DISCARD (R438): during a trial a WARM reset follows. -/
def discard (s : State) (r : Nat) : State :=
  if !s.transition then s.completeState r
  else
    let s1 := ((s.complete r stOk).putRecord { s.flash.record with staged := 0, tries := 0 }).setTransition false
    let s2 := s1.setStaged []
    if s.onTrial then s2.warmReset 7 else s2

/-! Watchdog (R401). -/

/-- The commands that the Legend controller executes: neither the Cartouche's nor STOP. -/
def legendRuns (op : Byte) : Bool := decide (op ≠ 0x03) && !(decide (0x40 ≤ op.toNat) && decide (op.toNat ≤ 0x48))

/-- Complete every command that the Legend controller executes with ABORTED. -/
def abortLegend (s : State) : State :=
  (List.range 16).foldl (fun t r => match t.running r with
    | some e => if legendRuns e.opcode then t.complete r stAborted else t
    | none => t) s

/-- The watchdog's expiries of late, and the Legend controller restarts. -/
def legendFails (s : State) (es : List DWord) : State := { s with boot := { s.boot with expiries := es, legendDown := true } }

/-- The Legend controller kicked just now. -/
def kick (s : State) : State := { s with boot := { s.boot with kicked := s.timeline } }

/-- The watchdog interval passes without a kick (R401): the third expiry within 10 s is FATAL, which ends a trial (R436). -/
def watchdog (s : State) : State :=
  if s.boot.slot.isNone || s.boot.legendDown then s
  else
    let es := s.boot.expiries.filter (fun t => decide ((s.timeline - t).toNat < 640000000000)) ++ [s.timeline]
    let s1 := (((s.countF Reg.HLT_WDOG 24 8).wrB Reg.HLT_STATUS 2 true).irq 1).abortLegend
    let s2 := s1.legendFails es
    if 3 ≤ es.length then
      let t := s2.fatal 0x0D (BitVec.ofNat 64 es.length)
      if s.onTrial && decide (s.phase = 7) then t.warmReset 5 else t
    else s2.logMinor 0x0D clsInfo (BitVec.ofNat 64 es.length)

/-- A write of HLT_WDOG (R401): KICK is the Legend controller's alone. -/
def writeWdog (s : State) (m : Master) (v : Word) : State :=
  if bit v 16 && decide (m ≠ .legend) then s.refuse m Reg.HLT_WDOG
  else
    let t := (s.mergeWord Reg.HLT_WDOG v).wrB Reg.HLT_WDOG 16 false
    if bit v 16 then t.kick else t

end State

/-- POR_L_RISE (R414, R417): boot begins in phase ROM, PPS_OUT drives low, and the trigger outputs are idle. -/
def execPorLRise (s : State) : Outcome :=
  .next (if s.boot.porLow then
    ((({ s with boot := { s.boot with porLow := false, began := s.now } } : State).wrF Reg.GLB_POWER_STATUS 0 12 0xFFF).emit
      (.pps false s.timeline)).resetOutputs
  else s)

/-- PERST_L_RISE (R429): GLB_BOOT_TIME counts from here. -/
def execPerstLRise (s : State) : Outcome :=
  .next (if s.boot.perstLow then { s with boot := { s.boot with perstLow := false, began := s.now } } else s)

/-- CXL_LINK_TRAINED (R429). -/
def execCxlLinkTrained (s : State) : Outcome :=
  .next (if s.boot.porLow || s.boot.perstLow then s else { s with boot := { s.boot with linkUp := true } })

/-- FUSES_PHASE_COMPLETE (R428): after a COLD reset, from phases ROM and FUSES. -/
def execFusesPhaseComplete (entropyOk : Bool) (s : State) : Outcome :=
  .next (if s.boot.cold && decide (s.phase ≤ 1) && !s.boot.porLow then s.readFuses entropyOk else s)

/-- BIST_COMPLETE (R144). -/
def execBistComplete (failed : List Nat) (s : State) : Outcome := .next (if s.phase = 2 then s.bistDone failed else s)

/-- FIRMWARE_PHASE_COMPLETE (R435): a WARM boot comes here from ROM. -/
def execFirmwarePhaseComplete (s : State) : Outcome :=
  .next (if s.phase = 3 ∨ (s.phase = 0 ∧ s.boot.cold = false ∧ s.boot.perstLow = false) then s.chooseSlot else s)

/-- CALIBRATION_PHASE_COMPLETE (R407). -/
def execCalibrationPhaseComplete (s : State) : Outcome := .next (if s.phase = 4 then s.readStore else s)

/-- MEMORY_TRAINING_COMPLETE (R431). -/
def execMemoryTrainingComplete (hbmOk : BitVec 12) (ddrOk : BitVec 8) (mismatch : Bool) (s : State) : Outcome :=
  .next (if s.phase = 5 then s.trained hbmOk ddrOk mismatch else s)

/-- MEMORY_INIT_COMPLETE (R430). -/
def execMemoryInitComplete (s : State) : Outcome := .next (if s.phase = 6 then s.ready else s)

/-- BOOT_TIMER_EXPIRY (R431). -/
def execBootTimerExpiry (s : State) : Outcome :=
  .next (if 4 ≤ s.phase ∧ s.phase ≤ 6 then (if s.onTrial then s.warmReset 6 else s.setPhase 15) else s)

/-- TRIAL_TIMEOUT (R436). -/
def execTrialTimeout (s : State) : Outcome := .next (if s.phase = 7 ∧ s.onTrial then s.warmReset 5 else s)

/-- FW_WRITE (R438). -/
def execFwWrite (r : Fin 16) (m : Master) (data : List Byte) (dma : Option (Fin 3)) (s : State) : Outcome :=
  .next (s.onRing r 0x70 8 (fun e =>
    let off := e.param 0 8
    let n := e.len0.toNat
    if n % 256 ≠ 0 ∨ 2 ^ 20 < n then s.completeBad r.val 0x10
    else if off % 256 ≠ 0 ∨ slotSize < off + n then s.completeBad r.val 0x28
    else s.needsFw r.val m (
      if s.transition then s.completeState r.val
      else match dma with
        | some d => s.completeDma r.val d
        | none =>
          ({ s with flash := s.flash.program (!s.flash.record.active) off (fitTo n data) } : State).complete r.val stOk
            (BitVec.ofNat 64 n))))

/-- FW_STAGE (R438). -/
def execFwStage (r : Fin 16) (m : Master) (s : State) : Outcome :=
  .next (s.onRing r 0x71 0 (fun _ => s.needsFw r.val m (s.stage r.val)))

/-- FW_CONFIRM (R436). -/
def execFwConfirm (r : Fin 16) (m : Master) (s : State) : Outcome :=
  .next (s.onRing r 0x72 1 (fun e =>
    if 1 < e.param 0 1 then s.completeBad r.val 0x28
    else s.needsFw r.val m (s.confirm r.val (decide (e.param 0 1 = 1)))))

/-- FW_DISCARD (R438). -/
def execFwDiscard (r : Fin 16) (m : Master) (s : State) : Outcome :=
  .next (s.onRing r 0x73 0 (fun _ => s.needsFw r.val m (s.discard r.val)))

/-- WATCHDOG_KICK (R401): a write of HLT_WDOG. -/
def execWatchdogKick (m : Master) (v : Word) (s : State) : Outcome := .next (s.atReg m Reg.HLT_WDOG (fun t => t.writeWdog m v))

/-- WATCHDOG_EXPIRY (R401). -/
def execWatchdogExpiry (s : State) : Outcome := .next s.watchdog

/-- LEGEND_RESTART_COMPLETE (R401). -/
def execLegendRestartComplete (s : State) : Outcome :=
  .next { s with boot := { s.boot with legendDown := false, kicked := s.timeline } }

end Sys2Proof.Machine
end

