-- ==== Sys2Proof/Machine/Scalar.lean ====
section
/-!
DEFINITION. The L slot's scalar and status instructions (R178, R183, R445).
-/

namespace Sys2Proof.Machine

namespace State

/-- A general register, landing after `lat` cycles. -/
def flyGp (s : State) (loc : At) (lat : Nat) (r : BitVec 4) (v : Word) : State := s.fly loc 1 lat (.gp r.toNat v)

/-- An even pair, low word first (R445). -/
def flyPair (s : State) (loc : At) (lat : Nat) (r : BitVec 4) (v : DWord) : State :=
  (s.flyGp loc lat r (v.extractLsb' 0 32)).flyGp loc lat (r + 1) (v.extractLsb' 32 32)

/-- A scalar instruction's result, when the array issues. -/
def scalarOp (s : State) (loc : At) (lat : Nat) (r : BitVec 4) (v : Word) : State :=
  if s.issues then s.flyGp loc lat r v else s

end State

/-- RDTIME: the timeline in the issue cycle. -/
def execRdtime (loc : At) (gd : BitVec 4) (s : State) : Outcome :=
  .next (if s.issues then s.flyPair loc 2 gd s.timeline else s)

/-- RDSENS: the sensor's reading. -/
def execRdsens (loc : At) (gd : BitVec 4) (_sens : BitVec 4) (reading : Word) (s : State) : Outcome :=
  .next (s.scalarOp loc 2 gd reading)

/-- QLEN: entries held, skid included. -/
def execQlen (loc : At) (gd : BitVec 4) (tq : Bool) (q : BitVec 4) (s : State) : Outcome :=
  let x := s.picot loc.pic
  let n := if tq then (x.tqueue (q.toNat % 8)).items.length else (x.queue q.toNat).items.length
  .next (s.scalarOp loc 2 gd (BitVec.ofNat 32 n))

/-- RDROUND: the round number. -/
def execRdround (loc : At) (gd : BitVec 4) (s : State) : Outcome :=
  .next (if s.issues then s.flyPair loc 2 gd s.arr.round else s)

/-- MOVI: IMM24, sign-extended. -/
def execMovi (loc : At) (gd : BitVec 4) (imm : BitVec 24) (s : State) : Outcome :=
  .next (s.scalarOp loc 1 gd (imm.signExtend 32))

/-- LDC: a constant word. -/
def execLdc (loc : At) (gd : BitVec 4) (ck : BitVec 8) (s : State) : Outcome :=
  .next (s.scalarOp loc 1 gd (s.const loc ck.toNat))

/-- ADDI: a register, or with PAIR an even pair, plus IMM16 sign-extended. -/
def execAddi (loc : At) (a : LI) (s : State) : Outcome :=
  .next (
    if a.pair then
      (if s.issues then s.flyPair loc 1 a.gd ((s.lg loc).pair a.ga + a.imm.signExtend 64) else s)
    else s.scalarOp loc 1 a.gd ((s.lg loc).reg a.ga + a.imm.signExtend 32))

/-- ADD. -/
def execAdd (loc : At) (a : LG) (s : State) : Outcome :=
  .next (s.scalarOp loc 1 a.gd ((s.lg loc).reg a.ga + (s.lg loc).reg a.gb))
/-- SUB. -/
def execSub (loc : At) (a : LG) (s : State) : Outcome :=
  .next (s.scalarOp loc 1 a.gd ((s.lg loc).reg a.ga - (s.lg loc).reg a.gb))
/-- MUL: the low 32 bits. -/
def execMul (loc : At) (a : LG) (s : State) : Outcome :=
  .next (s.scalarOp loc 2 a.gd ((s.lg loc).reg a.ga * (s.lg loc).reg a.gb))
/-- AND of general registers. -/
def execAndScalar (loc : At) (a : LG) (s : State) : Outcome :=
  .next (s.scalarOp loc 1 a.gd ((s.lg loc).reg a.ga &&& (s.lg loc).reg a.gb))
/-- OR of general registers. -/
def execOrScalar (loc : At) (a : LG) (s : State) : Outcome :=
  .next (s.scalarOp loc 1 a.gd ((s.lg loc).reg a.ga ||| (s.lg loc).reg a.gb))
/-- XOR of general registers. -/
def execXorScalar (loc : At) (a : LG) (s : State) : Outcome :=
  .next (s.scalarOp loc 1 a.gd ((s.lg loc).reg a.ga ^^^ (s.lg loc).reg a.gb))
/-- SHLI. -/
def execShli (loc : At) (a : LK) (s : State) : Outcome :=
  .next (s.scalarOp loc 1 a.gd ((s.lg loc).reg a.ga <<< a.shift.toNat))
/-- SHRI: a logical shift. -/
def execShri (loc : At) (a : LK) (s : State) : Outcome :=
  .next (s.scalarOp loc 1 a.gd ((s.lg loc).reg a.ga >>> a.shift.toNat))

/-- VTOG: one lane of a vector register. -/
def execVtog (loc : At) (a : LV) (s : State) : Outcome :=
  .next (s.scalarOp loc 2 a.g (lane ((s.picot loc.pic).vreg a.v) a.lane.toNat))

/-- GTOV (R151, R154): one lane, with the tag of its segment. -/
def execGtov (loc : At) (a : LV) (s : State) : Outcome :=
  .next (
    if s.issues then
      (s.fly loc 1 1 (.lanes a.v.toNat ((1#64) <<< a.lane.toNat)
        ((((s.lg loc).reg a.g).setWidth 2048) <<< (32 * a.lane.toNat)))).fly loc 1 1
        (.tags a.v.toNat ((1#8) <<< (a.lane.toNat / 8)) false)
    else s)

/-- The conditions of CMPG: six signed ones, then unsigned below and not below. -/
def cmpgHolds (cond : BitVec 3) (x y : Word) : Bool :=
  match cond.toNat with
  | 0 => x == y
  | 1 => x != y
  | 2 => x.slt y
  | 3 => x.sle y
  | 4 => y.slt x
  | 5 => y.sle x
  | 6 => x.ult y
  | _ => y.ule x

/-- CMPG: a predicate bit. -/
def execCmpg (loc : At) (a : LP) (s : State) : Outcome :=
  .next (
    if s.issues then
      s.fly loc 1 1 (.prd a.pbit.toNat (cmpgHolds a.cond ((s.lg loc).reg a.ga) ((s.lg loc).reg a.gb)))
    else s)

end Sys2Proof.Machine
end

