-- ==== Sys2Proof/Machine/Control.lean ====
section
/-!
DEFINITION. The C slot: the choice of the next bundle (R153), loops (R179, R180), tokens (R181), predicates and
steering (R182).
-/

namespace Sys2Proof.Machine

namespace State

/-- Does a loop's body contain a bundle? -/
def inBody (e : LoopEnt) (pc : Nat) : Bool := decide (e.start ≤ pc) && decide (pc ≤ e.stop)

/-- Make `pc` the next bundle; the pricking ends at or beyond NBUNDLES (R153). -/
def goTo (s : State) (loc : At) (pc : Nat) : State :=
  let l := s.lg loc
  let n := match l.slot with | some k => s.nBundles loc.pic k | none => 2048
  s.setLg loc { l with pc := pc % 2048, ended := l.ended || decide (n ≤ pc) || decide (2048 ≤ pc) }

/-- The loop-end rule (R180): the trips left, and the loops that end at bundle `p`. -/
def loopEnd (s : State) (loc : At) (p : Nat) : Nat → State
  | 0 => s.goTo loc (p + 1)
  | fuel + 1 =>
    let l := s.lg loc
    match l.loops with
    | e :: es =>
      if e.stop = p then
        let c := (s.picot loc.pic).loopCtr e.lc
        if 1 < c.count.toNat then
          (s.setPicot loc.pic ((s.picot loc.pic).setLoopCtr e.lc { c with count := c.count - 1 })).goTo loc e.start
        else
          let s1 := s.setPicot loc.pic ((s.picot loc.pic).setLoopCtr e.lc { c with count := 0 })
          let s2 := s1.setLg loc { s1.lg loc with loops := es }
          (s2.trace loc 0 e.lc p).loopEnd loc p fuel
      else s.goTo loc (p + 1)
    | [] => s.goTo loc (p + 1)

/-- The next bundle of a bundle whose C slot takes no branch (R153). -/
def advance (s : State) (h : CHead) : State :=
  if h.fin then s.setLg h.loc { s.lg h.loc with ended := true }
  else s.loopEnd h.loc (s.lg h.loc).pc 8

/-- A taken branch (R153, R180): loops whose body does not contain the target leave the record. -/
def branch (s : State) (h : CHead) (target : Nat) : State :=
  if h.fin then s.setLg h.loc { s.lg h.loc with ended := true }
  else
    let l := s.lg h.loc
    let s1 := s.trace h.loc 1 0 l.pc
    (s1.setLg h.loc { s1.lg h.loc with loops := l.loops.filter (fun e => inBody e target) }).goTo h.loc target

/-- A C-slot instruction that takes no branch: its effect, then the next bundle. -/
def controlOp (s : State) (h : CHead) (f : State → State) : State := if s.issues then (f s).advance h else s

/-- A loop counter loaded by an instruction, landing in the next cycle (R179). -/
def flyLc (s : State) (loc : At) (n : Fin 8) (count : BitVec 16) (timer : Bool) : State :=
  s.fly loc 2 1 (.lc n { count := count, timer := timer })

end State

/-- NOPC: no operation. -/
def execNopc (h : CHead) (s : State) : Outcome := .next (s.controlOp h id)

/-- LCSET: trip mode. -/
def execLcset (h : CHead) (lc : Fin 8) (trip : BitVec 16) (s : State) : Outcome :=
  .next (s.controlOp h (fun t => t.flyLc h.loc lc trip false))

/-- LCTIM: timer mode. -/
def execLctim (h : CHead) (lc : Fin 8) (trip : BitVec 16) (s : State) : Outcome :=
  .next (s.controlOp h (fun t => t.flyLc h.loc lc trip true))

/-- LCGP: GS[15:0], trip mode. -/
def execLcgp (h : CHead) (lc : Fin 8) (gs : BitVec 4) (s : State) : Outcome :=
  .next (s.controlOp h (fun t => t.flyLc h.loc lc (((s.lg h.loc).reg gs).extractLsb' 0 16) false))

/-- A token of a kind popped from a token queue (R181): nothing happens and the bundle waits where the queue is empty;
a token of another kind is a TOKEN fault of the queue, and takes effect as the pseudocode returns it. -/
def State.tokenOp (s : State) (h : CHead) (tq : Fin 8) (kind : Option Nat) (f : BitVec 16 → State → State) : State :=
  if s.issues then
    match s.popToken h.loc.pic tq with
    | (none, t) => t
    | (some k, t) =>
      let t1 := if kind = none ∨ kind = some (fieldNat k 13 3) then t else t.arrayFault 3 h.loc.pic h.loc.lg tq 2
      (f k t1).advance h
  else s

/-- LCTOK: the value of a CNT token, 0 meaning 4,096 (R112). -/
def execLctok (h : CHead) (lc : Fin 8) (tq : Fin 8) (s : State) : Outcome :=
  .next (s.tokenOp h tq (some 2) (fun k t =>
    let v := fieldNat k 0 12
    t.flyLc h.loc lc (BitVec.ofNat 16 (if v = 0 then 4096 else v)) false))

/-- TPOP: a token of any kind into a general register. -/
def execTpop (h : CHead) (gd : BitVec 4) (tq : Fin 8) (s : State) : Outcome :=
  .next (s.tokenOp h tq none (fun k t => t.fly h.loc 2 1 (.gp gd.toNat (k.setWidth 32))))

/-- TPRD: all predicate bits from a PRED token. -/
def execTprd (h : CHead) (tq : Fin 8) (s : State) : Outcome :=
  .next (s.tokenOp h tq (some 5) (fun k t => t.fly h.loc 2 1 (.prds (k.extractLsb' 0 12))))

/-- LOOP (R180): zero trips skip the body; else the loop is opened on its counter, in trip mode. -/
def execLoop (h : CHead) (lc : Fin 8) (len : BitVec 11) (s : State) : Outcome :=
  .next (
    if s.issues then
      let l := s.lg h.loc
      let p := l.pc
      let c := (s.picot h.loc.pic).loopCtr lc
      let s1 := s.setPicot h.loc.pic ((s.picot h.loc.pic).setLoopCtr lc { c with timer := false })
      if h.fin then s1.advance h
      else if c.count = 0 then (s1.trace h.loc 0 lc p).goTo h.loc (p + len.toNat + 1)
      else
        let es := l.loops.filter (fun e => decide (e.lc ≠ lc))
        (s1.setLg h.loc { s1.lg h.loc with loops := { lc := lc, start := p + 1, stop := p + len.toNat } :: es }).goTo
          h.loc (p + 1)
    else s)

/-- A pricking waits on a loop counter; the cycle in which its bundle would first have issued is kept (R179, R207). -/
def State.waits (s : State) (loc : At) (lc : Fin 8) : State :=
  let l := s.lg loc
  s.setLg loc { l with waiting := some lc, waitAt := if l.waiting.isSome then l.waitAt else s.arr.cycle }

/-- WAITLC (R179): the bundle issues when the counter is zero; until then its pricking waits. -/
def execWaitlc (h : CHead) (lc : Fin 8) (s : State) : Outcome :=
  .next (
    if s.issues then
      if ((s.picot h.loc.pic).loopCtr lc).count = 0 then
        (s.setLg h.loc { s.lg h.loc with waiting := none, waited := 0 }).advance h
      else s.waits h.loc lc
    else s)

/-- WAITLC_RESUME (R179): a waiting pricking whose counter has come to zero issues again. -/
def execWaitlcResume (loc : At) (s : State) : Outcome :=
  .next (
    match (s.lg loc).waiting with
    | some lc =>
      if ((s.picot loc.pic).loopCtr lc).count = 0 then s.setLg loc { s.lg loc with waiting := none, waited := 0 } else s
    | none => s)

/-- LOOP_TIMER_EXPIRY (R179): the last cycle of a counter in timer mode takes it to zero, where it stays. -/
def execLoopTimerExpiry (p : Fin 1024) (lc : Fin 8) (s : State) : Outcome :=
  .next (
    let c := (s.picot p).loopCtr lc
    if s.issues && c.timer then s.setPicot p ((s.picot p).setLoopCtr lc { c with count := 0 }) else s)

/-- JMP. -/
def execJmp (h : CHead) (target : BitVec 11) (s : State) : Outcome :=
  .next (if s.issues then s.branch h target.toNat else s)

/-- BRP: taken if the predicate bit XOR NEG is 1. -/
def execBrp (h : CHead) (pbit : BitVec 4) (neg : Bool) (target : BitVec 11) (s : State) : Outcome :=
  .next (
    if s.issues then
      if ((s.lg h.loc).prd.getLsbD pbit.toNat) != neg then s.branch h target.toNat else s.advance h
    else s)

/-- TSENDI (R181): a token on an output in the next cycle; 0x0000 sends nothing. -/
def execTsendi (h : CHead) (dir : Dir) (tok : BitVec 16) (s : State) : Outcome :=
  .next (s.controlOp h (fun t => t.driveToken h.loc.pic dir 2 tok h.loc.lg))

/-- TSENDG (R181): GS[15:0] on an output; an invalid token sends nothing and is a TOKEN fault. -/
def execTsendg (h : CHead) (dir : Dir) (gs : BitVec 4) (s : State) : Outcome :=
  .next (
    let tok : BitVec 16 := ((s.lg h.loc).reg gs).extractLsb' 0 16
    s.controlOp h (fun t =>
      if tokenInvalid tok then t.arrayFault 3 h.loc.pic h.loc.lg (dirNum dir) 0
      else t.driveToken h.loc.pic dir 2 tok h.loc.lg))

/-- TPUT: a token into a token queue. -/
def execTput (h : CHead) (tq : Fin 8) (tok : BitVec 16) (s : State) : Outcome :=
  .next (s.controlOp h (fun t => t.pushToken h.loc.pic tq tok))

/-- PSET: a bit of a general register into a predicate bit. -/
def execPset (h : CHead) (pbit : BitVec 4) (gs : BitVec 4) (b : BitVec 5) (s : State) : Outcome :=
  .next (s.controlOp h (fun t => t.fly h.loc 2 1 (.prd pbit.toNat (((s.lg h.loc).reg gs).getLsbD b.toNat))))

/-- Start a steering unit, or stop it at the next point between items (R182); a unit whose MODE is off is left alone. -/
def State.setSteer (s : State) (p : Fin 1024) (u : Fin 4) (on : Bool) : State :=
  let x := (s.picot p).unit u
  if field x.cfg 0 2 = 0 then s
  else if on then s.setPicot p ((s.picot p).setUnit u { x with stopPending := false, running := true })
  else s.setPicot p ((s.picot p).setUnit u { x with stopPending := true })

/-- STEER (R182). -/
def execSteer (h : CHead) (u : Fin 4) (on : Bool) (s : State) : Outcome :=
  .next (s.controlOp h (fun t => t.setSteer h.loc.pic u on))

/-- BCLR: BADL ← 0. -/
def execBclr (h : CHead) (s : State) : Outcome := .next (s.controlOp h (fun t => t.fly h.loc 2 1 (.badl true false)))

end Sys2Proof.Machine
end

