-- ==== Sys2Proof/Machine/ExactSum.lean ====
section
/-!
DEFINITION. The exact-sum instructions and VRNG (R169, R172).
-/

namespace Sys2Proof.Machine

/-- XCVT (R169). -/
def execXcvt (h : MHead) (a : MV) (s : State) : Outcome :=
  .next (s.vectorOp h 3 a.vd (Vec.xcvt (s.mctx h.loc) a))

/-- XADD (R169). -/
def execXadd (h : MHead) (a : MV) (s : State) : Outcome :=
  .next (s.vectorOp h 2 a.vd (Vec.xadd (s.mctx h.loc) a))

/-- XRND (R169). -/
def execXrnd (h : MHead) (a : MV) (s : State) : Outcome :=
  .next (s.vectorOp h (s.classLatency 5 5 4) a.vd (Vec.xrnd (s.mctx h.loc) a))

/-- VRSUM (R169). -/
def execVrsum (h : MHead) (a : MV) (s : State) : Outcome :=
  .next (s.vectorOp h (s.classLatency 6 6 5) a.vd (Vec.vrsum (s.mctx h.loc) a))

/-- VRMAX. -/
def execVrmax (h : MHead) (a : MV) (s : State) : Outcome :=
  .next (s.vectorOp h 4 a.vd (Vec.vrmax (s.mctx h.loc) a))

/-- VRNG (R172). -/
def execVrng (h : MHead) (a : MV) (s : State) : Outcome :=
  .next (s.vectorOp h 4 a.vd (Vec.vrng (s.mctx h.loc) a))

end Sys2Proof.Machine
end

