-- ==== Sys2Proof/Machine/Matrix.lean ====
section
/-!
DEFINITION. The matrix instructions NOPM, WLD, WSC, WSWAP, MMA, ACCQ, ACCX, ACCA and ACCZ (R158 to R161).
-/

namespace Sys2Proof.Machine

/-- An accumulator, in units of 2^−64. -/
def Picot.accOf (p : Picot) (bank j : Nat) : Int := SMap.get 0 p.acc (32 * bank + j)
/-- NLOG of a bank (R160). -/
def Picot.nlogOf (p : Picot) (bank : Nat) : Nat := SMap.get 0 p.nlog bank
/-- The BAD tag of a bank (R154). -/
def Picot.bankTag (p : Picot) (bank : Nat) : Bool := SMap.get false p.accTag bank

/-- The 8-bit group of R105. -/
def inGroup8 (f : Fmt) : Bool := f = Fmt.s8 || f = Fmt.u8 || f = Fmt.fp6 || f = Fmt.e4m3 || f = Fmt.e5m2

/-- Does a column format pair with a tile format (R105)? -/
def pairs (a t : Fmt) : Bool :=
  (inGroup8 a && inGroup8 t) || (a = t && (a = Fmt.s4 || a = Fmt.fp4 || a = Fmt.bf16 || a = Fmt.fp16))

/-- The depth of a tile (R158). -/
def tileDepth (f : Fmt) : Nat := if f.width = 4 then 64 else 32

/-- The code of tile row j, element k (R158): a row is 32 bytes, 64 bytes in a BF16 or FP16 tile (log entry 9). -/
def Tile.code (t : Tile) (j k : Nat) : Nat :=
  let w := Fmt.width t.fmt
  let stride := if w = 16 then 512 else 256
  (t.codes.extractLsb' (stride * j + w * k) w).toNat

/-- The scale of row j, block b: PART b of WSC holds the scales of block b of every row (log entry 10). -/
def Tile.scale (t : Tile) (j b : Nat) : Nat := (t.scales.extractLsb' (8 * (32 * b + j)) 8).toNat

namespace Mat

/-- The value of column element k of an MMA (R159). -/
def columnVal (c : MCtx) (a : MM) (k : Nat) : Val :=
  let w := Fmt.width a.afmt
  fmtValue a.afmt (((c.p.vreg a.va).extractLsb' (256 * a.seg.toNat + w * k) w).toNat)

/-- The product of weight and column element k. -/
def product (c : MCtx) (a : MM) (j k : Nat) : Val := (fmtValue c.p.active.fmt (c.p.active.code j k)).mul (columnVal c a k)

/-- The sum of the terms of row j and the events of forming them (R159 pseudocode). -/
def rowSum (c : MCtx) (a : MM) (j : Nat) : Int × Ev :=
  let n := c.p.nlogOf a.bank.toNat
  let depth := tileDepth c.p.active.fmt
  if a.scaled then
    (List.range (depth / 32)).foldl (fun acc b =>
      let ts := c.p.active.scale j b
      let as := fieldNat (c.lg.reg a.gs) (8 * b) 8
      if ts = 0xFF ∨ as = 0xFF then (acc.1, acc.2.add { nan := 1 })
      else
        let p := (List.range 32).foldl (fun x k => x.add (product c a j (32 * b + k))) (Q.ofInt 0).toVal
        let t := term n ((p.mul (Q.pow2 ((ts : Int) - 127)).toVal).mul (Q.pow2 ((as : Int) - 127)).toVal)
        (acc.1 + t.1, acc.2.add t.2)) (0, {})
  else
    (List.range depth).foldl (fun acc k =>
      let t := term n (product c a j k)
      (acc.1 + t.1, acc.2.add t.2)) (0, {})

/-- The tag of an MMA's column (R154). -/
def columnTag (c : MCtx) (a : MM) : Bool :=
  c.p.segTag a.va a.seg.toNat || (decide (Fmt.width a.afmt = 16) && c.p.segTag a.va (a.seg.toNat + 1))

/-- Exact I_jn of R72 from a bank, a row descriptor word at RROW and the layer descriptor at CK. -/
def corrected (c : MCtx) (a : MQ) (rsum zw : Int) (j : Nat) : Q :=
  let ck := a.ck.toNat
  let zx := (c.ck ck).toInt
  let k := (c.ck (ck + 2)).toInt
  { num := c.p.accOf a.bank.toNat j + (-(zx * rsum) - zw * (c.lg.reg a.gc).toInt + k * zw * zx) * 2 ^ 64, den := 2 ^ 64 }

/-- Output j of ACCQ (R161): the code and its events; `row` is the row descriptor. -/
def output (c : MCtx) (a : MQ) (row : BitVec 8192) (j : Nat) : Nat × Ev :=
  let ck := a.ck.toNat
  let rsum := (row.extractLsb' (8 * (4 * j)) 32).toInt
  let zw := (row.extractLsb' (8 * (128 + 4 * j)) 32).toInt
  let sw := fmtValue Fmt.fp32 (row.extractLsb' (8 * (256 + 4 * j)) 32).toNat
  let fold := fmtValue Fmt.x128 (row.extractLsb' (8 * (512 + 16 * j)) 128).toNat
  let y := ((sw.mul (c.f32 (ck + 1))).mul (corrected c a rsum zw j).toVal).add fold
  let y := if fieldNat (c.ck (ck + 6)) 4 2 = 1 ∧ y.lt (Q.ofInt 0).toVal then (Q.ofInt 0).toVal else y
  quantTo ((c.ck (ck + 6)).extractLsb' 0 4) (c.rnd a.rnd a.cks a.gi j) (c.ck (ck + 4)).toInt
    (y.add (c.f32 (ck + 5)).neg) (c.f32 (ck + 3))

end Mat

/-- The 32 words of an SRAM row, word i in bits [256i + 255 : 256i]. -/
def State.sramRow (s : State) (p row : Nat) : BitVec 8192 :=
  BitVec.ofNat 8192 (packNat 256 ((List.range 32).map (fun i => (s.sramRead p (32 * row + i)).toNat)))

/-- The word addresses of an SRAM row. -/
def rowWords (row : Nat) : List Nat := (List.range 32).map (fun i => 32 * row + i)

/-- An M-slot instruction that reads SRAM words: it reads them whatever its predicate (R152), and nothing lands where the
predicate is false or a word is uncorrectable (R111). -/
def State.sramOp (s : State) (h : MHead) (words : List Nat) (land : State → State) : State :=
  if s.issues then
    let r := s.sramCheck h.loc.pic words
    if r.2 && s.predicate h then land r.1 else r.1
  else s

/-- NOPM: no operation. -/
def execNopm (_h : MHead) (s : State) : Outcome := .next s

/-- WLD (R158). -/
def execWld (h : MHead) (a : MT) (s : State) : Outcome :=
  .next (s.sramOp h (rowWords a.row.toNat) (fun t =>
    t.fly h.loc 0 3 (.tileCodes a.part a.wfmt (s.sramRow h.loc.pic a.row.toNat))))

/-- WSC (R158). -/
def execWsc (h : MHead) (a : MS) (s : State) : Outcome :=
  .next (s.sramOp h [a.word.toNat] (fun t => t.fly h.loc 0 3 (.tileScales a.part (s.sramRead h.loc.pic a.word.toNat))))

/-- WSWAP (R158). -/
def execWswap (h : MHead) (s : State) : Outcome :=
  .next (if s.issues && s.predicate h then s.fly h.loc 0 1 .swap else s)

/-- MMA (R159): a pairing that R105 does not list is a PAIRING fault. -/
def execMma (h : MHead) (a : MM) (s : State) : Outcome :=
  .next (if s.issues && s.predicate h then
    let c := s.mctx h.loc
    if pairs a.afmt c.p.active.fmt then
      let r := (List.range 32).map (Mat.rowSum c a)
      let lat := if Fmt.width a.afmt = 16 then 7 else 4
      (s.fly h.loc 0 lat (.terms a.bank.toNat 0 (!a.acc) (r.map Prod.fst) (Mat.columnTag c a))).countEvents h.loc.pic
        ((r.map Prod.snd).foldl Ev.add {})
    else s.arrayFault 6 h.loc.pic h.loc.lg 0 3
  else s)

/-- ACCQ (R161). -/
def execAccq (h : MHead) (a : MQ) (s : State) : Outcome :=
  .next (s.sramOp h (rowWords a.rrow.toNat) (fun t =>
    let c := s.mctx h.loc
    let w := Fmt.width ((s.const h.loc (a.ck.toNat + 6)).extractLsb' 0 4)
    let r := collect (Mat.output c a (s.sramRow h.loc.pic a.rrow.toNat)) 32
    let n := (32 * w + 255) / 256
    let lat := s.classLatency 0 9 7
    let mask : BitVec 64 := BitVec.ofNat 64 ((2 ^ (8 * n) - 1) * 2 ^ (8 * a.seg.toNat))
    ((t.fly h.loc 0 lat (.lanes a.vd.toNat mask (BitVec.ofNat 2048 (packNat w r.1 * 2 ^ (256 * a.seg.toNat))))).fly h.loc 0 lat
      (.tags a.vd.toNat (BitVec.ofNat 8 ((2 ^ n - 1) * 2 ^ a.seg.toNat)) (c.p.bankTag a.bank.toNat))).countEvents h.loc.pic r.2))

/-- ACCX: accumulators 16·HALF to 16·HALF + 15 as X128. -/
def execAccx (h : MHead) (a : MA) (s : State) : Outcome :=
  let p := s.picot h.loc.pic
  let cs := (List.range 16).map (fun i => codeOf 128 (p.accOf a.bank.toNat (16 * a.half.toNat + i)))
  .next (s.vectorOp h 2 a.v { val := packReg 128 cs, bad := p.bankTag a.bank.toNat })

/-- ACCA: X128 groups of a register added to accumulators 16·HALF to 16·HALF + 15 (R150, R169). -/
def execAcca (h : MHead) (a : MA) (s : State) : Outcome :=
  .next (if s.issues && s.predicate h then
    let p := s.picot h.loc.pic
    s.fly h.loc 0 2 (.terms a.bank.toNat (16 * a.half.toNat) false ((List.range 16).map (Vec.group (p.vreg a.v))) (p.tagsOf a.v 8))
  else s)

/-- ACCZ (R160). -/
def execAccz (h : MHead) (a : MA) (s : State) : Outcome :=
  .next (if s.issues && s.predicate h then s.fly h.loc 0 1 (.clearBank a.bank.toNat a.nlog.toNat) else s)

end Sys2Proof.Machine
end

