-- ==== Sys2Proof/Machine/Steer.lean ====
section
/-!
DEFINITION. Steering units (R131, R132, R182): one step of SPLIT, MERGE and SELECT.
-/

namespace Sys2Proof.Machine

namespace SteerUnit
/-- MODE of the configuration: 0 off, 1 SPLIT, 2 MERGE, 3 SELECT (R192). -/
def mode (u : SteerUnit) : Nat := fieldNat u.cfg 0 2
/-- The token queue read. -/
def tqOf (u : SteerUnit) : Fin 8 := (field u.cfg 2 3).toFin
/-- The data queue of input i. -/
def inQ (u : SteerUnit) (i : Nat) : Fin 16 := (field u.cfg (10 + 4 * i) 4).toFin
/-- Input i is enabled. -/
def inEn (u : SteerUnit) (i : Nat) : Bool := bit u.cfg (26 + i)
/-- The data queue of output i. -/
def outQ (u : SteerUnit) (i : Nat) : Fin 16 := (field u.cfg (30 + 4 * i) 4).toFin
/-- Output i is enabled. -/
def outEn (u : SteerUnit) (i : Nat) : Bool := bit u.cfg (46 + i)
/-- Flits per item, 0 meaning 4,096. -/
def itemLen (u : SteerUnit) : Nat := if fieldNat u.cfg 50 12 = 0 then 4096 else fieldNat u.cfg 50 12
end SteerUnit

namespace State

/-- Steering units run with the array, and in a hold whose only active cause is BALANCE (R130, R205). -/
def steers (s : State) : Bool :=
  !s.hold.stopped || (!s.hold.reqs.isEmpty && s.hold.reqs.all (fun r => decide (r.cause = 1)))

/-- A flit moved into an output queue by a steering unit. -/
def steerPush (s : State) (p : Fin 1024) (q : Fin 16) (f : Flit) : State :=
  let x := (s.picot p).queue q
  s.setPicot p ((s.picot p).setQueue q { x with items := x.items ++ [f] })

/-- The head of an input queue taken off. -/
def steerDrop (s : State) (p : Fin 1024) (q : Fin 16) : State :=
  let x := (s.picot p).queue q
  s.setPicot p ((s.picot p).setQueue q { x with items := x.items.tail })

/-- The head of a queue. -/
def headOf (s : State) (p : Fin 1024) (q : Fin 16) : Option Flit := ((s.picot p).queue q).items.head?

/-- Is an output queue full? -/
def queueFull (s : State) (p : Fin 1024) (q : Fin 16) : Bool := decide (((s.picot p).queue q).credit ≤ 0)

/-- One flit of the item is done; the last completes it. -/
def steerDone (s : State) (p : Fin 1024) (u : Fin 4) : State :=
  let x := (s.picot p).unit u
  s.setPicot p ((s.picot p).setUnit u { x with
    left := x.left - 1, items := if x.left = 1 then x.items + 1 else x.items })

/-- Between items: take the SEL token that names an enabled port (R132). The flag says that an item is under way. -/
def steerToken (s : State) (p : Fin 1024) (u : Fin 4) (enabled : Nat → Bool) : State × Bool :=
  let x := (s.picot p).unit u
  if x.left ≠ 0 then (s, true)
  else
    let tq := (s.picot p).tqueue x.tqOf
    match tq.items with
    | [] => (s, false)
    | t :: ts =>
      let s1 := s.setPicot p ((s.picot p).setTqueue x.tqOf { tq with items := ts })
      if fieldNat t 13 3 = 1 ∧ fieldNat t 2 10 = 0 ∧ enabled (fieldNat t 0 2) then
        (s1.setPicot p ((s1.picot p).setUnit u { x with port := fieldNat t 0 2, left := x.itemLen }), true)
      else (s1.arrayFault 3 p (s.faultLg p) u 1, false)

/-- What comes before each step (R148, R182): between items, a stop takes hold and a waiting configuration is taken. -/
def steerReady (s : State) (p : Fin 1024) (u : Fin 4) : State :=
  let x := (s.picot p).unit u
  if x.left = 0 then
    let y := match x.next with | some c => { x with cfg := c, next := none } | none => x
    s.setPicot p ((s.picot p).setUnit u (if y.stopPending then { y with running := false } else y))
  else s

/-- split_step. -/
def splitStep (s : State) (p : Fin 1024) (u : Fin 4) : State :=
  let x := (s.picot p).unit u
  if x.left = 0 ∧ s.headOf p (x.inQ 0) = none then s
  else
    let r := s.steerToken p u x.outEn
    if r.2 then
      let y := (r.1.picot p).unit u
      match r.1.headOf p (y.inQ 0) with
      | none => r.1
      | some f =>
        if r.1.queueFull p (y.outQ y.port) then r.1
        else ((r.1.steerDrop p (y.inQ 0)).steerPush p (y.outQ y.port) f).steerDone p u
    else r.1

/-- merge_step. -/
def mergeStep (s : State) (p : Fin 1024) (u : Fin 4) : State :=
  let r := s.steerToken p u ((s.picot p).unit u).inEn
  if r.2 then
    let y := (r.1.picot p).unit u
    match r.1.headOf p (y.inQ y.port) with
    | none => r.1
    | some f =>
      if r.1.queueFull p (y.outQ 0) then r.1
      else ((r.1.steerDrop p (y.inQ y.port)).steerPush p (y.outQ 0) f).steerDone p u
  else r.1

/-- select_step. -/
def selectStep (s : State) (p : Fin 1024) (u : Fin 4) : State :=
  let r := s.steerToken p u ((s.picot p).unit u).inEn
  if r.2 then
    let y := (r.1.picot p).unit u
    let ins := (List.range 4).filter y.inEn
    if ins.any (fun i => (r.1.headOf p (y.inQ i)).isNone) || r.1.queueFull p (y.outQ 0) then r.1
    else
      let s1 := ins.foldl (fun t i =>
        match t.headOf p (y.inQ i) with
        | none => t
        | some f => if i = y.port then (t.steerDrop p (y.inQ i)).steerPush p (y.outQ 0) f else t.steerDrop p (y.inQ i)) r.1
      s1.steerDone p u
  else r.1

/-- One step of a unit in the mode that the row names. -/
def steerStep (s : State) (p : Fin 1024) (u : Fin 4) (mode : Nat) (f : State → State) : State :=
  if s.steers then
    let s1 := s.steerReady p u
    let x := (s1.picot p).unit u
    if x.running && decide (x.mode = mode) then f s1 else s1
  else s

end State

/-- STEER_SPLIT_ITEM (R131). -/
def execSteerSplitItem (p : Fin 1024) (u : Fin 4) (s : State) : Outcome := .next (s.steerStep p u 1 (fun t => t.splitStep p u))
/-- STEER_MERGE_ITEM (R131). -/
def execSteerMergeItem (p : Fin 1024) (u : Fin 4) (s : State) : Outcome := .next (s.steerStep p u 2 (fun t => t.mergeStep p u))
/-- STEER_SELECT_ITEM (R131). -/
def execSteerSelectItem (p : Fin 1024) (u : Fin 4) (s : State) : Outcome := .next (s.steerStep p u 3 (fun t => t.selectStep p u))

end Sys2Proof.Machine
end

