-- ==== Sys2Proof/Machine/Survey.lean ====
section
/-!
DEFINITION. The survey engines (R253 to R255) and the input gate (R208).
-/

namespace Sys2Proof.Machine

/-- A survey header (R255) with its entries after it: the CRC covers the record. -/
def surveyBytes (magic entries interval first : Nat) (time : Int) (samples : Nat) (body : List Byte) : List Byte :=
  withCrc 60 (leBytes 2 magic ++ leBytes 2 entries ++ leBytes 4 0 ++ leBytes 8 interval ++ leBytes 8 first ++
    leBytes 8 (codeOf 64 time) ++ leBytes 4 samples ++ leBytes 24 0 ++ leBytes 4 0 ++
    zeroPad (padTo 64 body.length) body)

/-- num ÷ den as an FP32 code under RN; zero where den is zero (R253). -/
def ratioFp32 (num : Int) (den : Nat) : Nat :=
  if den = 0 then 0 else (convert Fmt.fp32 .rn ({ num := num, den := den } : Q).toVal).1

/-- Sums of a channel over blocks. -/
def joinAvg (a b : AvgAcc) : AvgAcc :=
  { sum := a.sum + b.sum, sq := a.sq + b.sq, count := a.count + b.count, bad := a.bad + b.bad }

/-- A channel entry of an averaging record (R253). -/
def avgEntry (a : AvgAcc) : List Byte :=
  leBytes 8 (codeOf 64 a.sum) ++ leBytes 8 a.sq ++ leBytes 4 a.count ++ leBytes 4 (ratioFp32 a.sum a.count) ++
  leBytes 4 (ratioFp32 a.sq a.count) ++ leBytes 4 a.bad

/-- A channel entry of a reduction record (R254): the samples are in ascending order from index `first`. -/
def redEntry (first : Nat) (thr : Int) (xs : List (Nat × Sample)) : List Byte :=
  let good := xs.filter (fun x => !x.2.bad)
  match good with
  | [] => leBytes 2 0x7FFF ++ leBytes 2 0x8000 ++ leBytes 2 0xFFFF ++ leBytes 2 0 ++ leBytes 8 0
  | x :: rest =>
    let mn := rest.foldl (fun m y => min m y.2.code) x.2.code
    let mx := rest.foldl (fun m y => max m y.2.code) x.2.code
    let arg := match good.find? (fun y => decide (y.2.code = mx)) with | some y => y.1 - first | none => 0
    leBytes 2 (codeOf 16 mn) ++ leBytes 2 (codeOf 16 mx) ++ leBytes 2 arg ++
    leBytes 2 (good.filter (fun y => decide (thr < y.2.code))).length ++
    leBytes 8 (codeOf 64 ((good.map (fun y => y.2.code)).foldl (· + ·) 0))

namespace State

/-- A survey pointer record (R343). -/
def surveyPointer (s : State) (kind interval pos dpa len : Nat) : List Byte :=
  leBytes 2 0x5350 ++ leBytes 1 1 ++ leBytes 1 kind ++ leBytes 2 s.systemIndex ++ leBytes 2 0 ++ leBytes 8 interval ++
  leBytes 8 pos ++ leBytes 8 dpa ++ leBytes 4 len ++ leBytes 28 0

/-- A survey record goes into its area, or is dropped whole (R250, R255); its pointer goes to subscribers (R343). -/
def putSurvey (s : State) (kind interval : Nat) (bs : List Byte) : State :=
  let s1 := if bs.length ≤ s.areaFree surveyArea then s.areaPad surveyArea bs.length else s
  if s1.areaSize surveyArea = 0 ∨ s1.areaFree surveyArea < bs.length then s1.count Reg.ACQ_SURVEY_DROPS
  else
    let pos := (s1.rd64 Reg.ACQ_SURVEY_WPTR).toNat
    let dpa := ddrBase + (s1.rd64 Reg.ACQ_SURVEY_BASE).toNat + pos % s1.areaSize surveyArea
    let s2 := s1.areaWrite surveyArea bs
    s2.produce (fun x => x.kinds.testBit (2 + kind)) (s2.surveyPointer kind interval pos dpa bs.length)

/-- An averaging interval ends (R253). -/
def averaging (s : State) : State :=
  let n := s.rdF Reg.ACQ_AVG_CFG 0 16
  let b := s.acq.avgFrom
  if s.ctx ≠ ctxRunning || s.replaying || !s.rdB Reg.ACQ_AVG_CFG 31 || n = 0 || !s.through (b + n - 1) then s
  else
    let chs := s.channels.map Prod.fst
    let acc (c : Nat) : AvgAcc :=
      (List.range n).foldl (fun a i => joinAvg a (SMap.get AvgAcc.none s.acq.avg (4096 * (b + i) + c))) AvgAcc.none
    let bs := surveyBytes 0x5341 chs.length s.acq.avgN (b * s.blockLen) (s.acqTime s.refChannel (b * s.blockLen))
      (n * s.blockLen) (chs.flatMap (fun c => avgEntry (acc c)))
    let s1 : State := { s with acq := { s.acq with
      avg := s.acq.avg.filter (fun e => decide (b + n ≤ e.1 / 4096)), avgFrom := b + n, avgN := s.acq.avgN + 1 } }
    s1.putSurvey 0 s.acq.avgN bs

/-- The entries of ACQ_PRIV in use: consecutive from 0. -/
def privs (s : State) : List Nat := (List.range 256).takeWhile (fun i => s.rdB (Reg.ACQ_PRIV i) 31)

/-- log2 of the reduction interval: a value below 4 acts as 4. -/
def redLog (s : State) : Nat := max 4 (s.rdF Reg.ACQ_RED_CFG 0 4)

/-- A reduction interval ends (R254). -/
def reduction (s : State) : State :=
  let n := 2 ^ s.redLog
  let f := s.acq.redFrom
  let have' (i : Nat) : Bool := (SMap.get [] s.acq.red i).any (fun x => decide (f + n ≤ x.1 + 1))
  if s.ctx ≠ ctxRunning || s.replaying || !s.rdB Reg.ACQ_RED_CFG 31 || s.privs.isEmpty || !s.privs.all have' then s
  else
    let entry (i : Nat) : List Byte :=
      redEntry f ((s.rd (Reg.ACQ_PRIV i)).extractLsb' 12 16).toInt
        ((SMap.get [] s.acq.red i).filter (fun x => decide (f ≤ x.1) && decide (x.1 < f + n)))
    let bs := surveyBytes 0x5352 s.privs.length s.acq.redN f (s.acqTime s.refChannel f) n (s.privs.flatMap entry)
    let keep : SMap (List (Nat × Sample)) := s.privs.foldl (fun m i =>
      SMap.set [] m i ((SMap.get [] m i).filter (fun x => decide (f + n ≤ x.1)))) s.acq.red
    let s1 : State := { s with acq := { s.acq with red := keep, redFrom := f + n, redN := s.acq.redN + 1 } }
    s1.putSurvey 1 s.acq.redN bs

/-- The gate finds a block present (R209).  An array without lag would have stood here `lag` cycles ago, and the gate would have
held it until the block came: those cycles leave the lag, and what is left is at most the time since the block came. -/
def lowerLag (s : State) (b : Nat) : State :=
  let since := s.hold.edges - SMap.get 0 s.ing.present b
  if (s.rd Reg.ARY_LAG).toNat ≤ since then s else s.wr Reg.ARY_LAG (BitVec.ofNat 32 since)

/-- The input gate at c − 8 of a block's first injection (R208): a block that is not present requests the INPUT hold;
one that is present clears it, or without a hold reduces the lag. -/
def inputGate (s : State) : State :=
  if s.ctx ≠ ctxRunning || s.img.inputs.isEmpty then s
  else if !s.blockPresent s.gateBlock then s.requestHold 6 .gate false
  else if s.requested 6 .gate then s.clearHold 6 .gate
  else s.lowerLag s.gateBlock

end State

/-- AVERAGING_INTERVAL (R253). -/
def execAveragingInterval (s : State) : Outcome := .next s.averaging

/-- REDUCTION_INTERVAL (R254). -/
def execReductionInterval (s : State) : Outcome := .next s.reduction

/-- INPUT_GATE_CHECK (R208). -/
def execInputGateCheck (s : State) : Outcome := .next s.inputGate

end Sys2Proof.Machine
end

