-- ==== Sys2Proof/Machine/RegFile.lean ====
section
/-!
DEFINITION. The register space (R8, R9, R324 to R329, R439 to R442): what every register reads as, what a write of any
register does, and the widths, kinds of violation and latches of an access.
-/

namespace Sys2Proof.Machine

namespace State

/-! What registers read as. -/

/-- ERR_LOG_ENTRY: the bytes of the head entry (R392). -/
def logEntry (e : ErrEntry) : List Byte :=
  leBytes 4 e.seq ++ bytesOf 1 e.source ++ leBytes 1 e.cls ++
  leBytes 2 (e.nested.toNat + 2 * e.contain.toNat + 4 * e.coalesced.toNat + 8 * e.withheld.toNat + 16 * e.lost.toNat) ++
  leBytes 4 e.firstSeq ++ leBytes 4 e.count ++ bytesOf 8 e.time ++ bytesOf 8 e.loc

/-- Four bits for each of eight things, the first lowest. -/
def nibbles (f : Nat → Nat) : Nat := (List.range 8).foldl (fun n i => n + f i % 16 * 16 ^ i) 0

/-- The pillow and the pillow row of a logical picot (R15), and its logical position counted from the outer column. -/
def pillowOf (p : Nat) : Nat := 2 * (p / 512) + p % 32 / 16
def outerPos (p : Nat) : Nat := if p % 32 < 16 then p % 32 else 31 - p % 32

/-- PCT_ID (R141). -/
def pctId (s : State) (p : Nat) : Nat :=
  p / 32 * 2 ^ 24 + p % 32 * 2 ^ 16 + pillowOf p * 2 ^ 8 + s.physical (16 * pillowOf p + p / 32 % 16) (outerPos p)

/-- Slots of one kind, as bits. -/
def slotBits (s : State) (p : Nat) (k : SlotKind) : Nat :=
  (List.range 8).foldl (fun n i => if ((s.picot p).slot i).kind = k then n + 2 ^ i else n) 0

/-- PCT_STEER (R131, R132). -/
def pctSteer (s : State) (p : Fin 1024) (u : Fin 4) : Nat :=
  let x := (s.picot p).unit u
  let noTok := decide (x.left = 0) && ((s.picot p).tqueue x.tqOf).items.isEmpty
  let missing (q : Fin 16) : Bool := (s.headOf p q).isNone
  let ins := (List.range 4).filter x.inEn
  let w : Bool × Bool × Bool :=
    match x.mode with
    | 1 =>
      if missing (x.inQ 0) then (false, true, false)
      else (noTok, false, !noTok && decide (x.left ≠ 0) && s.queueFull p (x.outQ x.port))
    | 2 =>
      if x.left = 0 then (noTok, false, false)
      else (false, missing (x.inQ x.port), !missing (x.inQ x.port) && s.queueFull p (x.outQ 0))
    | 3 =>
      if x.left = 0 then (noTok, false, false)
      else (false, ins.any (fun i => missing (x.inQ i)), !ins.any (fun i => missing (x.inQ i)) && s.queueFull p (x.outQ 0))
    | _ => (false, false, false)
  if x.running then
    x.mode * 2 ^ 30 + w.1.toNat * 2 ^ 29 + w.2.1.toNat * 2 ^ 28 + w.2.2.toNat * 2 ^ 27 + x.items.toNat
  else x.items.toNat

/-- A word of a picot debug window (R442). -/
def readPct (s : State) (off : Nat) : Word :=
  let p : Fin 1024 := Fin.ofNat 1024 ((off - 0x0100_0000) / 0x1000)
  let o := off % 0x1000
  let x := s.picot p
  if o = 0 then BitVec.ofNat 32 (s.pctId p)
  else if o = 4 then
    BitVec.ofNat 32 (s.slotBits p .shadow * 2 ^ 24 + s.slotBits p .free * 2 ^ 16 + s.slotBits p .bound * 2 ^ 8 + s.arr.cycle % 64)
  else if o = 8 then
    BitVec.ofNat 32 (nibbles (fun l => match (x.logical l).slot with | some k => 8 + k.val | none => 0))
  else if o = 0xC then
    BitVec.ofNat 32 (nibbles (fun l => match (x.logical l).shadow with | some k => 8 + k.val | none => 0))
  else if o < 0x30 then
    BitVec.ofNat 32 (nibbles (fun k =>
      match x.fold.find? (fun e => decide (e.1 = 8 * ((o - 0x10) / 4) + k)) with | some e => 8 + e.2.val | none => 0))
  else if o < 0x50 then
    let l := x.logical ((o - 0x30) / 4)
    BitVec.ofNat 32 ((if l.slot.isSome && !l.ended then 2 ^ 31 else 0) + l.pc % 2 ^ 11)
  else if o < 0x70 then (x.loopCtr ((o - 0x50) / 4)).count.setWidth 32
  else if 0x80 ≤ o ∧ o < 0xC0 then
    let q := x.queue ((o - 0x80) / 4)
    BitVec.ofNat 32 ((BitVec.ofInt 16 q.credit).toNat * 2 ^ 16 + q.items.length % 2 ^ 16)
  else if 0xC0 ≤ o ∧ o < 0xE0 then
    let q := x.tqueue ((o - 0xC0) / 4)
    BitVec.ofNat 32 ((BitVec.ofInt 16 q.credit).toNat * 2 ^ 16 + q.items.length % 2 ^ 9)
  else if 0xE0 ≤ o ∧ o < 0xF0 then BitVec.ofNat 32 (s.pctSteer p (Fin.ofNat 4 ((o - 0xE0) / 4)))
  else if 0x100 ≤ o ∧ o < 0x118 then SMap.get 0 s.arr.events (8 * p.val + (o - 0x100) / 4)
  else if o = 0x300 then (s.rd off &&& 0x3) ||| (x.tracePtr.setWidth 32 <<< 16)
  else if 0x800 ≤ o then
    let e := SMap.get (0 : TraceEnt) x.trace ((o - 0x800) / 8)
    e.extractLsb' (32 * (o / 4 % 2)) 32
  else s.rd off

/-- Half `h` of a pair's value. -/
def half (v : DWord) (h : Nat) : Word := v.extractLsb' (32 * h) 32

/-- The monitor that HLT_MON_SEL names. -/
def selMonitor (s : State) : Monitor := SMap.get Monitor.none s.health (s.rdF Reg.HLT_MON_SEL 0 19)

/-- Seconds of privilege left (R380). -/
def privLeft (s : State) : Nat :=
  let granted := s.rdF Reg.SEC_PRIV 8 24
  granted - (s.now - s.sec.privAt) / 18_000_000_000

/-- ACTIVE of ARY_HOLD_STATUS. -/
def holdBits (s : State) : Nat :=
  (List.range 8).foldl (fun n k => if s.hold.reqs.any (fun r => decide (r.cause = k)) then n + 2 ^ k else n) 0

/-- Registers of the GLB, ERR, ING and TRG blocks that read as more than a stored word. -/
def viewLow (s : State) (off : Nat) : Option Word :=
  if off = Reg.GLB_DEVICE_ID then some (if s.b0 then 0xC300_0910 else 0xC300_0900)
  else if off = Reg.ERR_STATUS then
    some (((s.rd off &&& 0xBFFF_FF80) ||| BitVec.ofNat 32 s.log.entries.length) |||
      (if s.log.entries.any (·.pending) then 0x4000_0000 else 0))
  else if Reg.ERR_LOG_ENTRY 0 ≤ off ∧ off < Reg.ERR_LOG_ENTRY 8 then
    match s.log.entries with
    | e :: _ => some (BitVec.ofNat 32 (leAt (logEntry e) (off - Reg.ERR_LOG_ENTRY 0) 4))
    | [] => some 0
  else if off = Reg.ING_BACKLOG ∨ off = Reg.ING_BACKLOG + 4 then some (half (BitVec.ofNat 64 s.backlog) (off / 4 % 2))
  else if off = Reg.ING_REC_DATA then
    let a := s.rd Reg.ING_REC_ADDR
    some (s.recWord (fieldNat a 16 1) (fieldNat a 4 12) (fieldNat a 0 4))
  else if off = Reg.TRG_STATUS then
    let held : Bool := decide (s.ctx ≠ ctxRunning) || s.rdB Reg.ERR_STATUS 31
    some ((s.rd off &&& 0xFFFF_FFFA) ||| (if held then 1 else 0) ||| (if s.calValid then 4 else 0))
  else if Reg.TRG_IN_STATUS 0 ≤ off ∧ off < Reg.TRG_IN_STATUS 16 then
    let x := s.extIn ((off - Reg.TRG_IN_STATUS 0) / 4)
    let armed := bit (s.inCfg ((off - Reg.TRG_IN_STATUS 0) / 4)) 31 && !x.disarmed
    some ((s.rd off &&& 0x4) ||| (if armed then 2 else 0) ||| (if x.level then 1 else 0))
  else if off = Reg.TRG_PRIM_STATUS then
    let x := s.prim (s.rdF Reg.TRG_PRIM_SEL 0 10)
    let armed := s.primEn (s.rdF Reg.TRG_PRIM_SEL 0 10) && !x.disarmed
    some ((s.rd (s.wordKey off) &&& 0xFFFF_0004) ||| (if armed then 2 else 0) ||| (if x.active then 1 else 0))
  else if off = Reg.TRG_MASK_STATUS then
    let x := s.mask (s.rdF Reg.TRG_MASK_SEL 0 6)
    some ((s.rd (s.wordKey off) &&& 0x2) ||| (if x.inst.isSome then 1 else 0))
  else if off = Reg.TRG_MASK_PDATA then some (SMap.get 0 s.trg.points (s.rdF Reg.TRG_MASK_PADDR 0 14))
  else if off = Reg.TRG_CLASS_CFG then
    some ((s.rd (s.wordKey off) &&& 0xBFFF_FFFF) ||| (if s.isSlow (s.rdF Reg.TRG_CLASS_SEL 0 6) then 0x4000_0000 else 0))
  else none

/-- Registers of the ACQ, TIM, ARY, HQ, SEC, HLT and MEM blocks that read as more than a stored word. -/
def viewHigh (s : State) (off : Nat) : Option Word :=
  if off = Reg.ACQ_STATUS then
    let ring : Bool := decide (s.ctx = ctxRunning) && decide (s.ringSlots ≠ 0) && !s.replaying
    let waits : Bool := !s.acq.copying && (match s.acq.queue with
      | e :: _ => decide (e.fate = 0) && decide (s.areaFree eventArea < s.recordLen e)
      | [] => false)
    let full : Bool :=
      (s.rdB Reg.ACQ_AVG_CFG 31 && decide (s.areaFree surveyArea < 64 + padTo 64 (32 * s.channels.length))) ||
      (s.rdB Reg.ACQ_RED_CFG 31 && decide (s.areaFree surveyArea < 64 + padTo 64 (16 * s.privs.length)))
    some (BitVec.ofNat 32 (ring.toNat + 2 * s.acq.copying.toNat + 4 * waits.toNat + 8 * full.toNat))
  else if off = Reg.ACQ_BACKLOG ∨ off = Reg.ACQ_BACKLOG + 4 then
    some (half (BitVec.ofNat 64 s.captureBacklog) (off / 4 % 2))
  else if off = Reg.TIM_NOW ∨ off = Reg.TIM_NOW + 4 then some (half s.timeline (off / 4 % 2))
  else if off = Reg.ARY_STATUS then some s.aryStatus
  else if off = Reg.ARY_ROUND ∨ off = Reg.ARY_ROUND + 4 then some (half s.arr.round (off / 4 % 2))
  else if Reg.ARY_REPAIR 0 ≤ off ∧ off < Reg.ARY_REPAIR 16 then some (s.repairWord ((off - Reg.ARY_REPAIR 0) / 4))
  else if off = Reg.ARY_HOLD_STATUS then
    some (BitVec.ofNat 32 (s.hold.stopped.toNat * 2 ^ 31 + s.hold.cancel.isSome.toNat * 2 ^ 30 + s.holdBits))
  else if off = Reg.HQ_REPLAY_NEXT ∨ off = Reg.HQ_REPLAY_NEXT + 4 then
    some (half (BitVec.ofNat 64 (s.replay.next.getD 0)) (off / 4 % 2))
  else if 0x000A_0000 ≤ off ∧ off < 0x000A_0400 ∧ off % 64 = 0x1C then
    some ((s.rd off &&& 0xFFFF_FFF7) ||| (if s.fetchWaits ((off - 0x000A_0000) / 64) then 8 else 0))
  else if off = Reg.SEC_DIRTY_COUNT then some (BitVec.ofNat 32 (min s.mem.dirty.length 0x7FF))
  else if off = Reg.SEC_SCRUB_STATUS then
    some ((s.rd off &&& 0x7FFF_FFFF) ||| (if 2048 ≤ s.mem.dirty.length then 0x8000_0000 else 0))
  else if off = Reg.SEC_PRIV then
    some (if s.rdB off 0 then BitVec.ofNat 32 (s.privLeft * 2 ^ 8) ||| (s.rd off &&& 0xFF) else 0)
  else if off = Reg.HLT_MON_Y then some (fp32Of s.selMonitor.last)
  else if off = Reg.HLT_MON_BASE then some (fp32Of s.selMonitor.base)
  else if off = Reg.HLT_MON_SAMPLES then some (BitVec.ofNat 32 (min s.selMonitor.n (2 ^ 32 - 1)))
  else if off = Reg.HLT_MON_EOL then some (s.selMonitor.eol (s.rdF Reg.HLT_MON_SEL 16 3))
  else if off = Reg.MEM_LOST then
    some (BitVec.ofNat 32 (s.mem.lost.length + if 256 ≤ s.mem.lost.length then 2 ^ 16 else 0))
  else none

/-- What a register word reads as now; a word that no table names reads zero (R324, R439). -/
def readReg (s : State) (off : Nat) : Word :=
  match regAt off with
  | none => 0
  | some _ =>
    if 0x0100_0000 ≤ off ∧ off < 0x0140_0000 then s.readPct off
    else match s.viewLow off with
      | some w => w
      | none => (s.viewHigh off).getD (s.rd (s.wordKey off))

/-! Writes. -/

/-- The unit behind a windowed configuration register is enabled: a write there is refused, but for one of its CFG
word that clears EN (R219). -/
def unitWrite (s : State) (m : Master) (off cfg : Nat) (v : Word) (enable clear : State → State) : State :=
  let k := s.wordKey cfg
  if bit (s.rd k) 31 then
    if off = cfg ∧ !bit v 31 then clear (s.mergeWord off v) else s.refuse m off
  else if off = cfg ∧ bit v 31 then enable (s.mergeWord off (v &&& 0x7FFF_FFFF))
  else s.mergeWord off v

/-- TRG_OUT_CFG (R238): a new INVERT shows at the pins. -/
def writeOutCfg (s : State) (o : Nat) (v : Word) : State :=
  let t := s.mergeWord (Reg.TRG_OUT_CFG o) v
  if bit v 30 != s.rdB (Reg.TRG_OUT_CFG o) 30 then t.drivePin o (s.tout o).high else t

/-- TRG_PRIM_CFG, THR, PARAM and HOLDOFF (R219). -/
def writePrim (s : State) (m : Master) (off : Nat) (v : Word) : State :=
  let u := s.rdF Reg.TRG_PRIM_SEL 0 10
  s.unitWrite m off Reg.TRG_PRIM_CFG v (fun t => t.enablePrim u) (fun t => t.setPrim u Prim.none)

/-- TRG_MASK_CFG and POINTS (R223). -/
def writeMask (s : State) (m : Master) (off : Nat) (v : Word) : State :=
  let k := s.rdF Reg.TRG_MASK_SEL 0 6
  let fresh (t : State) : State :=
    let t1 := t.setMask k Mask.none
    { t1 with trg := { t1.trg with maskQ := SMap.erase t1.trg.maskQ k } }
  s.unitWrite m off Reg.TRG_MASK_CFG v (fun t => fresh (t.wrB (Reg.mask k Reg.TRG_MASK_CFG) 31 true)) fresh

/-- The registers of a trigger class (R237). -/
def writeClass (s : State) (m : Master) (off : Nat) (v : Word) : State :=
  let c := s.rdF Reg.TRG_CLASS_SEL 0 6
  s.unitWrite m off Reg.TRG_CLASS_CFG v (fun t => t.enableClass c) id

/-- An enabled mask uses a point (R223). -/
def pointUsed (s : State) (p : Nat) : Bool :=
  (List.range 64).any (fun k => s.maskEn k && (match s.maskPoints k with
    | some (first, n) => decide (first ≤ p) && decide (p < first + n)
    | none => false))

/-- TRG_MASK_PDATA: the point that TRG_MASK_PADDR names; with AUTOINC the address moves on. -/
def writePoint (s : State) (m : Master) (v : Word) : State :=
  let p := s.rdF Reg.TRG_MASK_PADDR 0 14
  let t : State :=
    if s.pointUsed p then s.refuse m Reg.TRG_MASK_PDATA
    else { s with trg := { s.trg with points := SMap.set 0 s.trg.points p v } }
  if s.rdB Reg.TRG_MASK_PADDR 31 then t.wrF Reg.TRG_MASK_PADDR 0 14 ((p + 1) % 16384) else t

/-- TRG_IN_CFG: the level is read after INVERT. -/
def writeInCfg (s : State) (n : Nat) (v : Word) : State :=
  let flips := bit v 30 != bit (s.inCfg n) 30
  let t := s.mergeWord (Reg.TRG_IN_CFG n) v
  if flips then t.setExtIn n { t.extIn n with level := !(t.extIn n).level } else t

/-- ACQ_AVG_CFG: averaging enabled during a context begins at the next block. -/
def writeAvgCfg (s : State) (v : Word) : State :=
  let t := s.mergeWord Reg.ACQ_AVG_CFG v
  if bit v 31 && !s.rdB Reg.ACQ_AVG_CFG 31 && decide (s.ctx = ctxRunning) then
    { t with acq := { t.acq with avg := [], avgFrom := s.freshBlock } }
  else t

/-- ACQ_RED_CFG: reductions enabled during a context begin at the next block. -/
def writeRedCfg (s : State) (v : Word) : State :=
  let t := s.mergeWord Reg.ACQ_RED_CFG v
  if bit v 31 && !s.rdB Reg.ACQ_RED_CFG 31 && decide (s.ctx = ctxRunning) then
    { t with acq := { t.acq with red := [], redFrom := s.freshBlock * s.blockLen } }
  else t

/-- A register that changes only while no context runs (R329). -/
def writeIdle (s : State) (m : Master) (off : Nat) (v : Word) : State :=
  if s.contextRuns then s.refuse m off else s.mergeWord off v

/-- Base or size of an area (R250): multiples of 1 MiB, while no context runs. -/
def writeAreaReg (s : State) (m : Master) (off : Nat) (v : Word) : State :=
  if s.contextRuns ∨ (off % 8 = 0 ∧ fieldNat v 0 20 ≠ 0) then s.refuse m off else s.mergeWord off v

/-- One word of an area's read pointer (R250, R327): the pointer moves to the value that the word gives it. -/
def writeRptrWord (s : State) (m : Master) (a : Area) (off : Nat) (v : Word) : State :=
  let old := s.rd64 a.rptr
  let new : DWord := if off = a.rptr then half old 1 ++ v else v ++ half old 0
  if (s.rd64 a.rptr).toNat ≤ new.toNat ∧ new.toNat ≤ (s.rd64 a.wptr).toNat then s.wr64 a.rptr new else s.refuse m off

/-- Words of the GLB, ERR, ING, TRG and ACQ blocks whose writes do more than their access type says. -/
def writeLow (s : State) (m : Master) (off : Nat) (v : Word) : Option State :=
  if off = Reg.GLB_SYSTEM_INDEX then
    some (if decide (ctxLoaded ≤ s.ctx) && decide (s.ctx ≤ ctxHalted) then s.refuse m off else s.mergeWord off v)
  else if off = Reg.GLB_RESET_CTL then some (s.writeResetCtl m v)
  else if off = Reg.GLB_COLD_RESET then some (s.writeColdReset m v)
  else if off = Reg.ERR_LOG_CTL then some (if bit v 0 then s.popLog else s)
  else if off < Reg.ING_LANE_CFG 64 ∧ Reg.ING_LANE_CFG 0 ≤ off then some (s.writeLaneCfg m ((off - Reg.ING_LANE_CFG 0) / 4) v)
  else if Reg.ING_JESD_LINK 0 ≤ off ∧ off < Reg.ING_JESD_LINK 16 then some (s.writeLinkCfg ((off - Reg.ING_JESD_LINK 0) / 4) v)
  else if off = Reg.ING_REC_SWITCH + 4 then some (s.writeRecSwitch v)
  else if off = Reg.ING_REC_DATA then some (s.writeRecData m v)
  else if Reg.ING_CHMAP 0 ≤ off ∧ off < Reg.ING_CHMAP 4096 then some (s.writeIdle m off v)
  else if off = Reg.TRG_THR_SWITCH + 4 then some (s.writeThrSwitch v)
  else if Reg.TRG_IN_CFG 0 ≤ off ∧ off < Reg.TRG_IN_CFG 16 then some (s.writeInCfg ((off - Reg.TRG_IN_CFG 0) / 4) v)
  else if off = Reg.TRG_TDC_CFG then some (s.anchorStamp.2.writeTdcCfg m v s.anchorStamp.1)
  else if Reg.TRG_PRIM_CFG ≤ off ∧ off ≤ Reg.TRG_PRIM_HOLDOFF then some (s.writePrim m off v)
  else if off = Reg.TRG_MASK_CFG ∨ off = Reg.TRG_MASK_POINTS then some (s.writeMask m off v)
  else if off = Reg.TRG_MASK_STATUS then some (s.writeMaskStatus v)
  else if off = Reg.TRG_MASK_PDATA then some (s.writePoint m v)
  else if Reg.TRG_VS_CFG 0 ≤ off ∧ off < Reg.TRG_VS_CFG 256 then some (s.writeIdle m off v)
  else if Reg.TRG_VS_THR 0 ≤ off ∧ off < Reg.TRG_VS_THR 256 then
    some (if s.rdB Reg.TRG_THR_STATUS 2 then s.mergeWord off v else s.refuse m off)
  else if (Reg.TRG_CLASS_CFG ≤ off ∧ off < Reg.TRG_CLASS_FIRED) ∨ off = Reg.TRG_CLASS_LAUNCH then some (s.writeClass m off v)
  else if Reg.TRG_OUT_CFG 0 ≤ off ∧ off < Reg.TRG_OUT_CFG 16 then some (s.writeOutCfg ((off - Reg.TRG_OUT_CFG 0) / 4) v)
  else if off = Reg.ACQ_REF_CHANNEL ∨ (Reg.ACQ_CAP_PRE 0 ≤ off ∧ off < Reg.ACQ_CAP_GROUPS 64) ∨
      (Reg.ACQ_PRIV 0 ≤ off ∧ off < Reg.ACQ_PRIV 256) then some (s.writeIdle m off v)
  else if (Reg.ACQ_STORE_BASE ≤ off ∧ off < Reg.ACQ_STORE_WPTR) ∨ (Reg.ACQ_SURVEY_BASE ≤ off ∧ off < Reg.ACQ_SURVEY_WPTR) then
    some (s.writeAreaReg m off v)
  else if off = Reg.ACQ_STORE_RPTR ∨ off = Reg.ACQ_STORE_RPTR + 4 then some (s.writeRptrWord m eventArea off v)
  else if off = Reg.ACQ_SURVEY_RPTR ∨ off = Reg.ACQ_SURVEY_RPTR + 4 then some (s.writeRptrWord m surveyArea off v)
  else if off = Reg.ACQ_AVG_CFG then some (s.writeAvgCfg v)
  else if off = Reg.ACQ_RED_CFG then some (s.writeRedCfg v)
  else none

/-- The registers of ring r. -/
def writeRingWord (s : State) (m : Master) (off : Nat) (v : Word) : State :=
  let r := (off - 0x000A_0000) / 0x40
  let o := off % 0x40
  if o < 0x10 then (if s.rdB (Reg.HQ_RING_CFG r) 31 then s.refuse m off else s.mergeWord off v)
  else if o = 0x10 then s.writeRingCfg m r v
  else if o = 0x14 then s.writeTail r v
  else if o = 0x18 then s.writeHead r v
  else s.mergeWord off v

/-- Words of a picot debug window. -/
def writePct (s : State) (off : Nat) (v : Word) : State :=
  let p : Fin 1024 := Fin.ofNat 1024 ((off - 0x0100_0000) / 0x1000)
  let o := off % 0x1000
  if o = 0x114 then
    let k := 8 * p.val + 5
    let ev := SMap.set 0 s.arr.events k (SMap.get 0 s.arr.events k &&& ~~~(v &&& 0x1F))
    { s with arr := { s.arr with events := ev } }
  else if o = 0x200 then s.startPeek p v
  else s.mergeWord off v

/-- TIM_SET_CTL (R293): GO applies the set at once, and reads 0. -/
def writeSetCtl (s : State) (m : Master) (v : Word) : State :=
  if s.contextRuns then s.refuse m Reg.TIM_SET_CTL
  else if bit v 0 then s.writeTimeSet m (bit v 1)
  else s.wrB Reg.TIM_SET_CTL 1 (bit v 1)

/-- Words of the TIM, ARY, HQ, SEC, HLT and PCT blocks whose writes do more than their access type says. -/
def writeHigh (s : State) (m : Master) (off : Nat) (v : Word) : Option State :=
  if off = Reg.TIM_SET_CTL then some (s.writeSetCtl m v)
  else if off = Reg.TIM_SERVO_CFG then some (s.mergeWord off v).followServoCfg
  else if off = Reg.TIM_SLEW then some (s.mergeWord off v).relimit
  else if off = Reg.TIM_PPS_CFG then some (s.writePpsCfg v)
  else if off = Reg.ARY_FLIP + 4 then some (s.writeFlip m v)
  else if off = Reg.ARY_REPAIR_CMD then some (s.burnRepair m v)
  else if 0x000A_0000 ≤ off ∧ off < 0x000A_0400 then some (s.writeRingWord m off v)
  else if off = Reg.SEC_CTX_STOP then
    some (if m = .f0 ∨ m = .f1 then (if bit v 0 then s.stopQuiet else s) else s.refuse m off)
  else if off = Reg.SEC_LANE_CRYPT ∨ off = Reg.SEC_LANE_CRYPT + 4 then
    some (if s.isProtected && (decide (s.ctx = ctxReady) || decide (s.ctx = ctxLoaded)) then s.mergeWord off v else s.refuse m off)
  else if off = Reg.HLT_STEP_CAP then some (s.writeStepCap v)
  else if off = Reg.HLT_WDOG then some (s.writeWdog m v)
  else if 0x0100_0000 ≤ off ∧ off < 0x0140_0000 then some (s.writePct off v)
  else none

/-- A 32-bit write of a register word (R8, R327, R329). -/
def writeWord (s : State) (m : Master) (off : Nat) (v : Word) : State :=
  match s.writeLow m off v with
  | some t => t
  | none => (s.writeHigh m off v).getD (s.mergeWord off v)

/-! Accesses. -/

end State

/-- The bytes of an access; one wider than 64 bits is taken as 16. -/
def widthBytes : Width → Nat
  | .b8 => 1
  | .b16 => 2
  | .b32 => 4
  | .b64 => 8
  | .wider => 16

/-- The low word of a documented 64-bit pair lies at an offset. -/
def pairLow (off : Nat) : Bool :=
  match regAt off with
  | some (r, h) => r.pair && decide (h = 0) && decide (off % 4 = 0)
  | none => false

/-- The kind of a violation that ends in a completer abort (R325): WIDE, then UNALIGNED. -/
def abortKind (off : Nat) (w : Width) : Option Nat :=
  if w = .wider ∨ (w = .b64 ∧ !pairLow off) then some kWide
  else if off % (widthBytes w) ≠ 0 then some kUnaligned
  else none

namespace State

/-- A 32-bit write of a register word by a master, after its width and alignment are found good (R325, R329, R429). -/
def writeReg (s : State) (m : Master) (off : Nat) (v : Word) : State :=
  match regAt off with
  | none => s.violation kUnmapped m off
  | some (r, _) =>
    if r.priv && !s.privileged m then s.violation kPriv m off
    else if s.answers off then s.writeWord m off v
    else s.refuse m off

/-- The high word of a 64-bit write, after its low word: one access is counted once (R325), so where the low word was counted
(`s` is the state before it) the high word adds no count. -/
def writeHighWord (t s : State) (m : Master) (off : Nat) (v : Word) : State :=
  let u := t.writeReg m off v
  if t.rd Reg.ERR_ACCESS = s.rd Reg.ERR_ACCESS then u
  else (u.wr Reg.ERR_ACCESS (t.rd Reg.ERR_ACCESS)).wr Reg.ERR_ACCESS_INFO (t.rd Reg.ERR_ACCESS_INFO)

/-- A register write of any width (R325). -/
def writeAccess (s : State) (m : Master) (off : Nat) (w : Width) (v : DWord) : State :=
  match abortKind off w with
  | some k => (s.violation k m off).emit (.abort m)
  | none =>
    match w with
    | .b32 => s.writeReg m off (half v 0)
    | .b64 => (s.writeReg m off (half v 0)).writeHighWord s m (off + 4) (half v 1)
    | _ =>
      match regAt (off - off % 4) with
      | none => s.violation kUnmapped m off
      | some _ => s.violation kNarrow m off

/-- A master's latch (R326). -/
def latch (s : State) (m : Master) : Latch := SMap.get { low := none, word := 0 } s.latches (masterNum m)
def setLatch (s : State) (m : Master) (l : Latch) : State :=
  { s with latches := SMap.set { low := none, word := 0 } s.latches (masterNum m) l }

/-- The word that a master reads at a mapped or unmapped offset: zero where the block does not answer (R429) or the
master lacks a P register's privilege (R8). -/
def readable (s : State) (m : Master) (off : Nat) : Word :=
  match regAt off with
  | none => 0
  | some (r, _) => if (r.priv && !s.privileged m) || !s.answers off then 0 else s.readReg off

/-- A read that lacks the privilege of a P register is counted (R329). -/
def countRead (s : State) (m : Master) (off : Nat) : State :=
  match regAt off with
  | none => s
  | some (r, _) => if r.priv && !s.privileged m then s.violation kPriv m off else s

/-- The high word as a master reads it: latched where its last read named the pair's low word (R326). -/
def readLatched (s : State) (m : Master) (off : Nat) : Word :=
  if 4 ≤ off ∧ (s.latch m).low = some (off - 4) then (s.latch m).word else s.readable m off

/-- A register read of any width (R325, R326): its data goes to the master, and its one side effect is the latch. -/
def readAccess (s : State) (m : Master) (off : Nat) (w : Width) : State :=
  match abortKind off w with
  | some k => (s.violation k m off).emit (.abort m)
  | none =>
    let clear : Latch := { low := none, word := (s.latch m).word }
    let filled : Latch := { low := some off, word := s.readable m (off + 4) }
    let t := s.countRead m (off - off % 4)
    match w with
    | .b32 => (t.setLatch m (if pairLow off then filled else clear)).emit (.readData m (bytesOf 4 (s.readLatched m off)))
    | .b64 => (t.setLatch m filled).emit (.readData m (bytesOf 4 (s.readable m off) ++ bytesOf 4 (s.readable m (off + 4))))
    | _ =>
      (t.setLatch m clear).emit (.readData m (((bytesOf 4 (s.readable m (off - off % 4))).drop (off % 4)).take (widthBytes w)))

/-! BAR2 of function 0 (R319, R345): the MSI-X table and the pending bits.  Masking follows PCI Express. -/

/-- A word of BAR2 is written: the MSI-X table alone holds what is written; a vector that is unmasked while it is pending is sent,
and pending no more. -/
def writeBar2Word (s : State) (off : Nat) (v : Word) : State :=
  if 0x1_0000 ≤ off ∧ off < 0x1_0400 then
    let i := off / 4 % 4
    let n : BitVec 6 := BitVec.ofNat 6 (off / 16)
    let t := s.wr (Reg.msix n.toNat i) (if i = 0 then v &&& 0xFFFF_FFFC else if i = 3 then v &&& 1 else v)
    if s.rdB (Reg.msixPba n.toNat) (n.toNat % 32) && !t.vecMasked n then
      (t.wrB (Reg.msixPba n.toNat) (n.toNat % 32) false).sendVector n
    else t
  else s

/-- A write of BAR2: PCI Express takes aligned accesses of 32 and 64 bits. -/
def writeBar2 (s : State) (off : Nat) (w : Width) (v : DWord) : State :=
  match w with
  | .b32 => if off % 4 = 0 then s.writeBar2Word off (half v 0) else s
  | .b64 => if off % 8 = 0 then (s.writeBar2Word off (half v 0)).writeBar2Word (off + 4) (half v 1) else s
  | _ => s

/-- A read of BAR2: the MSI-X table and the pending bits as they stand, zeros elsewhere; of the CXL component registers the spec
gives no contents, and they read as open values. -/
def readBar2 (s : State) (off : Nat) (w : Width) : State :=
  if off < 0x1_0000 then
    let f := s.free256
    f.2.emit (.readData .f0 ((bytesOf 32 f.1).take (widthBytes w)))
  else
    s.emit (.readData .f0 ((List.range (widthBytes w)).map (fun i =>
      (s.rd (Reg.bar2 (off + i - (off + i) % 4))).extractLsb' (8 * ((off + i) % 4)) 8)))

end State

/-- REGISTER_WRITE (R8, R319, R324, R325, R327, R329, R345). -/
def execRegisterWrite (m : Master) (a : BarAddr) (w : Width) (v : BitVec 64) (s : State) : Outcome :=
  .next (if a.bar2 then (if m = .f0 then s.writeBar2 a.off.toNat w v else s) else s.writeAccess m a.off.toNat w v)

/-- WIDE_OR_UNALIGNED_ACCESS (R325): an access of either direction; one that breaks neither rule takes its effect. -/
def execWideOrUnalignedAccess (m : Master) (off : BitVec 25) (w : Width) (wr : Bool) (v : BitVec 64) (s : State) : Outcome :=
  .next (if wr then s.writeAccess m off.toNat w v else s.readAccess m off.toNat w)

/-- LOW_WORD_READ (R319, R326). -/
def execLowWordRead (m : Master) (a : BarAddr) (w : Width) (s : State) : Outcome :=
  .next (if a.bar2 then (if m = .f0 then s.readBar2 a.off.toNat w else s) else s.readAccess m a.off.toNat w)

end Sys2Proof.Machine
end

