-- ==== Sys2Proof/Machine/Vector.lean ====
section
/-!
DEFINITION. The vector instructions (R162 to R168).
-/

namespace Sys2Proof.Machine

/-- FADD: VA + VB. -/
def execFadd (h : MHead) (a : MV) (s : State) : Outcome :=
  .next (s.vectorOp h 3 a.vd (Vec.fadd (s.mctx h.loc) a))

/-- FSUB: VA − VB. -/
def execFsub (h : MHead) (a : MV) (s : State) : Outcome :=
  .next (s.vectorOp h 3 a.vd (Vec.fsub (s.mctx h.loc) a))

/-- FMUL: VA × VB. -/
def execFmul (h : MHead) (a : MV) (s : State) : Outcome :=
  .next (s.vectorOp h 3 a.vd (Vec.fmul (s.mctx h.loc) a))

/-- FMA: VA × VB + VC, one rounding. -/
def execFma (h : MHead) (a : MV) (s : State) : Outcome :=
  .next (s.vectorOp h 4 a.vd (Vec.fma (s.mctx h.loc) a))

/-- FMIN. -/
def execFmin (h : MHead) (a : MV) (s : State) : Outcome :=
  .next (s.vectorOp h 3 a.vd (Vec.fmin (s.mctx h.loc) a))

/-- FMAX. -/
def execFmax (h : MHead) (a : MV) (s : State) : Outcome :=
  .next (s.vectorOp h 3 a.vd (Vec.fmax (s.mctx h.loc) a))

/-- RCP (R162). -/
def execRcp (h : MHead) (a : MV) (s : State) : Outcome :=
  .next (s.vectorOp h (s.classLatency 1 10 7) a.vd (Vec.rcp (s.mctx h.loc) a))

/-- RSQ (R162). -/
def execRsq (h : MHead) (a : MV) (s : State) : Outcome :=
  .next (s.vectorOp h (s.classLatency 1 10 7) a.vd (Vec.rsq (s.mctx h.loc) a))

/-- EXP2 (R162). -/
def execExp2 (h : MHead) (a : MV) (s : State) : Outcome :=
  .next (s.vectorOp h (s.classLatency 2 12 8) a.vd (Vec.exp2 (s.mctx h.loc) a))

/-- LOG2 (R162). -/
def execLog2 (h : MHead) (a : MV) (s : State) : Outcome :=
  .next (s.vectorOp h (s.classLatency 2 12 8) a.vd (Vec.log2 (s.mctx h.loc) a))

/-- IADD (R57, R60). -/
def execIadd (h : MHead) (a : MV) (s : State) : Outcome :=
  .next (s.vectorOp h 2 a.vd (Vec.iadd (s.mctx h.loc) a))

/-- ISUB. -/
def execIsub (h : MHead) (a : MV) (s : State) : Outcome :=
  .next (s.vectorOp h 2 a.vd (Vec.isub (s.mctx h.loc) a))

/-- IMUL. -/
def execImul (h : MHead) (a : MV) (s : State) : Outcome :=
  .next (s.vectorOp h 3 a.vd (Vec.imul (s.mctx h.loc) a))

/-- IMIN. -/
def execImin (h : MHead) (a : MV) (s : State) : Outcome :=
  .next (s.vectorOp h 2 a.vd (Vec.imin (s.mctx h.loc) a))

/-- IMAX. -/
def execImax (h : MHead) (a : MV) (s : State) : Outcome :=
  .next (s.vectorOp h 2 a.vd (Vec.imax (s.mctx h.loc) a))

/-- AND of two vector registers. -/
def execAndVector (h : MHead) (a : MV) (s : State) : Outcome :=
  .next (s.vectorOp h 1 a.vd (Vec.andv (s.mctx h.loc) a))

/-- OR of two vector registers. -/
def execOrVector (h : MHead) (a : MV) (s : State) : Outcome :=
  .next (s.vectorOp h 1 a.vd (Vec.orv (s.mctx h.loc) a))

/-- XOR of two vector registers. -/
def execXorVector (h : MHead) (a : MV) (s : State) : Outcome :=
  .next (s.vectorOp h 1 a.vd (Vec.xorv (s.mctx h.loc) a))

/-- SHL. -/
def execShl (h : MHead) (a : MV) (s : State) : Outcome :=
  .next (s.vectorOp h 1 a.vd (Vec.shl (s.mctx h.loc) a))

/-- SHR. -/
def execShr (h : MHead) (a : MV) (s : State) : Outcome :=
  .next (s.vectorOp h 1 a.vd (Vec.shr (s.mctx h.loc) a))

/-- SAR. -/
def execSar (h : MHead) (a : MV) (s : State) : Outcome :=
  .next (s.vectorOp h 1 a.vd (Vec.sar (s.mctx h.loc) a))

/-- CMP (R163). -/
def execCmp (h : MHead) (a : MV) (s : State) : Outcome :=
  .next (s.vectorOp h 2 a.vd (Vec.cmp (s.mctx h.loc) a))

/-- VSEL. -/
def execVsel (h : MHead) (a : MV) (s : State) : Outcome :=
  .next (s.vectorOp h 1 a.vd (Vec.vsel (s.mctx h.loc) a))

/-- CVT (R164). -/
def execCvt (h : MHead) (a : MV) (s : State) : Outcome :=
  .next (s.vectorOp h (s.classLatency 3 3 2) a.vd (Vec.cvt (s.mctx h.loc) a))

/-- QNT (R165). -/
def execQnt (h : MHead) (a : MV) (s : State) : Outcome :=
  .next (s.vectorOp h (s.classLatency 4 5 4) a.vd (Vec.qnt (s.mctx h.loc) a))

/-- DQT (R165). -/
def execDqt (h : MHead) (a : MV) (s : State) : Outcome :=
  .next (s.vectorOp h 4 a.vd (Vec.dqt (s.mctx h.loc) a))

/-- SCALE (R166). -/
def execScale (h : MHead) (a : MV) (s : State) : Outcome :=
  .next (s.vectorOp h 4 a.vd (Vec.scale (s.mctx h.loc) a))

/-- BQNT (R167). -/
def execBqnt (h : MHead) (a : MV) (s : State) : Outcome :=
  .next (s.vectorOp h 4 a.vd (Vec.bqnt (s.mctx h.loc) a))

/-- CSUM (R168). -/
def execCsum (h : MHead) (a : MV) (s : State) : Outcome :=
  .next (s.vectorOp h 3 a.vd (Vec.csum (s.mctx h.loc) a))

/-- VLD: eight SRAM words into a register, whose tags clear (R154). -/
def execVld (h : MHead) (a : MD) (s : State) : Outcome :=
  let words := (List.range 8).map (fun i => a.word.toNat + i)
  .next (s.sramOp h words (fun t =>
    t.flyReg h.loc 3 a.vd { val := packReg 256 (words.map (fun w => (s.sramRead h.loc.pic w).toNat)), bad := false }))

end Sys2Proof.Machine
end

