-- ==== Sys2Proof/Machine/Dispatch.lean ====
section
/-!
DEFINITION. One arm per row of the opcode table, each one call of the row's meaning.
-/

namespace Sys2Proof.Machine

/-- A command's effect on everything but the queue. -/
def exec (i : Instr) (s : State) : Host.Outcome State Fault Refusal :=
  match i with
  | .registerWrite m a w v => Sys2Proof.Machine.execRegisterWrite m a w v s
  | .wideOrUnalignedAccess m off w wr v => Sys2Proof.Machine.execWideOrUnalignedAccess m off w wr v s
  | .lowWordRead m a w => Sys2Proof.Machine.execLowWordRead m a w s
  | .thermalSample tLogic tHbm power => Sys2Proof.Machine.execThermalSample tLogic tHbm power s
  | .hotSampleCountExpiry => Sys2Proof.Machine.execHotSampleCountExpiry s
  | .coolSampleCountExpiry => Sys2Proof.Machine.execCoolSampleCountExpiry s
  | .stepCapWrite m v => Sys2Proof.Machine.execStepCapWrite m v s
  | .stepChangeBegin => Sys2Proof.Machine.execStepChangeBegin s
  | .islandRelockComplete => Sys2Proof.Machine.execIslandRelockComplete s
  | .hbmRequestServe stack late bus => Sys2Proof.Machine.execHbmRequestServe stack late bus s
  | .ddr5RequestServe ch bus => Sys2Proof.Machine.execDdr5RequestServe ch bus s
  | .ingLaneCfgWrite m lane v => Sys2Proof.Machine.execIngLaneCfgWrite m lane v s
  | .laneLock lane locked => Sys2Proof.Machine.execLaneLock lane locked s
  | .laneAligned lane => Sys2Proof.Machine.execLaneAligned lane s
  | .laneAlignmentLost lane => Sys2Proof.Machine.execLaneAlignmentLost lane s
  | .nolerFrameReceive lane wire stamp => Sys2Proof.Machine.execNolerFrameReceive lane wire stamp s
  | .fillSampleTick lane => Sys2Proof.Machine.execFillSampleTick lane s
  | .jesdLinkCfgWrite m link v => Sys2Proof.Machine.execJesdLinkCfgWrite m link v s
  | .sysrefEdge stamp off => Sys2Proof.Machine.execSysrefEdge stamp off s
  | .jesdMultiblockReceive link words badLanes => Sys2Proof.Machine.execJesdMultiblockReceive link words badLanes s
  | .jesdSyncLost lane => Sys2Proof.Machine.execJesdSyncLost lane s
  | .frontEndSample => Sys2Proof.Machine.execFrontEndSample s
  | .ringBlockComplete => Sys2Proof.Machine.execRingBlockComplete s
  | .ringReaderTakeover => Sys2Proof.Machine.execRingReaderTakeover s
  | .ringReaderBlock => Sys2Proof.Machine.execRingReaderBlock s
  | .ebResume => Sys2Proof.Machine.execEbResume s
  | .ingRecDataWrite m v => Sys2Proof.Machine.execIngRecDataWrite m v s
  | .recSwitchArm m hi => Sys2Proof.Machine.execRecSwitchArm m hi s
  | .recSwitchActivate => Sys2Proof.Machine.execRecSwitchActivate s
  | .stagingBankFree => Sys2Proof.Machine.execStagingBankFree s
  | .statIntervalClose => Sys2Proof.Machine.execStatIntervalClose s
  | .debtUpdate => Sys2Proof.Machine.execDebtUpdate s
  | .shedLevelUpdate => Sys2Proof.Machine.execShedLevelUpdate s
  | .overrunSkip => Sys2Proof.Machine.execOverrunSkip s
  | .inputPlanInject k => Sys2Proof.Machine.execInputPlanInject k s
  | .flitArrival p inp data side check => Sys2Proof.Machine.execFlitArrival p inp data side check s
  | .tokenArrival p inp tok par => Sys2Proof.Machine.execTokenArrival p inp tok par s
  | .bridgeRetry b => Sys2Proof.Machine.execBridgeRetry b s
  | .bridgeRetryComplete b => Sys2Proof.Machine.execBridgeRetryComplete b s
  | .bridgeRetryExhausted b => Sys2Proof.Machine.execBridgeRetryExhausted b s
  | .memlaneRequest p => Sys2Proof.Machine.execMemlaneRequest p s
  | .memlaneReadBeat p => Sys2Proof.Machine.execMemlaneReadBeat p s
  | .steerSplitItem p u => Sys2Proof.Machine.execSteerSplitItem p u s
  | .steerMergeItem p u => Sys2Proof.Machine.execSteerMergeItem p u s
  | .steerSelectItem p u => Sys2Proof.Machine.execSteerSelectItem p u s
  | .fillReceive p data last => Sys2Proof.Machine.execFillReceive p data last s
  | .followBind loc => Sys2Proof.Machine.execFollowBind loc s
  | .flipArm m hi => Sys2Proof.Machine.execFlipArm m hi s
  | .flipExecute => Sys2Proof.Machine.execFlipExecute s
  | .repairBurn m v => Sys2Proof.Machine.execRepairBurn m v s
  | .peekStart m p v => Sys2Proof.Machine.execPeekStart m p v s
  | .peekComplete p => Sys2Proof.Machine.execPeekComplete p s
  | .nopm h => Sys2Proof.Machine.execNopm h s
  | .wld h a => Sys2Proof.Machine.execWld h a s
  | .wsc h a => Sys2Proof.Machine.execWsc h a s
  | .wswap h => Sys2Proof.Machine.execWswap h s
  | .mma h a => Sys2Proof.Machine.execMma h a s
  | .accq h a => Sys2Proof.Machine.execAccq h a s
  | .accx h a => Sys2Proof.Machine.execAccx h a s
  | .acca h a => Sys2Proof.Machine.execAcca h a s
  | .accz h a => Sys2Proof.Machine.execAccz h a s
  | .fadd h a => Sys2Proof.Machine.execFadd h a s
  | .fsub h a => Sys2Proof.Machine.execFsub h a s
  | .fmul h a => Sys2Proof.Machine.execFmul h a s
  | .fma h a => Sys2Proof.Machine.execFma h a s
  | .fmin h a => Sys2Proof.Machine.execFmin h a s
  | .fmax h a => Sys2Proof.Machine.execFmax h a s
  | .rcp h a => Sys2Proof.Machine.execRcp h a s
  | .rsq h a => Sys2Proof.Machine.execRsq h a s
  | .exp2 h a => Sys2Proof.Machine.execExp2 h a s
  | .log2 h a => Sys2Proof.Machine.execLog2 h a s
  | .iadd h a => Sys2Proof.Machine.execIadd h a s
  | .isub h a => Sys2Proof.Machine.execIsub h a s
  | .imul h a => Sys2Proof.Machine.execImul h a s
  | .imin h a => Sys2Proof.Machine.execImin h a s
  | .imax h a => Sys2Proof.Machine.execImax h a s
  | .andVector h a => Sys2Proof.Machine.execAndVector h a s
  | .orVector h a => Sys2Proof.Machine.execOrVector h a s
  | .xorVector h a => Sys2Proof.Machine.execXorVector h a s
  | .shl h a => Sys2Proof.Machine.execShl h a s
  | .shr h a => Sys2Proof.Machine.execShr h a s
  | .sar h a => Sys2Proof.Machine.execSar h a s
  | .cmp h a => Sys2Proof.Machine.execCmp h a s
  | .vsel h a => Sys2Proof.Machine.execVsel h a s
  | .cvt h a => Sys2Proof.Machine.execCvt h a s
  | .qnt h a => Sys2Proof.Machine.execQnt h a s
  | .dqt h a => Sys2Proof.Machine.execDqt h a s
  | .scale h a => Sys2Proof.Machine.execScale h a s
  | .bqnt h a => Sys2Proof.Machine.execBqnt h a s
  | .csum h a => Sys2Proof.Machine.execCsum h a s
  | .vld h a => Sys2Proof.Machine.execVld h a s
  | .xcvt h a => Sys2Proof.Machine.execXcvt h a s
  | .xadd h a => Sys2Proof.Machine.execXadd h a s
  | .xrnd h a => Sys2Proof.Machine.execXrnd h a s
  | .vrsum h a => Sys2Proof.Machine.execVrsum h a s
  | .vrmax h a => Sys2Proof.Machine.execVrmax h a s
  | .vrng h a => Sys2Proof.Machine.execVrng h a s
  | .nopl loc => Sys2Proof.Machine.execNopl loc s
  | .ldw loc a => Sys2Proof.Machine.execLdw loc a s
  | .stw loc a => Sys2Proof.Machine.execStw loc a s
  | .send loc a => Sys2Proof.Machine.execSend loc a s
  | .recv loc a => Sys2Proof.Machine.execRecv loc a s
  | .qput loc a => Sys2Proof.Machine.execQput loc a s
  | .mreq loc a => Sys2Proof.Machine.execMreq loc a s
  | .hatom loc a => Sys2Proof.Machine.execHatom loc a s
  | .hatomExecute col old => Sys2Proof.Machine.execHatomExecute col old s
  | .rdtime loc gd => Sys2Proof.Machine.execRdtime loc gd s
  | .rdsens loc gd sens reading => Sys2Proof.Machine.execRdsens loc gd sens reading s
  | .qlen loc gd tq q => Sys2Proof.Machine.execQlen loc gd tq q s
  | .rdround loc gd => Sys2Proof.Machine.execRdround loc gd s
  | .movi loc gd imm => Sys2Proof.Machine.execMovi loc gd imm s
  | .ldc loc gd ck => Sys2Proof.Machine.execLdc loc gd ck s
  | .addi loc a => Sys2Proof.Machine.execAddi loc a s
  | .add loc a => Sys2Proof.Machine.execAdd loc a s
  | .sub loc a => Sys2Proof.Machine.execSub loc a s
  | .mul loc a => Sys2Proof.Machine.execMul loc a s
  | .andScalar loc a => Sys2Proof.Machine.execAndScalar loc a s
  | .orScalar loc a => Sys2Proof.Machine.execOrScalar loc a s
  | .xorScalar loc a => Sys2Proof.Machine.execXorScalar loc a s
  | .shli loc a => Sys2Proof.Machine.execShli loc a s
  | .shri loc a => Sys2Proof.Machine.execShri loc a s
  | .vtog loc a => Sys2Proof.Machine.execVtog loc a s
  | .gtov loc a => Sys2Proof.Machine.execGtov loc a s
  | .cmpg loc a => Sys2Proof.Machine.execCmpg loc a s
  | .nopc h => Sys2Proof.Machine.execNopc h s
  | .lcset h lc trip => Sys2Proof.Machine.execLcset h lc trip s
  | .lctim h lc trip => Sys2Proof.Machine.execLctim h lc trip s
  | .lctok h lc tq => Sys2Proof.Machine.execLctok h lc tq s
  | .lcgp h lc gs => Sys2Proof.Machine.execLcgp h lc gs s
  | .loop h lc len => Sys2Proof.Machine.execLoop h lc len s
  | .waitlc h lc => Sys2Proof.Machine.execWaitlc h lc s
  | .waitlcResume loc => Sys2Proof.Machine.execWaitlcResume loc s
  | .loopTimerExpiry p lc => Sys2Proof.Machine.execLoopTimerExpiry p lc s
  | .jmp h target => Sys2Proof.Machine.execJmp h target s
  | .brp h pbit neg target => Sys2Proof.Machine.execBrp h pbit neg target s
  | .tsendi h dir tok => Sys2Proof.Machine.execTsendi h dir tok s
  | .tsendg h dir gs => Sys2Proof.Machine.execTsendg h dir gs s
  | .tput h tq tok => Sys2Proof.Machine.execTput h tq tok s
  | .tpop h gd tq => Sys2Proof.Machine.execTpop h gd tq s
  | .tprd h tq => Sys2Proof.Machine.execTprd h tq s
  | .pset h pbit gs b => Sys2Proof.Machine.execPset h pbit gs b s
  | .steer h u on => Sys2Proof.Machine.execSteer h u on s
  | .bclr h => Sys2Proof.Machine.execBclr h s
  | .holdRequestDeferred cause src => Sys2Proof.Machine.execHoldRequestDeferred cause src s
  | .holdRequestCancelling cause src => Sys2Proof.Machine.execHoldRequestCancelling cause src s
  | .holdCauseClear cause src => Sys2Proof.Machine.execHoldCauseClear cause src s
  | .holdLimitDeadlock cause => Sys2Proof.Machine.execHoldLimitDeadlock cause s
  | .waitlcDeadlock loc => Sys2Proof.Machine.execWaitlcDeadlock loc s
  | .inputGateCheck => Sys2Proof.Machine.execInputGateCheck s
  | .verdictArrival stream flit bad => Sys2Proof.Machine.execVerdictArrival stream flit bad s
  | .primitiveSample u => Sys2Proof.Machine.execPrimitiveSample u s
  | .primitiveEnable u => Sys2Proof.Machine.execPrimitiveEnable u s
  | .holdoffExpiry src => Sys2Proof.Machine.execHoldoffExpiry src s
  | .stuckDetect src => Sys2Proof.Machine.execStuckDetect src s
  | .maskPointTest k => Sys2Proof.Machine.execMaskPointTest k s
  | .maskRearm m v => Sys2Proof.Machine.execMaskRearm m v s
  | .externalInputEdge n level stamp tdc => Sys2Proof.Machine.execExternalInputEdge n level stamp tdc s
  | .tdcEnable m v t0 => Sys2Proof.Machine.execTdcEnable m v t0 s
  | .tdcLineCalibrate n counts => Sys2Proof.Machine.execTdcLineCalibrate n counts s
  | .tdcLineSwap n => Sys2Proof.Machine.execTdcLineSwap n s
  | .thrSwitchArm m hi => Sys2Proof.Machine.execThrSwitchArm m hi s
  | .thrSwitchActivate => Sys2Proof.Machine.execThrSwitchActivate s
  | .classEnable c => Sys2Proof.Machine.execClassEnable c s
  | .fastClassEvaluate c => Sys2Proof.Machine.execFastClassEvaluate c s
  | .slowClassEvaluate c => Sys2Proof.Machine.execSlowClassEvaluate c s
  | .timedPulseStart o => Sys2Proof.Machine.execTimedPulseStart o s
  | .outputPulseEnd o => Sys2Proof.Machine.execOutputPulseEnd o s
  | .captureEventClose c => Sys2Proof.Machine.execCaptureEventClose c s
  | .captureCopyStart => Sys2Proof.Machine.execCaptureCopyStart s
  | .captureRefuseOversize => Sys2Proof.Machine.execCaptureRefuseOversize s
  | .captureCopyComplete => Sys2Proof.Machine.execCaptureCopyComplete s
  | .storeRptrWrite m survey v => Sys2Proof.Machine.execStoreRptrWrite m survey v s
  | .averagingInterval => Sys2Proof.Machine.execAveragingInterval s
  | .reductionInterval => Sys2Proof.Machine.execReductionInterval s
  | .selectionFlitInject => Sys2Proof.Machine.execSelectionFlitInject s
  | .parameterFlitInject => Sys2Proof.Machine.execParameterFlitInject s
  | .trainingStepStart cols => Sys2Proof.Machine.execTrainingStepStart cols s
  | .trainerReportReceive flit => Sys2Proof.Machine.execTrainerReportReceive flit s
  | .thresholdPolicyInterval => Sys2Proof.Machine.execThresholdPolicyInterval s
  | .rangePolicyInterval => Sys2Proof.Machine.execRangePolicyInterval s
  | .trainPeriodBoundary => Sys2Proof.Machine.execTrainPeriodBoundary s
  | .timelineWrap => Sys2Proof.Machine.execTimelineWrap s
  | .timelineSetAbsolute m => Sys2Proof.Machine.execTimelineSetAbsolute m s
  | .timelineSetRelative m => Sys2Proof.Machine.execTimelineSetRelative m s
  | .ethFrameReceive port addrs body stamp fcsOk => Sys2Proof.Machine.execEthFrameReceive port addrs body stamp fcsOk s
  | .ethFrameTransmit port stamp => Sys2Proof.Machine.execEthFrameTransmit port stamp s
  | .tcMatchEntryExpire => Sys2Proof.Machine.execTcMatchEntryExpire s
  | .ptpDelayReqSend stamp => Sys2Proof.Machine.execPtpDelayReqSend stamp s
  | .syncOffsetCompute => Sys2Proof.Machine.execSyncOffsetCompute s
  | .delayRespReceive t4 corr => Sys2Proof.Machine.execDelayRespReceive t4 corr s
  | .pdelayRespReceive port t1 t2 t3 t4 corr => Sys2Proof.Machine.execPdelayRespReceive port t1 t2 t3 t4 corr s
  | .servoQuietTimeout => Sys2Proof.Machine.execServoQuietTimeout s
  | .ppsInEdge stamp => Sys2Proof.Machine.execPpsInEdge stamp s
  | .ppsOutEdge => Sys2Proof.Machine.execPpsOutEdge s
  | .ppsOutPulseEnd => Sys2Proof.Machine.execPpsOutPulseEnd s
  | .clk10mGate present ppb => Sys2Proof.Machine.execClk10mGate present ppb s
  | .launchNoticeSend port actual => Sys2Proof.Machine.execLaunchNoticeSend port actual s
  | .sqTailWrite m r v => Sys2Proof.Machine.execSqTailWrite m r v s
  | .cqHeadWrite m r v => Sys2Proof.Machine.execCqHeadWrite m r v s
  | .ringEnable m r v => Sys2Proof.Machine.execRingEnable m r v s
  | .ringDisable m r v => Sys2Proof.Machine.execRingDisable m r v s
  | .submissionFetch r entry => Sys2Proof.Machine.execSubmissionFetch r entry s
  | .fetchError r => Sys2Proof.Machine.execFetchError r s
  | .coalesceTimerExpiry r => Sys2Proof.Machine.execCoalesceTimerExpiry r s
  | .nop r => Sys2Proof.Machine.execNop r s
  | .load r image seeds hqTable dma => Sys2Proof.Machine.execLoad r image seeds hqTable dma s
  | .start r => Sys2Proof.Machine.execStart r s
  | .stop r => Sys2Proof.Machine.execStop r s
  | .ctxStopRegister m v => Sys2Proof.Machine.execCtxStopRegister m v s
  | .readEvents r dma => Sys2Proof.Machine.execReadEvents r dma s
  | .readSurvey r dma => Sys2Proof.Machine.execReadSurvey r dma s
  | .replay r buf dma => Sys2Proof.Machine.execReplay r buf dma s
  | .replayBlockFetch => Sys2Proof.Machine.execReplayBlockFetch s
  | .label r records dma => Sys2Proof.Machine.execLabel r records dma s
  | .trainParam r => Sys2Proof.Machine.execTrainParam r s
  | .policy r block dma => Sys2Proof.Machine.execPolicy r block dma s
  | .subJoin r desc dma => Sys2Proof.Machine.execSubJoin r desc dma s
  | .subLeave r => Sys2Proof.Machine.execSubLeave r s
  | .subscriberRecordWrite n => Sys2Proof.Machine.execSubscriberRecordWrite n s
  | .hostQueuePrefetch q => Sys2Proof.Machine.execHostQueuePrefetch q s
  | .hostQueueInject port => Sys2Proof.Machine.execHostQueueInject port s
  | .hostQueueEject q => Sys2Proof.Machine.execHostQueueEject q s
  | .countWordWrite n bytes v => Sys2Proof.Machine.execCountWordWrite n bytes v s
  | .hdmRead dpa len cached => Sys2Proof.Machine.execHdmRead dpa len cached s
  | .hdmWrite dpa bytes cached => Sys2Proof.Machine.execHdmWrite dpa bytes cached s
  | .ctxOpen r ownerKey dma => Sys2Proof.Machine.execCtxOpen r ownerKey dma s
  | .keyInstallComplete => Sys2Proof.Machine.execKeyInstallComplete s
  | .attest r nonce dma => Sys2Proof.Machine.execAttest r nonce dma s
  | .keyRelease r blob dma => Sys2Proof.Machine.execKeyRelease r blob dma s
  | .keyExport r dma => Sys2Proof.Machine.execKeyExport r dma s
  | .getCert r dma => Sys2Proof.Machine.execGetCert r dma s
  | .privChallenge r dma => Sys2Proof.Machine.execPrivChallenge r dma s
  | .privGrant r signature modulus dma => Sys2Proof.Machine.execPrivGrant r signature modulus dma s
  | .privExpiry => Sys2Proof.Machine.execPrivExpiry s
  | .opkeyEnrol r m modulus dma => Sys2Proof.Machine.execOpkeyEnrol r m modulus dma s
  | .cakSet r m cak dma => Sys2Proof.Machine.execCakSet r m cak dma s
  | .mkaMessage port msg valid => Sys2Proof.Machine.execMkaMessage port msg valid s
  | .spdmMessage req nonce => Sys2Proof.Machine.execSpdmMessage req nonce s
  | .ideLost p => Sys2Proof.Machine.execIdeLost p s
  | .endingComplete => Sys2Proof.Machine.execEndingComplete s
  | .scrubComplete => Sys2Proof.Machine.execScrubComplete s
  | .spareKeyReady => Sys2Proof.Machine.execSpareKeyReady s
  | .drbgReseed => Sys2Proof.Machine.execDrbgReseed s
  | .entropyHealthFail => Sys2Proof.Machine.execEntropyHealthFail s
  | .keyExhausted => Sys2Proof.Machine.execKeyExhausted s
  | .patrolRead line => Sys2Proof.Machine.execPatrolRead line s
  | .uncorrectableError src loc => Sys2Proof.Machine.execUncorrectableError src loc s
  | .fatalError src loc => Sys2Proof.Machine.execFatalError src loc s
  | .errLogPop m v => Sys2Proof.Machine.execErrLogPop m v s
  | .cxlLinkDown => Sys2Proof.Machine.execCxlLinkDown s
  | .watchdogKick m v => Sys2Proof.Machine.execWatchdogKick m v s
  | .watchdogExpiry => Sys2Proof.Machine.execWatchdogExpiry s
  | .legendRestartComplete => Sys2Proof.Machine.execLegendRestartComplete s
  | .cartoucheWatchdogExpiry => Sys2Proof.Machine.execCartoucheWatchdogExpiry s
  | .thermalTripCheck tLogic tHbm => Sys2Proof.Machine.execThermalTripCheck tLogic tHbm s
  | .ageingSample kind index y => Sys2Proof.Machine.execAgeingSample kind index y s
  | .calRead r dma => Sys2Proof.Machine.execCalRead r dma s
  | .calWrite r m records dma => Sys2Proof.Machine.execCalWrite r m records dma s
  | .calSave r m => Sys2Proof.Machine.execCalSave r m s
  | .errInject r m => Sys2Proof.Machine.execErrInject r m s
  | .coldReset cause m v => Sys2Proof.Machine.execColdReset cause m v s
  | .railExcursion rail long => Sys2Proof.Machine.execRailExcursion rail long s
  | .warmReset cause m v => Sys2Proof.Machine.execWarmReset cause m v s
  | .contextReset flr m v => Sys2Proof.Machine.execContextReset flr m v s
  | .arrayReset m v => Sys2Proof.Machine.execArrayReset m v s
  | .function1Flr => Sys2Proof.Machine.execFunction1Flr s
  | .fusesPhaseComplete entropyOk => Sys2Proof.Machine.execFusesPhaseComplete entropyOk s
  | .bistComplete failed => Sys2Proof.Machine.execBistComplete failed s
  | .firmwarePhaseComplete => Sys2Proof.Machine.execFirmwarePhaseComplete s
  | .calibrationPhaseComplete => Sys2Proof.Machine.execCalibrationPhaseComplete s
  | .memoryTrainingComplete hbmOk ddrOk mismatch => Sys2Proof.Machine.execMemoryTrainingComplete hbmOk ddrOk mismatch s
  | .memoryInitComplete => Sys2Proof.Machine.execMemoryInitComplete s
  | .bootTimerExpiry => Sys2Proof.Machine.execBootTimerExpiry s
  | .trialTimeout => Sys2Proof.Machine.execTrialTimeout s
  | .fwWrite r m data dma => Sys2Proof.Machine.execFwWrite r m data dma s
  | .fwStage r m => Sys2Proof.Machine.execFwStage r m s
  | .fwConfirm r m => Sys2Proof.Machine.execFwConfirm r m s
  | .fwDiscard r m => Sys2Proof.Machine.execFwDiscard r m s
  | .syncHeaderLock lane => Sys2Proof.Machine.execSyncHeaderLock lane s
  | .tdcLock locked => Sys2Proof.Machine.execTdcLock locked s
  | .l1Lock clock => Sys2Proof.Machine.execL1Lock clock s
  | .cxlLinkTrained => Sys2Proof.Machine.execCxlLinkTrained s
  | .porLRise => Sys2Proof.Machine.execPorLRise s
  | .perstLRise => Sys2Proof.Machine.execPerstLRise s

end Sys2Proof.Machine
end

