-- ==== Sys2Proof/Machine/Issue.lean ====
section
/-!
DEFINITION. The instructions of a bundle (R155 to R157): each slot of the next bundle of the logical pricking that owns
the cycle, as the command of its row, and its issue (R133, R149, R179).
-/

namespace Sys2Proof.Machine

/-- A field of a slot as bits. -/
def SlotWord.b (s : SlotWord) (lo n : Nat) : BitVec n := BitVec.ofNat n (s.f lo n)
/-- A bit of a slot. -/
def SlotWord.t (s : SlotWord) (i : Nat) : Bool := s.w.testBit i
/-- A field of a slot as a number below 2^n. -/
def SlotWord.fin (s : SlotWord) (lo n : Nat) : Fin (2 ^ n) := (s.b lo n).toFin

/-- Layout MV. -/
def SlotWord.mv (s : SlotWord) : MV :=
  { fmt := s.b 46 4, rnd := s.b 44 2, vd := s.b 39 5, va := s.b 34 5, vb := s.b 29 5, vc := s.b 24 5, ck := s.b 16 8,
    gi := s.b 12 4, sub := s.b 8 4 }
/-- Layout MA. -/
def SlotWord.ma (s : SlotWord) : MA := { bank := s.b 48 2, half := s.t 47, v := s.b 42 5, nlog := s.b 36 6 }
/-- Layout LM. -/
def SlotWord.lm (s : SlotWord) : LM := { v := s.b 29 5, seg := s.b 26 3, word := s.b 9 17 }
/-- Layout LG. -/
def SlotWord.lg (s : SlotWord) : LG := { gd := s.b 30 4, ga := s.b 26 4, gb := s.b 22 4 }
/-- Layout LK. -/
def SlotWord.lk (s : SlotWord) : LK := { gd := s.b 30 4, ga := s.b 26 4, shift := s.b 21 5 }
/-- Layout LV. -/
def SlotWord.lv (s : SlotWord) : LV := { g := s.b 30 4, v := s.b 25 5, lane := s.b 19 6 }

/-- The M slot's command; an unassigned opcode is NOPM (R157). -/
def mInstr (h : MHead) (s : SlotWord) : Instr :=
  match s.op with
  | 0x01 => .wld h { row := s.b 38 12, wfmt := s.b 34 4, part := s.t 33 }
  | 0x02 => .wsc h { word := s.b 33 17, part := s.t 32 }
  | 0x03 => .wswap h
  | 0x04 => .mma h { bank := s.b 48 2, acc := s.t 47, scaled := s.t 46, afmt := s.b 42 4, va := s.b 37 5, seg := s.b 34 3,
                     gs := s.b 30 4 }
  | 0x05 => .accq h { bank := s.b 48 2, vd := s.b 43 5, seg := s.b 40 3, rrow := s.b 28 12, ck := s.b 20 8, gc := s.b 16 4,
                      rnd := s.b 14 2, gi := s.b 10 4, cks := s.b 2 8 }
  | 0x06 => .accx h s.ma
  | 0x07 => .acca h s.ma
  | 0x08 => .accz h s.ma
  | 0x10 => .fadd h s.mv
  | 0x11 => .fsub h s.mv
  | 0x12 => .fmul h s.mv
  | 0x13 => .fma h s.mv
  | 0x14 => .fmin h s.mv
  | 0x15 => .fmax h s.mv
  | 0x16 => .rcp h s.mv
  | 0x17 => .rsq h s.mv
  | 0x18 => .exp2 h s.mv
  | 0x19 => .log2 h s.mv
  | 0x20 => .iadd h s.mv
  | 0x21 => .isub h s.mv
  | 0x22 => .imul h s.mv
  | 0x23 => .imin h s.mv
  | 0x24 => .imax h s.mv
  | 0x25 => .andVector h s.mv
  | 0x26 => .orVector h s.mv
  | 0x27 => .xorVector h s.mv
  | 0x28 => .shl h s.mv
  | 0x29 => .shr h s.mv
  | 0x2A => .sar h s.mv
  | 0x2C => .cmp h s.mv
  | 0x2D => .vsel h s.mv
  | 0x30 => .cvt h s.mv
  | 0x31 => .qnt h s.mv
  | 0x32 => .dqt h s.mv
  | 0x33 => .scale h s.mv
  | 0x34 => .bqnt h s.mv
  | 0x35 => .csum h s.mv
  | 0x38 => .xcvt h s.mv
  | 0x39 => .xadd h s.mv
  | 0x3A => .xrnd h s.mv
  | 0x3B => .vrsum h s.mv
  | 0x3C => .vrmax h s.mv
  | 0x3E => .vrng h s.mv
  | 0x3F => .vld h { vd := s.b 45 5, word := s.b 28 17 }
  | _ => .nopm h

/-- The L slot's command; an unassigned opcode is NOPL (R157). `reading` is what RDSENS finds at its sensor. -/
def lInstr (loc : At) (s : SlotWord) (reading : Word) : Instr :=
  match s.op with
  | 0x01 => .ldw loc s.lm
  | 0x02 => .stw loc s.lm
  | 0x03 => .send loc { dir := dirOfNat (s.f 32 2), src := s.b 30 2, v := s.b 25 5, seg := s.b 22 3, dq := s.b 18 4,
                        word := s.b 1 17, last := s.t 0 }
  | 0x04 => .recv loc { dq := s.b 30 4, toSram := s.t 29, v := s.b 24 5, seg := s.b 21 3, word := s.b 4 17 }
  | 0x05 => .qput loc { dq := s.b 30 4, v := s.b 25 5, seg := s.b 22 3, last := s.t 21 }
  | 0x06 => .mreq loc { write := s.t 33, ga := s.b 29 4, gl := s.b 25 4, word := s.b 8 17 }
  | 0x07 => .hatom loc { aop := s.b 32 2, ga := s.b 28 4, go := s.b 24 4 }
  | 0x08 => .rdtime loc (s.b 30 4)
  | 0x09 => .rdsens loc (s.b 30 4) (s.b 26 4) reading
  | 0x0A => .qlen loc (s.b 30 4) (s.t 29) (s.b 25 4)
  | 0x0B => .rdround loc (s.b 30 4)
  | 0x10 => .movi loc (s.b 30 4) (s.b 6 24)
  | 0x11 => .ldc loc (s.b 30 4) (s.b 22 8)
  | 0x12 => .addi loc { gd := s.b 30 4, ga := s.b 26 4, imm := s.b 10 16, pair := s.t 9 }
  | 0x13 => .add loc s.lg
  | 0x14 => .sub loc s.lg
  | 0x15 => .mul loc s.lg
  | 0x16 => .andScalar loc s.lg
  | 0x17 => .orScalar loc s.lg
  | 0x18 => .xorScalar loc s.lg
  | 0x19 => .shli loc s.lk
  | 0x1A => .shri loc s.lk
  | 0x1B => .vtog loc s.lv
  | 0x1C => .gtov loc s.lv
  | 0x1D => .cmpg loc { ga := s.b 30 4, gb := s.b 26 4, pbit := s.b 22 4, cond := s.b 19 3 }
  | _ => .nopl loc

/-- The C slot's command; an unassigned opcode is NOPC (R157). -/
def cInstr (h : CHead) (s : SlotWord) : Instr :=
  match s.op with
  | 0x01 => .lcset h (s.fin 16 3) (s.b 0 16)
  | 0x02 => .lctim h (s.fin 16 3) (s.b 0 16)
  | 0x03 => .lctok h (s.fin 16 3) (s.fin 13 3)
  | 0x04 => .lcgp h (s.fin 16 3) (s.b 12 4)
  | 0x05 => .loop h (s.fin 16 3) (s.b 0 11)
  | 0x06 => .waitlc h (s.fin 16 3)
  | 0x07 => .jmp h (s.b 0 11)
  | 0x08 => .brp h (s.b 15 4) (s.t 14) (s.b 0 11)
  | 0x09 => .tsendi h (dirOfNat (s.f 16 2)) (s.b 0 16)
  | 0x0A => .tsendg h (dirOfNat (s.f 16 2)) (s.b 12 4)
  | 0x0B => .tput h (s.fin 16 3) (s.b 0 16)
  | 0x0C => .tpop h (s.b 15 4) (s.fin 12 3)
  | 0x0D => .tprd h (s.fin 13 3)
  | 0x0E => .pset h (s.b 15 4) (s.b 11 4) (s.b 6 5)
  | 0x0F => .steer h (s.fin 17 2) (s.t 16)
  | 0x10 => .bclr h
  | _ => .nopc h

namespace State

/-- Run a command inside a step of the clock. -/
def run (s : State) (i : Instr) : State :=
  match exec i s with
  | .next t => t
  | _ => s

/-- Bundle `n` of the pricking in slot k (R155, R192). -/
def bundleAt (s : State) (p k n : Nat) : BitVec 128 := BitVec.ofNat 128 (s.bodyNat p k (1696 + 16 * n) 16)

/-- Instructions that act after the steering units' step of the cycle: QPUT and TPUT (R174), and STEER, which lets a unit
step from the next cycle on (R182). -/
def actsLate (l c : SlotWord) : Bool × Bool := (decide (l.op = 0x05), decide (c.op = 0x0B) || decide (c.op = 0x0F))

/-- A bundle issues: its M, L and C slots (R149, R155), what acts late left out.  A sensor's reading is open. -/
def issueSlots (s : State) (loc : At) (b : BitVec 128) : State :=
  let l := lSlot b
  let c := cSlot b
  let h : CHead := { loc := loc, fin := b.getLsbD 0 }
  let late := actsLate l c
  let r : Word × State := if l.op = 0x09 then (s.free.1.extractLsb' 0 32, s.free.2) else (0, s)
  let s1 := r.2.run (mInstr { loc := loc, psel := b.extractLsb' 1 4, pneg := b.getLsbD 5 } (mSlot b))
  let s2 := if late.1 then s1 else s1.run (lInstr loc l r.1)
  s2.run (if late.2 then .nopc h else cInstr h c)

/-- What acts late in a bundle that has issued. -/
def issueLate (s : State) (loc : At) (b : BitVec 128) : State :=
  let l := lSlot b
  let c := cSlot b
  let s1 := if l.op = 0x05 then s.run (lInstr loc l 0) else s
  if c.op = 0x0B then s1.pushToken loc.pic (c.fin 16 3) (c.b 0 16)
  else if c.op = 0x0F then s1.setSteer loc.pic (c.fin 17 2) (c.t 16)
  else s1

/-- The bundle that a logical pricking issues now (R149): none where it has ended, no slot is bound, or WAITLC waits. -/
def nextBundle (s : State) (loc : At) : Option (BitVec 128) :=
  let l := s.lg loc
  match l.slot with
  | none => none
  | some k =>
    let b := s.bundleAt loc.pic k l.pc
    let c := cSlot b
    if l.ended ∨ (c.op = 0x06 ∧ ((s.picot loc.pic).loopCtr (c.f 16 3)).count ≠ 0) then none else some b

/-- A WAITLC whose counter is not zero makes its pricking wait (R179). -/
def waitNext (s : State) (loc : At) : State :=
  let l := s.lg loc
  match l.slot with
  | none => s
  | some k =>
    let c := cSlot (s.bundleAt loc.pic k l.pc)
    if !l.ended ∧ c.op = 0x06 then s.waits loc (c.fin 16 3) else s

/-- Every picot issues in its owner's pricking (R133); what has issued is listed. -/
def issueAll (s : State) : State × List (At × BitVec 128) :=
  (List.finRange 1024).foldl (fun (t : State × List (At × BitVec 128)) (p : Fin 1024) =>
    match t.1.owner p with
    | some l =>
      let loc : At := { pic := p, lg := l }
      match t.1.nextBundle loc with
      | some b => (t.1.issueSlots loc b, t.2 ++ [(loc, b)])
      | none => (t.1.waitNext loc, t.2)
    | none => t) (s, [])

end State

end Sys2Proof.Machine
end

