-- ==== Sys2Proof/Machine/Landing.lean ====
section
/-!
DEFINITION. Results land (R150, R151, R154, R158, R160).
-/

namespace Sys2Proof.Machine

/-- The bits of the 32-bit lanes of a mask. -/
def laneBits (mask : BitVec 64) : BitVec 2048 :=
  BitVec.ofNat 2048 (packNat 32 ((List.range 64).map (fun i => if mask.getLsbD i then 2 ^ 32 - 1 else 0)))

/-- One of the two halves of a value replaced. -/
def putHalf {n : Nat} (x : BitVec (n + n)) (high : Bool) (v : BitVec n) : BitVec (n + n) :=
  if high then v ++ x.extractLsb' 0 n else x.extractLsb' n n ++ v

/-- A result that replaces a whole bank: results that accumulate into the bank in the same cycle come after it (R150). -/
def Res.replaces : Res → Bool
  | .terms _ _ repl _ _ => repl
  | .clearBank _ _ => true
  | _ => false

/-- The exchange of the tile buffers: what WLD and WSC land in its cycle comes after it, in the former active tile (R158). -/
def Res.isSwap : Res → Bool
  | .swap => true
  | _ => false

namespace State

/-- Terms land in a bank (R150, R154, R160): each accumulator stops at the ends of X128, and a stop counts SAT. -/
def landTerms (s : State) (p bank first : Nat) (repl : Bool) (xs : List Int) (tag : Bool) : State :=
  let x := s.picot p
  let r := xs.zipIdx.map (fun e =>
    (32 * bank + first + e.2, satX128 ((if repl then 0 else x.accOf bank (first + e.2)) + e.1)))
  let acc := r.foldl (fun m e => SMap.set 0 m e.1 e.2.1) x.acc
  let t := if repl then tag else x.bankTag bank || tag
  (s.setPicot p { x with acc := acc, accTag := SMap.set false x.accTag bank t }).countEvents p
    (r.foldl (fun a e => a.add e.2.2) {})

/-- A result lands in logical pricking `l` of a picot. -/
def landRes (s : State) (p l : Nat) (r : Res) : State :=
  let x := s.picot p
  let g := x.logical l
  match r with
  | .lanes v mask val =>
    let old := SMap.get (0 : BitVec 2048) x.vr v
    s.setPicot p { x with vr := SMap.set 0 x.vr v ((old &&& ~~~laneBits mask) ||| (val &&& laneBits mask)) }
  | .tags v segs bad =>
    s.setPicot p { x with tag := (List.range 8).foldl (fun m i =>
      if segs.getLsbD i then SMap.set false m (8 * v + i) bad else m) x.tag }
  | .terms bank first repl xs tag => s.landTerms p bank first repl xs tag
  | .clearBank bank nlog =>
    s.setPicot p { x with
      acc := x.acc.filter (fun e => decide (e.1 / 32 ≠ bank)), accTag := SMap.set false x.accTag bank false,
      nlog := SMap.set 0 x.nlog bank nlog }
  | .tileCodes part fmt codes =>
    s.setPicot p { x with loading := { x.loading with codes := putHalf (n := 8192) x.loading.codes part codes, fmt := fmt } }
  | .tileScales part scales =>
    s.setPicot p { x with loading := { x.loading with scales := putHalf (n := 256) x.loading.scales part scales } }
  | .swap => s.setPicot p { x with active := x.loading, loading := x.active }
  | .gp k v => s.setPicot p (x.setLogical l { g with gp := SMap.set 0 g.gp k v })
  | .prd b v =>
    s.setPicot p (x.setLogical l { g with
      prd := (g.prd &&& ~~~((1#12) <<< b)) ||| ((BitVec.ofNat 12 v.toNat) <<< b) })
  | .prds v => s.setPicot p (x.setLogical l { g with prd := v })
  | .badl clear bad => s.setPicot p (x.setLogical l { g with badl := (!clear && g.badl) || bad })
  | .sram w v => s.sramWrite p w v
  | .lc n c => s.setPicot p (x.setLoopCtr n c)

/-- One cycle of a picot's results in flight: those that are due land in issue order, so that of results that meet the
one issued later stays (R151). -/
def landPicot (s : State) (p : Nat) : State :=
  let x := s.picot p
  let fl := x.flight.map (fun f => { f with left := f.left - 1 })
  let due := fl.filter (fun f => decide (f.left = 0))
  let s1 := s.setPicot p { x with flight := fl.filter (fun f => decide (f.left ≠ 0)), lport := none, lanePort := [] }
  (due.filter (fun f => f.res.isSwap) ++ due.filter (fun f => f.res.replaces) ++
    due.filter (fun f => !f.res.replaces && !f.res.isSwap)).foldl
    (fun t f => t.landRes p f.lg f.res) s1

end State

end Sys2Proof.Machine
end

