-- ==== Sys2Proof/Machine/HoldCycle.lean ====
section
/-!
DEFINITION. The hold from cycle to cycle (R129, R130, R201 to R209): the stopped cycles, the limit, the resume.
-/

namespace Sys2Proof.Machine

namespace State

/-- Has what a request waits for come (R129, R208)?  A read's request is tested in the hold, from the hold point. -/
def answered (s : State) (r : HoldReq) : Bool :=
  match r.src with
  | .picotDq p q =>
    let x := (s.picot p).queue q
    if r.cancel then s.hold.stopped && !x.items.isEmpty else decide (0 ≤ x.credit)
  | .picotTq p q =>
    let x := (s.picot p).tqueue q
    if r.cancel then s.hold.stopped && !x.items.isEmpty else decide (0 ≤ x.credit)
  | .gate => s.blockPresent s.gateBlock
  | _ => false

/-- Requests of picots and of the input gate clear by themselves. -/
def clearAnswered (s : State) : State :=
  s.hold.reqs.foldl (fun t r => if t.answered r then t.clearHold r.cause r.src else t) s

/-- Is a cause active? -/
def causeActive (s : State) (k : Nat) : Bool := s.hold.reqs.any (fun r => decide (r.cause = k))

/-- The hold limit (R206, ARY_HOLD_LIMIT). -/
def holdLimit (s : State) : Nat := max 256 (s.rd Reg.ARY_HOLD_LIMIT).toNat

/-- One cycle of a cause's timer (R206). -/
def causeTimer (s : State) (k : Nat) : State :=
  let t := SMap.get 0 s.hold.timers k
  let n := if s.causeActive k then (if s.causeActive 5 then t else t + 1) else 0
  let s1 : State := { s with hold := { s.hold with timers := SMap.set 0 s.hold.timers k n } }
  if t ≤ s.holdLimit ∧ s.holdLimit < n ∧ s.ctx = ctxRunning then s1.run (.holdLimitDeadlock (Fin.ofNat 8 k)) else s1

/-- One cycle of every timer. -/
def causeTimers (s : State) : State := [1, 2, 3, 4].foldl causeTimer s

/-- One step of a steering unit (R131, R182). -/
def steerUnit (s : State) (p : Fin 1024) (u : Fin 4) : State :=
  if (s.picot p).unit u = SteerUnit.off then s
  else
    let t := s.steerReady p u
    match ((t.picot p).unit u).mode with
    | 1 => t.run (.steerSplitItem p u)
    | 2 => t.run (.steerMergeItem p u)
    | 3 => t.run (.steerSelectItem p u)
    | _ => t

/-- Every steering unit takes one step. -/
def steerAll (s : State) : State :=
  if s.steers then s.eachPicot (fun t p => (List.finRange 4).foldl (fun v u => v.steerUnit p u) t) else s

/-- One stopped cycle (R129, R130, R206): `fresh` is the first cycle after a cancellation, in which the array returns.  It adds to
the lag where a cause of 1 to 5 is active, or was the last to clear (R208, R209; log entry 72). -/
def stoppedCycle (s : State) (fresh : Bool) : State :=
  let s1 := if fresh then s else s.steerAll
  let s2 := s1.clearAnswered
  let s3 := (List.range 8).foldl (fun t k => if t.causeActive k then t.count64 (Reg.ARY_HOLD_CYCLES k) else t) s2
  let h := s3.hold
  let lag := if h.reqs = [] then h.lagging else [1, 2, 3, 4, 5].any s3.causeActive
  ({ s3 with hold := { h with length := h.length + 1, lagging := lag, lagN := h.lagN + lag.toNat } } : State).causeTimers

/-- The common resume (R202, R208, R209): the cycles that causes 1 to 5 held, and those that were cancelled, add to the lag; the
others count as idle. -/
def resume (s : State) : State :=
  let h := s.hold
  let lag := h.lagN + h.cancel.getD 0
  let s1 :=
    if lag = 0 then s
    else
      let t := s.count Reg.ARY_LAG lag
      t.wr Reg.ARY_LAG_PEAK (if t.rd Reg.ARY_LAG_PEAK < t.rd Reg.ARY_LAG then t.rd Reg.ARY_LAG else t.rd Reg.ARY_LAG_PEAK)
  let s2 := s1.count64 Reg.ARY_IDLE_CYCLES (h.length - h.lagN)
  let s3 := s2.wr Reg.ARY_HOLD_MAX (BitVec.ofNat 32 (min (2 ^ 32 - 1) (max h.length (s2.rd Reg.ARY_HOLD_MAX).toNat)))
  let s4 := s3.traceHold 5
  { s4 with hold := { s4.hold with goIn := none, stopIn := none, stopped := false, length := 0, lagN := 0, cancel := none, seen := [] } }

end State

end Sys2Proof.Machine
end

