-- ==== Sys2Proof/Machine/Tick.lean ====
section
/-!
DEFINITION. What the clocks do while no command waits: the edges of the line clock and of the array clock (R17, R289),
and one cycle of the array (chapters 04 to 06).  The table has no row for a clock edge; log entry 20.
-/

namespace Sys2Proof.Machine

namespace State

/-- R, the cycles of a round, and K, the rounds of a block. -/
def roundLen (s : State) : Nat := max 1 s.img.roundLen
def blockRounds (s : State) : Nat := max 1 s.img.k

/-- The cycle within a block's rounds. -/
def blockCycle (s : State) : Nat := s.arr.round.toNat % s.blockRounds * s.roundLen + s.arr.cycle

/-- Prickings that follow take over in the cycle after the end mark or the fill (R137). -/
def followAll (s : State) : State :=
  s.eachPicot (fun t p => (List.finRange 8).foldl (fun u l => u.followBind { pic := p, lg := l }) t)

/-- Cycle 0 of the round for which the flip is armed (R139). -/
def flipIfDue (s : State) : State :=
  if s.arr.cycle = 0 ∧ s.arr.round = s.arr.flip.1 then s.run .flipExecute else s

/-- What crosses into a picot's island (R18, R121, R123): a flit of kind FILL goes to the fill machinery. -/
def enterAll (s : State) : State :=
  s.eachPicot (fun t p =>
    let x := t.picot p
    let es := x.entering.map (fun e => { e with wait := e.wait - 1 })
    let t1 := t.setPicot p { x with entering := es.filter (fun e => decide (e.wait ≠ 0)) }
    (es.filter (fun e => decide (e.wait = 0))).foldl (fun u e =>
      match e.item with
      | .flit q f =>
        if f.kind = 2 then (u.setPicot p { u.picot p with fillLink := dirNum e.inp }).fillFlit p f.data else u.pushFlit p q f
      | .token q k => u.pushToken p q k) t1)

/-- Beats reach the next pass-through register (R121); inputs are taken in the order N, E, S, W (R174). -/
def arriveAll (s : State) : State :=
  let bs := s.arr.beats.map (fun b => { b with wait := b.wait - 1 })
  let due := bs.filter (fun b => decide (b.wait = 0))
  let s1 : State := { s with arr := { s.arr with beats := bs.filter (fun b => decide (b.wait ≠ 0)) } }
  [Dir.n, Dir.e, Dir.s, Dir.w].foldl (fun t d =>
    (due.filter (fun b => decide (b.inp = d))).foldl (fun u b =>
      let v := match b.flit with | some f => u.flitArrives b.pic b.inp f b.check | none => u
      if b.token = 0 then v else v.tokenArrives b.pic b.inp b.token b.par) t) s1

/-- A flit at a hub port (R120, R124, R177, R193): an atomic, or what the port's entry ejects in this cycle; both wait out the
commit lag (R204).  A failed CHECK is a failure of the S output of the column's row-0 picot. -/
def hubTake (s : State) (h : HubFlit) : State :=
  let e := s.hubEntry h.port
  if h.clash then s
  else if h.check ≠ 0 then (s.count Reg.ARY_LINKCHK_COUNT).arrayFault 4 ⟨h.port.val, by omega⟩ (s.faultLg h.port) 2 0
  else if h.flit.kind = 3 then
    { s with arr := { s.arr with atomics := s.arr.atomics ++
        [{ col := h.port, wait := 8, flit := h.flit.data, taken := s.cycleIndex, age := 0, result := none }] } }
  else if e.1 = 1 ∨ e.1 = 2 then
    { s with arr := { s.arr with commits := s.arr.commits ++ [{ wait := 8, action := e.1, dest := e.2, flit := h.flit }] } }
  else s

/-- Flits reach the hub ports. -/
def hubAll (s : State) : State :=
  let hs := s.arr.hub.map (fun h => { h with wait := h.wait - 1 })
  let s1 : State := { s with arr := { s.arr with hub := hs.filter (fun h => decide (h.wait ≠ 0)) } }
  (hs.filter (fun h => decide (h.wait = 0))).foldl hubTake s1

/-- What has waited out the commit lag leaves the array (R204): verdicts, trainer reports, flits for the host. -/
def commitAll (s : State) : State :=
  let cs := s.arr.commits.map (fun c => { c with wait := c.wait - 1 })
  let due := cs.filter (fun c => decide (c.wait = 0))
  let toHost (c : Commit) : Bool := decide (c.action = 2) && (s.hq c.dest).isSome
  let s1 : State := { s with arr := { s.arr with
    commits := cs.filter (fun c => decide (c.wait ≠ 0) || toHost c) } }
  due.foldl (fun t c =>
    if c.action = 1 then t.run (.verdictArrival (Fin.ofNat 256 c.dest) c.flit.data c.flit.bad)
    else if c.dest = 0x3FFE then t.run (.trainerReportReceive (some c.flit.data))
    else t.run (.hostQueueEject (BitVec.ofNat 14 c.dest))) s1

/-- Cycles below `c` of a port's table that inject from host queue `q` (R193). -/
def injects (s : State) (port q c : Nat) : Nat :=
  ((List.range c).filter (fun i =>
    decide ((SMap.get (0 : BitVec 16) s.img.hubTable (64 * port + i)).toNat = 0xC000 + q))).length

/-- Host queue 0x3FFF (R263): the first cycle of a block that injects from it carries the selection flit, the second the
parameter flit. -/
def adaptInject (s : State) (port : Nat) : State :=
  if port ≠ s.adapt.dsc 0x40 1 then s
  else
    match s.arr.round.toNat % s.blockRounds * s.injects port 0x3FFF s.roundLen + s.injects port 0x3FFF s.arr.cycle with
    | 0 => s.run .selectionFlitInject
    | 1 => s.run .parameterFlitInject
    | _ => s

/-- Hub ports inject what their entries name, and the input plan its entries (R193, R194). -/
def injectAll (s : State) : State :=
  let s1 := (List.finRange 32).foldl (fun (t : State) (port : Fin 32) =>
    let e := t.hubEntry port
    if e.1 ≠ 3 then t else if e.2 = 0x3FFF then t.adaptInject port else t.run (.hostQueueInject port)) s
  let r := s.arr.round.toNat % s.blockRounds
  s.img.inputs.zipIdx.foldl (fun t x =>
    if x.1.round = r ∧ x.1.cycle = s.arr.cycle then t.injectNext x.2 else t) s1

/-- The place within a block's rounds of its first injection (R208). -/
def gatePlace (s : State) : Nat :=
  match s.planOrder with
  | [] => 0
  | k :: _ => s.planTime k

/-- The input gate looks 8 cycles ahead of a block's first injection, or at the block's first cycle (R208). -/
def gateIfDue (s : State) : State :=
  let n := s.blockRounds * s.roundLen
  if (s.blockCycle + 8) % n = s.gatePlace % n then s.run .inputGateCheck else s

/-- The hub looks 8 cycles ahead for an atomic's return, or a flit of an inject queue, that will not be there (R177, R202, R340). -/
def cxlIfDue (s : State) : State :=
  let s0 := (s.arr.atomics.filter (fun a => a.result.isNone && decide (s.atomicDelay a.col ≤ a.age + 8))).foldl
    (fun t a => t.needCxl (0x4000 + a.col.val, a.taken)) s
  (List.range 32).foldl (fun t port =>
    let c := (t.arr.cycle + 8) % t.roundLen
    let e : BitVec 16 := SMap.get 0 t.img.hubTable (64 * port + c)
    let q := e.toNat % 2 ^ 14
    if e.toNat / 2 ^ 14 ≠ 3 then t
    else
      match t.hq q with
      | some x =>
        let before := (List.range 8).map (fun i =>
          ((List.range 32).filter (fun o => decide ((SMap.get (0 : BitVec 16) t.img.hubTable
            (64 * o + (t.arr.cycle + i) % t.roundLen)).toNat = 0xC000 + q))).length)
        let n := before.foldl (· + ·) 0
        if x.held.length ≤ n then t.needCxl (q, x.next + n) else t
      | none => t) s0

/-- What the coming cycle needs and does not have: the first entry of a block, an atomic's return, or a flit of an inject queue. -/
def missing (s : State) : Option (Nat × HoldSrc) :=
  if s.ctx = ctxRunning ∧ ¬ s.img.inputs.isEmpty ∧ s.ing.taken.2 = 0 ∧ s.blockCycle = s.gatePlace ∧
      ¬ s.blockPresent s.ing.taken.1 then some (6, .gate)
  else if (s.lateAtomic 1).isSome || (List.range 32).any (fun port =>
      let e := s.hubEntry port
      decide (e.1 = 3) && (match s.hq e.2 with | some x => x.held.isEmpty | none => false)) then some (4, .cxl)
  else none

/-- Loop counters in timer mode count (R179). -/
def timerCounters (s : State) : State :=
  s.eachPicot (fun t p =>
    let x := t.picot p
    t.setPicot p (x.lc.foldl (fun y e =>
      if e.2.timer && decide (e.2.count ≠ 0) then y.setLoopCtr e.1 { e.2 with count := e.2.count - 1 } else y) x))

/-- A wait under WAITLC on a counter in trip mode is timed (R207). -/
def waitCycle (s : State) (loc : At) : State :=
  let l := s.lg loc
  match l.waiting with
  | some c => if ((s.picot loc.pic).loopCtr c).timer then s else s.setLg loc { l with waited := l.waited + 1 }
  | none => s

/-- Every wait, and the deadlock of the lowest-numbered picot whose wait passes the limit (R207). -/
def waitAll (s : State) : State :=
  let s1 := s.eachPicot (fun t p => (List.finRange 8).foldl (fun u l => u.waitCycle { pic := p, lg := l }) t)
  let late (loc : At) : Bool := (s1.lg loc).waiting.isSome && decide ((s1.lg loc).waited = s1.holdLimit + 1)
  match (s1.livePicots.flatMap (fun p => (List.finRange 8).map (fun l => ({ pic := p, lg := l } : At)))).find? late with
  | some loc => if s1.ctx = ctxRunning then s1.run (.waitlcDeadlock loc) else s1
  | none => s1

/-- At a round edge, a picot that the boot table still governs and that has a pricking bound takes up its link-slot table
(R136). -/
def endBoot (s : State) : State :=
  s.eachPicot (fun t p =>
    if (t.picot p).boot && (t.lowestBound p).isSome then t.setPicot p { t.picot p with boot := false } else t)

/-- The next logical cycle. -/
def nextCycle (s : State) : State :=
  if s.arr.cycle + 1 < s.roundLen then { s with arr := { s.arr with cycle := s.arr.cycle + 1 } }
  else ({ s with arr := { s.arr with cycle := 0, round := s.arr.round + 1 } } : State).endBoot

/-- One cycle in which the array runs.  Pops see a queue as it is before the steering units' step of the cycle (R203's
example; log entry 20). -/
def arrayCycle (s : State) : State :=
  let s1 := (s.remember.eachPicot (fun t p => t.landPicot p)).followAll.flipIfDue
  let s2 := (((s1.enterAll.arriveAll).commitAll).atomicsCycle).hubAll.laneMove
  let s3 := (s2.injectAll.gateIfDue).cxlIfDue
  let r := (s3.eachPicot laneCycle).issueAll
  let s4 := r.2.foldl (fun t x => t.issueLate x.1 x.2) r.1.steerAll
  (((s4.clearAnswered.causeTimers).timerCounters).waitAll).nextCycle

/-- A cycle that runs, or, where something it needs is missing, the stop. -/
def runOrStop (s : State) : State :=
  match s.missing with
  | some (k, src) => (s.stopNow k src).stoppedCycle false
  | none => s.arrayCycle

/-- An edge of the array clock: the stop and the resume 8 cycles after their request and clearing (R202). -/
def arrayEdge (s : State) : State :=
  let h := s.hold
  let s1 : State := { s with hold := { h with stopIn := h.stopIn.map (· - 1), goIn := h.goIn.map (· - 1), edges := h.edges + 1 } }
  if s1.hold.goIn = some 0 then
    (if h.stopped then s1.resume
     else { s1 with hold := { s1.hold with goIn := none, stopIn := none, cancel := none, seen := [] } }).runOrStop
  else if h.stopped then s1.stoppedCycle false
  else if s1.hold.stopIn = some 0 then (s1.enterStop).stoppedCycle s1.hold.cancel.isSome
  else s1.runOrStop

/-- The period of the array clock in units of 1/18 ns (R17): 1.5, 1.2, 0.9 and 0.6 GHz. -/
def arrayPeriod (s : State) : Nat :=
  match s.rdF Reg.GLB_CLK_STATUS 0 2 with
  | 0 => 12
  | 1 => 15
  | 2 => 20
  | _ => 30

/-- Does the array's clock move anything: an image runs, or its stop is on its way? -/
def arrayClocks (s : State) : Bool :=
  decide (s.aryState = aryRunning) || (decide (s.aryState = aryStopped) && !s.hold.stopped)

/-- Before START, flits hop and reach the fill ports under the boot table, and nothing issues (R136). -/
def bootCycle (s : State) : State :=
  if (s.aryState = aryIdle ∨ s.aryState = aryLoading) ∧
      (s.arr.beats ≠ [] ∨ s.arr.picots.any (fun e => !e.2.entering.isEmpty)) then s.enterAll.arriveAll
  else s

/-- The edge of the array's clock, if there is one now: a STEP request that is due goes up first (R20). -/
def arrayTick (s : State) (period : Nat) : State :=
  let s1 := s.raiseStep period
  if s1.arrayClocks then s1.arrayEdge else s1.bootCycle

/-- A reference edge: a requested step change begins, or the islands have relocked (R20). -/
def refTick (s : State) : State :=
  let s1 := match s.boot.relock with
    | some t => if t ≤ s.now then s.run .islandRelockComplete else s
    | none => s
  if s1.stepPending && decide (s1.now % refPeriod = 0) && (decide (s1.boot.edge = some s1.now) || !s1.arrayClocks) then
    s1.run .stepChangeBegin
  else if s1.boot.edge = some s1.now then
    ({ s1 with boot := { s1.boot with edge := none } } : State).clearHold 5 .legend
  else s1

/-- The clocks run to the next edge of the line clock or of the array clock.  A capture that runs reads one block at each edge of
the line clock (DESIGN CHOICE, log entry 83: R247 gives its order and no rate). -/
def tick (s : State) : State :=
  let line := (s.now / 18 + 1) * 18
  let period := s.arrayPeriod
  let array := (s.now / period + 1) * period
  let s1 := if line ≤ array then (({ s with now := line - 18 } : State).lineEdges 1).copyBlock else { s with now := array }
  (if array ≤ line then s1.arrayTick period else s1).refTick

end State

end Sys2Proof.Machine
end

