-- ==== Sys2Proof/Safety.lean ====
section
/-!
DEFINITION. What counts as a safe run, in the terms claims use: fuses that only grow, stores in canonical form, and a
device that no error has stopped.
-/

namespace Sys2Proof.Machine

/-- A row's repair fuses are burned (R144): the failed picot's number stands in bits [4:0], 0x1F where none does. -/
def Fuses.burned (f : Fuses) (row : Nat) : Prop := fieldNat (SMap.get 0x1F f.repair row) 0 5 ≠ 0x1F

/-- The SHA-256 that an operator-key slot holds (R380). -/
def Fuses.opkey (f : Fuses) (slot : Nat) : Option (List Byte) := (f.opkeys.find? (fun e => decide (e.1 = slot))).map Prod.snd

/-- Fuses `g` may follow fuses `f`: a fuse is burned once (R144, R380, R436).  A burned repair row keeps its picot, an
enrolled slot keeps its hash, and MIN_SVN never falls. -/
def Fuses.le (f g : Fuses) : Prop :=
  (∀ row, f.burned row → SMap.get 0x1F g.repair row = SMap.get 0x1F f.repair row) ∧
  (∀ slot h, f.opkey slot = some h → g.opkey slot = some h) ∧
  f.minSvn ≤ g.minSvn

/-- The commands that may burn fuses: a write of ARY_REPAIR_CMD under any of its names (R144), OPKEY_ENROL (R380) and
FW_CONFIRM (R436). -/
@[simp] def burnsFuses : Instr → Bool
  | .registerWrite .. | .wideOrUnalignedAccess .. | .repairBurn .. | .opkeyEnrol .. | .fwConfirm .. => true
  | _ => false

/-- An UNCORRECTABLE or FATAL entry is pending (R394). -/
def State.errorPending (s : State) : Bool := s.log.entries.any (fun e => e.pending && decide (clsUncorrectable ≤ e.cls))

/-- The device is in CONTAIN (R399). -/
def State.contained (s : State) : Bool := s.rdB Reg.ERR_STATUS 31

/-- No error has stopped the device: none pending, no CONTAIN, no array fault held (R187, R394, R399). -/
def State.sound (s : State) : Bool := !s.errorPending && !s.contained && decide (s.rd Reg.ARY_FAULT_COUNT = 0)

end Sys2Proof.Machine

namespace Sys2Proof.Claims
open Sys2Proof.Machine

/-- A result waits to land in a picot: who issued it, in which slot (0 M, 1 L, 2 C), after how many cycles, and what. -/
def Flies (t : State) (loc : At) (slot lat : Nat) (r : Res) : Prop :=
  ∃ x ∈ (t.picot loc.pic).flight, x.slot = slot ∧ x.left = lat ∧ x.lg = loc.lg ∧ x.res = r

/-- Nothing of the state changes but format-event counters and the results in flight of one picot, which lose none. -/
def OnlyFlies (s t : State) (p : Fin 1024) : Prop :=
  t = { s with arr := { s.arr with picots := t.arr.picots, events := t.arr.events } } ∧
  (∀ q, q ≠ p.val → t.picot q = s.picot q) ∧
  t.picot p = { s.picot p with flight := (t.picot p).flight } ∧
  ∀ x ∈ (s.picot p).flight, x ∈ (t.picot p).flight

/-- An M-slot instruction completes into a whole vector register: after `lat` cycles element e of width w reads f e, the
eight tags read `bad`, and nothing else is touched. -/
def Fills (s : State) (h : MHead) (i : Instr) (lat : Nat) (vd : BitVec 5) (w n : Nat) (f : Nat → Nat) (bad : Bool) : Prop :=
  ∃ t, exec i s = .next t ∧ OnlyFlies s t h.loc.pic ∧
    (∃ x, Flies t h.loc 0 lat (.lanes vd.toNat (BitVec.allOnes 64) x) ∧ ∀ e < n, elem w x e = f e % 2 ^ w) ∧
    Flies t h.loc 0 lat (.tags vd.toNat 0xFF bad)

/-- The same with the register's value given whole. -/
def FillsWith (s : State) (h : MHead) (i : Instr) (lat : Nat) (vd : BitVec 5) (x : BitVec 2048) (bad : Bool) : Prop :=
  ∃ t, exec i s = .next t ∧ OnlyFlies s t h.loc.pic ∧ Flies t h.loc 0 lat (.lanes vd.toNat (BitVec.allOnes 64) x) ∧
    Flies t h.loc 0 lat (.tags vd.toNat 0xFF bad)

/-- An instruction completes with one result in flight and nothing else. -/
def Lands (s : State) (loc : At) (i : Instr) (slot lat : Nat) (r : Res) : Prop :=
  ∃ t, exec i s = .next t ∧ OnlyFlies s t loc.pic ∧ Flies t loc slot lat r

/-- An L-slot instruction completes into one general register. -/
def GpLands (s : State) (loc : At) (i : Instr) (lat : Nat) (gd : BitVec 4) (v : Word) : Prop :=
  Lands s loc i 1 lat (.gp gd.toNat v)

/-- An L-slot instruction completes into an even pair of general registers, low word first. -/
def PairLands (s : State) (loc : At) (i : Instr) (gd : BitVec 4) (lat : Nat) (v : DWord) : Prop :=
  ∃ t, exec i s = .next t ∧ OnlyFlies s t loc.pic ∧ Flies t loc 1 lat (.gp gd.toNat (v.extractLsb' 0 32)) ∧
    Flies t loc 1 lat (.gp (gd + 1).toNat (v.extractLsb' 32 32))

/-- An M-slot instruction of a running array whose predicate holds. -/
def Issues (s : State) (h : MHead) : Prop := s.hold.stopped = false ∧ s.predicate h = true

/-- A code, or a value still to be rounded, as the code of an FP32 lane. -/
def fp32Code (r : Rnd) (x : Sum Nat Val) : Nat :=
  match x with
  | .inl c => c
  | .inr v => (convert Fmt.fp32 r v).1

/-- Integer saturation into a format: the nearest value it has. -/
def clamp (f : Fmt) (x : Int) : Int := max f.qmin (min f.qmax x)

/-- SRAM words that hold no error. -/
def CleanWords (s : State) (p : Fin 1024) (ws : List Nat) : Prop := ∀ w ∈ ws, SMap.get 0 (s.picot p).sramErr w = 0

/-- No write counter of a memory controller is next to its limit (R359). -/
def RoomToWrite (s : State) : Prop := ∀ e ∈ s.mem.ctr, e.2 + 1 < 2 ^ 56 - 2 ^ 32

/-- The state differs from s at most in one picot. -/
def OnlyPicot (s t : State) (p : Fin 1024) : Prop :=
  t = { s with arr := { s.arr with picots := t.arr.picots } } ∧ ∀ q, q ≠ p.val → t.picot q = s.picot q

/-- A segment of a vector register, with its tag, is in flight. -/
def LandsSegment (t : State) (loc : At) (lat : Nat) (v : BitVec 5) (seg : BitVec 3) (x : BitVec 256) (bad : Bool) : Prop :=
  (∃ y, Flies t loc 1 lat (.lanes v.toNat ((0xFF#64) <<< (8 * seg.toNat)) y) ∧ segment y seg.toNat = x) ∧
  Flies t loc 1 lat (.tags v.toNat ((1#8) <<< seg.toNat) bad)

/-- No other source drives a flit on output `d` of picot p for the same cycle (R124). -/
def FreeOutput (s : State) (p q : Fin 1024) (d : Dir) (wait : Nat) : Prop :=
  ∀ b ∈ s.arr.beats, ¬(b.pic = q ∧ b.inp = dirOpp d ∧ b.wait = (if crosses p d then wait + 5 else wait) ∧
    (b.flit.isSome = true ∨ b.clash = true))

/-- The same of a token driven in this cycle. -/
def FreeTokens (s : State) (p q : Fin 1024) (d : Dir) : Prop :=
  ∀ b ∈ s.arr.beats, ¬(b.pic = q ∧ b.inp = dirOpp d ∧ b.wait = (if crosses p d then 7 else 2) ∧
    (b.token ≠ 0 ∨ b.tclash = true))

/-- A flit leaves on an output with its CHECK right, five cycles later across a bridge (R117, R121), and nothing else
changes. -/
def Drives (s t : State) (p q : Fin 1024) (d : Dir) (wait : Nat) (f : Flit) : Prop :=
  let b : Beat := Beat.ofFlit q (dirOpp d) (if crosses p d then wait + 5 else wait) f
  t = { s with arr := { s.arr with beats := s.arr.beats ++ [b] } }

/-- A token leaves on an output for the next cycle. -/
def DrivesToken (s t : State) (p q : Fin 1024) (d : Dir) (tok : BitVec 16) : Prop :=
  t.arr.beats = s.arr.beats ++ [Beat.ofToken q (dirOpp d) (if crosses p d then 7 else 2) tok]

/-- A pricking in a slot, outside any loop, whose next bundle is not beyond its last, and whose bundle carries no end
mark (R153, R180). -/
def Straight (s : State) (h : CHead) : Prop :=
  s.hold.stopped = false ∧ h.fin = false ∧ (s.lg h.loc).loops = [] ∧ (s.lg h.loc).ended = false ∧
  ∃ k, (s.lg h.loc).slot = some k ∧ (s.lg h.loc).pc + 1 < min (s.nBundles h.loc.pic k) 2048

/-- The pricking's next bundle is `pc`, it has not ended, and other picots are as they were. -/
def GoesTo (s t : State) (loc : At) (pc : Nat) : Prop :=
  (t.lg loc).pc = pc ∧ (t.lg loc).ended = false ∧ ∀ q, q ≠ loc.pic.val → t.picot q = s.picot q

/-- The header of an M-slot instruction. -/
def mSlotOf : Instr → Option MHead
  | .nopm h | .wld h _ | .wsc h _ | .wswap h | .mma h _ | .accq h _ | .accx h _ | .acca h _ | .accz h _ => some h
  | .fadd h _ | .fsub h _ | .fmul h _ | .fma h _ | .fmin h _ | .fmax h _ | .rcp h _ | .rsq h _ | .exp2 h _ | .log2 h _ => some h
  | .iadd h _ | .isub h _ | .imul h _ | .imin h _ | .imax h _ | .andVector h _ | .orVector h _ | .xorVector h _ => some h
  | .shl h _ | .shr h _ | .sar h _ | .cmp h _ | .vsel h _ | .cvt h _ | .qnt h _ | .dqt h _ | .scale h _ | .bqnt h _ => some h
  | .csum h _ | .vld h _ | .xcvt h _ | .xadd h _ | .xrnd h _ | .vrsum h _ | .vrmax h _ | .vrng h _ => some h
  | _ => none

/-- The SRAM words that an M-slot instruction reads (R158, R159, R161, R171). -/
def sramWordsOf : Instr → List Nat
  | .wld _ a => rowWords a.row.toNat
  | .wsc _ a => [a.word.toNat]
  | .accq _ a => rowWords a.rrow.toNat
  | .vld _ a => (List.range 8).map (fun i => a.word.toNat + i)
  | _ => []

/-- The instructions of the Stitch 3 set that a bundle issues (R155 to R157). -/
def stitch (i : Instr) : Bool :=
  (mSlotOf i).isSome ||
  match i with
  | .nopl _ | .ldw .. | .stw .. | .send .. | .recv .. | .qput .. | .mreq .. | .hatom .. | .rdtime .. | .rdsens .. => true
  | .qlen .. | .rdround .. | .movi .. | .ldc .. | .addi .. | .add .. | .sub .. | .mul .. | .andScalar .. => true
  | .orScalar .. | .xorScalar .. | .shli .. | .shri .. | .vtog .. | .gtov .. | .cmpg .. => true
  | .nopc _ | .lcset .. | .lctim .. | .lctok .. | .lcgp .. | .loop .. | .waitlc .. | .jmp .. | .brp .. => true
  | .tsendi .. | .tsendg .. | .tput .. | .tpop .. | .tprd .. | .pset .. | .steer .. | .bclr _ => true
  | _ => false

/-- Nothing changes but registers, and of those only the listed ones. -/
def OnlyRegs (s t : State) (ks : List Nat) : Prop := t = { s with regs := t.regs } ∧ ∀ k, k ∉ ks → t.rd k = s.rd k

/-- A hold request is new, and stands in the list after the command; only the hold and its counters change. -/
def Raises (s t : State) (cause : Nat) (src : HoldSrc) (cancel : Bool) : Prop :=
  t = { s with hold := t.hold, regs := t.regs } ∧ 
  t.hold.reqs = s.hold.reqs ++ [{ cause := cause, src := src, cancel := cancel, cyc := s.cycleIndex }] ∧
  t.hold.goIn = none ∧ t.hold.stopped = s.hold.stopped

/-- An error of this source, class and location has been taken (R393, R394, R396): it is in the log where the log has room, it is
counted, ERR_STATUS shows it, and it stops the context, or leaves it waiting for STOP. -/
def Logged (s t : State) (src : Byte) (cls : Nat) (loc : DWord) : Prop :=
  t.log.nextSeq = s.log.nextSeq + 1 ∧ t.rd Reg.ERR_UE_TOTAL = satInc (s.rd Reg.ERR_UE_TOTAL) ∧ t.rdB Reg.ERR_STATUS 28 = true ∧
  (s.log.entries.length < 64 → ∃ x, t.log.entries = s.log.entries ++ [x] ∧ x.seq = s.log.nextSeq ∧ x.source = src ∧ x.cls = cls ∧
    x.loc = loc ∧ x.pending = true ∧ x.time = s.timeline) ∧
  (s.ctx = ctxRunning → t.ctx = ctxHalted ∧ t.aryState = aryStopped ∧ t.trg.outs = []) ∧
  (s.ctx ∈ [ctxOpening, ctxReady, ctxLoaded] → t.ctx = s.ctx ∧ t.ueStop = true)

/-- Ring r runs a command of this opcode and its turn has come, its reserved bytes and the PARAM bytes from `used` on are
zero, and the device takes it: its boot phase does, and no error waits for STOP (R332 to R334, R396, R429). -/
def Runs (s : State) (r : Fin 16) (op : Byte) (used : Nat) (e : SubEntry) : Prop :=
  s.running r = some e ∧ e.opcode = op ∧ s.isTurn r = true ∧ e.badByte used = none ∧ s.phaseTakes op = true

/-- A ring command succeeds: in a state `u`, where it still runs, it completes with OK and these results. -/
def Succeeds (s : State) (i : Instr) (r : Fin 16) (u : State) (res0 res1 : DWord) : Prop :=
  exec i s = .next (u.complete r stOk res0 res1) ∧ u.running r = s.running r

/-- A context that takes commands: READY, LOADED, RUNNING or HALTED (R351). -/
def OpenContext (s : State) : Prop := s.ctx ∈ [ctxReady, ctxLoaded, ctxRunning, ctxHalted]

end Sys2Proof.Claims
end

