-- ==== Sys2Proof/Certificates/Slice0/Obligations.lean ====
section
/-!
DEFINITION. The statements for the provers.
-/

open Sys2Proof Sys2Proof.Machine Sys2Proof.Claims

/-- R107, R162: every FP32 lane of FADD, FSUB, FMUL, FMA, FMIN, FMAX, RCP, RSQ, EXP2 and LOG2 is its exact result rounded once,
after the latency of R150 and R198, with the tags of R154. -/
def Obligations.FloatVectorResults : Prop :=
  ∀ (s : State) (h : MHead) (a : MV), Issues s h →
    let c := s.mctx h.loc
    let x := fun e => fmtValue Fmt.fp32 (elem 32 (c.p.vreg a.va) e)
    let y := fun e => fmtValue Fmt.fp32 (elem 32 (c.p.vreg a.vb) e)
    let z := fun e => fmtValue Fmt.fp32 (elem 32 (c.p.vreg a.vc) e)
    let r := fun e => c.rnd a.rnd a.ck a.gi e
    let tx := c.p.tagsOf a.va 8
    let txy := c.p.tagsOf a.va 8 || c.p.tagsOf a.vb 8
    let f1 := (if s.b0 then 7 else 10) + s.rdF Reg.ARY_LEQ0 4 4
    let f2 := (if s.b0 then 8 else 12) + s.rdF Reg.ARY_LEQ0 8 4
    Fills s h (.fadd h a) 3 a.vd 32 64 (fun e => (convert Fmt.fp32 (r e) ((x e).add (y e))).1) txy ∧
    Fills s h (.fsub h a) 3 a.vd 32 64 (fun e => (convert Fmt.fp32 (r e) ((x e).add (y e).neg)).1) txy ∧
    Fills s h (.fmul h a) 3 a.vd 32 64 (fun e => (convert Fmt.fp32 (r e) ((x e).mul (y e))).1) txy ∧
    Fills s h (.fma h a) 4 a.vd 32 64 (fun e => (convert Fmt.fp32 (r e) (((x e).mul (y e)).add (z e))).1)
      (txy || c.p.tagsOf a.vc 8) ∧
    Fills s h (.fmin h a) 3 a.vd 32 64 (fun e => (convert Fmt.fp32 .rn (Vec.fpick false (x e) (y e))).1) txy ∧
    Fills s h (.fmax h a) 3 a.vd 32 64 (fun e => (convert Fmt.fp32 .rn (Vec.fpick true (x e) (y e))).1) txy ∧
    Fills s h (.rcp h a) f1 a.vd 32 64 (fun e => fp32Code (r e) (rcpVal (x e)).1) tx ∧
    Fills s h (.rsq h a) f1 a.vd 32 64 (fun e => fp32Code (r e) (rsqVal (x e)).1) tx ∧
    Fills s h (.exp2 h a) f2 a.vd 32 64 (fun e => fp32Code (r e) (exp2Val (x e)).1) tx ∧
    Fills s h (.log2 h a) f2 a.vd 32 64 (fun e => fp32Code (r e) (log2FVal (x e)).1) tx

/-- R57, R60, R107: integer vector arithmetic saturates each exact result into the element format. R107, R163: bitwise vector
instructions, shifts by the low log2(w) bits of VB's element, CMP's all-ones or zero, VSEL by the bits of VC. -/
def Obligations.IntegerAndBitwiseResults : Prop :=
  (∀ (s : State) (h : MHead) (a : MV), Issues s h →
     let p := s.picot h.loc.pic
     let w := Fmt.width a.fmt
     let n := Fmt.perReg a.fmt
     let x := fun e => Vec.intVal a.fmt (elem w (p.vreg a.va) e)
     let y := fun e => Vec.intVal a.fmt (elem w (p.vreg a.vb) e)
     let bad := p.tagsOf a.va 8 || p.tagsOf a.vb 8
     Fills s h (.iadd h a) 2 a.vd w n (fun e => codeOf w (clamp a.fmt (x e + y e))) bad ∧
     Fills s h (.isub h a) 2 a.vd w n (fun e => codeOf w (clamp a.fmt (x e - y e))) bad ∧
     Fills s h (.imul h a) 3 a.vd w n (fun e => codeOf w (clamp a.fmt (x e * y e))) bad ∧
     Fills s h (.imin h a) 2 a.vd w n (fun e => codeOf w (clamp a.fmt (min (x e) (y e)))) bad ∧
     Fills s h (.imax h a) 2 a.vd w n (fun e => codeOf w (clamp a.fmt (max (x e) (y e)))) bad) ∧
  (∀ (s : State) (h : MHead) (a : MV), Issues s h →
     let p := s.picot h.loc.pic
     let w := Fmt.width a.fmt
     let n := Fmt.perReg a.fmt
     let x := fun e => elem w (p.vreg a.va) e
     let y := fun e => elem w (p.vreg a.vb) e % w
     let bad := p.tagsOf a.va 8 || p.tagsOf a.vb 8
     FillsWith s h (.andVector h a) 1 a.vd (p.vreg a.va &&& p.vreg a.vb) bad ∧
     FillsWith s h (.orVector h a) 1 a.vd (p.vreg a.va ||| p.vreg a.vb) bad ∧
     FillsWith s h (.xorVector h a) 1 a.vd (p.vreg a.va ^^^ p.vreg a.vb) bad ∧
     FillsWith s h (.vsel h a) 1 a.vd ((p.vreg a.va &&& p.vreg a.vc) ||| (p.vreg a.vb &&& ~~~p.vreg a.vc))
       (bad || p.tagsOf a.vc 8) ∧
     Fills s h (.shl h a) 1 a.vd w n (fun e => x e * 2 ^ y e) bad ∧
     Fills s h (.shr h a) 1 a.vd w n (fun e => x e / 2 ^ y e) bad ∧
     Fills s h (.sar h a) 1 a.vd w n
       (fun e => if a.fmt = Fmt.u8 then x e / 2 ^ y e else codeOf w (signedCode w (x e) / ((2 ^ y e : Nat) : Int))) bad ∧
     Fills s h (.cmp h a) 2 a.vd w n (fun e =>
       if Vec.holds a.sub (fmtValue a.fmt (x e)) (fmtValue a.fmt (elem w (p.vreg a.vb) e)) then 2 ^ w - 1 else 0) bad)

/-- R62, R164 to R168: conversions and quantization element by element. -/
def Obligations.ConversionResults : Prop :=
  ∀ (s : State) (h : MHead) (a : MV), Issues s h →
    let c := s.mctx h.loc
    let k := a.ck.toNat
    let x := fun f e => fmtValue f (elem (Fmt.width f) (c.p.vreg a.va) e)
    let r := fun e => c.rnd a.rnd a.ck a.gi e
    let q : Fmt := (c.ck k).extractLsb' 0 4
    let t := fun f n => c.p.tagsOf a.va (segsFor f n)
    (Fmt.width a.sub ≤ 32 →
      Fills s h (.cvt h a) ((if s.b0 then 2 else 3) + s.rdF Reg.ARY_LEQ0 12 4) a.vd (Fmt.width a.sub) 64
        (fun e => (convert a.sub (r e) (x a.fmt e)).1) (t a.fmt 64)) ∧
    (Fmt.width q ≤ 32 →
      Fills s h (.qnt h a) ((if s.b0 then 4 else 5) + s.rdF Reg.ARY_LEQ0 16 4) a.vd (Fmt.width q) 64
        (fun e => (quantTo q .rn (c.ck (k + 2)).toInt
          ((clip (x a.fmt e) (c.f32 (k + 4)) (c.f32 (k + 5))).1.add (c.f32 (k + 3)).neg) (c.f32 (k + 1))).1) (t a.fmt 64)) ∧
    Fills s h (.dqt h a) 4 a.vd 32 64
      (fun e => (dequant q (elem (Fmt.width q) (c.p.vreg a.va) e) (c.f32 (k + 1)) (c.ck (k + 2)).toInt (c.f32 (k + 3))).1)
      (t q 64) ∧
    Fills s h (.scale h a) 4 a.vd 8 2 (fun b => (Vec.blockCode c a b).1) (c.p.tagsOf a.va 8) ∧
    (Fmt.width a.sub ≤ 32 →
      Fills s h (.bqnt h a) 4 a.vd (Fmt.width a.sub) 64
        (fun e =>
          let b := elem 8 (c.p.vreg a.vb) (e / 32)
          if b = 0xFF then 0 else (convert a.sub (r e) ((x Fmt.fp32 e).div (Q.pow2 ((b : Int) - 127)).toVal)).1)
        (c.p.tagsOf a.va 8 || c.p.segTag a.vb 0)) ∧
    Fills s h (.csum h a) 3 a.vd 32 1
      (fun _ => codeOf 32 (clamp Fmt.s32 ((lane (c.p.vreg a.vc) 0).toInt +
        ((List.range (Fmt.perReg a.fmt)).map (fun e => Vec.intVal a.fmt (elem (Fmt.width a.fmt) (c.p.vreg a.va) e))).sum)))
      (c.p.tagsOf a.va 8 || c.p.segTag a.vc 0)

/-- R169, R172: the exact-sum instructions, the reductions and VRNG. R158 to R161, R106, R169: the matrix instructions, with VLD
of R150. Words read from SRAM hold no error here. -/
def Obligations.ExactSumAndMatrixResults : Prop :=
  (∀ (s : State) (h : MHead) (a : MV), Issues s h →
     let c := s.mctx h.loc
     let k := a.ck.toNat
     let x := fun e => fmtValue a.fmt (elem (Fmt.width a.fmt) (c.p.vreg a.va) e)
     let nlog := fieldNat (c.ck k) 0 6
     let bad := c.p.tagsOf a.va 8
     let seed := c.ck (k + 1) ++ c.ck k
     Fills s h (.xcvt h a) 3 a.vd 128 16 (fun e => codeOf 128 (term nlog (x e)).1) (c.p.tagsOf a.va (segsFor a.fmt 16)) ∧
     Fills s h (.xadd h a) 2 a.vd 128 16
       (fun i => codeOf 128 (satX128 (Vec.group (c.p.vreg a.va) i + Vec.group (c.p.vreg a.vb) i)).1)
       (bad || c.p.tagsOf a.vb 8) ∧
     Fills s h (.xrnd h a) ((if s.b0 then 4 else 5) + s.rdF Reg.ARY_LEQ0 20 4) a.vd (Fmt.width a.fmt) 16
       (fun i => (convert a.fmt (c.rnd a.rnd a.ck a.gi i) ({ num := Vec.group (c.p.vreg a.va) i, den := 2 ^ 64 } : Q).toVal).1) bad ∧
     Fills s h (.vrsum h a) ((if s.b0 then 5 else 6) + s.rdF Reg.ARY_LEQ0 24 4) a.vd 128 1
       (fun _ => codeOf 128 (satX128 ((List.range (Fmt.perReg a.fmt)).map (fun e => (term nlog (x e)).1)).sum).1) bad ∧
     Fills s h (.vrmax h a) 4 a.vd (Fmt.width a.fmt) 1
       (fun _ => (convert a.fmt .rn ((List.range (Fmt.perReg a.fmt - 1)).foldl (fun m e => Vec.fpick true m (x (e + 1))) (x 0))).1)
       bad ∧
     Fills s h (.vrng h a) 4 a.vd 32 64
       (fun e => (bobbin seed (c.ck (k + 2)) (c.lg.pair a.gi + BitVec.ofNat 64 e)).toNat) false) ∧
  (∀ (s : State) (h : MHead), Issues s h →
     let c := s.mctx h.loc
     let p := h.loc.pic
     exec (.nopm h) s = .next s ∧
     (∀ a : MT, CleanWords s p (rowWords a.row.toNat) →
       Lands s h.loc (.wld h a) 0 3 (.tileCodes a.part a.wfmt (s.sramRow p a.row.toNat))) ∧
     (∀ a : MS, CleanWords s p [a.word.toNat] →
       Lands s h.loc (.wsc h a) 0 3 (.tileScales a.part (s.sramRead p a.word.toNat))) ∧
     Lands s h.loc (.wswap h) 0 1 .swap ∧
     (∀ a : MM, pairs a.afmt c.p.active.fmt = true → a.scaled = false →
       ∃ xs, Lands s h.loc (.mma h a) 0 (if Fmt.width a.afmt = 16 then 7 else 4)
           (.terms a.bank.toNat 0 (!a.acc) xs (Mat.columnTag c a)) ∧ xs.length = 32 ∧
         ∀ j < 32, xs[j]? = some ((List.range (tileDepth c.p.active.fmt)).map (fun k =>
           (term (c.p.nlogOf a.bank.toNat) ((fmtValue c.p.active.fmt (c.p.active.code j k)).mul (Mat.columnVal c a k))).1)).sum) ∧
     (∀ a : MQ, CleanWords s p (rowWords a.rrow.toNat) →
       let w := Fmt.width ((s.const h.loc (a.ck.toNat + 6)).extractLsb' 0 4)
       256 * a.seg.toNat + 32 * w ≤ 2048 →
       let n := (32 * w + 255) / 256
       let lat := (if s.b0 then 7 else 9) + s.rdF Reg.ARY_LEQ0 0 4
       ∃ t x, exec (.accq h a) s = .next t ∧ OnlyFlies s t p ∧
         Flies t h.loc 0 lat (.lanes a.vd.toNat (BitVec.ofNat 64 ((2 ^ (8 * n) - 1) * 2 ^ (8 * a.seg.toNat))) x) ∧
         Flies t h.loc 0 lat (.tags a.vd.toNat (BitVec.ofNat 8 ((2 ^ n - 1) * 2 ^ a.seg.toNat)) (c.p.bankTag a.bank.toNat)) ∧
         ∀ j < 32, (x.extractLsb' (256 * a.seg.toNat + w * j) w).toNat = (Mat.output c a (s.sramRow p a.rrow.toNat) j).1 % 2 ^ w) ∧
     (∀ a : MA, Fills s h (.accx h a) 2 a.v 128 16 (fun i => codeOf 128 (c.p.accOf a.bank.toNat (16 * a.half.toNat + i)))
       (c.p.bankTag a.bank.toNat)) ∧
     (∀ a : MA, Lands s h.loc (.acca h a) 0 2
       (.terms a.bank.toNat (16 * a.half.toNat) false ((List.range 16).map (Vec.group (c.p.vreg a.v))) (c.p.tagsOf a.v 8))) ∧
     (∀ a : MA, Lands s h.loc (.accz h a) 0 1 (.clearBank a.bank.toNat a.nlog.toNat)) ∧
     (∀ a : MD, CleanWords s p ((List.range 8).map (fun i => a.word.toNat + i)) →
       Fills s h (.vld h a) 3 a.vd 256 8 (fun i => (s.sramRead p (a.word.toNat + i)).toNat) false))

/-- R178, R183, R445: the scalar and status instructions of a running array, with the latencies of R150. -/
def Obligations.ScalarResults : Prop :=
  ∀ (s : State) (loc : At), s.hold.stopped = false →
    let g := (s.lg loc).reg
    let x := s.picot loc.pic
    (∀ gd, PairLands s loc (.rdtime loc gd) gd 2 s.timeline) ∧
    (∀ gd, PairLands s loc (.rdround loc gd) gd 2 s.arr.round) ∧
    (∀ gd sens v, GpLands s loc (.rdsens loc gd sens v) 2 gd v) ∧
    (∀ gd q, GpLands s loc (.qlen loc gd true q) 2 gd (BitVec.ofNat 32 (x.tqueue (q.toNat % 8)).items.length)) ∧
    (∀ gd q, GpLands s loc (.qlen loc gd false q) 2 gd (BitVec.ofNat 32 (x.queue q.toNat).items.length)) ∧
    (∀ gd imm, GpLands s loc (.movi loc gd imm) 1 gd (imm.signExtend 32)) ∧
    (∀ gd ck, GpLands s loc (.ldc loc gd ck) 1 gd (s.const loc ck.toNat)) ∧
    (∀ a : LI, a.pair = false → GpLands s loc (.addi loc a) 1 a.gd (g a.ga + a.imm.signExtend 32)) ∧
    (∀ a : LI, a.pair = true →
      PairLands s loc (.addi loc a) a.gd 1 ((g (a.ga + 1) ++ g a.ga : DWord) + a.imm.signExtend 64)) ∧
    (∀ a : LG, GpLands s loc (.add loc a) 1 a.gd (g a.ga + g a.gb)) ∧
    (∀ a : LG, GpLands s loc (.sub loc a) 1 a.gd (g a.ga - g a.gb)) ∧
    (∀ a : LG, GpLands s loc (.mul loc a) 2 a.gd (g a.ga * g a.gb)) ∧
    (∀ a : LG, GpLands s loc (.andScalar loc a) 1 a.gd (g a.ga &&& g a.gb)) ∧
    (∀ a : LG, GpLands s loc (.orScalar loc a) 1 a.gd (g a.ga ||| g a.gb)) ∧
    (∀ a : LG, GpLands s loc (.xorScalar loc a) 1 a.gd (g a.ga ^^^ g a.gb)) ∧
    (∀ a : LK, GpLands s loc (.shli loc a) 1 a.gd (g a.ga <<< a.shift.toNat)) ∧
    (∀ a : LK, GpLands s loc (.shri loc a) 1 a.gd (g a.ga >>> a.shift.toNat)) ∧
    (∀ a : LV, GpLands s loc (.vtog loc a) 2 a.g (lane (x.vreg a.v) a.lane.toNat)) ∧
    (∀ a : LV, ∃ t v, exec (.gtov loc a) s = .next t ∧ OnlyFlies s t loc.pic ∧
      Flies t loc 1 1 (.lanes a.v.toNat ((1#64) <<< a.lane.toNat) v) ∧ lane v a.lane.toNat = g a.g ∧
      Flies t loc 1 1 (.tags a.v.toNat ((1#8) <<< (a.lane.toNat / 8)) false)) ∧
    (∀ a : LP, Lands s loc (.cmpg loc a) 1 1 (.prd a.pbit.toNat
      (match a.cond.toNat with
      | 0 => decide (g a.ga = g a.gb)
      | 1 => decide (g a.ga ≠ g a.gb)
      | 2 => decide ((g a.ga).toInt < (g a.gb).toInt)
      | 3 => decide ((g a.ga).toInt ≤ (g a.gb).toInt)
      | 4 => decide ((g a.gb).toInt < (g a.ga).toInt)
      | 5 => decide ((g a.gb).toInt ≤ (g a.ga).toInt)
      | 6 => decide ((g a.ga).toNat < (g a.gb).toNat)
      | _ => decide ((g a.gb).toNat ≤ (g a.ga).toNat))))

/-- R178: ADD, SUB, MUL, ADDI and the shifts wrap modulo 2^32, ADDI with PAIR = 1 modulo 2^64 on the even pairs, and no format
event is counted. -/
def Obligations.ScalarArithmeticWraps : Prop :=
  ∀ (s : State) (loc : At), s.hold.stopped = false →
    let g := fun r => ((s.lg loc).reg r).toNat
    let wraps := fun (i : Instr) (lat : Nat) (gd : BitVec 4) (n : Nat) => ∃ t, exec i s = .next t ∧ t.arr.events = s.arr.events ∧
      t.regs = s.regs ∧ ∃ v : Word, Flies t loc 1 lat (.gp gd.toNat v) ∧ v.toNat = n % 2 ^ 32
    (∀ a : LG, wraps (.add loc a) 1 a.gd (g a.ga + g a.gb) ∧ wraps (.sub loc a) 1 a.gd (2 ^ 32 + g a.ga - g a.gb) ∧
      wraps (.mul loc a) 2 a.gd (g a.ga * g a.gb)) ∧
    (∀ a : LK, wraps (.shli loc a) 1 a.gd (g a.ga * 2 ^ a.shift.toNat) ∧ wraps (.shri loc a) 1 a.gd (g a.ga / 2 ^ a.shift.toNat)) ∧
    (∀ a : LI, a.pair = false → wraps (.addi loc a) 1 a.gd (g a.ga + (a.imm.signExtend 32).toNat)) ∧
    (∀ a : LI, a.pair = true → ∃ t, exec (.addi loc a) s = .next t ∧ t.arr.events = s.arr.events ∧ t.regs = s.regs ∧
      ∃ lo hi : Word, Flies t loc 1 1 (.gp a.gd.toNat lo) ∧ Flies t loc 1 1 (.gp (a.gd + 1).toNat hi) ∧
        lo.toNat + 2 ^ 32 * hi.toNat = (g a.ga + 2 ^ 32 * g (a.ga + 1) + (a.imm.signExtend 64).toNat) % 2 ^ 64)

/-- R150, R154, R174, R176: LDW, STW, RECV, QPUT and MREQ complete. The L-port's bank is not the lane port's in this cycle
(R109), and words read hold no error. -/
def Obligations.MemoryAndQueueResults : Prop :=
  ∀ (s : State) (loc : At), s.hold.stopped = false →
    let p := loc.pic
    let x := s.picot p
    exec (.nopl loc) s = .next s ∧
    (∀ a : LM, a.word.toNat % 32 ∉ x.lanePort → CleanWords s p [a.word.toNat] →
      ∃ t, exec (.ldw loc a) s = .next t ∧ OnlyPicot s t p ∧
        t.picot p = { x with flight := (t.picot p).flight, lport := some (a.word.toNat % 32) } ∧
        LandsSegment t loc 3 a.v a.seg (s.sramRead p a.word.toNat) false) ∧
    (∀ a : LM, a.word.toNat % 32 ∉ x.lanePort →
      ∃ t, exec (.stw loc a) s = .next t ∧ OnlyPicot s t p ∧
        t.picot p = { x with flight := (t.picot p).flight, lport := some (a.word.toNat % 32) } ∧
        Flies t loc 1 1 (.sram a.word.toNat (segment (x.vreg a.v) a.seg.toNat))) ∧
    (∀ (a : LR) (f : Flit) (fs : List Flit), (x.queue a.dq.toNat).items = f :: fs → a.toSram = false →
      ∃ t, exec (.recv loc a) s = .next t ∧ OnlyPicot s t p ∧ ((t.picot p).queue a.dq.toNat).items = fs ∧
        (t.picot p).sram = x.sram ∧ LandsSegment t loc 2 a.v a.seg f.data f.bad) ∧
    (∀ (a : LR) (f : Flit) (fs : List Flit), (x.queue a.dq.toNat).items = f :: fs → a.toSram = true →
      a.word.toNat % 32 ∉ x.lanePort →
      ∃ t, exec (.recv loc a) s = .next t ∧ OnlyPicot s t p ∧ ((t.picot p).queue a.dq.toNat).items = fs ∧
        Flies t loc 1 2 (.sram a.word.toNat f.data) ∧ Flies t loc 1 2 (.badl false f.bad)) ∧
    (∀ a : LQ, 0 < (x.queue a.dq.toNat).credit →
      ∃ t, exec (.qput loc a) s = .next t ∧ OnlyPicot s t p ∧
        t.picot p = x.setQueue a.dq.toNat { x.queue a.dq.toNat with items := (x.queue a.dq.toNat).items ++
          [{ data := segment (x.vreg a.v) a.seg.toNat, kind := 0, bad := x.segTag a.v a.seg.toNat, last := a.last }] }) ∧
    (∀ a : LN, ∃ t r, exec (.mreq loc a) s = .next t ∧ OnlyPicot s t p ∧
      t.picot p = { x with laneOut := x.laneOut ++ [r] } ∧ r.addr = (s.lg loc).reg a.ga ∧ r.write = a.write ∧
      r.word = a.word.toNat ∧ r.len % 65536 = ((s.lg loc).reg a.gl).toNat % 65536 ∧ 0 < r.len)

/-- R173, R177, R342: SEND and HATOM put their flits on an output that carries no other in the cycle, five cycles later across a
bridge; the hub carries an atomic out when its commit lag is over, and the old value, all ones where the host fails it, is
what goes up the column in the cycle of the return. -/
def Obligations.SendAndAtomicResults : Prop :=
  ∀ (s : State) (loc : At), s.hold.stopped = false →
    let p := loc.pic
    let x := s.picot p
    (∀ a : LS, a.src = 0 → ∀ q, neighbour p a.dir = some q → FreeOutput s p q a.dir 2 →
      ∃ t, exec (.send loc a) s = .next t ∧ Drives s t p q a.dir 2
        { data := segment (x.vreg a.v) a.seg.toNat, kind := 0, bad := x.segTag a.v a.seg.toNat, last := a.last }) ∧
    (∀ a : LS, a.src = 1 → ∀ q, neighbour p a.dir = some q → FreeOutput s p q a.dir 4 →
      a.word.toNat % 32 ∉ x.lanePort → CleanWords s p [a.word.toNat] →
      let f : Flit := { data := s.sramRead p a.word.toNat, kind := 0, bad := (s.lg loc).badl, last := a.last }
      let b : Beat := Beat.ofFlit q (dirOpp a.dir) (if crosses p a.dir then 9 else 4) f
      ∃ t, exec (.send loc a) s = .next t ∧ t.arr.beats = s.arr.beats ++ [b]) ∧
    (∀ (a : LS) (f : Flit) (fs : List Flit), a.src = 2 → (x.queue a.dq.toNat).items = f :: fs →
      ∀ q, neighbour p a.dir = some q → FreeOutput s p q a.dir 2 →
      let b : Beat := Beat.ofFlit q (dirOpp a.dir) (if crosses p a.dir then 7 else 2) f
      ∃ t, exec (.send loc a) s = .next t ∧ ((t.picot p).queue a.dq.toNat).items = fs ∧ t.arr.beats = s.arr.beats ++ [b]) ∧
    (∀ a : LH, ∀ q, neighbour p .s = some q → FreeOutput s p q .s 2 →
      ∃ t, exec (.hatom loc a) s = .next t ∧
        Drives s t p q .s 2 { data := hatomData (s.lg loc) a, kind := 3, bad := false, last := false }) ∧
    (∀ a : LH, neighbour p .s = none → (∀ h ∈ s.arr.hub, ¬(h.port = portOf p ∧ h.wait = 2)) →
      ∃ t, exec (.hatom loc a) s = .next t ∧ t = { s with arr := { s.arr with hub := t.arr.hub } } ∧
        ∃ b, t.arr.hub = s.arr.hub ++ [b] ∧ b.port = portOf p ∧ b.wait = 2 ∧
          b.flit = { data := hatomData (s.lg loc) a, kind := 3, bad := false, last := false }) ∧
    (∀ (col : Fin 32) (a : Atomic) (old : Word), s.nextAtomic col = some a → fieldNat a.flit 128 2 = 0 →
      ∃ t, exec (.hatomExecute col (some old)) s = .next t ∧
        t.out = s.out ++ [.hostWrite (field a.flit 0 64 &&& ~~~3#64) (bytesOf 4 (old + field a.flit 64 32))] ∧
        t.arr.atomics = s.arr.atomics.map (fun b => if b = a then { b with result := some old } else b)) ∧
    (∀ (col : Fin 32) (a : Atomic), s.nextAtomic col = some a →
      ∃ t, exec (.hatomExecute col none) s = .next t ∧ t.out = s.out ∧ t.rd Reg.HQ_HATOM_ERR = satInc (s.rd Reg.HQ_HATOM_ERR) ∧
        t.arr.atomics = s.arr.atomics.map (fun b => if b = a then { b with result := some 0xFFFF_FFFF } else b)) ∧
    (∀ (col : Fin 32) (old : Word), let t := s.returnAtomic col old
      t = { s with arr := { s.arr with beats := t.arr.beats } } ∧ ∃ b, t.arr.beats = s.arr.beats ++ [b] ∧ b.pic.val = col.val ∧
        b.inp = .s ∧ b.flit = some { data := old.setWidth 256, kind := 0, bad := false, last := false } ∧ b.check = 0)

/-- R118, R120, R123, R124: what the link-slot entry does with a flit or a token that arrives with a good check and no other use
of the output; a flit whose CHECK fails is counted and goes nowhere. -/
def Obligations.ArrivalResults : Prop :=
  ∀ (s : State) (p : Fin 1024) (inp : Dir), s.hold.stopped = false → (s.picot p).boot = false →
    let e := s.linkSlot p
    let fs := State.flitSlot e (dirNum inp)
    let ts := State.tokenSlot e (dirNum inp)
    (∀ (data : BitVec 256) (side : BitVec 8), side.getLsbD 0 = true → fs.1 = 1 →
      ∃ t x, exec (.flitArrival p inp data side (flitCheck side data)) s = .next t ∧ OnlyPicot s t p ∧
        t.picot p = { s.picot p with entering := (s.picot p).entering ++ [x] } ∧ x.wait = 2 ∧ x.inp = inp ∧
        x.item = .flit (BitVec.ofNat 4 fs.2.2).toFin
          { data := data, kind := side.extractLsb' 1 2, bad := side.getLsbD 3, last := side.getLsbD 4 }) ∧
    (∀ (data : BitVec 256) (side : BitVec 8) (q : Fin 1024), side.getLsbD 0 = true → fs.1 = 2 →
      neighbour p (dirOfNat fs.2.1) = some q → FreeOutput s p q (dirOfNat fs.2.1) 1 →
      ∃ t, exec (.flitArrival p inp data side (flitCheck side data)) s = .next t ∧ Drives s t p q (dirOfNat fs.2.1) 1
        { data := data, kind := side.extractLsb' 1 2, bad := side.getLsbD 3, last := side.getLsbD 4 }) ∧
    (∀ (data : BitVec 256) (side : BitVec 8) (check : BitVec 16), side.getLsbD 0 = true → check ≠ flitCheck side data →
      exec (.flitArrival p inp data side check) s =
        .next ((s.count Reg.ARY_LINKCHK_COUNT).arrayFault 4 p (s.faultLg p) (dirNum inp) 0)) ∧
    (∀ data side check, side.getLsbD 0 = false → exec (.flitArrival p inp data side check) s = .next s) ∧
    (∀ tok : BitVec 16, tok ≠ 0 → tokenInvalid tok = false → ts.1 = 1 →
      ∃ t x, exec (.tokenArrival p inp tok (tokenParity tok)) s = .next t ∧ OnlyPicot s t p ∧
        t.picot p = { s.picot p with entering := (s.picot p).entering ++ [x] } ∧ x.wait = 2 ∧
        x.item = .token (BitVec.ofNat 3 ts.2.2).toFin tok) ∧
    (∀ par, exec (.tokenArrival p inp 0 par) s = .next s)

/-- R153, R179, R180: C-slot instructions of a pricking outside any loop, before its last bundle: the counter or predicate lands
in the next cycle, and the next bundle is the one that R153 names. -/
def Obligations.ControlResults : Prop :=
  ∀ (s : State) (h : CHead), Straight s h →
    let l := s.lg h.loc
    let x := s.picot h.loc.pic
    (∃ t, exec (.nopc h) s = .next t ∧ GoesTo s t h.loc (l.pc + 1) ∧ (t.picot h.loc.pic).flight = x.flight) ∧
    (∀ lc trip, ∃ t, exec (.lcset h lc trip) s = .next t ∧ GoesTo s t h.loc (l.pc + 1) ∧
      Flies t h.loc 2 1 (.lc lc { count := trip, timer := false })) ∧
    (∀ lc trip, ∃ t, exec (.lctim h lc trip) s = .next t ∧ GoesTo s t h.loc (l.pc + 1) ∧
      Flies t h.loc 2 1 (.lc lc { count := trip, timer := true })) ∧
    (∀ lc gs, ∃ t, exec (.lcgp h lc gs) s = .next t ∧ GoesTo s t h.loc (l.pc + 1) ∧
      Flies t h.loc 2 1 (.lc lc { count := (l.reg gs).extractLsb' 0 16, timer := false })) ∧
    (∀ pbit gs b, ∃ t, exec (.pset h pbit gs b) s = .next t ∧ GoesTo s t h.loc (l.pc + 1) ∧
      Flies t h.loc 2 1 (.prd pbit.toNat ((l.reg gs).getLsbD b.toNat))) ∧
    (∃ t, exec (.bclr h) s = .next t ∧ GoesTo s t h.loc (l.pc + 1) ∧ Flies t h.loc 2 1 (.badl true false)) ∧
    (∀ (lc : Fin 8), (x.loopCtr lc).count = 0 → ∃ t, exec (.waitlc h lc) s = .next t ∧ GoesTo s t h.loc (l.pc + 1) ∧
      (t.lg h.loc).waiting = none) ∧
    (∀ (lc : Fin 8), (x.loopCtr lc).count ≠ 0 → ∃ t, exec (.waitlc h lc) s = .next t ∧ OnlyPicot s t h.loc.pic ∧
      t.lg h.loc = { l with waiting := some lc, waitAt := if l.waiting.isSome then l.waitAt else s.arr.cycle }) ∧
    (∀ (lc : Fin 8) (len : BitVec 11), (x.loopCtr lc).count ≠ 0 → ∃ t, exec (.loop h lc len) s = .next t ∧ (t.lg h.loc).pc = l.pc + 1 ∧
      (t.lg h.loc).loops = [{ lc := lc, start := l.pc + 1, stop := l.pc + len.toNat }]) ∧
    (∀ (lc : Fin 8) (len : BitVec 11) (k : Fin 8), l.slot = some k → (x.loopCtr lc).count = 0 →
      l.pc + len.toNat + 1 < min (s.nBundles h.loc.pic k) 2048 →
      ∃ t, exec (.loop h lc len) s = .next t ∧ (t.lg h.loc).pc = l.pc + len.toNat + 1 ∧ (t.lg h.loc).ended = false) ∧
    (∀ (target : BitVec 11) (k : Fin 8), l.slot = some k → target.toNat < s.nBundles h.loc.pic k →
      (∃ t, exec (.jmp h target) s = .next t ∧ GoesTo s t h.loc target.toNat) ∧
      (∀ (pbit : BitVec 4) (neg : Bool), (l.prd.getLsbD pbit.toNat != neg) = true →
        ∃ t, exec (.brp h pbit neg target) s = .next t ∧ GoesTo s t h.loc target.toNat)) ∧
    (∀ (pbit : BitVec 4) (neg : Bool) (target : BitVec 11), (l.prd.getLsbD pbit.toNat != neg) = false →
      ∃ t, exec (.brp h pbit neg target) s = .next t ∧ GoesTo s t h.loc (l.pc + 1)) ∧
    (∀ lc : Fin 8, l.waiting = some lc → (x.loopCtr lc).count = 0 → ∃ t, exec (.waitlcResume h.loc) s = .next t ∧
      OnlyPicot s t h.loc.pic ∧ t.lg h.loc = { l with waiting := none, waited := 0 }) ∧
    (∀ lc : Fin 8, (x.loopCtr lc).timer = true → ∃ t, exec (.loopTimerExpiry h.loc.pic lc) s = .next t ∧
      OnlyPicot s t h.loc.pic ∧ t.picot h.loc.pic = x.setLoopCtr lc { x.loopCtr lc with count := 0 })

/-- R112, R119, R179, R181, R182: token and steering instructions of such a pricking. A token of the wrong kind, which is a
fault, and a full queue, which is a hold, have rules of their own. R131: one step of a running steering unit in the middle of
an item: SPLIT and MERGE move the head of the chosen input to the chosen output, which has room, and one flit fewer is left
of the item; SELECT takes the head of every enabled input and keeps the one of its port. -/
def Obligations.TokenAndSteeringResults : Prop :=
  (∀ (s : State) (h : CHead), Straight s h →
     let l := s.lg h.loc
     let p := h.loc.pic
     let x := s.picot p
     (∀ dir tok q, tok ≠ 0 → neighbour p dir = some q → FreeTokens s p q dir →
       ∃ t, exec (.tsendi h dir tok) s = .next t ∧ GoesTo s t h.loc (l.pc + 1) ∧ DrivesToken s t p q dir tok) ∧
     (∀ dir, ∃ t, exec (.tsendi h dir 0) s = .next t ∧ GoesTo s t h.loc (l.pc + 1) ∧ t.arr.beats = s.arr.beats) ∧
     (∀ dir gs q, let tok : BitVec 16 := (l.reg gs).extractLsb' 0 16
       tok ≠ 0 → tokenInvalid tok = false → neighbour p dir = some q → FreeTokens s p q dir →
       ∃ t, exec (.tsendg h dir gs) s = .next t ∧ GoesTo s t h.loc (l.pc + 1) ∧ DrivesToken s t p q dir tok) ∧
     (∀ (tq : Fin 8) (tok : BitVec 16), 0 < (x.tqueue tq).credit →
       ∃ t, exec (.tput h tq tok) s = .next t ∧ GoesTo s t h.loc (l.pc + 1) ∧
         ((t.picot p).tqueue tq).items = (x.tqueue tq).items ++ [tok]) ∧
     (∀ (tq : Fin 8) k ks, (x.tqueue tq).items = k :: ks →
       (∀ gd, ∃ t, exec (.tpop h gd tq) s = .next t ∧ GoesTo s t h.loc (l.pc + 1) ∧ ((t.picot p).tqueue tq).items = ks ∧
         Flies t h.loc 2 1 (.gp gd.toNat (k.setWidth 32))) ∧
       (fieldNat k 13 3 = 5 → ∃ t, exec (.tprd h tq) s = .next t ∧ GoesTo s t h.loc (l.pc + 1) ∧
         ((t.picot p).tqueue tq).items = ks ∧ Flies t h.loc 2 1 (.prds (k.extractLsb' 0 12))) ∧
       (fieldNat k 13 3 = 2 → ∀ lc, ∃ t, exec (.lctok h lc tq) s = .next t ∧ GoesTo s t h.loc (l.pc + 1) ∧
         ((t.picot p).tqueue tq).items = ks ∧ Flies t h.loc 2 1 (.lc lc
           { count := BitVec.ofNat 16 (if fieldNat k 0 12 = 0 then 4096 else fieldNat k 0 12), timer := false }))) ∧
     (∀ u : Fin 4, (x.unit u).mode ≠ 0 →
       (∃ t, exec (.steer h u true) s = .next t ∧ GoesTo s t h.loc (l.pc + 1) ∧
         (t.picot p).unit u = { x.unit u with stopPending := false, running := true }) ∧
       ∃ t, exec (.steer h u false) s = .next t ∧ GoesTo s t h.loc (l.pc + 1) ∧
         (t.picot p).unit u = { x.unit u with stopPending := true })) ∧
  (∀ (s : State) (p : Fin 1024) (u : Fin 4), s.hold.stopped = false →
     let x := s.picot p
     let y := x.unit u
     y.running = true → y.left ≠ 0 →
     let moves (i : Instr) (a b : Fin 16) := ∀ f fs, (x.queue a).items = f :: fs → 0 < (x.queue b).credit →
       ∃ t, exec i s = .next t ∧ OnlyPicot s t p ∧
         ((t.picot p).queue b).items = (if b = a then fs else (x.queue b).items) ++ [f] ∧
         (b ≠ a → ((t.picot p).queue a).items = fs) ∧
         (t.picot p).unit u = { y with left := y.left - 1, items := if y.left = 1 then y.items + 1 else y.items }
     (y.mode = 1 → moves (.steerSplitItem p u) (y.inQ 0) (y.outQ y.port)) ∧
     (y.mode = 2 → moves (.steerMergeItem p u) (y.inQ y.port) (y.outQ 0)) ∧
     (y.mode = 3 → ∀ i f fs, (List.range 4).filter y.inEn = [i] → i = y.port → (x.queue (y.inQ i)).items = f :: fs →
       0 < (x.queue (y.outQ 0)).credit →
       ∃ t, exec (.steerSelectItem p u) s = .next t ∧ OnlyPicot s t p ∧
         ((t.picot p).queue (y.outQ 0)).items = (if y.outQ 0 = y.inQ i then fs else (x.queue (y.outQ 0)).items) ++ [f] ∧
         (t.picot p).unit u = { y with left := y.left - 1, items := if y.left = 1 then y.items + 1 else y.items }))

/-- R149, R152, R202: an array in the hold issues no instruction; an M-slot instruction whose predicate is 0 writes nothing, and
those that read SRAM words still read them, with what an error in a word does (R111). -/
def Obligations.NothingIssuesInAHold : Prop :=
  (∀ (s : State) (i : Instr), s.hold.stopped = true → stitch i = true → exec i s = .next s) ∧
  (∀ (s : State) (i : Instr) (h : MHead), mSlotOf i = some h → s.predicate h = false → sramWordsOf i = [] → exec i s = .next s) ∧
  (∀ (s : State) (i : Instr) (h : MHead), mSlotOf i = some h → s.predicate h = false → s.hold.stopped = false →
    sramWordsOf i ≠ [] → exec i s = .next (s.sramCheck h.loc.pic (sramWordsOf i)).1) ∧
  (∀ (s : State) (p : Fin 1024) (ws : List Nat), CleanWords s p ws → s.sramCheck p ws = (s, true))

/-- R150: a result lands when its cycles are over, in the register that it names, and is no longer in flight; one that has cycles
left stays in flight with one fewer. -/
def Obligations.ResultsLand : Prop :=
  ∀ (s : State) (p : Fin 1024) (x : InFlight), (s.picot p).flight = [x] →
    let t := s.landPicot p
    let y := t.picot p
    (1 < x.left → y = { s.picot p with flight := [{ x with left := x.left - 1 }], lport := none, lanePort := [] }) ∧
    (x.left = 1 → y.flight = [] ∧ y.sramErr.map Prod.fst ⊆ (s.picot p).sramErr.map Prod.fst ∧
      (∀ q, q ≠ p.val → t.picot q = s.picot q) ∧
      match x.res with
      | .gp r v => SMap.get 0 (y.logical x.lg).gp r = v
      | .prds v => (y.logical x.lg).prd = v
      | .lc n c => y.loopCtr n = c
      | .sram w v => y.sramWord w = { gen := s.keyGen, word := v }
      | .swap => y.active = (s.picot p).loading ∧ y.loading = (s.picot p).active
      | .clearBank b n => y.nlogOf b = n ∧ y.bankTag b = false
      | .lanes v m val => ∀ i < 64, lane (SMap.get 0 y.vr v) i =
          if m.getLsbD i then lane val i else lane (SMap.get 0 (s.picot p).vr v) i
      | _ => True)

/-- R201 to R203, R205: a hold request of a running array stops it 8 cycles later, and a cancelling one gives those cycles back;
the last request to clear lets it resume 8 cycles later. R202: a request that clears leaves the list; with the last active
cause the array resumes 8 cycles later. -/
def Obligations.HoldResults : Prop :=
  (∀ (s : State) (cause : Fin 8) (src : HoldSrc), s.requested cause.val src = false →
     (cause.val ∈ [1, 2, 4, 5, 6, 7] →
       ∃ t, exec (.holdRequestDeferred cause src) s = .next t ∧ Raises s t cause.val src false ∧
         (s.hold.stopped = false → s.hold.stopIn = none → t.hold.stopIn = some 8 ∧ t.hold.cancel = s.hold.cancel)) ∧
     (cause.val ∈ [1, 3] →
       ∃ t, exec (.holdRequestCancelling cause src) s = .next t ∧ Raises s t cause.val src true ∧
         (s.hold.stopped = false → s.hold.stopIn = none → s.hold.cancel = none →
           t.hold.stopIn = some 8 ∧ t.hold.cancel = some 8)) ∧
     (cause.val ∉ s.hold.seen → cause.val ∈ [1, 3] →
       ∃ t, exec (.holdRequestCancelling cause src) s = .next t ∧ cause.val ∈ t.hold.seen ∧
         t.rd (Reg.ARY_HOLD_COUNT cause.val) = satInc (s.rd (Reg.ARY_HOLD_COUNT cause.val)))) ∧
  (∀ (s : State) (cause : Fin 8) (src : HoldSrc), s.requested cause.val src = true → cause.val ≠ 7 →
     ∃ t, exec (.holdCauseClear cause src) s = .next t ∧ t = { s with hold := t.hold } ∧
       (∀ r, r ∈ t.hold.reqs ↔ r ∈ s.hold.reqs ∧ ¬(r.cause = cause.val ∧ r.src = src)) ∧
       (t.hold.reqs = [] → t.hold.goIn = some 8) ∧ t.hold.stopped = s.hold.stopped)

/-- R122, R389: a bridge retry holds the array with cause BRIDGE and is counted; when the beat has come the request clears; a
beat that never comes is an UNCORRECTABLE error of the bridge. R206, R207: a deadlock is held in ARY_DEADLOCK, the first one
only, and is an UNCORRECTABLE error of the array. -/
def Obligations.BridgeAndDeadlockResults : Prop :=
  (∀ (s : State) (b : Fin 4),
     (s.requested 3 (.bridge b) = false → ∃ t, exec (.bridgeRetry b) s = .next t ∧ Raises s t 3 (.bridge b) true ∧
       t.rd (Reg.ERR_BRIDGE_RETRY b) = satInc (s.rd (Reg.ERR_BRIDGE_RETRY b))) ∧
     (s.requested 3 (.bridge b) = true → ∃ t, exec (.bridgeRetryComplete b) s = .next t ∧ t = { s with hold := t.hold } ∧
       ∀ r, r ∈ t.hold.reqs ↔ r ∈ s.hold.reqs ∧ ¬(r.cause = 3 ∧ r.src = .bridge b)) ∧
     exec (.bridgeRetryExhausted b) s = .next (s.uncorrectable 0x07 (BitVec.ofNat 64 (16 + b.val)))) ∧
  (∀ (s : State),
     (∀ (cause : Fin 8) (r : HoldReq), cause.val ∈ [1, 2, 3, 4] → s.arr.cycle < 64 → s.deadlockReq cause.val = some r →
       let w := s.deadlockWord cause.val r.src
       exec (.holdLimitDeadlock cause) s = .next (s.declareDeadlock w) ∧ fieldNat w 28 4 = cause.val ∧ r ∈ s.hold.reqs ∧
       r.cause = cause.val) ∧
     (∀ (loc : At) (lc : Fin 8), (s.lg loc).waiting = some lc → ((s.picot loc.pic).loopCtr lc).timer = false →
       (s.lg loc).waitAt < 64 → ∃ w, exec (.waitlcDeadlock loc) s = .next (s.declareDeadlock w) ∧ fieldNat w 28 4 = 8 ∧
         fieldNat w 23 5 = loc.pic.val / 32 ∧ fieldNat w 18 5 = loc.pic.val % 32 ∧ fieldNat w 6 6 = (s.lg loc).waitAt ∧
         fieldNat w 3 3 = loc.lg.val) ∧
     (∀ w, s.rd Reg.ARY_DEADLOCK = 0 →
       s.declareDeadlock w = (s.wr Reg.ARY_DEADLOCK w).uncorrectable 0x09 (w.setWidth 64)) ∧
     (∀ w, s.rd Reg.ARY_DEADLOCK ≠ 0 → s.declareDeadlock w = s.uncorrectable 0x09 ((s.rd Reg.ARY_DEADLOCK).setWidth 64)))

/-- R135: FILL flits of one link at a picot whose fill machinery waits for a header on it, or is in a body; fills of other links
are as they were. R136, R137, R139: the last flit of a
fill makes the slot the shadow of its logical pricking, or the slot that it follows, or binds it with its registers at zero
and its program counter at bundle 0. -/
def Obligations.FillResults : Prop :=
  (∀ (s : State) (p : Fin 1024) (data : BitVec 256) (last : Bool),
     let x := s.picot p
     let k : Fin 8 := (field data 10 3).toFin
     let lg : Fin 8 := (field data 13 3).toFin
     let mode : BitVec 2 := field data 16 2
     let others (y : Picot) := ∀ e, e.1 ≠ x.fillLink → (e ∈ y.fills ↔ e ∈ x.fills)
     (State.filling x = none → fieldNat data 0 5 = p.val % 32 → fieldNat data 5 5 = p.val / 32 → mode ≠ 3 → fieldNat data 32 16 ≠ 0 →
       fieldNat data 18 14 = 0 → fieldNat data 48 16 = 0 → fieldNat data 64 192 = 0 → (x.slot k).kind = .free →
       ∃ t, exec (.fillReceive p data last) s = .next t ∧ OnlyPicot s t p ∧
         others (t.picot p) ∧ State.filling (t.picot p) =
           some { slot := k, logical := lg, mode := mode, left := fieldNat data 32 16, index := 0, discard := false }) ∧
     (State.filling x = none → ¬(fieldNat data 0 5 = p.val % 32 ∧ fieldNat data 5 5 = p.val / 32) → fieldNat data 32 16 ≠ 0 →
       ∃ t, exec (.fillReceive p data last) s = .next t ∧ OnlyPicot s t p ∧ ∃ f, others (t.picot p) ∧
         t.picot p = { x with fills := (t.picot p).fills } ∧
         State.filling (t.picot p) = some f ∧ f.discard = true ∧ f.left = fieldNat data 32 16) ∧
     (∀ f, State.filling x = some f → f.discard = false → 1 < f.left →
       ∃ t, exec (.fillReceive p data last) s = .next t ∧ OnlyPicot s t p ∧ others (t.picot p) ∧
         State.filling (t.picot p) = some { f with left := f.left - 1, index := f.index + 1 } ∧
         SMap.get Stored.blank ((t.picot p).slot f.slot).flits f.index = { gen := s.keyGen, word := data } ∧
         ∀ i, i ≠ f.index → SMap.get Stored.blank ((t.picot p).slot f.slot).flits i =
           SMap.get Stored.blank (x.slot f.slot).flits i) ∧
     (∀ f, State.filling x = some f → f.discard = true → 1 < f.left →
       ∃ t, exec (.fillReceive p data last) s = .next t ∧ OnlyPicot s t p ∧ others (t.picot p) ∧
         t.picot p = { x with fills := (t.picot p).fills } ∧
         State.filling (t.picot p) = some { f with left := f.left - 1, index := f.index + 1 })) ∧
  (∀ (s : State) (p : Fin 1024) (data : BitVec 256) (last : Bool) (f : FillIn),
     let x := s.picot p
     State.filling x = some f → f.discard = false → f.left = 1 →
     ∃ t, exec (.fillReceive p data last) s = .next t ∧ (∀ q, q ≠ p.val → t.picot q = s.picot q) ∧
       State.filling (t.picot p) = none ∧
       let y := t.picot p
       let l := y.logical f.logical
       (f.mode = 0 → (y.slot f.slot).kind = .shadow ∧ l.shadow = some f.slot) ∧
       (f.mode = 1 → l.follow = some f.slot) ∧
       (f.mode = 2 → (y.slot f.slot).kind = .bound ∧ l.slot = some f.slot ∧ l.pc = 0 ∧ l.gp = [] ∧ l.prd = 0 ∧ l.loops = [] ∧
         l.ended = false ∧
         ∀ j, (x.logical f.logical).slot = some j → j ≠ f.slot → (y.slot j).kind = .free))

/-- R137: once the old pricking has ended, the one that follows it is bound in its place and the old slot is free. R139, R140:
arming a flip for a round still to come, where every selected pricking has a shadow, sets ARMED; at that round the bound and
the shadow prickings of every selected logical change places, everywhere at once. -/
def Obligations.FollowAndFlipResults : Prop :=
  (∀ (s : State) (loc : At) (k : Fin 8),
     let l := s.lg loc
     l.follow = some k →
     (l.ended = true ∨ l.slot = none →
       ∃ t, exec (.followBind loc) s = .next t ∧ (∀ q, q ≠ loc.pic.val → t.picot q = s.picot q) ∧
         (t.lg loc).slot = some k ∧ (t.lg loc).follow = none ∧ (t.lg loc).pc = 0 ∧ (t.lg loc).gp = [] ∧
         ((t.picot loc.pic).slot k).kind = .bound ∧
         ∀ j, l.slot = some j → j ≠ k → ((t.picot loc.pic).slot j).kind = .free) ∧
     (l.ended = false → l.slot ≠ none → exec (.followBind loc) s = .next s)) ∧
  (∀ (s : State),
     (∀ (m : Master) (hi : Word), s.answers (Reg.ARY_FLIP + 4) = true → s.rdB Reg.ARY_FLIP_STATUS 0 = false →
       s.arr.round.toNat < (hi ++ s.rd Reg.ARY_FLIP).toNat →
       (∀ l < 8, bit (s.rd Reg.ARY_FLIP_CFG) l = true → s.lacksShadow l = false) →
       ∃ t, exec (.flipArm m hi) s = .next t ∧
         OnlyRegs { s with arr := { s.arr with flip := (hi ++ s.rd Reg.ARY_FLIP, s.rd Reg.ARY_FLIP_CFG) } } t
           [Reg.ARY_FLIP + 4, Reg.ARY_FLIP_STATUS] ∧
         t.rd (Reg.ARY_FLIP + 4) = hi ∧ t.rdB Reg.ARY_FLIP_STATUS 0 = true) ∧
     (s.rdB Reg.ARY_FLIP_STATUS 0 = true → (s.arr.picots.map Prod.fst).Nodup →
       ∃ t, exec .flipExecute s = .next t ∧ t.rdB Reg.ARY_FLIP_STATUS 0 = false ∧
         t.rdF Reg.ARY_FLIP_STATUS 16 16 = min (s.rdF Reg.ARY_FLIP_STATUS 16 16 + 1) 65535 ∧
         ∀ (p : Fin 1024) (l k : Fin 8), p.val ∈ s.arr.picots.map Prod.fst →
           ((s.picot p).logical l).shadow = some k →
           let x := (s.picot p).logical l
           let y := (t.picot p).logical l
           (bit s.arr.flip.2 l.val = true → y.slot = some k ∧ y.shadow = x.slot ∧ y.pc = 0 ∧ y.gp = []) ∧
           (bit s.arr.flip.2 l.val = false → y = x)) ∧
     (s.rdB Reg.ARY_FLIP_STATUS 0 = false → exec .flipExecute s = .next s))

/-- R145, R144, R379, R380: a debug read is served in a free fill-port cycle, masked in a protected context; a privileged write
of ARY_REPAIR_CMD with GO burns a row whose spare is unused; self-test reports the picots that failed. -/
def Obligations.RepairAndDebugResults : Prop :=
  ∀ (s : State),
    (∀ (m : Master) (p : Fin 1024) (v : Word), s.answers (Reg.PCT_PEEK_ADDR p) = true →
      ∃ t, exec (.peekStart m p v) s = .next t ∧ p ∈ t.peeks ∧ t.rdF (Reg.PCT_PEEK_STATUS p) 0 2 = 0) ∧
    (∀ (p : Fin 1024), p ∈ s.peeks → s.isProtected = true →
      ∃ t, exec (.peekComplete p) s = .next t ∧ t.rd Reg.SEC_MASKED = satInc (s.rd Reg.SEC_MASKED) ∧
        t.rdF (Reg.PCT_PEEK_STATUS p) 0 2 = 3 ∧ ∀ i < 8, t.rd (Reg.PCT_PEEK_DATA p i) = 0x4D534B44) ∧
    (∀ (p : Fin 1024), let a := s.rd (Reg.PCT_PEEK_ADDR p)
      p ∈ s.peeks → s.isProtected = false → fieldNat a 30 2 = 0 → fieldNat a 0 17 < 98304 → CleanWords s p [fieldNat a 0 17] →
      ∃ t, exec (.peekComplete p) s = .next t ∧ t.rdF (Reg.PCT_PEEK_STATUS p) 0 2 = 1 ∧ t.arr = s.arr ∧
        ∀ i < 8, t.rd (Reg.PCT_PEEK_DATA p i) = (s.sramRead p (fieldNat a 0 17)).extractLsb' (32 * i) 32) ∧
    (∀ (m : Master) (v : Word), s.privileged m = true → s.answers Reg.ARY_REPAIR_CMD = true → bit v 31 = true →
      fieldNat v 0 5 < 16 → ¬s.fuse.burned (State.repairRow v) →
      ∃ t, exec (.repairBurn m v) s = .next t ∧ t.rdB Reg.ARY_REPAIR_STATUS 0 = true ∧ t.fuse.burned (State.repairRow v) ∧
        fieldNat (SMap.get 0x1F t.fuse.repair (State.repairRow v)) 0 5 = fieldNat v 0 5 ∧
        ∀ row, row ≠ State.repairRow v → SMap.get 0x1F t.fuse.repair row = SMap.get 0x1F s.fuse.repair row) ∧
    (∀ (m : Master) (v : Word), s.privileged m = true → s.answers Reg.ARY_REPAIR_CMD = true → bit v 31 = true →
      fieldNat v 0 5 < 16 → s.fuse.burned (State.repairRow v) →
      ∃ t, exec (.repairBurn m v) s = .next t ∧ t.rdB Reg.ARY_REPAIR_STATUS 1 = true ∧ t.fuse = s.fuse)

/-- R126, R176, R199, R204: a controller takes the request that a tap has put on the lane, or, where none is on it, the tap's oldest:
a read waits for its beats; a write's beats leave the SRAM words of their places and wait out the commit lag. A read beat that
comes to its tap is on its way into the eight SRAM words of its place in the transfer. -/
def Obligations.MemoryLaneResults : Prop :=
  ∀ (s : State) (p : Fin 1024), s.hold.stopped = false →
    let x := s.picot p
    let asked (b : LaneBeat) : Bool := b.out && b.req && decide (b.tap = p)
    let coming (b : LaneBeat) : Bool := !b.out && decide (b.tap = p)
    let lands (t : State) (w : Nat) (d : BitVec 2048) : Prop :=
      ∀ i < 8, Flies t { pic := p, lg := 0 } 3 1 (.sram (w + i) (d.extractLsb' (256 * i) 256))
    (∀ r rs, s.arr.lanes.find? asked = none → x.laneOut = r :: rs → r.write = false →
      ∃ t, exec (.memlaneRequest p) s = .next t ∧ OnlyPicot s t p ∧ (t.picot p).laneOut = rs ∧
        (t.picot p).laneIn = x.laneIn ++ [{ r with beat := 0, due := s.laneCtl + 1, taken := s.cycleIndex, data := [] }]) ∧
    (∀ b, s.arr.lanes.find? asked = some b → b.bits.getLsbD 48 = false →
      ∃ t r, exec (.memlaneRequest p) s = .next t ∧ t.arr.lanes = s.arr.lanes.erase b ∧ (t.picot p).laneIn = x.laneIn ++ [r] ∧
        r.addr = BitVec.ofNat 32 b.addr ∧ r.write = false ∧ r.word = b.word ∧ r.due = s.laneCtl + 1 ∧
        r.len = (if fieldNat b.bits 32 16 = 0 then 65536 else fieldNat b.bits 32 16)) ∧
    (∀ r rs, s.arr.lanes.find? asked = none → x.laneOut = r :: rs → r.write = true → r.len = r.beat + 1 → x.lport = none →
      CleanWords s p ((List.range 8).map (fun i => r.word + 8 * r.beat + i)) →
      ∃ t d, exec (.memlaneRequest p) s = .next t ∧ (t.picot p).laneOut = rs ∧
        t.arr.stores = s.arr.stores ++ [{ wait := 8, line := r.line p r.beat, data := d }] ∧
        ∀ i < 8, d.extractLsb' (256 * i) 256 = s.sramRead p (r.word + 8 * r.beat + i)) ∧
    (∀ b, s.arr.lanes.find? coming = some b → x.lport = none →
      ∃ t, exec (.memlaneReadBeat p) s = .next t ∧ t.arr.lanes = s.arr.lanes.erase b ∧ lands t b.word b.bits) ∧
    (∀ r rs d ds, s.arr.lanes.find? coming = none → x.laneIn = r :: rs → r.data = some d :: ds → x.lport = none →
      s.img.hbmKey = none →
      ∃ t, exec (.memlaneReadBeat p) s = .next t ∧ OnlyPicot s t p ∧ lands t (r.word + 8 * r.beat) d ∧
        (t.picot p).laneIn = (if r.beat + 1 < r.len then { r with beat := r.beat + 1, due := 1, data := ds } :: rs else rs)) ∧
    (∀ (y : LaneStore) (ys : List LaneStore), s.arr.stores = [y] → y.wait = 1 → RoomToWrite s →
      (s.storesCycle.line y.line).data = y.data ∧ s.storesCycle.arr.stores = [] ∧
        ∀ l, l ≠ y.line → s.storesCycle.line l = s.line l)

/-- R26, R27, R127, R323: an HBM controller serves the array before the host, and one that cannot serve it in its cycle asks for
a REFRESH hold, which clears when it is served; otherwise, and always in DDR5, the first waiting request of the lowest class
is served: a whole line is written, or bytes are read and go to the host. R359, R387, R388: patrol, enabled at phase READY,
leaves a good line alone, writes a corrected one back, and enters one that cannot be corrected in the lost-line table; a
write counter at its limit is recorded once, as KEY_EXHAUSTED, an UNCORRECTABLE error. -/
def Obligations.MemoryServiceResults : Prop :=
  (∀ (s : State),
     let whole (c : Nat) (r : MemReq) (bs : List Byte) : Prop := State.firstServed (SMap.get [] s.mem.queue c) = some r ∧
       r.data = some bs ∧ bs.length = 256 ∧ r.dpa % 256 = 0 ∧ RoomToWrite s
     let stored (c : Nat) (r : MemReq) (bs : List Byte) (t : State) : Prop :=
       (t.line (r.dpa / 256)).data = BitVec.ofNat 2048 (ofBytes bs) ∧
       SMap.get [] t.mem.queue c = (SMap.get [] s.mem.queue c).erase r ∧ ∀ l, l ≠ r.dpa / 256 → t.line l = s.line l
     let good (c : Nat) (r : MemReq) : Prop := State.firstServed (SMap.get [] s.mem.queue c) = some r ∧
       r.data = none ∧ 0 < r.len ∧ r.dpa % 256 + r.len ≤ 256 ∧ r.dpa / 256 ∉ s.mem.lost ∧ (s.line (r.dpa / 256)).err = 0
     let sent (c : Nat) (r : MemReq) (t : State) : Prop :=
       SMap.get [] t.mem.queue c = (SMap.get [] s.mem.queue c).erase r ∧ t.mem.lines = s.mem.lines ∧
       t.out = s.out ++ [.readData .f0 (((bytesOf 256 (if (s.line (r.dpa / 256)).version = 0 then 0
         else (s.line (r.dpa / 256)).data)).drop (r.dpa % 256)).take r.len)]
     (∀ (c : Fin 12) bus b, s.arrayBeat c = some b → s.requested 2 (.hbm c) = false →
       ∃ t, exec (.hbmRequestServe c true bus) s = .next t ∧ Raises s t 2 (.hbm c) false) ∧
     (∀ (c : Fin 12) p i r d (hp : p < 1024), s.arrayBeat c = some (p, i, r) →
       s.readLine (r.line ⟨p, hp⟩ r.unserved) = (s, some d) →
       ∃ t, exec (.hbmRequestServe c false 0) s = .next t ∧ t.requested 2 (.hbm c) = false ∧
         (t.picot p).laneIn = (s.picot p).laneIn.set i { r with data := r.data ++ [some d] }) ∧
     (∀ (c : Fin 12) late r bs, s.arrayBeat c = none → whole c r bs →
       ∃ t, exec (.hbmRequestServe c late 0) s = .next t ∧ stored c r bs t) ∧
     (∀ (c : Fin 12) late r, s.arrayBeat c = none → good c r →
       ∃ t, exec (.hbmRequestServe c late 0) s = .next t ∧ sent c r t) ∧
     (∀ (c : Fin 12) late bus, s.arrayBeat c = none → SMap.get [] s.mem.queue c = [] →
       exec (.hbmRequestServe c late bus) s = .next s) ∧
     (∀ (c : Fin 8) r bs, whole (16 + c.val) r bs →
       ∃ t, exec (.ddr5RequestServe c 0) s = .next t ∧ stored (16 + c.val) r bs t) ∧
     (∀ (c : Fin 8) r, good (16 + c.val) r →
       ∃ t, exec (.ddr5RequestServe c 0) s = .next t ∧ sent (16 + c.val) r t) ∧
     (∀ (c : Fin 8) bus, SMap.get [] s.mem.queue (16 + c.val) = [] → exec (.ddr5RequestServe c bus) s = .next s)) ∧
  (∀ (q : List MemReq) (r : MemReq), State.firstServed q = some r → r ∈ q ∧ ∀ x ∈ q, r.cls ≤ x.cls) ∧
  (∀ (s : State) (line : BitVec 36),
     let l := line.toNat
     let x := s.line l
     let c := checkLine x.err
     let on := s.rdB Reg.MEM_PATROL_CFG 31 = true ∧ s.phase = 7 ∧ s.backed (256 * l) = true ∧
       SMap.get [] s.mem.queue (controllerOf l) = []
     (on → l ∉ s.mem.lost → x.err = 0 → exec (.patrolRead line) s = .next s) ∧
     (on → l ∉ s.mem.lost → c.bad = none → c.fixed ≠ [] →
       ∃ t, exec (.patrolRead line) s = .next t ∧ t.line l = { x with err := c.left } ∧ t.mem.lost = s.mem.lost) ∧
     (∀ j, on → l ∉ s.mem.lost → c.bad = some j → s.mem.lost.length < 256 →
       ∃ t, exec (.patrolRead line) s = .next t ∧ t.mem.lost = s.mem.lost ++ [l] ∧ t.line l = x) ∧
     (on → l ∈ s.mem.lost → exec (.patrolRead line) s = .next s) ∧
     (s.rdB Reg.MEM_PATROL_CFG 31 = false ∨ s.phase ≠ 7 ∨ s.backed (256 * l) = false → exec (.patrolRead line) s = .next s)) ∧
  (∀ (s : State),
     (∀ c : Nat, 2 ^ 56 - 2 ^ 32 ≤ s.verOf c → s.rdB Reg.SEC_CTX_STATUS 11 = false →
       let u := s.wrB Reg.SEC_CTX_STATUS 11 true
       exec .keyExhausted s = .next (u.uncorrectable 0x0B 0) ∧ u.rdB Reg.SEC_CTX_STATUS 11 = true ∧ u.ctx = s.ctx) ∧
     (s.rdB Reg.SEC_CTX_STATUS 11 = true → exec .keyExhausted s = .next s) ∧
     ((∀ e ∈ s.mem.ctr, e.2 < 2 ^ 56 - 2 ^ 32) → exec .keyExhausted s = .next s))

/-- R357 to R359, R388: a line reads as it was written, its version is its controller's write counter, which moves on, it carries the
MAC of its ciphertext, other lines are as they were, and the store of lines keeps its canonical form. -/
def Obligations.MemoryReadsBack : Prop :=
  ∀ (s : State) (l : Nat) (d : BitVec 2048), 0 < s.verOf (controllerOf l) → RoomToWrite s →
    let t := s.writeLine l d
    t.readLine l = (t, some d) ∧ (t.line l).version = BitVec.ofNat 56 (s.verOf (controllerOf l)) ∧
    (t.line l).mac = lineMac s.keyGen l (t.line l).version (lineCipher s.keyGen l (t.line l).version d) ∧
    t.verOf (controllerOf l) = s.verOf (controllerOf l) + 1 ∧ l ∉ t.mem.lost ∧
    (∀ k, k ≠ l → t.line k = s.line k) ∧
    (SMap.wf (fun _ => Line.blank) s.mem.lines = true → SMap.wf (fun _ => Line.blank) t.mem.lines = true)

/-- R8, R324, R325, R327, R329: a 32-bit write of a register that has no rule of its own replaces its RW bits, clears the W1C bits
that are written 1, and changes nothing else; a 64-bit write of a pair writes its low word, then its high word, and is counted
once. R326: a read of a pair's low word latches its high word for the master, and the read of the high word that follows gives
the latched word, whatever the pair holds by then; a read changes no register. R319, R345: a word of the MSI-X table in BAR2 of
function 0 is written and read; a vector that is raised under its mask bit is pending, and is sent when the mask bit clears;
any other is sent at once. The table's layout and its masking are those of PCI Express (log entry 88). -/
def Obligations.RegisterAccessResults : Prop :=
  (∀ (s : State) (m : Master) (off : BitVec 25) (v : BitVec 64) (row : RegRow) (h : Nat), regAt off.toNat = some (row, h) →
     (row.priv = true → s.privileged m = true) → s.answers off.toNat = true →
     (off.toNat % 4 = 0 → s.writeLow m off.toNat (v.extractLsb' 0 32) = none → s.writeHigh m off.toNat (v.extractLsb' 0 32) = none →
       ∃ t, exec (.registerWrite m ⟨false, off⟩ .b32 v) s = .next t ∧ OnlyRegs s t [s.wordKey off.toNat] ∧
         t.rd (s.wordKey off.toNat) = mergeWrite (row.rwMask h) (row.w1cMask h) (s.rd (s.wordKey off.toNat)) (v.extractLsb' 0 32)) ∧
     (off.toNat % 8 = 0 → row.pair = true → h = 0 →
       let lo := s.writeReg m off.toNat (v.extractLsb' 0 32)
       let hi := lo.writeReg m (off.toNat + 4) (v.extractLsb' 32 32)
       (lo.rd Reg.ERR_ACCESS = s.rd Reg.ERR_ACCESS → exec (.registerWrite m ⟨false, off⟩ .b64 v) s = .next hi) ∧
       (lo.rd Reg.ERR_ACCESS ≠ s.rd Reg.ERR_ACCESS →
         ∃ t, exec (.registerWrite m ⟨false, off⟩ .b64 v) s = .next t ∧ OnlyRegs hi t [Reg.ERR_ACCESS, Reg.ERR_ACCESS_INFO] ∧
           t.rd Reg.ERR_ACCESS = lo.rd Reg.ERR_ACCESS ∧ t.rd Reg.ERR_ACCESS_INFO = lo.rd Reg.ERR_ACCESS_INFO))) ∧
  (∀ (s : State) (m : Master) (off : BitVec 25) (row : RegRow), regAt off.toNat = some (row, 0) → row.pair = true →
     off.toNat % 8 = 0 → row.priv = false →
     (∃ t, exec (.lowWordRead m ⟨false, off⟩ .b32) s = .next t ∧ t = { s with latches := t.latches, out := t.out } ∧
       t.out = s.out ++ [.readData m (bytesOf 4 (s.readLatched m off.toNat))] ∧
       t.latch m = { low := some off.toNat, word := s.readable m (off.toNat + 4) }) ∧
     (∀ (u : State), (u.latch m).low = some off.toNat → u.readLatched m (off.toNat + 4) = (u.latch m).word) ∧
     (∃ t, exec (.lowWordRead m ⟨false, off⟩ .b64) s = .next t ∧ t = { s with latches := t.latches, out := t.out } ∧
       t.out = s.out ++ [.readData m (bytesOf 4 (s.readable m off.toNat) ++ bytesOf 4 (s.readable m (off.toNat + 4)))]) ∧
     (s.answers off.toNat = true → s.readable m off.toNat = s.readReg off.toNat)) ∧
  (∀ (s : State) (n : Fin 64) (i : Fin 4) (v : BitVec 64),
     let key := Reg.msix n i
     let off : BitVec 25 := BitVec.ofNat 25 (0x1_0000 + 16 * n.val + 4 * i.val)
     let w : Word := v.extractLsb' 0 32
     let waits := s.rdB (Reg.msixPba n) (n.val % 32)
     (∃ t, exec (.registerWrite .f0 ⟨true, off⟩ .b32 v) s = .next t ∧ t = { s with regs := t.regs, out := t.out } ∧
       (∀ k, k ∉ [key, Reg.msixPba n] → t.rd k = s.rd k) ∧
       t.rd key = (if i.val = 0 then w &&& 0xFFFF_FFFC else if i.val = 3 then w &&& 1 else w) ∧
       (waits = true → t.rdB (Reg.msix n 3) 0 = false → t.rdB (Reg.msixPba n) (n.val % 32) = false ∧
         t.out = s.out ++ [.msix (BitVec.ofNat 6 n.val) (t.rd64 (Reg.msix n 0)) (t.rd (Reg.msix n 2))]) ∧
       (waits = false ∨ t.rdB (Reg.msix n 3) 0 = true → t.rd (Reg.msixPba n) = s.rd (Reg.msixPba n) ∧ t.out = s.out)) ∧
     exec (.lowWordRead .f0 ⟨true, off⟩ .b32) s = .next (s.emit (.readData .f0 (bytesOf 4 (s.rd key))))) ∧
  (∀ (s : State) (m : Master) (off : BitVec 25) (w : Width) (v : BitVec 64), m ≠ .f0 →
     exec (.registerWrite m ⟨true, off⟩ w v) s = .next s ∧ exec (.lowWordRead m ⟨true, off⟩ w) s = .next s) ∧
  (∀ (s : State) (v : BitVec 6), let t := s.raise v
     (s.rdB (Reg.msix v.toNat 3) 0 = false →
       t = { s with out := s.out ++ [.msix v (s.rd64 (Reg.msix v.toNat 0)) (s.rd (Reg.msix v.toNat 2))] }) ∧
     (s.rdB (Reg.msix v.toNat 3) 0 = true → OnlyRegs s t [Reg.msixPba v.toNat] ∧
       t.rdB (Reg.msixPba v.toNat) (v.toNat % 32) = true))

/-- R325, R329: an access wider than 64 bits, a 64-bit access that is not a pair's, or an access off its alignment ends in a
completer abort; a narrow write, a write of a P register without privilege and a write of an offset that no table names have
no effect; each is counted, and captured while VALID is 0. R325: which accesses abort. -/
def Obligations.AccessViolations : Prop :=
  (∀ (s : State) (m : Master) (off : BitVec 25) (v : BitVec 64),
     let counted (k : Nat) (t : State) := t.rd Reg.ERR_ACCESS = satInc (s.rd Reg.ERR_ACCESS) ∧
       (s.rdB Reg.ERR_ACCESS_INFO 31 = false → fieldNat (t.rd Reg.ERR_ACCESS_INFO) 28 4 = 8 + k ∧
         fieldNat (t.rd Reg.ERR_ACCESS_INFO) 26 2 = masterNum m ∧ fieldNat (t.rd Reg.ERR_ACCESS_INFO) 0 25 = off.toNat) ∧
       (s.rdB Reg.ERR_ACCESS_INFO 31 = true → t.rd Reg.ERR_ACCESS_INFO = s.rd Reg.ERR_ACCESS_INFO)
     let only (t : State) := ∀ k, k ∉ [Reg.ERR_ACCESS, Reg.ERR_ACCESS_INFO] → t.rd k = s.rd k
     (∀ w wr k, abortKind off.toNat w = some k →
       ∃ t, exec (.wideOrUnalignedAccess m off w wr v) s = .next t ∧ t = { s with regs := t.regs, out := s.out ++ [.abort m] } ∧
         counted k t ∧ only t) ∧
     (∀ w k, abortKind off.toNat w = some k →
       ∃ t, exec (.registerWrite m ⟨false, off⟩ w v) s = .next t ∧ t = { s with regs := t.regs, out := s.out ++ [.abort m] } ∧
         counted k t ∧ only t) ∧
     (∀ w, w ∈ [Width.b8, Width.b16] → abortKind off.toNat w = none → (regAt (off.toNat - off.toNat % 4)).isSome = true →
       ∃ t, exec (.registerWrite m ⟨false, off⟩ w v) s = .next t ∧ t = { s with regs := t.regs } ∧ counted 0 t ∧ only t) ∧
     (∀ row h, regAt off.toNat = some (row, h) → row.priv = true → s.privileged m = false → off.toNat % 4 = 0 →
       ∃ t, exec (.registerWrite m ⟨false, off⟩ .b32 v) s = .next t ∧ t = { s with regs := t.regs } ∧ counted 3 t ∧ only t) ∧
     (regAt off.toNat = none → off.toNat % 4 = 0 →
       ∃ t, exec (.registerWrite m ⟨false, off⟩ .b32 v) s = .next t ∧ t = { s with regs := t.regs } ∧ counted 5 t ∧ only t)) ∧
  (∀ off : Nat,
     abortKind off .wider = some 1 ∧ (pairLow off = false → abortKind off .b64 = some 1) ∧
     (off % 8 ≠ 0 → abortKind off .b64 ≠ none) ∧ (off % 4 ≠ 0 → abortKind off .b64 = some 1) ∧
     (off % 4 ≠ 0 → abortKind off .b32 = some 2) ∧
     (off % 2 ≠ 0 → abortKind off .b16 = some 2) ∧ abortKind off .b8 = none ∧ (off % 4 = 0 → abortKind off .b32 = none) ∧
     (pairLow off = true → off % 8 = 0 → abortKind off .b64 = none))

/-- R20, R34, R402, R403: thermal samples are counted, ten hot ones ask for the next slower step and a thousand cool ones for the
next faster one that FASTEST allows; a step change begins at a reference edge and holds the array with cause STEP until every
island has relocked, 200 reference cycles later. R404:
below every limit a check does nothing; from 110 °C of logic or 100 °C of HBM on it is a FATAL error, and from 125 °C on
THERMTRIP_L is driven. -/
def Obligations.ThrottleResults : Prop :=
  (∀ (s : State), s.legendUp = true →
     (∀ tl th p : BitVec 16, ∃ t, exec (.thermalSample tl th p) s = .next t ∧
       t = { s with regs := t.regs, boot := t.boot } ∧ (∀ k, k ∉ [Reg.HLT_TEMP, Reg.HLT_POWER] → t.rd k = s.rd k) ∧
       t.rd Reg.HLT_TEMP = th ++ tl ∧ t.rdF Reg.HLT_POWER 0 16 = p.toNat ∧
       (State.isHot tl (s.rd Reg.HLT_THERM_CFG) = true → t.boot.hot = s.boot.hot + 1) ∧
       (State.isHot tl (s.rd Reg.HLT_THERM_CFG) = false → State.isHot th (s.rd Reg.HLT_HBM_CFG) = false →
         p.toNat < fieldNat (s.rd Reg.HLT_POWER_CFG) 16 16 → t.boot.hot = 0)) ∧
     (10 ≤ s.boot.hot → s.stepCode < 3 →
       exec .hotSampleCountExpiry s = .next { s with boot := { s.boot with target := some (s.stepCode + 1) } }) ∧
     (1000 ≤ s.boot.cool → s.stepCode ≠ 0 → s.fastest ≤ s.stepCode - 1 →
       exec .coolSampleCountExpiry s = .next { s with boot := { s.boot with target := some (s.stepCode - 1) } }) ∧
     (1000 ≤ s.boot.cool → s.stepCode ≠ 0 → s.stepCode - 1 < s.fastest →
       ∃ t, exec .coolSampleCountExpiry s = .next t ∧ OnlyRegs s t [Reg.HLT_STATUS] ∧ t.rdB Reg.HLT_STATUS 0 = true) ∧
     (∀ (m : Master) (v : Word), s.answers Reg.HLT_STEP_CAP = true →
       ∃ t, exec (.stepCapWrite m v) s = .next t ∧ t.fastest = fieldNat v 0 2 ∧ t.rdB Reg.HLT_STATUS 0 = false ∧
         t.boot.target = if s.stepCode < fieldNat v 0 2 then some (s.stepCode + 1) else s.boot.target) ∧
     (∀ n, s.boot.target = some n → n < 4 → n ≠ s.stepCode → s.changing = false → s.now % 180 = 0 →
       ∃ t, exec .stepChangeBegin s = .next t ∧ t.hold.stopped = true ∧ t.changing = true ∧ t.stepCode = n ∧
         t.boot.target = none ∧ t.requested 5 .legend = true ∧ t.boot.relock = some (t.now + 36000)) ∧
     (s.now % 180 ≠ 0 → exec .stepChangeBegin s = .next s) ∧
     (s.changing = true → s.boot.waiting = none → s.img.streams = [] → s.fastest ≤ s.stepCode → s.requested 5 .legend = true →
       ∃ t, exec .islandRelockComplete s = .next t ∧ t.changing = false ∧ t.stepCode = s.stepCode ∧
         t.requested 5 .legend = false ∧
         t.rdF Reg.GLB_CLK_STATUS 16 16 = min (s.rdF Reg.GLB_CLK_STATUS 16 16 + 1) 65535 ∧
         (t.hold.reqs = [] → t.hold.goIn = some 8))) ∧
  (∀ (s : State) (tl th : BitVec 16),
     (tl.toInt < 1760 → th.toInt < 1600 → exec (.thermalTripCheck tl th) s = .next s) ∧
     (1760 ≤ tl.toInt → tl.toInt < 2000 → th.toInt < 1600 →
       exec (.thermalTripCheck tl th) s = .next (s.fatal 0x0E (tl.setWidth 64))) ∧
     (tl.toInt < 1760 → 1600 ≤ th.toInt → th.toInt < 2000 →
       exec (.thermalTripCheck tl th) s = .next (s.fatal 0x0E (th.setWidth 64 ||| 0x10000))) ∧
     (2000 ≤ tl.toInt → th.toInt < 1600 →
       let u := s.fatal 0x0E (tl.setWidth 64)
       u.boot.thermtrip = false →
       ∃ t, exec (.thermalTripCheck tl th) s = .next t ∧ t.boot.thermtrip = true ∧ t.out = u.out ++ [.thermtrip]))

/-- R415, R421, R422, R440: a COLD reset returns every register to its reset value but GLB_RESET_STATUS and the power-good bits
of GLB_POWER_STATUS, keeps fuses, flash, monitors and the lines of memory, and drives PPS_OUT and the trigger outputs low; a rail
outside its tolerance for long starts
one, and a short excursion is recorded. -/
def Obligations.ColdResetResults : Prop :=
  ∀ (s : State), s.boot.porLow = false →
    (∀ (cause : Fin 3) (m : Master) (v : Word), cause.val ≠ 2 ∨ (s.privileged m = true ∧ fieldNat v 16 16 = 0x9E37 ∧ bit v 0 = true) →
      ∃ t, exec (.coldReset cause m v) s = .next t ∧
        (∀ k, k ∉ [Reg.GLB_RESET_STATUS, Reg.GLB_POWER_STATUS] → t.rd k = resetWord k) ∧
        t.rd Reg.GLB_RESET_STATUS = BitVec.ofNat 32 cause.val ∧ t.boot.porLow = decide (cause.val = 1) ∧
        t.hold = Hold.reset ∧ t.log.entries = [] ∧ t.keyGen = 0 ∧ t.img = Image.none ∧ t.timeline = 0 ∧
        t.fuse = s.fuse ∧ t.flash = s.flash ∧ t.health = s.health ∧ t.mem.lines = s.mem.lines ∧ t.pending = s.pending ∧
        (s.time.ppsOut = true → .pps false s.timeline ∈ t.out) ∧
        ∀ o < 16, s.pinHigh o = true → .trig o false ∈ t.out) ∧
    (∀ rail : Fin 12, exec (.railExcursion rail true) s = .next (s.coldReset 0)) ∧
    (∀ rail : Fin 12, ∃ t, exec (.railExcursion rail false) s = .next t ∧ OnlyRegs s t [Reg.GLB_POWER_STATUS] ∧
      t.rdB Reg.GLB_POWER_STATUS (16 + rail.val) = true)

/-- R354, R421 to R425: a WARM reset destroys the context keys, drops the image, clears the array, ends every pending error, and
starts boot again; a context that was open goes to SCRUBBING. R421, R426, R427: without a context a CONTEXT reset clears the
rings and the subscriber table alone; with one it ends the context. An ARRAY reset, in NONE, clears the array. A Function
Level Reset of function 1 touches nothing here. -/
def Obligations.LesserResetResults : Prop :=
  (∀ (s : State) (cause : Fin 8) (m : Master) (v : Word), s.boot.porLow = false → s.boot.perstLow = false →
     (3 ≤ cause.val ∧ cause.val ≠ 4) ∨
       (cause.val = 4 ∧ (m = .f0 ∨ m = .f1) ∧ fieldNat v 16 16 = 0xC7A5 ∧ fieldNat v 0 2 = 1) →
     ∃ t, exec (.warmReset cause m v) s = .next t ∧ t.phase = 0 ∧
       t.ctx = (if s.ctx = ctxNone then ctxNone else ctxScrubbing) ∧ t.keyGen = 0 ∧ t.img = Image.none ∧
       t.hold = Hold.reset ∧ t.rings = [] ∧ t.subs = [] ∧ t.latches = [] ∧ t.hostq = [] ∧ t.counts = [] ∧
       (∀ e ∈ t.log.entries, e.pending = false) ∧ t.rdB Reg.ERR_STATUS 31 = false ∧
       t.rdF Reg.GLB_RESET_STATUS 0 8 = 16 + cause.val ∧ t.boot.slot = none ∧
       t.fuse = s.fuse ∧ t.flash = s.flash ∧ t.health = s.health ∧ t.mem.lines = s.mem.lines) ∧
  (∀ (s : State), s.boot.porLow = false → s.boot.perstLow = false → s.sec.ctxRst = false → s.changing = false →
     (∀ (m : Master) (v : Word), s.ctx ∈ [ctxNone, ctxScrubbing] →
       ∃ t, exec (.contextReset true m v) s = .next t ∧ t.rings = [] ∧ t.subs = [] ∧ t.arr = s.arr ∧ t.mem = s.mem ∧
         t.img = s.img ∧ t.log = s.log ∧ t.fuse = s.fuse ∧ t.ctx = s.ctx ∧
         (∀ o, 0x000A_0000 ≤ o → o < 0x000A_0400 → t.rd o = resetWord o) ∧
         (∀ o, o < 0x000A_0000 → o ≠ Reg.GLB_RESET_STATUS → t.rd o = s.rd o)) ∧
     (∀ (m : Master) (v : Word), s.ctx ∈ [ctxOpening, ctxReady, ctxLoaded, ctxRunning, ctxHalted] →
       ∃ t, exec (.contextReset true m v) s = .next t ∧ t.ctx = ctxEnding ∧ t.rdB Reg.SEC_CTX_STATUS 10 = true ∧
         t.rdB Reg.GLB_RESET_STATUS 7 = true) ∧
     (∀ (m : Master) (v : Word), (m = .f0 ∨ m = .f1) → fieldNat v 16 16 = 0xC7A5 → fieldNat v 0 2 = 3 → s.ctx = ctxNone →
       ∃ t, exec (.arrayReset m v) s = .next t ∧ t.aryState = aryIdle ∧ t.hold = Hold.reset ∧ t.arr.round = 0 ∧
         t.arr.beats = [] ∧ t.peeks = [] ∧ (∀ r : Fin 16, t.running r.val = none) ∧ t.fuse = s.fuse) ∧
     exec .function1Flr s = .next s)

/-- R330, R331, R333, R334, R345, R346: how a command completes: its ring runs nothing any more, and 32 bytes with the command's
CID, its status, the ring's PHASE and its results go to the completion tail, which moves on; into a full ring nothing is
written until the head moves, and the completion is held. R333, R334, R429: an entry with a byte that must be zero and is not
completes with BAD_PARAM at its field's offset, and one that the boot phase does not take completes with STATE, whatever command
it is. R332, R381: LOAD, START, STOP and CTX_OPEN run one at a time, in the order in which they were fetched. -/
def Obligations.CompletionResults : Prop :=
  (∀ (s : State) (r : Fin 16) (e : SubEntry) (st : Byte) (res0 res1 : DWord) (detail : Word), s.running r = some e →
     let t := s.complete r st res0 res1 detail
     let c : Completion := { cid := e.cid, noIrq := e.flags.getLsbD 0, status := st, res0 := res0, res1 := res1, detail := detail }
     t.running r = none ∧ (∀ k : Fin 16, k ≠ r → t.ring k = s.ring k) ∧
     (s.cqFull r = true → (t.ring r).held = some c ∧ t.out = s.out ∧ t.fetchWaits r = true) ∧
     (s.cqFull r = false →
       (∃ more, t.out = s.out ++ .hostWrite (s.rd64 (Reg.HQ_CQ_BASE r) + BitVec.ofNat 64 (32 * (s.ring r).cqTail)) (s.completionBytes r c) :: more ∧
         ∀ o ∈ more, ∃ v a d, o = .msix v a d) ∧
       (t.ring r).cqTail = ((s.ring r).cqTail + 1) % s.cqSize r ∧
       (t.ring r).phase = (if ((s.ring r).cqTail + 1) % s.cqSize r = 0 then !(s.ring r).phase else (s.ring r).phase)) ∧
     s.completionBytes r c = bytesOf 2 e.cid ++ [st, if (s.ring r).phase then 1 else 0] ++
       bytesOf 2 (BitVec.ofNat 16 (s.rdF (Reg.HQ_RING_STAT r) 20 12)) ++ [BitVec.ofNat 8 r.val, 0] ++ bytesOf 8 res0 ++
       bytesOf 8 res1 ++ [0, 0, 0, 0] ++ bytesOf 4 detail) ∧
  (∀ (s : State) (r : Fin 16) (op : Byte) (used : Nat) (f : SubEntry → State) (e : SubEntry), s.running r = some e → e.opcode = op →
     (s.isTurn r = false → s.onRing r op used f = s) ∧
     (∀ i, s.isTurn r = true → e.badByte used = some i → s.onRing r op used f = s.complete r stBadParam 0 0 (BitVec.ofNat 32 i)) ∧
     (s.isTurn r = true → e.badByte used = none → s.phaseTakes op = false → s.onRing r op used f = s.completeState r) ∧
     (s.isTurn r = true → e.badByte used = none → s.phaseTakes op = true → s.onRing r op used f = f e)) ∧
  (∀ (s : State) (r k : Fin 16) (e d : SubEntry), s.running r = some e → s.running k = some d →
     let serial (op : Byte) : Prop := op ∈ [0x01, 0x02, 0x03, 0x40]
     (¬serial e.opcode → s.isTurn r = true) ∧
     (serial e.opcode → serial d.opcode → k ≠ r → (s.ring k).turn < (s.ring r).turn → s.sec.opening ≠ some k.val →
       k.val ∉ s.sec.stops → s.isTurn r = false) ∧
     ((∀ j : Fin 16, j ≠ r → ∀ x, s.running j = some x → serial x.opcode → (s.ring r).turn ≤ (s.ring j).turn) → s.isTurn r = true))

/-- R330 to R333, R346: the doorbells and the configuration word of a ring, the fetch of an entry, the fetch that fails, and the
coalescing timer; CQ_FULL reads 1 while fetching waits for completion space. -/
def Obligations.RingResults : Prop :=
  ∀ (s : State) (r : Fin 16),
    (∀ (m : Master) (v : Word), s.answers (Reg.HQ_SQ_TAIL r) = true → fieldNat v 0 12 < s.sqSize r →
      ∃ t, exec (.sqTailWrite m r v) s = .next t ∧ OnlyRegs s t [Reg.HQ_SQ_TAIL r] ∧
        t.rdF (Reg.HQ_SQ_TAIL r) 0 12 = fieldNat v 0 12) ∧
    (∀ (m : Master) (v : Word), s.answers (Reg.HQ_SQ_TAIL r) = true → s.sqSize r ≤ fieldNat v 0 12 →
      ∃ t, exec (.sqTailWrite m r v) s = .next t ∧ OnlyRegs s t [Reg.HQ_RING_STAT r] ∧ t.rdB (Reg.HQ_RING_STAT r) 1 = true) ∧
    (∀ (m : Master) (v : Word), s.answers (Reg.HQ_CQ_HEAD r) = true → (s.ring r).held = none →
      ∃ t, exec (.cqHeadWrite m r v) s = .next t ∧ OnlyRegs s t [Reg.HQ_CQ_HEAD r] ∧
        t.rdF (Reg.HQ_CQ_HEAD r) 0 12 = fieldNat v 0 12) ∧
    (∀ (m : Master) (v : Word), s.answers (Reg.HQ_RING_CFG r) = true → s.rdB (Reg.HQ_RING_CFG r) 31 = false → bit v 31 = true →
      State.ringSizesOk v = true →
      ∃ t, exec (.ringEnable m r v) s = .next t ∧ t.rdB (Reg.HQ_RING_CFG r) 31 = true ∧
        t.rdF (Reg.HQ_RING_STAT r) 20 12 = 0 ∧ (t.ring r).cqTail = 0 ∧ (t.ring r).phase = true ∧
        t.running r = s.running r) ∧
    (∀ (m : Master) (v : Word), s.answers (Reg.HQ_RING_CFG r) = true → s.rdB (Reg.HQ_RING_CFG r) 31 = true → bit v 31 = false →
      ∃ t, exec (.ringDisable m r v) s = .next t ∧ t.rdB (Reg.HQ_RING_CFG r) 31 = false ∧ t.running r = s.running r ∧
        t.mayFetch r = false) ∧
    (∀ entry : BitVec 512, s.mayFetch r = true → opAssigned (SubEntry.mk entry).opcode = true →
      ∃ t, exec (.submissionFetch r entry) s = .next t ∧ t.running r = some (SubEntry.mk entry) ∧
        t.rdF (Reg.HQ_RING_STAT r) 20 12 = (s.rdF (Reg.HQ_RING_STAT r) 20 12 + 1) % s.sqSize r % 4096 ∧ t.out = s.out) ∧
    (∀ entry : BitVec 512, s.mayFetch r = true → opAssigned (SubEntry.mk entry).opcode = false →
      ∃ u : State, exec (.submissionFetch r entry) s = .next (u.complete r stInvalidOpcode) ∧ u.running r = some (SubEntry.mk entry)) ∧
    (s.mayFetch r = true → ∃ t, exec (.fetchError r) s = .next t ∧ t.rdB (Reg.HQ_RING_STAT r) 2 = true ∧ t.mayFetch r = false) ∧
    (0 < (s.ring r).waiting → s.rdF (Reg.HQ_RING_STAT r) 8 8 ≠ 0 →
      let v : BitVec 6 := field (s.rd (Reg.HQ_RING_CFG r)) 8 6
      ∃ t, exec (.coalesceTimerExpiry r) s = .next t ∧ (t.ring r).waiting = 0 ∧
        (s.vecMasked v = false → t.out = s.out ++ [.msix v (s.rd64 (Reg.msix v.toNat 0)) (s.rd (Reg.msix v.toNat 2))]) ∧
        (s.vecMasked v = true → t.out = s.out ∧ t.rdB (Reg.msixPba v.toNat) (v.toNat % 32) = true)) ∧
    (bit (s.readReg (Reg.HQ_RING_STAT r)) 3 = s.fetchWaits r) ∧
    (s.fetchWaits r = true → s.mayFetch r = false) ∧
    (∀ e, Runs s r 0x00 0 e → Succeeds s (.nop r) r s 0 0)

/-- R335, R350: START in LOADED, where the image accepts the ING registers (R90, R188), begins at the next block or at the one it
names and completes with its number; the array runs its round from 0. STOP
takes a context to ENDING and completes when it has ended, and completes at once where there is none. R353, R354, R374 to R377:
when ENDING is complete the keys, the image, the queues and the adaptation are gone, the array is clear, and the scrub
begins under a scrub key; when the scrub is complete that key is gone, HBM and the dirtied DDR5 regions read as never written, and
there is no context. -/
def Obligations.ContextLifeResults : Prop :=
  (∀ (s : State),
     (∀ (r : Fin 16) e, Runs s r 0x02 9 e → e.param 8 1 = 0 → e.param 0 8 = 0 → s.ctx = ctxLoaded → s.ingAccepted = true →
       exec (.start r) s = .next ((s.startContext s.nextBlock false).complete r stOk (BitVec.ofNat 64 s.nextBlock)) ∧
       (s.adapt.policy = [] →
         let t := s.startContext s.nextBlock false
         t.ctx = ctxRunning ∧ t.aryState = aryRunning ∧ t.arr.round = 0 ∧ t.arr.cycle = 0 ∧ t.arr.events = [] ∧
         t.ing.first = s.nextBlock ∧ t.fuse = s.fuse ∧ t.keyGen = s.keyGen ∧ t.img = s.img)) ∧
     (∀ (r : Fin 16) e, Runs s r 0x02 9 e → e.param 8 1 = 0 → e.param 0 8 ≠ 0 → s.ctx = ctxLoaded → s.ingAccepted = true →
       let fb := e.param 0 8
       (s.newestBlock = none ∨ (∃ n, s.newestBlock = some n ∧ n < fb) →
         exec (.start r) s = .next ((s.startContext fb false).complete r stOk (BitVec.ofNat 64 fb))) ∧
       (∀ n, s.newestBlock = some n → fb ≤ n → exec (.start r) s = .next (s.completeBad r 0x28))) ∧
     (∀ (r : Fin 16) e, Runs s r 0x02 9 e → e.param 8 1 = 0 →
       s.ctx ∈ [ctxReady, ctxRunning, ctxHalted] ∨ (s.ctx = ctxLoaded ∧ s.ingAccepted = false) →
       exec (.start r) s = .next (s.completeState r)) ∧
     (s.ingAccepted = true ↔ s.linksDivide = true ∧ s.blockLen = 2 ^ s.img.blockLog2 ∧
       102 * (10 * 2 ^ 38 * s.img.roundLen * s.img.k) ≤
         100 * (State.cyclesPerRef s.img.rated * 2 ^ s.img.blockLog2 * (s.rd64 Reg.ING_SAMPLE_PERIOD).toNat)) ∧
     (∀ (r : Fin 16) e, Runs s r 0x03 0 e → s.ctx ∈ [ctxOpening, ctxReady, ctxLoaded, ctxRunning, ctxHalted] →
       ∃ t, exec (.stop r) s = .next t ∧ t.ctx = ctxEnding ∧ t.aryState = aryStopped) ∧
     (∀ (r : Fin 16) e, Runs s r 0x03 0 e → s.ctx = ctxNone → Succeeds s (.stop r) r s (s.rd64 Reg.ACQ_EVENTS) 0) ∧
     (∀ (m : Master) (v : Word), m = .f0 ∨ m = .f1 → bit v 0 = true → s.answers Reg.SEC_CTX_STOP = true →
       s.ctx ∈ [ctxOpening, ctxReady, ctxLoaded, ctxRunning, ctxHalted] →
       ∃ t, exec (.ctxStopRegister m v) s = .next t ∧ t.ctx = ctxEnding ∧ t.aryState = aryStopped)) ∧
  (∀ (s : State),
     (s.ctx = ctxEnding →
       ∃ t, exec .endingComplete s = .next t ∧ t.ctx = ctxScrubbing ∧ t.keyGen = 0 ∧ t.img = Image.none ∧ t.hold = Hold.reset ∧
         t.hostq = [] ∧ t.counts = [] ∧ t.adapt = Adapt.none ∧ t.sec.keys = [] ∧ t.sec.owner = [] ∧ t.sec.session = 0 ∧
         t.sec.scrub ≠ 0 ∧
         t.arr.beats = [] ∧ t.arr.round = 0) ∧
     (s.ctx = ctxScrubbing → s.sec.stops = [] →
       ∃ t, exec .scrubComplete s = .next t ∧ t.ctx = ctxNone ∧ t.isProtected = false ∧ t.sec.scrub = 0 ∧
         ∀ l, isHbm l = true ∨ (256 * l - ddrBase) / 2 ^ 30 ∈ s.mem.dirty → t.line l = Line.blank ∧ l ∉ t.mem.lost) ∧
     (∀ r : Fin 16, s.ctx = ctxScrubbing → s.sec.stops = [r.val] →
       ∃ u : State, exec .scrubComplete s = .next (u.completeOp 0x03 r stOk s.sec.events) ∧ u.ctx = ctxNone ∧ u.running r = s.running r) ∧
     (s.ctx ≠ ctxEnding → exec .endingComplete s = .next s) ∧ (s.ctx ≠ ctxScrubbing → exec .scrubComplete s = .next s))

/-- R93, R333, R337: REPLAY takes a buffer of whole blocks, in the order in which they are expected, and each is fetched when the
input gate needs it; the command completes with the last one, or with BAD_ADDRESS where a fetch ends in error. -/
def Obligations.ReplayResults : Prop :=
  ∀ (s : State) (r : Fin 16) (e : SubEntry) (data : List Byte) (lost : Option Nat),
    (let n := e.param 8 4
     let first := e.param 0 8
     let bs := (List.range n).map (fun i => (data.drop (i * s.ringBlock)).take s.ringBlock)
     Runs s r 0x06 12 e → s.ctx = ctxRunning → s.replaying = true → s.replay.ring = none →
     s.replay.next = some first → e.len0.toNat = n * s.ringBlock → n ≠ 0 →
     (∀ i < n, leAt ((data.drop (i * s.ringBlock)).take s.ringBlock) 0 8 = first + i) →
     exec (.replay r ⟨data, lost⟩ none) s =
       .next { s with replay := { ring := some r, blocks := bs, next := some (first + n), taken := 0, lost := lost } }) ∧
    (∀ b c rest, s.replay.ring = some r.val → s.replay.blocks = b :: c :: rest → s.replaying = true → s.replay.lost ≠ some 0 →
      s.blockPresent s.gateBlock = false →
      ∃ t, exec .replayBlockFetch s = .next t ∧ t = { s with ing := t.ing, replay := t.replay, regs := t.regs } ∧
        t.replay = { s.replay with blocks := c :: rest, taken := s.replay.taken + 1, lost := s.replay.lost.map (· - 1) } ∧
        ∃ es, t.ing.feed = s.ing.feed ++ es) ∧
    (∀ b, s.replay.ring = some r.val → s.replay.blocks = [b] → s.replaying = true → s.replay.lost ≠ some 0 → s.blockPresent s.gateBlock = false →
      ∃ u : State, exec .replayBlockFetch s = .next (u.completeOp 0x06 r stOk (BitVec.ofNat 64 (s.replay.taken + 1))) ∧
        u.replay.ring = none ∧ u.running r = s.running r) ∧
    (∀ b rest, s.replay.ring = some r.val → s.replay.blocks = b :: rest → s.replaying = true → s.replay.lost = some 0 →
      s.blockPresent s.gateBlock = false →
      ∃ u : State, exec .replayBlockFetch s = .next (u.completeDma r 0) ∧
        u = { s with replay := { s.replay with ring := none, blocks := [], next := some (leAt b 0 8), lost := none } }) ∧
    (s.blockPresent s.gateBlock = true ∨ s.replay.blocks = [] → exec .replayBlockFetch s = .next s)

/-- R74, R75, R80, R82, R88: the configuration of a lane, whose enabling clears FAULT, its lock, its alignment and their loss, and
the fill of a source that delivers nothing. R77 to R82, R90, R91: a Noler frame of an aligned lane. At the expected index its samples go on and the
next frame is expected after them; a frame whose CRC fails is counted; a frame too far ahead is a fault of the lane. R85 to
R89: a JESD204C link's configuration word; a multiblock of a started link gives every converter of the link its samples, in
order, and moves the link's index on. -/
def Obligations.LaneResults : Prop :=
  (∀ (s : State) (lane : Fin 64),
     let n := lane.val
     let st := Reg.ING_LANE_STATUS n
     (∀ (m : Master) (v : Word), s.answers (Reg.ING_LANE_CFG n) = true → s.contextRuns = false ∨ fieldNat v 29 2 = s.laneMode n →
       ∃ t, exec (.ingLaneCfgWrite m lane v) s = .next t ∧
         t.rd (Reg.ING_LANE_CFG n) = (s.mergeWord (Reg.ING_LANE_CFG n) v).rd (Reg.ING_LANE_CFG n) ∧
         t.rdB st 5 = (s.rdB st 5 && !(bit v 31 && !s.rdB (Reg.ING_LANE_CFG n) 31)) ∧
         (bit (t.rd (Reg.ING_LANE_CFG n)) 31 = true → State.laneRateOk (t.rd (Reg.ING_LANE_CFG n)) = false →
           t.rdB st 6 = true)) ∧
     (s.laneOn n = true → s.rdB st 0 = false →
       ∃ t, exec (.laneLock lane true) s = .next t ∧ t.rdB st 0 = true ∧
         (t.lane n).eq = (s.cal.inForce 1 n).getD (List.replicate 14 0)) ∧
     (s.laneOn n = true → s.rdB st 0 = true →
       ∃ t, exec (.laneLock lane false) s = .next t ∧ t.rdB st 0 = false ∧ t.rdB st 1 = false ∧ t.rdB st 4 = true) ∧
     (s.laneOn n = true → s.noler n = true →
       ∃ t, exec (.laneAligned lane) s = .next t ∧ t.rdB st 1 = true ∧ (t.lane n).fresh = true ∧
         (∀ k, k ≠ st → t.rd k = s.rd k)) ∧
     (s.noler n = true → s.rdB st 1 = true →
       ∃ t, exec (.laneAlignmentLost lane) s = .next t ∧ t.rdB st 1 = false ∧ t.rdB st 4 = true ∧
         (∀ k, k ≠ st → t.rd k = s.rd k)) ∧
     (s.noler n = false → s.rdB st 1 = true →
       ∃ t, exec (.jesdSyncLost lane) s = .next t ∧ t.rdB st 1 = false ∧ t.rdB st 4 = true) ∧
     (s.laneOn n = true → s.laneMode n = 0 →
       ∃ t, exec (.syncHeaderLock lane) s = .next t ∧ OnlyRegs s t [st] ∧ t.rdB st 1 = true) ∧
     (∀ e, s.delivers n = false → (s.lane n).expect = some e →
       ∃ t, exec (.fillSampleTick lane) s = .next t ∧ (t.lane n).expect = some (e + 1) ∧
         (s.flows (s.blockOf e) = true → t.rdB st 3 = true)) ∧
     (s.delivers n = true → exec (.fillSampleTick lane) s = .next s)) ∧
  (∀ (s : State) (lane : Fin 64) (wire : BitVec 1024) (stamp : DWord),
     let n := lane.val
     let st := Reg.ING_LANE_STATUS n
     let f : NolerFrame := { bits := frameBits wire (s.rdB (Reg.ING_LANE_CFG n) 27) (decide (s.laneMode n = 2)) }
     s.laneOn n = true → s.noler n = true → s.rdB st 1 = true → fieldNat f.bits 0 32 = 0x5F3A0C96 →
     (fieldNat f.bits 992 32 ≠ frameCrc f.bits →
       ∃ t, exec (.nolerFrameReceive lane wire stamp) s = .next t ∧ OnlyRegs s t [st] ∧ t.rdB st 2 = true ∧
         t.rdF st 16 16 = min (s.rdF st 16 16 + 1) 65535) ∧
     (fieldNat f.bits 992 32 = frameCrc f.bits → f.valid = true → f.typ = 0 → s.isProtected = false → s.rdB st 5 = false →
       (s.contextRuns = true → isPow2 f.span = true) → (s.lane n).synced = true → (s.lane n).expect = some f.index →
       ∃ t, exec (.nolerFrameReceive lane wire stamp) s = .next t ∧
         (∀ k, k ≠ Reg.SEC_IDLE_FRAMES → t.rd k = s.rd k) ∧ (t.lane n).expect = some (f.index + f.span) ∧
         t.ing.raw = s.ing.raw ++ (s.frameRaw n f stamp).filter (fun x => s.flows (s.blockOf x.index)) ∧
         (f.ttValid = true → (t.lane n).anchor = some { time := f.timeTag, index := f.index, tagged := true })) ∧
     (fieldNat f.bits 992 32 = frameCrc f.bits → f.valid = true → f.typ = 0 → s.isProtected = false → s.rdB st 5 = false →
       (s.contextRuns = true → isPow2 f.span = true) → (s.lane n).synced = true →
       ∀ e, (s.lane n).expect = some e → e + 2 ^ 20 < f.index →
       ∃ t, exec (.nolerFrameReceive lane wire stamp) s = .next t ∧ t.rdB st 5 = true ∧ t.rdB st 3 = true ∧
         t.ing.raw = s.ing.raw) ∧
     (fieldNat f.bits 992 32 = frameCrc f.bits → f.valid = true → f.typ = 0 → s.isProtected = false → s.rdB st 5 = false →
       (s.contextRuns = true → isPow2 f.span = true) → (s.lane n).synced = true →
       ∀ e, (s.lane n).expect = some e → f.index < e →
       ∃ t, exec (.nolerFrameReceive lane wire stamp) s = .next t ∧ t.rdB st 3 = true ∧ t.ing.raw = s.ing.raw ∧
         (t.lane n).expect = some e)) ∧
  (∀ (s : State) (link : Fin 16),
     let k := link.val
     (∀ (m : Master) (v : Word), s.answers (Reg.ING_JESD_LINK k) = true →
       ∃ t, exec (.jesdLinkCfgWrite m link v) s = .next t ∧
         t.rd (Reg.ING_JESD_LINK k) = (s.mergeWord (Reg.ING_JESD_LINK k) v).rd (Reg.ING_JESD_LINK k)) ∧
     (∀ (words : List (BitVec 16)), (s.link k).started = true →
       ∃ t, exec (.jesdMultiblockReceive link words 0) s = .next t ∧
         (∀ j, j ≠ Reg.SEC_IDLE_FRAMES → t.rd j = s.rd j) ∧
         t.link k = { s.link k with next := (s.link k).next + s.linkSpan k } ∧
         t.ing.raw = s.ing.raw ++ ((List.range (s.linkSpan k)).flatMap (fun i => (List.range (s.linkM k)).flatMap (fun c =>
           (s.fedBy (s.linkFirst k) c).map (fun ch =>
             ({ chan := ch, index := (s.link k).next + i,
                code := State.linkCode (decide (s.linkNp k = 16)) (words.getD (i * s.linkM k + c) 0), bad := false, ovr := false,
                s16 := decide (s.linkNp k = 16), stamp := s.timeline.toNat } : RawSample))))).filter
             (fun x => s.flows (s.blockOf x.index))) ∧
     (∀ words bad, (s.link k).started = false → exec (.jesdMultiblockReceive link words bad) s = .next s))

/-- R63, R92, R93: the first raw sample of a channel whose record asks for no delay becomes its history code in the block, and
the channel waits for the next index; a sample that the channel has passed is dropped. -/
def Obligations.FrontEndResults : Prop :=
  ∀ (s : State) (x : RawSample) (rest : List RawSample), s.ing.raw = x :: rest →
    let b := s.blockOf x.index
    let w := s.recWord (s.recBank b) x.chan
    (SMap.get [] s.ing.taps x.chan = [] → fieldNat (w 8) 0 14 = 0 → s.ing.first ≤ b →
      let h := historyCode (if x.s16 then Fmt.s16 else Fmt.s12) (w 6) (w 7) 0 [0, x.code, 0, 0]
      ∃ t, exec .frontEndSample s = .next t ∧ t.ing.raw = rest ∧ t.nextIndex x.chan = x.index + 1 ∧
        (SMap.get [] t.ing.taps x.chan).head? = some x ∧
        SMap.get { code := 0, bad := false } (SMap.get [] t.ing.blocks b) (sampleKey x.chan (x.index % s.blockLen)) =
          { code := h.1, bad := x.bad }) ∧
    (∀ y ys, SMap.get [] s.ing.taps x.chan = y :: ys → x.index ≤ y.index →
      exec .frontEndSample s = .next { s with ing := { s.ing with raw := rest } })

/-- R243: a block completely delivered goes into its slot of the ring, and W names it. R98, R99, R103, R194: the ring reader
takes over where the buffer has a gap and supplies block after block, buffer writes resume at a block boundary, the write
point that would overwrite the array's next block skips it, and the input plan's next entry goes to its hub port flit by
flit, an input block that is shed or overrun as one SKIP flit with a token. -/
def Obligations.BufferResults : Prop :=
  (∀ (s : State), s.through s.ringNext = true → s.ringSlots ≠ 0 →
     ∃ t, exec .ringBlockComplete s = .next t ∧ t.acq.wblock = some s.ringNext ∧
       t.rd64 Reg.ACQ_RING_WBLOCK = BitVec.ofNat 64 s.ringNext ∧ SMap.get [] t.ing.blocks s.ringNext = []) ∧
  (∀ (s : State),
     (s.ing.missed.map Prod.fst = some s.ing.taken.1 → s.rdB Reg.ING_EB_MODE 0 = false →
       ∃ t, exec .ringReaderTakeover s = .next t ∧ OnlyRegs s t [Reg.ING_EB_MODE] ∧ t.rdB Reg.ING_EB_MODE 0 = true) ∧
     (s.rdB Reg.ING_EB_MODE 0 = true → s.ing.resume = none → s.inRing s.feedNext.1 = true →
       (s.ringRead (s.slotAt s.feedNext.1) s.ringBlock).1 = s →
       ∃ t es, exec .ringReaderBlock s = .next t ∧
         t = { s with ing := { s.ing with feed := s.ing.feed ++ es, fed := (s.feedNext.1 + 1, 0), present := t.ing.present } } ∧
         ∀ e ∈ es, e.block = s.feedNext.1 ∧ s.feedNext.2 ≤ e.k) ∧
     (∀ x, s.ing.missed = some x → s.ing.resume = none → s.entriesBetween s.ing.taken s.ing.ebNext ≤ 30840 →
       exec .ebResume s = .next { s with ing := { s.ing with
         resume := some (if s.ing.ebNext.2 = 0 then s.ing.ebNext.1 else s.ing.ebNext.1 + 1) } }) ∧
     (let b := s.oldestKept
      s.ctx = ctxRunning → s.replaying = false → s.ringBlock ≠ 0 → s.ringBytes ≤ s.ringAhead b + s.ringBlock →
       b ∉ s.ing.overrun ∧ s.ing.taken.1 ≤ b ∧
       ∃ u : State, exec .overrunSkip s = .next (if s.inRing b then u.ringWrite (s.slotAt b + 24) [1] else u) ∧
         u.ing.overrun = b :: s.ing.overrun ∧ u.rd64 Reg.ING_OVERRUN_COUNT = satInc (s.rd64 Reg.ING_OVERRUN_COUNT) ∧
         ∀ e ∈ u.ing.eb ++ u.ing.feed, e.block = b → e.overrun = true) ∧
     (∀ (k : BitVec 16) (p : InEntry) (e : EbEntry), s.hold.stopped = false → s.ctx = ctxRunning →
       s.planOrder[s.ing.taken.2]? = some k.toNat → s.img.inputs[k.toNat]? = some p → s.headEntry k.toNat = some e →
       (e.shed = false → e.overrun = false →
         ∃ t fs, exec (.inputPlanInject k) s = .next t ∧ t.ing.taken = s.nextEntry s.ing.taken.1 s.ing.taken.2 ∧
           t.arr.beats = s.arr.beats ++ fs ∧ fs.length = max 1 ((e.bytes + 31) / 32) ∧
           ∀ i < fs.length, ∃ b, fs[i]? = some b ∧ b.pic.val = p.port.val ∧ b.inp = .s ∧ b.wait = 1 + i ∧
             b.flit = some { data := e.data.extractLsb' (256 * i) 256, kind := 0, bad := e.bad, last := false }) ∧
       (e.shed = true ∨ e.overrun = true → (∀ j ∈ s.planOrder.take s.ing.taken.2, (s.img.inputs[j]?).map InEntry.group ≠ some p.group) →
         ∃ t b f, exec (.inputPlanInject k) s = .next t ∧ t.arr.beats = s.arr.beats ++ [b] ∧ b.pic.val = p.port.val ∧ b.inp = .s ∧
           b.wait = 1 ∧ b.flit = some f ∧ f.kind = 1 ∧ f.bad = false ∧ b.token = 0x8001)))

/-- R95 to R97: records are written into the staging bank while it is free, a switch is armed for a block that has not begun,
takes place at that block, which changes the records of no earlier one, and frees the former bank; a statistics interval that
closes is numbered. R100 to R102: the
latency debt in the cycle, and the shed level, which rises by one where the debt is over its limit and still grows, and falls
by one where it is under the limit less the hysteresis and falls. -/
def Obligations.RecordAndDebtResults : Prop :=
  (∀ (s : State),
     let a := s.rd Reg.ING_REC_ADDR
     let act := s.rdF Reg.ING_REC_STATUS 0 1
     (∀ (m : Master) (v : Word), s.answers Reg.ING_REC_DATA = true → s.rdB Reg.ING_REC_STATUS 2 = true → fieldNat a 16 1 ≠ act →
       ∃ t, exec (.ingRecDataWrite m v) s = .next t ∧
         t.recWord (fieldNat a 16 1) (fieldNat a 4 12) (fieldNat a 0 4) = v &&& State.recMask (fieldNat a 0 4) ∧
         (∀ bank c w, bank < 2 → c < 4096 → w < 16 → (bank, c, w) ≠ (fieldNat a 16 1, fieldNat a 4 12, fieldNat a 0 4) →
           t.recWord bank c w = s.recWord bank c w)) ∧
     (∀ (m : Master) (hi : Word), s.answers (Reg.ING_REC_SWITCH + 4) = true → s.rdB Reg.ING_REC_STATUS 1 = false →
       let b := (hi ++ s.rd Reg.ING_REC_SWITCH).toNat
       (∀ n, s.newestSample = some n → s.blockOf n < b) →
       (s.channels.any (fun e => !State.quantFmt (fieldNat (s.recWord (1 - act) e.1 0) 0 4))) = false →
       ∃ t, exec (.recSwitchArm m hi) s = .next t ∧ t.rdB Reg.ING_REC_STATUS 1 = true ∧ t.rdB Reg.ING_REC_STATUS 2 = false ∧
         t.ing.recArm = b) ∧
     (∀ n, s.rdB Reg.ING_REC_STATUS 1 = true → s.newestSample = some n → s.ing.recArm * s.blockLen ≤ n + 1 →
       ∃ t, exec .recSwitchActivate s = .next t ∧ t.rdF Reg.ING_REC_STATUS 0 1 = 1 - act ∧ t.rdB Reg.ING_REC_STATUS 1 = false ∧
         t.rdF Reg.ING_REC_STATUS 16 16 = min (s.rdF Reg.ING_REC_STATUS 16 16 + 1) 65535 ∧ t.ing.recFrom = some s.ing.recArm ∧
         ∀ b < s.ing.recArm, t.recBank b = s.recBank b) ∧
     (∀ b, s.ing.recFrom = some b → s.rdB Reg.ING_REC_STATUS 1 = false → s.ing.missed = none ∨ b ≤ s.feedNext.1 →
       s.replaying = true ∨ s.img.inputs = [] ∨ b ≤ s.ing.ebNext.1 →
       ∃ t, exec .stagingBankFree s = .next t ∧ t.rdB Reg.ING_REC_STATUS 2 = true ∧ t.ing.recFrom = none) ∧
     (let n := s.rdF Reg.ING_STAT_CFG 0 16
      n ≠ 0 → s.counted (s.ing.statFrom + n - 1) = true → s.img.regions.find? (fun r => decide (r.kind = 1)) = none →
       ∃ t, exec .statIntervalClose s = .next t ∧ OnlyRegs { s with ing := t.ing } t [Reg.ING_STAT_SEQ] ∧
         t.rd Reg.ING_STAT_SEQ = s.rd Reg.ING_STAT_SEQ + 1 ∧ t.ing.statFrom = s.ing.statFrom + n)) ∧
  (∀ (s : State), s.ctx = ctxRunning → s.replaying = false →
     (∃ t, exec .debtUpdate s = .next t ∧ t.ing.arrived = 0 ∧
       t.ing.debt = s.ing.debt + s.ing.arrived * s.ringBlock * (s.img.k * s.img.roundLen) -
         (if s.rdB Reg.GLB_CLK_STATUS 2 then 0
          else s.ringBlock * State.cyclesPerRef (s.rdF Reg.GLB_CLK_STATUS 0 2) * (s.channels.length * s.blockLen)) ∧
       (s.debtUnit ≠ 0 → t.rd64 Reg.ING_DEBT = BitVec.ofNat 64 (t.ing.debt / s.debtUnit)) ∧
       (∀ k, k ∉ [Reg.ING_DEBT, Reg.ING_DEBT + 4] → t.rd k = s.rd k)) ∧
     (let u := s.ringBytes * s.debtUnit
      let l := s.rdF Reg.ING_SHED_STATUS 0 7
      let limit := s.rdF Reg.ING_DEBT_CFG 0 10
      (limit * u ≤ 1000 * s.ing.debt → s.ing.debtOld < s.ing.debt → l < s.shedList.length → l < 64 →
        ∃ t, exec .shedLevelUpdate s = .next t ∧ t.rdF Reg.ING_SHED_STATUS 0 7 = l + 1 ∧ t.rdB Reg.ING_SHED_STATUS 31 = true ∧
          t.ing.debtOld = s.ing.debt) ∧
      (1000 * s.ing.debt + s.rdF Reg.ING_DEBT_CFG 16 10 * u < limit * u → 0 < l → s.ing.debt < s.ing.debtOld ∨ s.ing.debt = 0 →
        ∃ t, exec .shedLevelUpdate s = .next t ∧ t.rdF Reg.ING_SHED_STATUS 0 7 = l - 1 ∧
          t.rdB Reg.ING_SHED_STATUS 31 = decide (1 < l))))

/-- R216 to R222: a primitive unit's sample, its enabling, its re-arming and its STUCK flag, and those of an external input. R223
to R225: an instance of a contour mask meets its next sample: inside the point's limits it goes on, at its last point it
passes, outside them it is a violation. -/
def Obligations.TriggerUnitResults : Prop :=
  (∀ (s : State) (u : Fin 1024),
     let p := s.prim u
     let fired := Reg.prim u Reg.TRG_PRIM_FIRED
     (∀ x rest, s.ctx = ctxRunning → s.primEn u = true → SMap.get [] s.trg.primQ u = x :: rest → p.begin' = none →
       s.primKind u ≠ 3 →
       (s.primActive u p.prev x = true → p.disarmed = false →
         ∃ t, exec (.primitiveSample u) s = .next t ∧ t.rd fired = satInc (s.rd fired) ∧ (t.prim u).disarmed = true ∧
           (t.prim u).active = true ∧ SMap.get [] t.trg.primQ u = rest) ∧
       (s.primActive u p.prev x = false →
         ∃ t, exec (.primitiveSample u) s = .next t ∧ (∀ k, t.rd k = s.rd k) ∧ (t.prim u).active = false ∧
           (t.prim u).idle = p.idle + 1 ∧ SMap.get [] t.trg.primQ u = rest ∧ t.trg.classes = s.trg.classes)) ∧
     (bit (s.primRd u Reg.TRG_PRIM_CFG) 31 = false →
       ∃ t, exec (.primitiveEnable u) s = .next t ∧ bit (t.primRd u Reg.TRG_PRIM_CFG) 31 = true ∧ (t.prim u).active = false ∧
         (t.prim u).disarmed = false ∧ (t.prim u).begin' = (if s.contextRuns then some (s.nextBoundary (s.primChan u)) else none)) ∧
     (p.disarmed = true → p.active = false → s.primHold u ≤ p.idle →
       exec (.holdoffExpiry (.prim u)) s = .next (s.setPrim u { p with disarmed := false })) ∧
     (∀ n : Fin 16, (s.extIn n).disarmed = true → (s.extIn n).level = false →
       (64 * fieldNat (s.inCfg n) 0 16 : Int) ≤ tlSub s.timeline.toNat (s.extIn n).since →
       exec (.holdoffExpiry (.input n)) s = .next (s.setExtIn n { s.extIn n with disarmed := false })) ∧
     (∀ w, p.active = true → p.watermark = some w → fineLe (p.since + (s.rd Reg.TRG_STUCK_TIME).toNat * finePerNs) w = true →
       ∃ t, exec (.stuckDetect (.prim u)) s = .next t ∧ OnlyRegs s t [Reg.prim u Reg.TRG_PRIM_STATUS, Reg.TRG_STATUS] ∧
         t.rdB (Reg.prim u Reg.TRG_PRIM_STATUS) 2 = true ∧ t.rdB Reg.TRG_STATUS 3 = true) ∧
     (∀ n : Fin 16, (s.extIn n).level = true →
       (64 * (s.rd Reg.TRG_STUCK_TIME).toNat : Int) ≤ tlSub s.timeline.toNat (s.extIn n).since →
       ∃ t, exec (.stuckDetect (.input n)) s = .next t ∧ OnlyRegs s t [Reg.TRG_IN_STATUS n, Reg.TRG_STATUS] ∧
         t.rdB (Reg.TRG_IN_STATUS n) 2 = true ∧ t.rdB Reg.TRG_STATUS (16 + n.val) = true)) ∧
  (∀ (s : State) (k : Fin 64),
     let m := s.mask k
     (∀ x rest n i t0 first cnt, s.ctx = ctxRunning → s.maskEn k = true → SMap.get [] s.trg.maskQ k = x :: rest →
       m.inst = some (n, i, t0) → n + i ≤ x.index → s.maskPoints k = some (first, cnt) → x.bad = false →
       let inside := s.pointLo (first + i) ≤ x.code ∧ x.code ≤ s.pointHi (first + i)
       (inside → i + 1 ≠ cnt →
         ∃ t, exec (.maskPointTest k) s = .next t ∧ (∀ j, t.rd j = s.rd j) ∧ (t.mask k).inst = some (n, i + 1, t0) ∧
           SMap.get [] t.trg.maskQ k = rest) ∧
       (inside → i + 1 = cnt → s.maskPass k = true →
         ∃ t, exec (.maskPointTest k) s = .next t ∧ (t.mask k).inst = none ∧
           t.rd (Reg.mask k Reg.TRG_MASK_PASS) = satInc (s.rd (Reg.mask k Reg.TRG_MASK_PASS))) ∧
       (¬inside →
         ∃ t, exec (.maskPointTest k) s = .next t ∧ (t.mask k).inst = none ∧
           t.rd (Reg.mask k Reg.TRG_MASK_VIOL) = satInc (s.rd (Reg.mask k Reg.TRG_MASK_VIOL)) ∧
           (bit (s.maskRd k Reg.TRG_MASK_CFG) 29 = true → t.rdB (Reg.mask k Reg.TRG_MASK_STATUS) 1 = true))) ∧
     (∀ (w : Master) (v : Word), s.answers Reg.TRG_MASK_STATUS = true → bit v 1 = true → s.rdF Reg.TRG_MASK_SEL 0 6 = k.val →
       ∃ t, exec (.maskRearm w v) s = .next t ∧ OnlyRegs s t [Reg.mask k Reg.TRG_MASK_STATUS] ∧
         t.rdB (Reg.mask k Reg.TRG_MASK_STATUS) 1 = false))

/-- R218: a BAD sample is never active, a condition that reads one is false, and a TOT run that meets one ends without firing. -/
def Obligations.BadSamplesNeverTrigger : Prop :=
  ∀ (s : State) (u : Fin 1024) (prev : List TSample) (x : TSample),
    (x.bad = true → s.primActive u prev x = false) ∧
    (∀ y, s.primKind u = 1 → prev.find? (fun z => decide (z.index + s.primTmin u = x.index)) = some y → y.bad = true →
      s.primActive u prev x = false) ∧
    (∀ rest, s.ctx = ctxRunning → s.primEn u = true → s.primKind u = 3 → SMap.get [] s.trg.primQ u = x :: rest → x.bad = true →
      (s.prim u).begin' = none →
      ∃ t, exec (.primitiveSample u) s = .next t ∧ t.regs = s.regs ∧ t.trg.classes = s.trg.classes ∧ t.trg.masks = s.trg.masks ∧
        (t.prim u).run = 0 ∧ (t.prim u).active = false)

/-- R87, R226 to R228: an edge on an external input, which a pulse or gap below 0.8 ns does not make, the TDC's start, its lines
and its lock, and SYSREF, on which a link whose lanes are all aligned starts and a TDC that waits for it takes its anchor. -/
def Obligations.TimingInputResults : Prop :=
  ∀ (s : State) (n : Fin 16) (stamp : DWord),
    (∀ (pin : Bool) tdc lasts, 10 * lasts < 512 → exec (.externalInputEdge n ⟨pin, lasts⟩ stamp tdc) s = .next s) ∧
    (∀ (pin : Bool) tdc lasts, 768 ≤ 10 * lasts → (pin != bit (s.inCfg n) 30) = true → (s.extIn n).level = false → bit (s.inCfg n) 31 = true →
      (s.extIn n).disarmed = false →
      ∃ t, exec (.externalInputEdge n ⟨pin, lasts⟩ stamp tdc) s = .next t ∧ t.rd (Reg.TRG_IN_FIRED n) = satInc (s.rd (Reg.TRG_IN_FIRED n)) ∧
        (t.extIn n).level = true ∧ (t.extIn n).disarmed = true ∧ (t.extIn n).since = stamp.toNat) ∧
    (∀ (pin : Bool) tdc lasts, 768 ≤ 10 * lasts → (pin != bit (s.inCfg n) 30) = false → (s.extIn n).level = true →
      exec (.externalInputEdge n ⟨pin, lasts⟩ stamp tdc) s = .next (s.setExtIn n { s.extIn n with level := false, since := stamp.toNat })) ∧
    (∀ (m : Master) (v : Word), s.answers Reg.TRG_TDC_CFG = true → s.rdB Reg.TRG_TDC_CFG 31 = false → bit v 31 = true →
      bit v 30 = false →
      ∃ t, exec (.tdcEnable m v stamp) s = .next t ∧ t.rdB Reg.TRG_TDC_CFG 31 = true ∧ t.rd64 Reg.TRG_TDC_ANCHOR = stamp ∧
        t.trg.anchored = true) ∧
    (∀ counts, counts.foldl (· + ·) 0 ≠ 0 →
      ∃ t, exec (.tdcLineCalibrate n counts) s = .next t ∧ s.idleLine n ∈ t.trg.calib ∧
        (t.tapWidths (s.idleLine n)).length = 1024 ∧ ∀ l, l ≠ s.idleLine n → t.tapWidths l = s.tapWidths l) ∧
    (s.idleLine n ∈ s.trg.calib →
      exec (.tdcLineSwap n) s = .next (s.setExtIn n { s.extIn n with line := !(s.extIn n).line })) ∧
    (∀ locked, ∃ t, exec (.tdcLock locked) s = .next t ∧ OnlyRegs s t [Reg.TRG_STATUS] ∧ t.rdB Reg.TRG_STATUS 1 = locked) ∧
    (∀ (off : BitVec 16), s.linkEn n = true → s.linkOk n = true → (s.link n).started = false →
      (∀ j ∈ s.linkLanes n, s.laneOn j = true ∧ s.laneMode j = 0 ∧ s.rdB (Reg.ING_LANE_STATUS j) 1 = true) →
      ∃ t, exec (.sysrefEdge stamp off) s = .next t ∧ (t.link n).started = true ∧
        (s.rdB Reg.TRG_TDC_CFG 31 = true → s.trg.anchored = false → t.rd64 Reg.TRG_TDC_ANCHOR = stamp ∧ t.trg.anchored = true) ∧
        (t.link n).next = (s.rd64 (Reg.ING_JESD_INDEX n)).toNat ∧
        (t.link n).anchor = some { time := stamp.toNat, index := (s.rd64 (Reg.ING_JESD_INDEX n)).toNat, tagged := true })

/-- R230, R231: a verdict moves its stream's watermark on, one behind it is counted, and a threshold switch exchanges the active
and the staged thresholds of every stream at its block. R233, R236 to R238: a class whose truth table is 1 at an instant
fires, once counted; where it is 0 the event only enters the window. R238: a timed pulse starts at its line-clock edge, and a pulse
ends WIDTH ns after its start. -/
def Obligations.VerdictAndCombinerResults : Prop :=
  (∀ (s : State),
     (∀ (v : Fin 256) (flit : BitVec 256) bad, s.ctx = ctxRunning →
       let idx := fieldNat flit 0 64
       let span := fieldNat flit 112 16
       ((s.stream v).markIdx ≤ idx →
         ∃ t, exec (.verdictArrival v flit bad) s = .next t ∧
           (t.stream v).markIdx = (if span = 0 then idx + 1 else (s.blockOf idx + span + 1) * s.blockLen) ∧
           (t.stream v).seq = (s.stream v).seq + 1 ∧ t.rd (Reg.ARY_VS_COUNT v) = satInc (s.rd (Reg.ARY_VS_COUNT v))) ∧
       (idx < (s.stream v).markIdx → exec (.verdictArrival v flit bad) s = .next (s.count Reg.TRG_VS_ORDER))) ∧
     (∀ (m : Master) (hi : Word), s.answers (Reg.TRG_THR_SWITCH + 4) = true → s.rdB Reg.TRG_THR_STATUS 1 = false →
       let b := (hi ++ s.rd Reg.TRG_THR_SWITCH).toNat
       (∀ n, s.trg.newestV = some n → s.blockOf n < b) →
       ∃ t, exec (.thrSwitchArm m hi) s = .next t ∧ t.rdB Reg.TRG_THR_STATUS 1 = true ∧ t.rdB Reg.TRG_THR_STATUS 2 = false ∧
         t.trg.thrArm = b) ∧
     (s.rdB Reg.TRG_THR_STATUS 1 = true → (∃ v < 256, s.trg.thrArm * s.blockLen ≤ (s.stream v).markIdx) →
       ∃ t, exec .thrSwitchActivate s = .next t ∧ t.rdB Reg.TRG_THR_STATUS 1 = false ∧
         t.rdF Reg.TRG_THR_STATUS 16 16 = min (s.rdF Reg.TRG_THR_STATUS 16 16 + 1) 65535 ∧
         ∀ v < 256, t.rd (Reg.TRG_VS_ACT v) = s.rd (Reg.TRG_VS_THR v) ∧ t.rd (Reg.TRG_VS_THR v) = s.rd (Reg.TRG_VS_ACT v))) ∧
  (∀ (s : State) (c : Fin 64),
     let x := s.tcls c
     let fired := Reg.cls c Reg.TRG_CLASS_FIRED
     (s.clsEn c = false →
       ∃ t, exec (.classEnable c) s = .next t ∧ t.clsEn c = true ∧ (t.tcls c).waiting = [] ∧ (t.tcls c).lastFire = none ∧
         (t.tcls c).begin' = (if s.contextRuns then some (s.nextBoundary s.refChannel) else none)) ∧
     (∀ (i : Instr) (e : SlotEvent), s.ctx = ctxRunning → s.clsEn c = true → x.waiting = [e] → x.recent = [] → x.lastFire = none →
       e.slot < 8 →
       (i = .fastClassEvaluate c ∧ s.isSlow c = false ∧ e.cycle ≤ s.lineCycle) ∨
         (i = .slowClassEvaluate c ∧ s.isSlow c = true ∧ s.reached 64 c e.time = true) →
       (s.lutBit c (2 ^ e.slot) = true →
         ∃ t, exec i s = .next t ∧ t.rd fired = satInc (s.rd fired) ∧ (t.tcls c).firings = x.firings + 1 ∧
           (t.tcls c).recent = [e]) ∧
       (s.lutBit c (2 ^ e.slot) = false → exec i s = .next (s.setTcls c { x with waiting := [], recent := [e] }))) ∧
     (∀ (e : SlotEvent), x.waiting = [e] → s.lineCycle < e.cycle → exec (.fastClassEvaluate c) s = .next s) ∧
     (∀ (o : Fin 16) p ps, (s.tout o).pulses = p :: ps →
       let due := State.firstDue p ps
       let idle := s.rdB (Reg.TRG_OUT_CFG o) 30
       ((s.tout o).high = false → fineLe due (256 * s.timeline.toNat) = true →
         ∃ t, exec (.timedPulseStart o) s = .next t ∧ t = { s with trg := t.trg, out := s.out ++ [.trig o (!idle)] } ∧
           t.tout o = { high := true, stop := s.lineCycle + max 2 (s.rdF (Reg.TRG_OUT_CFG o) 0 16), pulses := (p :: ps).erase due }) ∧
       (fineLe due (256 * s.timeline.toNat) = false → exec (.timedPulseStart o) s = .next s)) ∧
     (∀ o : Fin 16, (s.tout o).high = true →
       ((s.tout o).stop ≤ s.lineCycle → exec (.outputPulseEnd o) s =
         .next ((s.setTout o { s.tout o with high := false }).emit (.trig o (s.rdB (Reg.TRG_OUT_CFG o) 30)))) ∧
       (s.lineCycle < (s.tout o).stop → exec (.outputPulseEnd o) s = .next s)))

/-- R232: a class is slow when a slot of it names a verdict stream or a slow class, and fast otherwise; TRG_CLASS_CFG.SLOW
reports which. -/
def Obligations.SlowClasses : Prop :=
  ∀ (s : State), (∀ c < 64, s.isSlow c = true ↔ ∃ x ∈ s.slots c, x.kind = .stream ∨ (x.kind = .cls ∧ s.isSlow x.idx = true)) ∧
    bit (s.readReg Reg.TRG_CLASS_CFG) 30 = s.isSlow (s.rdF Reg.TRG_CLASS_SEL 0 6)

/-- R236: firing k of a class since context start is accepted when k mod P = 0 (0 read as 1); one that is not drives no output,
makes no notice and no capture request, and is not dead time. -/
def Obligations.AcceptedFirings : Prop :=
  (∀ (s : State) (f : Firing) (mark : Int), f.cls < 64 →
    let x := s.tcls f.cls
    let w := fieldNat (s.clsRd f.cls Reg.TRG_CLASS_PRESCALE) 0 24
    let p := if w = 0 then 1 else w
    let acc := Reg.cls f.cls Reg.TRG_CLASS_ACCEPTED
    let t := s.fireClass f mark
    (t.tcls f.cls).firings = x.firings + 1 ∧
    (x.firings % p = 0 → t.rd acc = satInc (s.rd acc)) ∧
    (x.firings % p ≠ 0 → t.rd acc = s.rd acc ∧ t.trg.outs = s.trg.outs ∧ t.out = s.out ∧ t.launch = s.launch ∧ t.subs = s.subs ∧
      t.acq = s.acq ∧ t.rd64 (Reg.cls f.cls Reg.TRG_CLASS_DEAD_TOTAL) = s.rd64 (Reg.cls f.cls Reg.TRG_CLASS_DEAD_TOTAL))) ∧
  (∀ (s : State) (first : Nat) (replay : Bool) (c : Nat), ((s.startContext first replay).tcls c).firings = 0)

/-- R246 to R250, R398: an open event closes into the capture queue with the next number; the head event's copy begins when the
store has room and its blocks are written, and ends in a record, a refused event's with a header only; one that the store cannot
hold is refused; the read pointer moves within what was written. -/
def Obligations.CaptureResults : Prop :=
  ∀ (s : State),
    (∀ (c : Fin 64) (k : Nat) (e : CapEvent), s.acq.opened.find? (fun e => decide (e.1 = c.val)) = some (k, e) → s.canClose e = true →
      ∃ t, exec (.captureEventClose c) s = .next t ∧ t.acq.queue = s.acq.queue ++ [{ e with number := s.acq.next }] ∧
        t.acq.next = s.acq.next + 1 ∧ t.acq.opened.find? (fun e => decide (e.1 = c.val)) = none) ∧
    (∀ e rest, s.acq.copying = false → s.acq.queue = e :: rest →
      (∀ x ∈ s.acq.queue, x.fate = 0 → s.atRisk (s.blockOf x.first) = false) →
      s.acq.stopped = false → s.recordLen e ≤ s.areaSize eventArea → s.recordLen e ≤ s.areaFree eventArea →
      s.recordLen e ≤ s.areaRest eventArea → (e.fate = 0 → s.blocksWritten e = true) →
      exec .captureCopyStart s = .next { s with acq := { s.acq with copying := true, copyNext := s.blockOf e.first, copied := [] } }) ∧
    (∀ e rest, s.acq.copying = false → s.acq.queue = e :: rest → s.acq.stopped = false → e.fate = 0 →
      s.areaSize eventArea ≠ 0 → s.areaSize eventArea < s.recordLen e →
      ∃ t, exec .captureRefuseOversize s = .next t ∧ t.acq.queue = { e with fate := 1 } :: rest ∧
        t.rd64 Reg.ACQ_REFUSED = satInc (s.rd64 Reg.ACQ_REFUSED)) ∧
    (∀ e rest, s.acq.copying = true → s.acq.queue = e :: rest → e.fate = 1 →
      exec .captureCopyComplete s = .next (s.finishEvent (s.headerOnly e))) ∧
    (∀ e rest m, s.acq.copying = true → s.acq.queue = e :: rest → e.fate = 0 → s.eventLost e = false →
      s.captureRead (s.linesFrom e s.acq.copyNext) s.acq.copied = (s, some m) →
      let marks := (s.eventBlocks e).map (s.slotMarks m)
      exec .captureCopyComplete s = .next (s.finishEvent (s.eventRecord e ((s.eventChannels e).map (s.eventSection e m))
        (marks.any (fun x => decide (BitVec.ofNat 64 x.1 &&& e.groups ≠ 0))) (marks.any Prod.snd)))) ∧
    (∀ bs, (s.finishEvent bs).acq.copying = false ∧
      (s.finishEvent bs).acq.queue = ((s.eventDrain bs.length).areaWrite eventArea bs).acq.queue.tail ∧
      (s.finishEvent bs).rd64 Reg.ACQ_STORE_WPTR = BitVec.ofNat 64 ((s.rd64 Reg.ACQ_STORE_WPTR).toNat + bs.length)) ∧
    (∀ (m : Master) (survey : Bool) (v : DWord), let a := if survey then surveyArea else eventArea
      s.answers a.rptr = true → (s.rd64 a.rptr).toNat ≤ v.toNat → v.toNat ≤ (s.rd64 a.wptr).toNat →
      ∃ t, exec (.storeRptrWrite m survey v) s = .next t ∧ OnlyRegs s t [a.rptr, a.rptr + 4] ∧ t.rd64 a.rptr = v)

/-- R208, R209, R250, R253 to R255: an averaging or a reduction interval that ends makes a record of 64 bytes and an entry for each
channel, which goes into the survey area; the input gate asks for the INPUT hold while a block is not there, and where one is there
leaves no more lag than the cycles since it came. -/
def Obligations.SurveyResults : Prop :=
  ∀ (s : State), s.ctx = ctxRunning →
    (let n := s.rdF Reg.ACQ_AVG_CFG 0 16
     s.replaying = false → s.rdB Reg.ACQ_AVG_CFG 31 = true → n ≠ 0 → s.through (s.acq.avgFrom + n - 1) = true →
      ∃ (u : State) (bs : List Byte), exec .averagingInterval s = .next (u.putSurvey 0 s.acq.avgN bs) ∧ u = { s with acq := u.acq } ∧
        u.acq.avgFrom = s.acq.avgFrom + n ∧ u.acq.avgN = s.acq.avgN + 1 ∧
        bs.length = 64 + padTo 64 (32 * s.channels.length)) ∧
    (let n := 2 ^ s.redLog
     s.replaying = false → s.rdB Reg.ACQ_RED_CFG 31 = true → s.privs ≠ [] →
      (∀ i ∈ s.privs, ∃ x ∈ SMap.get [] s.acq.red i, s.acq.redFrom + n ≤ x.1 + 1) →
      ∃ (u : State) (bs : List Byte), exec .reductionInterval s = .next (u.putSurvey 1 s.acq.redN bs) ∧ u = { s with acq := u.acq } ∧
        u.acq.redFrom = s.acq.redFrom + n ∧ u.acq.redN = s.acq.redN + 1 ∧ bs.length = 64 + padTo 64 (16 * s.privs.length)) ∧
    (∀ kind interval bs, s.areaSize surveyArea = 0 → bs ≠ [] →
      s.putSurvey kind interval bs = s.count Reg.ACQ_SURVEY_DROPS) ∧
    (s.img.inputs ≠ [] → s.blockPresent s.gateBlock = false → s.requested 6 .gate = false →
      ∃ t, exec .inputGateCheck s = .next t ∧ Raises s t 6 .gate false) ∧
    (s.img.inputs ≠ [] → s.blockPresent s.gateBlock = true → s.requested 6 .gate = true →
      ∃ t, exec .inputGateCheck s = .next t ∧ t = { s with hold := t.hold } ∧ t.requested 6 .gate = false) ∧
    (s.img.inputs ≠ [] → s.blockPresent s.gateBlock = true → s.requested 6 .gate = false → s.rd Reg.ARY_LAG ≠ 0 →
      ∃ t, exec .inputGateCheck s = .next t ∧ OnlyRegs s t [Reg.ARY_LAG] ∧
        (t.rd Reg.ARY_LAG).toNat = min (s.rd Reg.ARY_LAG).toNat (s.hold.edges - SMap.get 0 s.ing.present s.gateBlock))

/-- R261 to R263, R266, R267, R271, R275, R276: in every block the hub injects one selection flit and one parameter flit at the
trainer's port; a step begins with the oldest windows when the trainer is neither paused nor in a step, and takes its tensors from
the columns of its minibatch; it writes the buffer that is not live. -/
def Obligations.TrainerResults : Prop :=
  ∀ (s : State), s.adapts = true → s.issues = true →
    let b := s.arrayBlock
    let d := s.adapt.dsc 0x0C 2
    let port := s.adapt.dsc 0x40 1 % 32
    (s.adapt.selDone ≠ some b → d ≤ b →
      let g := s.gatherWindows (b - d)
      let ws := g.1.take (s.adapt.dsc 0x0E 1)
      ∃ (t : State) (x : Beat), exec .selectionFlitInject s = .next t ∧ t = { s with arr := t.arr, adapt := t.adapt } ∧
        t.arr.beats = s.arr.beats ++ [x] ∧ (s.adapt.trainer.copying = false → t.arr = { s.arr with beats := s.arr.beats ++ [x] }) ∧
          x.pic.val = port ∧ x.inp = .s ∧ x.wait = 1 ∧
        x.flit = some { data := s.selectionFlit ((b : Int) - d) ws g.2 (decide (ws.length < g.1.length)), kind := 0, bad := false, last := false } ∧
        t.adapt.selDone = some b ∧ t.adapt.overflow = s.adapt.overflow + (g.1.length - ws.length)) ∧
    (s.adapt.parDone ≠ some b → (s.blockParams b).length ≤ 3 → (∀ p ∈ s.blockParams b, p.id < 256) →
      ∃ (t : State) (x : Beat) (f : BitVec 256), exec .parameterFlitInject s = .next t ∧ t = { s with arr := t.arr, adapt := t.adapt } ∧
        t.arr.beats = s.arr.beats ++ [x] ∧ (s.adapt.trainer.copying = false → t.arr = { s.arr with beats := s.arr.beats ++ [x] }) ∧
          x.pic.val = port ∧ x.inp = .s ∧ x.wait = 1 ∧
        x.flit = some { data := f, kind := 0, bad := false, last := false } ∧ t.adapt.parDone = some b ∧
        fieldNat f 0 64 = (s.blockParams b).length ∧
        ∀ k p, (s.blockParams b)[k]? = some p → fieldNat f (64 * k + 64) 32 = p.id ∧ field f (64 * k + 96) 32 = p.value) ∧
    (∀ cols, s.adapt.trainer.until' = none → s.adapt.params = [] → s.adapt.trainer.paused = false → s.adapt.trainer.copying = false →
      s.adapt.dsc 0x10 2 ≤ s.adapt.trainer.windows.length →
      let s1 : State := { s with adapt := { s.adapt with
        trainer := { s.adapt.trainer with applied := max s.adapt.trainer.applied (b + 1) } } }
      let r := s1.stepTensors (s.adapt.beginStep s.adapt.trainer).2 (s.adapt.trainer.windows.take (s.adapt.dsc 0x10 2)) cols
      ∃ t, exec (.trainingStepStart cols) s = .next t ∧ t = { s with arr := t.arr, adapt := t.adapt } ∧
        t.arr = { s.arr with picots := r.st.arr.picots, stores := r.st.arr.stores, events := r.st.arr.events } ∧
        t.adapt.trainer.moments = r.moments ∧ t.adapt.clipped = s.adapt.clipped + r.clips ∧
        t.adapt.trainer.step = (s.adapt.trainer.step + 1) % 2 ^ 32 ∧
        t.adapt.trainer.p1 = fMul s.adapt.trainer.p1 (BitVec.ofNat 32 (s.adapt.dsc 0x2C 4)) ∧
        t.adapt.trainer.p2 = fMul s.adapt.trainer.p2 (BitVec.ofNat 32 (s.adapt.dsc 0x30 4)) ∧
        t.adapt.trainer.until' = some (b + s.adapt.dsc 0x48 4) ∧ t.adapt.trainer.windows = s.adapt.trainer.windows ∧
        t.adapt.trainer.lr = s.adapt.trainer.lr ∧ t.adapt.trainer.target = s.adapt.trainer.target)

/-- R274, R278 to R284, R288: what the Legend controller does with a trainer report, at the end of a threshold interval and of a range
span, and at a boundary of the training periods; every report and action writes the status record. -/
def Obligations.PolicyResults : Prop :=
  ∀ (s : State), s.adapts = true → s.boot.legendDown = false →
    let p := s.adapt.policy
    let lead := leAt p 0x24 4
    (∀ flit : BitVec 256, fieldNat flit 0 4 = 2 →
      ∃ t bs, exec (.trainerReportReceive (some flit)) s = .next t ∧ t.out = s.out ++ [.hostWrite s.adapt.status bs] ∧
        t.adapt.steps = s.adapt.steps + 1 ∧ t.adapt.repStep = field flit 32 32 ∧ t.adapt.block = fieldNat flit 64 64 ∧
        t.regs = s.regs) ∧
    (∀ flit : BitVec 256, let f := fieldNat flit 64 64 + lead
      fieldNat flit 0 4 = 1 → polOn p 1 = true → s.adapt.swapping = false →
      fLe (field flit 160 32) (rnWord ((fp32Val (field flit 128 32)).mul (((Q.ofInt 1).toVal).add (fp32Val (BitVec.ofNat 32 (leAt p 0x1C 4))).neg))) = true →
      leAt p 0x20 4 ≤ fieldNat flit 192 16 → leAt p 0x18 4 ≤ s.adapt.steps → leAt p 0x28 4 = 0 ∨ s.adapt.swaps < leAt p 0x28 4 →
      s.afterNewest f = true → (SMap.get [] s.adapt.params f).length < 3 →
      ∃ t, exec (.trainerReportReceive (some flit)) s = .next t ∧ t.adapt.swapping = true ∧
        SMap.get [] t.adapt.params f = SMap.get [] s.adapt.params f ++ [{ host := false, id := 3, value := 1 }]) ∧
    (∀ flit : BitVec 256, let f := fieldNat flit 64 64 + lead
      let n : DWord := BitVec.ofNat 64 (s.img.k * (f - s.ing.first))
      fieldNat flit 0 4 = 3 → s.adapt.swapping = true → s.adapt.staged = false → s.arr.round.toNat < n.toNat →
      s.rdB Reg.ARY_FLIP_STATUS 0 = false → (∀ l < 8, (s.adapt.dsc 7 1).testBit l = true → s.lacksShadow l = false) →
      s.afterNewest f = true → (SMap.get [] s.adapt.params f).length < 3 →
      ∃ t, exec (.trainerReportReceive (some flit)) s = .next t ∧ t.adapt.swapping = false ∧ t.adapt.swapAt = some f ∧
        t.adapt.swaps = s.adapt.swaps ∧ t.rdB Reg.ARY_FLIP_STATUS 0 = true ∧ t.rd64 Reg.ARY_FLIP = n ∧ t.arr.flip.1 = n ∧
        SMap.get [] t.adapt.params f = SMap.get [] s.adapt.params f ++ [{ host := false, id := 3, value := 0 }]) ∧
    (∀ f rest, s.adapt.trainer.reports = f :: rest → exec (.trainerReportReceive none) s = exec (.trainerReportReceive (some f))
      { s with adapt := { s.adapt with trainer := { s.adapt.trainer with reports := rest } } }) ∧
    (∀ (sel : Word) f, s.adapt.dsc 7 1 ≠ 0 → sel.toNat % 256 &&& s.adapt.dsc 7 1 = s.adapt.dsc 7 1 → s.adapt.swapAt = some f →
      let t := s.adaptFlip sel
      t = { s with adapt := t.adapt } ∧ t.adapt.swaps = s.adapt.swaps + 1 ∧ t.adapt.steps = 0 ∧ t.adapt.lastSwap = f ∧
        t.adapt.swapAt = none ∧ t.adapt.trainer = { s.adapt.trainer with target := !s.adapt.trainer.target, copying := true }) ∧
    (∀ q b, s.adapt.thr = some (q, b) →
      let n := leAt q 0x2C 4
      let v := s.adapt.dsc 8 2 % 256
      let at' := b + n - 1 + State.leadOf q
      let c : Nat := ((List.range n).map (fun i => SMap.get 0 s.trg.asserts (v * 2 ^ 48 + b + i))).foldl (· + ·) 0
      let thr := ((s.rd (Reg.TRG_VS_ACT v)).extractLsb' 0 16).toInt
      let new := if leAt q 0x30 4 * (1000 + leAt q 0x36 2) < 1000 * c then thr + polS16 q 0x34
        else if 1000 * c < leAt q 0x30 4 * (1000 - leAt q 0x36 2) then thr - polS16 q 0x34 else thr
      (b + n) * s.blockLen ≤ (s.stream v).markIdx →
      (s.rdB Reg.TRG_THR_STATUS 2 = true → s.rdB Reg.TRG_THR_STATUS 1 = false → (∀ i, s.trg.newestV = some i → s.blockOf i < at') →
        ∃ t, exec .thresholdPolicyInterval s = .next t ∧ t.trg.thrArm = at' ∧ t.rdB Reg.TRG_THR_STATUS 1 = true ∧
          t.rd (Reg.TRG_VS_THR v) = BitVec.ofNat 32 (codeOf 16 (max (polS16 q 0x38) (min (polS16 q 0x3A) new))) ∧
          t.adapt.miss = s.adapt.miss) ∧
      (s.rdB Reg.TRG_THR_STATUS 2 = false →
        ∃ t, exec .thresholdPolicyInterval s = .next t ∧ t.regs = s.regs ∧ t.adapt.miss = s.adapt.miss + 1)) ∧
    (∀ q b, s.adapt.rng = some (q, b) →
      let n := leAt q 0x3C 4
      let act := s.rdF Reg.ING_REC_STATUS 0 1
      let at' := s.ing.statFrom - 1 - (s.ing.rangeN - n) * s.rdF Reg.ING_STAT_CFG 0 16 + State.leadOf q
      let acc := fun c => SMap.get StatAcc.none s.ing.ranges c
      let new := fun c => deriveRecord (s.recWord act c 0) (acc c).min (acc c).max
      n ≤ s.ing.rangeN →
      (s.rdB Reg.ING_REC_STATUS 2 = true → s.rdB Reg.ING_REC_STATUS 1 = false → (∀ i, s.newestSample = some i → s.blockOf i < at') →
        (∀ e ∈ s.channels, State.quantFmt (fieldNat (s.recWord act e.1 0) 0 4) = true) →
        (∃ e ∈ s.channels, (acc e.1).good ≠ 0 ∧ ∃ w < 6, (new e.1).getD w 0 ≠ s.recWord act e.1 w) →
        ∃ t, exec .rangePolicyInterval s = .next t ∧ t.ing.recArm = at' ∧ t.rdB Reg.ING_REC_STATUS 1 = true ∧
          t.adapt.miss = s.adapt.miss ∧
          ∀ e ∈ s.channels, (acc e.1).good ≠ 0 → ∀ w < 6, t.recWord (1 - act) e.1 w = (new e.1).getD w 0) ∧
      (s.rdB Reg.ING_REC_STATUS 2 = false →
        ∃ t, exec .rangePolicyInterval s = .next t ∧ t.regs = s.regs ∧ t.ing.recs = s.ing.recs ∧ t.adapt.miss = s.adapt.miss + 1)) ∧
    (∀ b on, s.adapt.period = some (b, on) → polOn p 0 = true → leAt p 0x44 4 ≠ 0 → s.afterNewest b = true →
      (SMap.get [] s.adapt.params b).length < 3 →
      ∃ t, exec .trainPeriodBoundary s = .next t ∧
        t.adapt.period = some (b + (if on then leAt p 0x40 4 else leAt p 0x44 4), !on) ∧ t.adapt.miss = s.adapt.miss ∧
        SMap.get [] t.adapt.params b = SMap.get [] s.adapt.params b ++ [{ host := false, id := 3, value := if on then 0 else 1 }])

/-- R265, R275, R276, R286, R287, R332, R338: the commands of adaptation. -/
def Obligations.AdaptationCommandResults : Prop :=
  ∀ (s : State) (r : Fin 16) (e : SubEntry), s.adaptive = true → s.ctx = ctxLoaded ∨ s.ctx = ctxRunning →
    (∀ records, Runs s r 0x07 0 e → e.len0.toNat % 16 = 0 →
      ∃ (u : State) (a : Nat), a ≤ e.len0.toNat / 16 ∧
        Succeeds s (.label r records none) r u (BitVec.ofNat 64 a) (BitVec.ofNat 64 (e.len0.toNat / 16 - a))) ∧
    (∀ w : List Byte, Runs s r 0x07 0 e → e.len0.toNat = 16 → w.length = 16 → leAt w 10 1 ≠ 0 → leAt w 11 5 = 0 →
      (s.afterNewest (s.blockOf (leAt w 0 8) + s.adapt.dsc 0x0C 2) = true →
        Succeeds s (.label r w none) r { s with adapt := { s.adapt with labels := s.adapt.labels ++
          [{ index := leAt w 0 8, label := signedCode 16 (leAt w 8 2), weight := leAt w 10 1, source := 0 }] } } 1 0) ∧
      (s.afterNewest (s.blockOf (leAt w 0 8) + s.adapt.dsc 0x0C 2) = false →
        Succeeds s (.label r w none) r { s with adapt := { s.adapt with late := s.adapt.late + 1 } } 0 1)) ∧
    (Runs s r 0x08 16 e → e.firstNonzero 0x31 0x34 = none →
      let b := e.param 0 8
      let v := BitVec.ofNat 32 (e.param 12 4)
      let ps := SMap.get [] s.adapt.params b
      (State.paramOk (e.param 8 1) v = true → s.afterNewest b = true → ps.length < 3 →
        ∃ u, Succeeds s (.trainParam r) r u 0 0 ∧ SMap.get [] u.adapt.params b = ps ++ [{ host := true, id := e.param 8 1, value := v }] ∧
          ∀ c, c ≠ b → SMap.get [] u.adapt.params c = SMap.get [] s.adapt.params c) ∧
      (State.paramOk (e.param 8 1) v = false → exec (.trainParam r) s = .next (s.completeRefused r 275)) ∧
      (State.paramOk (e.param 8 1) v = true → s.afterNewest b = false ∨ 3 ≤ ps.length →
        exec (.trainParam r) s = .next (s.completeRefused r 276))) ∧
    (∀ block, Runs s r 0x09 8 e →
      (polOn s.adapt.policy 7 = true → exec (.policy r block none) s = .next (s.completeRefused r 286)) ∧
      (polOn s.adapt.policy 7 = false → policyOk block = false → exec (.policy r block none) s = .next (s.completeRefused r 287)) ∧
      (polOn s.adapt.policy 7 = false → policyOk block = true →
        ∃ u, Succeeds s (.policy r block none) r u 0 0 ∧ u.adapt.policy = block.take 128 ∧
          u.adapt.status = BitVec.ofNat 64 (e.param 0 8) ∧ u.regs = s.regs))

/-- R289 to R293, R304 to R309, R311 to R313: the timeline's wrap and its steps, what an offset does to a locked servo, the
measured delays, quiet intervals, PPS and the frequency inputs. -/
def Obligations.TimelineResults : Prop :=
  ∀ (s : State),
    (∃ t, exec .timelineWrap s = .next t ∧ t = { s with now := t.now, timeline := t.timeline, time := t.time, regs := t.regs } ∧
      (∀ k, k ≠ Reg.TIM_ERA → t.rd k = s.rd k) ∧ t.rd Reg.TIM_ERA = s.rd Reg.TIM_ERA + 1 ∧
      t.timeline.toNat * 2 ^ 32 + t.time.frac.toNat < s.edgeStep) ∧
    (∀ m : Master, s.answers Reg.TIM_SET_CTL = true →
      (s.contextRuns = false →
        (∃ t, exec (.timelineSetAbsolute m) s = .next t ∧ t.timeline = s.rd64 Reg.TIM_SET ∧ t.rd Reg.TIM_ERA = s.rd Reg.TIM_SET_ERA ∧
          t.rdB Reg.TIM_STATUS 2 = true) ∧
        (∃ t, exec (.timelineSetRelative m) s = .next t ∧ t.ptpTime = (s.ptpTime + (s.rd64 Reg.TIM_SET).toInt) % 2 ^ 96 ∧
          t.rdB Reg.TIM_STATUS 2 = true)) ∧
      (s.contextRuns = true → exec (.timelineSetAbsolute m) s = .next (s.refuse m Reg.TIM_SET_CTL) ∧
        exec (.timelineSetRelative m) s = .next (s.refuse m Reg.TIM_SET_CTL))) ∧
    (∀ (x : PtpSync) (t1 d : Int), s.time.sync = some x → x.t1 = some t1 → s.ocEn = true →
      (if s.ocPeer then SMap.get none s.time.link s.ocPort else s.time.mf) = some d → x.void = false →
      let th := State.stampDiff x.t2 t1 - (x.corr + s.asym s.ocPort) - d
      (s.phaseSrc ≠ 1 → exec .syncOffsetCompute s =
        .next (({ s with time := { s.time with sync := none } } : State).wr Reg.TIM_OFFSET (sat32 th))) ∧
      (s.phaseSrc = 1 → s.servo = 2 → s.rdF Reg.TIM_SERVO_CFG 2 2 = 0 →
      let w := 1024 * s.rdF Reg.TIM_LOCK_CFG 0 16
      let unit : Nat := 2 ^ (128 - x.logInt).toNat
      let g := s.rd Reg.TIM_GAIN_LOCK
      let i := State.clampTo (s.slewLimit * giga * 2 ^ (rateLog - 38)) (s.time.rate + fieldNat g 0 16 * th * unit)
      (th.natAbs ≤ 4 * w →
        ∃ t, exec .syncOffsetCompute s = .next t ∧ t.servo = 2 ∧ t.time.rate = i ∧ t.rd Reg.TIM_OFFSET = sat32 th ∧
          t.rd Reg.TIM_RATE = BitVec.ofInt 32 (State.clampTo s.slewLimit
            (rnDiv (-(i + fieldNat g 16 16 * th * unit)) (giga * 2 ^ (rateLog - 38))))) ∧
      (4 * w < th.natAbs → s.time.outRun + 1 < s.rdF Reg.TIM_LOCK_CFG 24 8 →
        ∃ t, exec .syncOffsetCompute s = .next t ∧ t.servo = 2 ∧ t.time.rate = s.time.rate ∧ t.time.outRun = s.time.outRun + 1 ∧
          t.rd Reg.TIM_RATE = s.rd Reg.TIM_RATE ∧ t.rd Reg.TIM_OUTLIERS = satInc (s.rd Reg.TIM_OUTLIERS) ∧
          t.rdB Reg.TIM_STATUS 7 = true))) ∧
    (∀ (t4 t1 c : Int) (t2 t3 corr : DWord), s.time.req = some t3 → s.time.done = some (t2, t1, c) → s.ocEn = true → s.ocPeer = false →
      let a := s.asym s.ocPort
      let mf := s.filterDelay s.time.mf (rnDiv ((State.stampDiff t2 t1 - (c + a)) + (-(State.stampDiff t3 t4) - (corr.toInt - a))) 2)
      ∃ t, exec (.delayRespReceive t4 corr) s = .next t ∧ OnlyRegs { s with time := t.time } t [Reg.TIM_MPD] ∧
        t.time = { s.time with mf := some mf, req := none } ∧ t.rd Reg.TIM_MPD = sat32 mf) ∧
    (∀ (p : Fin 2) (c1 c4 : DWord) (t2 t3 c : Int), s.tcMode = 2 ∨ (s.ocEn = true ∧ s.ocPeer = true) →
      let t1 := c1 + (s.rd (Reg.TIM_PORT_ELAT p)).setWidth 64
      let t4 := c4 - (s.rd (Reg.TIM_PORT_ILAT p)).setWidth 64
      let l := s.filterDelay (SMap.get none s.time.link p) (rnDiv (tlDiff t4 t1 * 1024 - (t3 - t2) * 1024 - c) 2)
      ∃ t, exec (.pdelayRespReceive p c1 t2 t3 c4 c) s = .next t ∧ OnlyRegs { s with time := t.time } t [Reg.TIM_PORT_LINK p] ∧
        SMap.get none t.time.link p = some l ∧ t.rd (Reg.TIM_PORT_LINK p) = sat32 l) ∧
    (∃ t, exec .servoQuietTimeout s = .next t ∧ t.servo = (if s.servo = 1 then 0 else if s.servo = 2 then 3 else s.servo) ∧
      t.timeline = s.timeline ∧ t.time.rate = s.time.rate ∧ t.hold = s.hold) ∧
    (∀ stamp : DWord, let p := stamp - BitVec.ofInt 64 (sword (s.rd Reg.TIM_PPS_IN_DELAY))
      (s.rdB Reg.TIM_PPS_CFG 31 = true → s.phaseSrc ≠ 2 →
        ∃ t, exec (.ppsInEdge stamp) s = .next t ∧ OnlyRegs s t [Reg.TIM_PPS_IN_STAMP, Reg.TIM_PPS_IN_STAMP + 4] ∧
          t.rd64 Reg.TIM_PPS_IN_STAMP = p) ∧
      (s.rdB Reg.TIM_PPS_CFG 31 = true → s.phaseSrc = 2 →
        (64 * giga / 10 < ((s.ptpTime + tlDiff p s.timeline + 32 * giga) % (64 * giga) - 32 * giga : Int).natAbs) →
        ∃ t, exec (.ppsInEdge stamp) s = .next t ∧ t.rd Reg.TIM_OUTLIERS = satInc (s.rd Reg.TIM_OUTLIERS) ∧
          t.rd64 Reg.TIM_PPS_IN_STAMP = p ∧ t.time = s.time ∧ t.timeline = s.timeline)) ∧
    (s.rdB Reg.TIM_PPS_CFG 30 = true →
      exec .ppsOutEdge s = .next { s with out := s.out ++ [.pps true s.ppsInstant], time := { s.time with
        ppsOut := true, ppsEnd := s.ppsInstant + BitVec.ofNat 64 (max 1 (s.rdF Reg.TIM_PPS_CFG 0 16) * 640000) } }) ∧
    (s.time.ppsOut = true →
      exec .ppsOutPulseEnd s = .next { s with out := s.out ++ [.pps false s.time.ppsEnd], time := { s.time with ppsOut := false } }) ∧
    (∀ (present : Bool) (ppb : Int), -(2 ^ 23) ≤ ppb → ppb < 2 ^ 23 →
      ∃ t, exec (.clk10mGate present ppb) s = .next t ∧ OnlyRegs s t [Reg.TIM_STATUS, Reg.TIM_10M_STAT] ∧
        t.rdB Reg.TIM_STATUS 5 = present ∧ t.rdB Reg.TIM_10M_STAT 31 = present ∧
        ((t.rd Reg.TIM_10M_STAT).extractLsb' 0 24).toInt =
          (if present then ppb else ((s.rd Reg.TIM_10M_STAT).extractLsb' 0 24).toInt)) ∧
    (∀ rate, exec (.l1Lock (some rate)) s =
      .next { s.wrB Reg.TIM_STATUS 4 true with time := { s.time with l1Rate := rate } }) ∧
    (∃ t, exec (.l1Lock none) s = .next t ∧ OnlyRegs s t [Reg.TIM_STATUS] ∧ t.rdB Reg.TIM_STATUS 4 = false ∧
      (s.rdF Reg.TIM_SERVO_CFG 2 2 = 1 → t.rdB Reg.TIM_STATUS 6 = true))

/-- R294, R296 to R303, R314 to R317: the Ethernet ports: what is dropped, what the transparent clock forwards and corrects, the
ordinary clock's Delay_Req, which the guard band holds back, and a launch notice at its time; under MACsec what fails validation is
dropped, a frame leaves protected, and none leaves without a live SAK. -/
def Obligations.EthernetResults : Prop :=
  ∀ (s : State) (p : Fin 2) (stamp : DWord), s.portOn p = true →
    let rx (f : List Byte) : EthFrame := { bytes := f, from' := p, stamp := stamp - (s.rd (Reg.TIM_PORT_ILAT p)).setWidth 64 }
    let tx : DWord := stamp + (s.rd (Reg.TIM_PORT_ELAT p)).setWidth 64
    let forwarded (f : List Byte) : Prop := (ptpOff s.udp f = none ∧ s.rdB Reg.TIM_PTP_CFG 13 = true ∧ f.take 6 ≠ s.portMac p) ∨
      (∃ off, ptpOff s.udp f = some off ∧ s.tcMode = 1 ∧ s.ocEn = false)
    (∀ a b (fcs : Bool), let f := a ++ b
      fcs = false ∨ 1522 < f.length + 4 ∨
        (s.macsec p = true ∧ ∀ x, s.macSa p = some x → State.unprotect x f = none) →
      exec (.ethFrameReceive p a b stamp fcs) s = .next (s.countF (Reg.TIM_PORT_ERR p) 8 8)) ∧
    (∀ b c : List Byte, let f := b ++ c
      f.length + 4 ≤ 1522 → s.portOn (1 - p.val) = true →
      (s.macsec p = false → forwarded f →
        exec (.ethFrameReceive p b c stamp true) s = .next (s.setEthQueue (1 - p.val) (s.ethQueue (1 - p.val) ++ [rx f]))) ∧
      (∀ a g pn, s.macsec p = true → s.macSa p = some a → State.unprotect a f = some (g, pn) → forwarded g →
        exec (.ethFrameReceive p b c stamp true) s =
          .next ((s.setMacSa p { a with rx := pn + 1 }).setEthQueue (1 - p.val) (s.ethQueue (1 - p.val) ++ [rx g])))) ∧
    (∀ (u : State) mac f,
      (u.macsec p = false → u.sendFrame p mac f = u.emit (.frame p f)) ∧
      (u.macsec p = true → u.macSa p = none → u.sendFrame p mac f = u) ∧
      (∀ a, u.macsec p = true → u.macSa p = some a →
        u.sendFrame p mac f = (u.setMacSa p { a with tx := a.tx + 1 }).emit (.frame p (State.protect a (mac ++ [0, 1]) f)))) ∧
    (∀ e rest, s.ethQueue p = e :: rest → s.guarded p e.bytes.length tx = false →
      let s1 := s.setEthQueue p rest
      let leaves (u : State) (f : List Byte) : Prop := exec (.ethFrameTransmit p stamp) s = .next (u.sendFrame p (s.portMac p) f)
      (2 ≤ e.from' → leaves { s1 with time := { s1.time with req := if e.from' = 3 then some tx else s1.time.req } } e.bytes) ∧
      (e.from' < 2 → ptpOff s.udp e.bytes = none → leaves s1 e.bytes) ∧
      (∀ off, e.from' < 2 → ptpOff s.udp e.bytes = some off →
        let m := e.bytes.drop off
        let typ := beAt m 0 1 % 16
        let c := signedCode 64 (beAt e.bytes (off + 8) 8)
        let d := tlDiff tx e.stamp * 1024
        let corrected (u : State) (x : Int) : Prop :=
          if c = corrMax ∨ corrMax < c + x ∨ c + x < -(2 ^ 63) then
            leaves (u.countF (Reg.TIM_PORT_ERR p) 16 8) (putAt e.bytes (off + 8) (beOctets 8 (codeOf 64 corrMax)))
          else leaves u (putAt e.bytes (off + 8) (beOctets 8 (codeOf 64 (c + x))))
        (typ ∈ [mDelayReq, mPdelayReq, mPdelayResp] → s.udp = false → corrected s1 d) ∧
        (typ = mSync → beAt m 6 1 / 2 % 2 = 1 → s.tcMode ≠ 2 → s.time.table.length < 64 →
          leaves { s1 with time := { s1.time with table := s.time.table ++ [{ key := State.tcKey m, delta := d, made := tx }] } } e.bytes) ∧
        (typ = mFollowUp → s.udp = false → ∀ x, s.time.table.find? (fun y => decide (y.key = State.tcKey m)) = some x →
          corrected { s1 with time := { s1.time with table := s.time.table.erase x } } x.delta))) ∧
    (exec .tcMatchEntryExpire s = .next { s with time := { s.time with table := s.time.table.tail } }) ∧
    (s.ocEn = true → s.ocPeer = false → s.ocPort = p.val → s.udp = false → s.tcMode ≠ 2 →
      let f : List Byte := [0x01, 0x1B, 0x19, 0, 0, 0] ++ s.portMac p ++ [0x88, 0xF7] ++ s.delayReqBytes p
      let seq := (s.time.reqSeq + 1) % 65536
      (s.guarded p f.length tx = false →
        let u := ({ s with time := { s.time with req := some tx } } : State).sendFrame p (s.portMac p) f
        exec (.ptpDelayReqSend stamp) s = .next { u with time := { u.time with reqSeq := seq } }) ∧
      (s.guarded p f.length tx = true →
        ∃ t, exec (.ptpDelayReqSend stamp) s = .next t ∧ t.ethQueue p = s.ethQueue p ++ [{ bytes := f, from' := 3, stamp := tx }] ∧
          t.time.reqSeq = seq ∧ t.time.req = s.time.req ∧ t.out = s.out)) ∧
    (∀ l rest, s.launchQ p = l :: rest →
      let late := tlDiff tx (BitVec.ofInt 64 l.sched)
      let period : Int := if s.rdB (Reg.TIM_PORT_CFG p) 30 then 40960 else 16384
      (late < 0 → exec (.launchNoticeSend p stamp) s = .next s) ∧
      (64000 ≤ late →
        ∃ t, exec (.launchNoticeSend p stamp) s = .next t ∧ t = { s with launch := t.launch, regs := t.regs } ∧ t.launchQ p = rest ∧
          t.rd (Reg.TIM_LAUNCH_DROPPED p) = satInc (s.rd (Reg.TIM_LAUNCH_DROPPED p))) ∧
      (0 ≤ late → late < 64000 →
        ∃ u : State, exec (.launchNoticeSend p stamp) s =
            .next (u.sendFrame p (s.portMac p) (s.launchFrame p l (decide (period ≤ 100 * late)) tx)) ∧
          u = { s with launch := u.launch, regs := u.regs } ∧ u.launchQ p = rest ∧
          u.rd (Reg.TIM_LAUNCH_SENT p) = satInc (s.rd (Reg.TIM_LAUNCH_SENT p)) ∧
          u.rd (Reg.TIM_LAUNCH_LATE p) =
            (if period ≤ 100 * late then satInc (s.rd (Reg.TIM_LAUNCH_LATE p)) else s.rd (Reg.TIM_LAUNCH_LATE p))))

/-- R186, R187, R196, R332, R339, R349: LOAD is taken in READY alone; an image that passes every check is loaded, one that does
not is refused with its code, and a bad seed or host-queue table is a bad parameter. -/
def Obligations.LoadResults : Prop :=
  ∀ (s : State) (r : Fin 16) (e : SubEntry) (image seeds table : List Byte),
    Runs s r 0x01 12 e → e.len1.toNat % 16 = 0 →
    let i : Instr := .load r image seeds table none
    (∀ p vals, s.ctx = ctxReady → s.checkImage image seeds = .ok (p, vals) →
      hqTableBad table (e.param 8 4) (queuesNamed p) s.countUsed p.regions = none →
      ∃ t : State, exec i s = .next (t.complete r stOk ((t.rd Reg.ARY_RATED).setWidth 64) (BitVec.ofNat 64 (p.h 6 2))) ∧
        ((∀ x ∈ p.regions, x.init = noInit) → t.running r = s.running r) ∧ t.ctx = ctxLoaded ∧
        t.aryState = aryLoading ∧ t.rd Reg.ARY_LOAD_STATUS = 0 ∧ t.rd Reg.ARY_IMAGE_STAMP = BitVec.ofNat 32 (p.h 8 4) ∧
        t.img.measure = (image.drop 0x60).take 32 ∧ t.img.roundLen = p.roundLen ∧ t.img.k = p.k ∧
        t.hostq = hqTable table (e.param 8 4) ∧ t.adapt = State.freshAdapt (p.desc.bind id) ∧
        t.adapt.trainer.lr = BitVec.ofNat 32 (t.adapt.dsc 0x28 4) ∧ t.adapt.trainer.wdecay = BitVec.ofNat 32 (t.adapt.dsc 0x38 4) ∧
        t.adapt.trainer.gclip = BitVec.ofNat 32 (t.adapt.dsc 0x3C 4)) ∧
    (∀ w, s.ctx = ctxReady → s.checkImage image seeds = .error (.inl w) →
      ∃ t : State, exec i s = .next (t.complete r stImageRefused 0 0 (BitVec.ofNat 32 w)) ∧ OnlyRegs s t [Reg.ARY_LOAD_STATUS] ∧
        t.rd Reg.ARY_LOAD_STATUS = BitVec.ofNat 32 w) ∧
    (∀ off, s.ctx = ctxReady → s.checkImage image seeds = .error (.inr off) → exec i s = .next (s.completeBad r off)) ∧
    (∀ p vals off, s.ctx = ctxReady → s.checkImage image seeds = .ok (p, vals) →
      hqTableBad table (e.param 8 4) (queuesNamed p) s.countUsed p.regions = some off → exec i s = .next (s.completeBad r off)) ∧
    (s.ctx ∈ [ctxLoaded, ctxRunning, ctxHalted] → exec i s = .next (s.completeState r)) ∧
    (s.ctx ∈ [ctxNone, ctxOpening, ctxEnding, ctxScrubbing] → exec i s = .next (s.complete r stUnavailable)) ∧
    (s.aryState ≠ aryIdle → s.checkImage image seeds = .error (.inl ldState)) ∧
    (s.aryState = aryIdle → s.rdB Reg.ARY_STATUS 7 = false → headerOk image = false → s.checkImage image seeds = .error (.inl ldFormat)) ∧
    (∀ p, s.aryState = aryIdle → s.rdB Reg.ARY_STATUS 7 = false → s.parseImage image = .ok p →
      imageMeasure image ≠ (image.drop 0x60).take 32 → s.checkImage image seeds = .error (.inl ldMeasure))

/-- R321 to R323, R341, R347, R376: a host access to device memory: the count words at once, HBM and DDR5 through their
controllers, zeros and a count where they cannot be reached, and writes that land only where they may. R339 to R341: a host
queue: the hub fetches a flit that the count covers, injects it where a hub-port entry names the queue, stops the array where
it is not there until it is, and writes an ejected flit and its counts, those of a PEER queue after the flits' writes. -/
def Obligations.DeviceMemoryResults : Prop :=
  (∀ (s : State) (dpa : BitVec 44) (len : Nat) (bs : List Byte),
     let hbm := dpa.toNat < countBase
     (∀ i : Fin 32768, dpa.toNat = countBase + 8 * i.val →
       exec (.hdmRead dpa 8 false) s = .next (s.emit (.readData .f0 (bytesOf 8 (s.countWord i)))) ∧
       ∀ v : DWord, exec (.hdmWrite dpa (bytesOf 8 v) false) s = exec (.countWordWrite i 8 v) s) ∧
     (∀ (i : Fin 32768) (n : Nat) (v : DWord), ∃ t, exec (.countWordWrite i n v) s = .next t ∧
       t.countWord i = (if 8 ≤ n ∧ s.countWord i < v then v else s.countWord i) ∧ (∀ j, j ≠ i.val → t.countWord j = s.countWord j) ∧
       t.rd Reg.HQ_HDM_WDROP = (if n < 8 then satInc (s.rd Reg.HQ_HDM_WDROP) else s.rd Reg.HQ_HDM_WDROP)) ∧
     (hbm ∨ countEnd ≤ dpa.toNat → s.hdmBacked dpa.toNat = true →
       (s.memUnavailable = true ∨ s.isProtected = true →
         exec (.hdmRead dpa len false) s = .next ((s.count Reg.HQ_HDM_UNAVAIL).emit (.readData .f0 (List.replicate len 0)))) ∧
       (s.memUnavailable = false → s.isProtected = false →
         exec (.hdmRead dpa len false) s = .next (s.enqueueMem { cls := if hbm then 4 else 2, dpa := dpa.toNat, len := len, data := none })) ∧
       (s.memUnavailable = true → exec (.hdmWrite dpa bs false) s = .next (s.count Reg.HQ_HDM_UNAVAIL)) ∧
       (s.memUnavailable = false → s.hostWritable dpa.toNat bs.length = true →
         exec (.hdmWrite dpa bs false) s =
           .next (s.enqueueMem { cls := if hbm then 4 else 2, dpa := dpa.toNat, len := bs.length, data := some bs })) ∧
       (s.memUnavailable = false → s.hostWritable dpa.toNat bs.length = false →
         exec (.hdmWrite dpa bs false) s = .next (s.count Reg.HQ_HDM_WDROP))) ∧
     (hbm ∨ countEnd ≤ dpa.toNat → s.hdmBacked dpa.toNat = false →
       exec (.hdmRead dpa len false) s = .next (s.emit (.readData .f0 (List.replicate len 0))) ∧
       exec (.hdmWrite dpa bs false) s = .next (s.count Reg.HQ_HDM_WDROP)) ∧
     (∀ t, exec (.hdmRead dpa len true) s = .next t → exec (.hdmRead dpa len false) (s.count Reg.HQ_HDM_META) = .next t) ∧
     (∀ t, exec (.hdmWrite dpa bs true) s = .next t → exec (.hdmWrite dpa bs false) (s.count Reg.HQ_HDM_META) = .next t)) ∧
  (∀ (s : State) (q : BitVec 14) (x : HostQ), s.hq q.toNat = some x →
     let at' (k : Nat) : Nat := 32 * (k % 2 ^ x.log2)
     (∀ bs, x.inject = true → x.next + x.held.length < (s.countWord x.loc).toNat →
       s.readBytes (x.ring.toNat + at' (x.next + x.held.length)) 32 = (s, bs) →
       ∃ t, exec (.hostQueuePrefetch q) s = .next t ∧ t = { s with hostq := t.hostq, hold := t.hold } ∧
         t.hq q.toNat = some { x with held := x.held ++ [{ data := BitVec.ofNat 256 (ofBytes bs), last := false }] } ∧
         ((∀ n ∈ s.hold.needs, t.needMet n = true) → t.requested 4 .cxl = false) ∧
         ((∃ n ∈ s.hold.needs, t.needMet n = false) → t.hold = s.hold)) ∧
     (∀ port : Fin 32, s.issues = true → s.hubEntry port = (3, q.toNat) →
       (∀ f rest, x.inject = true → x.held = f :: rest →
         ∃ (t : State) (b : Beat), exec (.hostQueueInject port) s = .next t ∧ t = { s with arr := t.arr, hostq := t.hostq, out := t.out } ∧
           t.arr = { s.arr with beats := s.arr.beats ++ [b] } ∧ b.pic.val = port.val ∧ b.inp = .s ∧ b.wait = 1 ∧
           b.flit = some { data := f.data, kind := 0, bad := false, last := f.last } ∧
           (∃ y, t.hq q.toNat = some y ∧ y.next = x.next + 1 ∧ y.held = rest) ∧
           t.out = s.out ++ (if (x.next + 1) % 64 = 0 ∨ f.last = true then
             [.hostWrite x.far (bytesOf 8 (BitVec.ofNat 64 (x.next + 1)))] else [])) ∧
       (x.held = [] → s.hold.cancel = none →
         ∃ t, exec (.hostQueueInject port) s = .next t ∧ t.hold.stopped = true ∧ t.requested 4 .cxl = true ∧
           (q.toNat, x.next) ∈ t.hold.needs ∧ t.hostq = s.hostq ∧ t.arr.beats = s.arr.beats ∧ t.arr.cycle = s.arr.cycle)) ∧
     (∀ f, x.inject = false → x.owed = [] → (∀ c ∈ s.arr.commits, c.action = 2 → c.dest ≠ q.toNat) → x.held = [f] →
       x.next < (s.countWord x.loc).toNat + 2 ^ x.log2 →
       let due := decide (f.last = true ∨ (x.next + 1) % 64 = 0)
       ∃ t, exec (.hostQueueEject q) s = .next t ∧ t = { s with hostq := t.hostq, out := t.out } ∧
         (∃ y, t.hq q.toNat = some y ∧ y.next = x.next + 1 ∧ y.held = [] ∧ y.owed = if due && x.peer then [x.next + 1] else []) ∧
         t.out = s.out ++ [.hostWrite (x.ring + BitVec.ofNat 64 (at' x.next)) (s.sealFlit q.toNat x.next (bytesOf 32 f.data))] ++
           (if due && !x.peer then [.hostWrite x.far (bytesOf 8 (BitVec.ofNat 64 (x.next + 1)))] else [])) ∧
     (∀ n, x.inject = false → x.owed = [n] → (∀ c ∈ s.arr.commits, c.action = 2 → c.dest ≠ q.toNat) → x.held = [] →
       ∃ t, exec (.hostQueueEject q) s = .next t ∧ t = { s with hostq := t.hostq, out := t.out } ∧
         t.hq q.toNat = some { x with told := n, owed := [] } ∧
         t.out = s.out ++ [.hostWrite x.far (bytesOf 8 (BitVec.ofNat 64 n))]) ∧
     (∀ c, x.inject = false → x.owed = [] → s.arr.commits.find? (fun c => decide (c.action = 2) && decide (c.dest = q.toNat)) = some c →
       c.wait = 0 → 16384 ≤ s.ejectHeld → x.held = [] →
       ∃ t, exec (.hostQueueEject q) s = .next t ∧ t.arr.commits = s.arr.commits.erase c ∧ t.hq q.toNat = some x ∧
         OnlyRegs { s with arr := t.arr } t [Reg.HQ_EJECT_DROPS] ∧ t.rdB Reg.HQ_EJECT_DROPS 31 = true))

/-- R332, R336, R343 to R345, R351: the copy commands, and a subscriber's life: it joins the lowest free entry where there is a
context, its records are written or dropped, its vector follows each count, and it leaves when none is left. -/
def Obligations.SubscriberResults : Prop :=
  ∀ (s : State) (r : Fin 16) (e : SubEntry),
    let told (u : State) (x : Sub) (k : Nat) : State :=
      let v := u.emit (.hostWrite x.far (bytesOf 8 (BitVec.ofNat 64 k)))
      if x.vector < 64 then v.raise (BitVec.ofNat 6 x.vector) else v
    (∀ (i : Instr) (op : Byte) (a : Area) (kind : Nat),
      (i = .readEvents r none ∧ op = 0x04 ∧ a = eventArea ∧ kind = 4) ∨ (i = .readSurvey r none ∧ op = 0x05 ∧ a = surveyArea ∧ kind = 5) →
      Runs s r op 0 e → OpenContext s →
      ((s.rd64 a.wptr).toNat ≤ (s.rd64 a.rptr).toNat → Succeeds s i r s 0 0) ∧
      (∀ (h bs : List Byte), let pos := (s.rd64 a.rptr).toNat
        let dpa := ddrBase + (s.rd64 a.base).toNat + pos % s.areaSize a
        s.readBytes dpa 64 = (s, h) → State.isPad h = false → 64 ≤ State.storedLen h → State.storedLen h ≤ s.areaSize a →
        (s.rd64 a.wptr).toNat = pos + State.storedLen h → s.readBytes dpa (State.storedLen h) = (s, bs) → bs ≠ [] →
        s.isProtected = false →
        (bs.length ≤ e.len0.toNat →
          Succeeds s i r (s.emit (.hostWrite e.addr0 bs)) (BitVec.ofNat 64 bs.length) 1) ∧
        (e.len0.toNat < bs.length → exec i s = .next (s.completeBad r 0x10)))) ∧
    (∀ d : List Byte, Runs s r 0x0A 0 e → s.ctx ∈ [ctxNone, ctxOpening, ctxEnding, ctxScrubbing] →
      exec (.subJoin r d none) s = .next (s.complete r stUnavailable)) ∧
    (∀ d : List Byte, Runs s r 0x0A 0 e → s.ctx ∈ [ctxReady, ctxLoaded, ctxRunning] → State.subBad d = none →
      (∀ n, (List.range 1024).find? (fun n => decide ((s.sub n).state = 0)) = some n → s.countUsed (leAt d 0x10 2) = false →
        ∃ u, Succeeds s (.subJoin r d none) r u (BitVec.ofNat 64 (n + s.joins * 2 ^ 16)) (BitVec.ofNat 64 s.trg.seq) ∧
          (u.sub n).state = 1 ∧ (u.sub n).queue = [] ∧ (u.sub n).written = 0 ∧ (u.sub n).kinds = leAt d 0x18 4 ∧
          u.joins = s.joins + 1 ∧ u.rd64 (Reg.sub n Reg.HQ_SUB_DELIVERED) = 0 ∧ u.rd (Reg.sub n Reg.HQ_SUB_DROPS) = 0 ∧
          ∀ m, m ≠ n → u.sub m = s.sub m) ∧
      ((∀ n < 1024, (s.sub n).state ≠ 0) ∨ s.countUsed (leAt d 0x10 2) = true →
        exec (.subJoin r d none) s = .next (s.complete r stTableFull))) ∧
    (∀ n, Runs s r 0x0B 2 e → e.param 0 2 = n → n < 1024 →
      ((s.sub n).state = 1 → (s.sub n).queue = [] →
        ∃ u, Succeeds s (.subLeave r) r u (s.rd64 (Reg.sub n Reg.HQ_SUB_DELIVERED)) ((s.rd (Reg.sub n Reg.HQ_SUB_DROPS)).setWidth 64) ∧
          u.sub n = Sub.free ∧ u.out = (told s (s.sub n) (s.sub n).written).out) ∧
      ((s.sub n).state = 1 → (s.sub n).queue ≠ [] →
        ∃ t, exec (.subLeave r) s = .next t ∧ (t.sub n).state = 2 ∧ (t.sub n).queue = (s.sub n).queue ∧ t.running r = s.running r) ∧
      ((s.sub n).state ≠ 1 → exec (.subLeave r) s = .next (s.completeBad r 0x28))) ∧
    (∀ (n : Fin 1024) b rest, let x := s.sub n
      x.state = 1 → x.queue = b :: rest →
      (x.written < (s.countWord x.locCnt).toNat + 2 ^ x.log2 →
        ∃ t, exec (.subscriberRecordWrite n) s = .next t ∧ t.sub n = { x with queue := rest, written := x.written + 1 } ∧
          t.out = (told (s.emit (.hostWrite (x.ring + BitVec.ofNat 64 (64 * (x.written % 2 ^ x.log2)))
            (s.sealRecord n x.serial x.written b))) x (x.written + 1)).out ∧
          t.rd64 (Reg.sub n Reg.HQ_SUB_DELIVERED) = satInc (s.rd64 (Reg.sub n Reg.HQ_SUB_DELIVERED))) ∧
      ((s.countWord x.locCnt).toNat + 2 ^ x.log2 ≤ x.written →
        ∃ t, exec (.subscriberRecordWrite n) s = .next t ∧ t.sub n = { x with queue := rest } ∧ t.out = s.out ∧
          t.rd (Reg.sub n Reg.HQ_SUB_DROPS) = satInc (s.rd (Reg.sub n Reg.HQ_SUB_DROPS))))

/-- R347 to R354, R361, R366, R373, R400, R431: opening a context, what stands against it and the states that refuse it, its keys,
an attestation report,
the release of a key, the export of one, and the certificate chain. -/
def Obligations.ContextKeyResults : Prop :=
  ∀ (s : State) (r : Fin 16) (e : SubEntry) (data : List Byte),
    let epoch : DWord := (s.rd Reg.SEC_EPOCH).setWidth 64
    (Runs s r 0x40 1 e → s.ctx = ctxNone → e.param 0 1 ≤ 1 → (e.param 0 1 = 1 → e.len0.toNat = 384) →
      let prot := decide (e.param 0 1 = 1)
      let i : Instr := .ctxOpen r data none
      (s.rdB Reg.ERR_STATUS 31 = false → s.uePending = false → s.rdF Reg.GLB_BOOT_STATUS 8 4 = 0 → s.rdB Reg.SEC_CTX_STATUS 7 = true →
        (prot = true → s.ideActive = true) →
        ∃ t, exec i s = .next t ∧ t.ctx = ctxOpening ∧ t.isProtected = prot ∧ t.rd Reg.SEC_EPOCH = satInc (s.rd Reg.SEC_EPOCH) ∧
          t.rd64 Reg.SEC_VERSION_MAX = 0 ∧ t.running r = s.running r ∧ t.sec.opening = some r.val ∧ t.sec.keys = [] ∧
          t.sec.nonces = [] ∧ t.sec.owner = (if prot then fitTo 384 data else []) ∧ t.mem.dirty = []) ∧
      (s.rdB Reg.ERR_STATUS 31 = true ∨ s.uePending = true → exec i s = .next (s.completeRefused r 400)) ∧
      (s.rdB Reg.ERR_STATUS 31 = false → s.uePending = false → s.rdF Reg.GLB_BOOT_STATUS 8 4 ≠ 0 →
        exec i s = .next (s.completeRefused r 431)) ∧
      (s.rdB Reg.ERR_STATUS 31 = false → s.uePending = false → s.rdF Reg.GLB_BOOT_STATUS 8 4 = 0 → s.rdB Reg.SEC_CTX_STATUS 7 = false →
        exec i s = .next (s.completeRefused r 352)) ∧
      (s.rdB Reg.ERR_STATUS 31 = false → s.uePending = false → s.rdF Reg.GLB_BOOT_STATUS 8 4 = 0 → s.rdB Reg.SEC_CTX_STATUS 7 = true →
        prot = true → s.ideActive = false → exec i s = .next (s.completeRefused r 349))) ∧
    (Runs s r 0x40 1 e → e.param 0 1 ≤ 1 → (e.param 0 1 = 1 → e.len0.toNat = 384) →
      (s.ctx ∈ [ctxOpening, ctxReady, ctxLoaded, ctxRunning] →
        exec (.ctxOpen r data none) s = .next (s.completeRefused r 349)) ∧
      (s.ctx = ctxHalted → exec (.ctxOpen r data none) s = .next (s.completeState r)) ∧
      (s.ctx ∈ [ctxEnding, ctxScrubbing] → exec (.ctxOpen r data none) s = .next (s.complete r stUnavailable))) ∧
    (s.sec.opening = some r.val → s.ctx = ctxOpening → s.rdB Reg.SEC_CTX_STATUS 8 = true →
      ∃ u : State, exec .keyInstallComplete s = .next (u.completeOp 0x40 r stOk epoch) ∧ u.running r = s.running r ∧ u.ctx = ctxReady ∧
        u.rdB Reg.SEC_CTX_STATUS 8 = false ∧ u.keyGen = s.freeCount + 1 ∧ u.freeCount = s.freeCount + 1 ∧ u.sec.session = u.keyGen ∧
        u.sec.opening = none) ∧
    (Runs s r 0x41 0 e → 1152 ≤ e.len1.toNat →
      ∃ u sig, Succeeds s (.attest r data none) r u (BitVec.ofNat 64 s.reportFlags) (BitVec.ofNat 64 s.ctx) ∧ sig.length = 384 ∧
        u.out = s.out ++ [.hostWrite e.addr1 (s.reportBody data ++ sig)] ∧ u.regs = s.regs) ∧
    (Runs s r 0x42 0 e → e.len0.toNat = 384 → s.ctx ∈ [ctxReady, ctxLoaded, ctxRunning] →
      (∀ m, Config.sessionOpen s.sec.session data = some m → s.releaseOk m = true →
        ∃ u, Succeeds s (.keyRelease r data none) r u (BitVec.ofNat 64 (leAt m 8 4)) (BitVec.ofNat 64 (s.sec.keys.length + 1)) ∧
          u.sec.keys = s.sec.keys ++ [{ id := leAt m 8 4, measure := (m.drop 0x40).take 32, key := (m.drop 0x60).take 32 }] ∧
          u.regs = s.regs) ∧
      (Config.sessionOpen s.sec.session data = none ∨ (∃ m, Config.sessionOpen s.sec.session data = some m ∧ s.releaseOk m = false) →
        exec (.keyRelease r data none) s = .next (s.completeRefused r 366))) ∧
    (Runs s r 0x43 1 e → e.param 0 1 ≤ 1 → 384 ≤ e.len0.toNat → s.ctx ∈ [ctxReady, ctxLoaded, ctxRunning] →
      (s.isProtected = false → exec (.keyExport r none) s = .next (s.completeRefused r 373)) ∧
      (s.isProtected = true → ∃ u bs, Succeeds s (.keyExport r none) r u epoch 0 ∧ u.out = s.out ++ [.hostWrite e.addr0 bs])) ∧
    (Runs s r 0x44 0 e →
      (Config.chainVerifies s.flash.cert = true → s.flash.cert.length ≤ e.len0.toNat →
        Succeeds s (.getCert r none) r (s.emit (.hostWrite e.addr0 s.flash.cert)) (BitVec.ofNat 64 s.flash.cert.length)
          (BitVec.ofNat 64 (Config.chainCount s.flash.cert))) ∧
      (Config.chainVerifies s.flash.cert = false → exec (.getCert r none) s = .next (s.completeRefused r 355)))

/-- R355, R371, R380, R381: privilege: its challenge, its grant on an operator's signature, signed by the device, its end;
enrolling an operator key, and
setting a CAK. R352, R354, R369, R371, R391: the links' security: key agreement on a port, SPDM, IDE and its loss, and what
the random generator and the spare key report. -/
def Obligations.PrivilegeAndLinkResults : Prop :=
  (∀ (s : State) (r : Fin 16) (e : SubEntry) (m : Master) (sig key : List Byte),
     let slot := e.param 0 1
     let secs := e.param 4 4
     (Runs s r 0x45 0 e → 32 ≤ e.len0.toNat →
       ∃ u c, Succeeds s (.privChallenge r none) r u 0 0 ∧ c.length = 32 ∧ u.sec.challenge = some c ∧
         u.out = s.out ++ [.hostWrite e.addr0 c] ∧ u.regs = s.regs) ∧
     (Runs s r 0x46 8 e → slot ≤ 3 → e.firstNonzero 0x29 0x2C = none → secs ≤ 86400 → e.len0.toNat = 384 →
       (∀ c, s.sec.challenge = some c → s.fuse.opkey slot = some (sha256 key) → pssVerify key (s.grantMessage c secs) sig = true →
         ∃ (u : State) (mine : List Byte), Succeeds s (.privGrant r sig key none) r u (BitVec.ofNat 64 secs) 0 ∧
           OnlyRegs { s with sec := u.sec, out := u.out } u [Reg.SEC_PRIV] ∧ u.out = s.out ++ [.answer mine] ∧ mine.length = 384 ∧
           u.sec.challenge = none ∧ u.rdB Reg.SEC_PRIV 0 = decide (secs ≠ 0) ∧
           (secs ≠ 0 → u.rdF Reg.SEC_PRIV 8 24 = secs ∧ u.rdF Reg.SEC_PRIV 4 4 = slot)) ∧
       (s.sec.challenge = none →
         ∃ mine, mine.length = 384 ∧ exec (.privGrant r sig key none) s = .next ((s.emit (.answer mine)).completeRefused r 380)) ∧
       (∀ c, s.sec.challenge = some c →
         s.fuse.opkey slot ≠ some (sha256 key) ∨ pssVerify key (s.grantMessage c secs) sig = false →
         ∃ mine, mine.length = 384 ∧ exec (.privGrant r sig key none) s = .next ((s.emit (.answer mine)).completeRefused r 380))) ∧
     (∃ t, exec .privExpiry s = .next t ∧ OnlyRegs s t [Reg.SEC_PRIV] ∧ t.rd Reg.SEC_PRIV = 0) ∧
     (Runs s r 0x47 1 e → slot ≤ 3 → e.len0.toNat = 384 →
       (s.fuse.opkeys = [] ∨ s.privileged m = true → s.fuse.opkey slot = none →
         ∃ u, Succeeds s (.opkeyEnrol r m key none) r u 0 0 ∧ u.fuse.opkey slot = some (sha256 (fitTo 384 key)) ∧
           u.rdB Reg.SEC_OPKEYS slot = true ∧ u.fuse.repair = s.fuse.repair ∧ u.fuse.minSvn = s.fuse.minSvn) ∧
       ((s.fuse.opkeys ≠ [] ∧ s.privileged m = false) ∨ s.fuse.opkey slot ≠ none →
         exec (.opkeyEnrol r m key none) s = .next (s.completeRefused r 380))) ∧
     (Runs s r 0x48 24 e → slot ≤ 1 → e.firstNonzero 0x29 0x30 = none → e.len0.toNat = 32 →
       (m = .f1 → s.rdB Reg.SEC_PRIV 0 = true →
         ∃ u, Succeeds s (.cakSet r m key none) r u 0 0 ∧ u.regs = s.regs ∧
           SMap.get [] u.sec.cak slot = leBytes 16 (e.param 8 16) ++ fitTo 32 key) ∧
       (m ≠ .f1 ∨ s.rdB Reg.SEC_PRIV 0 = false → exec (.cakSet r m key none) s = .next (s.completeRefused r 381)))) ∧
  (∀ (s : State) (port : Fin 2) (p : CxlProto) (msg : List Byte),
     (SMap.get [] s.sec.cak port ≠ [] →
       ∃ t bs, exec (.mkaMessage port msg true) s = .next t ∧
         OnlyRegs { s with sec := t.sec, freeCount := t.freeCount, out := t.out } t [Reg.SEC_LINKS] ∧
         t.rdB Reg.SEC_LINKS (4 + port.val) = true ∧ (t.macSa port).isSome = true ∧ t.out = s.out ++ [.answer bs]) ∧
     (SMap.get [] s.sec.cak port = [] → exec (.mkaMessage port msg true) s = .next s) ∧
     (exec (.mkaMessage port msg false) s = .next s) ∧
     (∃ sig, sig.length = 384 ∧ exec (.spdmMessage .getMeasurements msg) s = .next (s.emit (.answer (s.measurements.flatten ++ sig)))) ∧
     (∃ t, exec (.spdmMessage (.ideKeyProgram p) msg) s = .next t ∧ OnlyRegs s t [Reg.SEC_LINKS, Reg.SEC_CTX_STATUS] ∧
       t.rdB Reg.SEC_LINKS (State.ideBit p) = true ∧ (t.ideActive = true ↔ t.rdF Reg.SEC_LINKS 0 3 = 7) ∧ t.ctx = s.ctx) ∧
     (∃ u : State, OnlyRegs s u [Reg.SEC_LINKS, Reg.SEC_CTX_STATUS] ∧ u.rdB Reg.SEC_LINKS (State.ideBit p) = false ∧ u.ideActive = false ∧
       u.ctx = s.ctx ∧
       (s.rdB Reg.SEC_LINKS (State.ideBit p) = true → s.isProtected = true → s.ctx ∈ [ctxOpening, ctxReady, ctxLoaded, ctxRunning, ctxHalted] →
         exec (.ideLost p) s = .next (u.uncorrectable 0x0B 1) ∧
         exec (.spdmMessage (.ideKeyStop p) msg) s = .next (u.uncorrectable 0x0B 1)) ∧
       (s.isProtected = false → exec (.ideLost p) s = .next u ∧ exec (.spdmMessage (.ideKeyStop p) msg) s = .next u)) ∧
     (∃ t, exec .spareKeyReady s = .next t ∧ OnlyRegs { s with sec := t.sec } t [Reg.SEC_CTX_STATUS] ∧ t.rdB Reg.SEC_CTX_STATUS 8 = true ∧
       t.ctx = s.ctx) ∧
     (exec .drbgReseed s = .next { s with sec := { s.sec with reqs := 0 } }) ∧
     (∃ t, exec .entropyHealthFail s = .next t ∧ OnlyRegs s t [Reg.SEC_CTX_STATUS] ∧ t.rdB Reg.SEC_CTX_STATUS 7 = false ∧ t.ctx = s.ctx))

/-- R187, R389 to R396, R399, R401, R412: an error enters the log, is counted and stops the context; a second one, or a fatal
one, takes the device to CONTAIN; the Cartouche's watchdog is a fatal error; a CXL link that goes down is an error while a context
runs; the first array fault is held; the log's head leaves it; a fault is injected. -/
def Obligations.ErrorResults : Prop :=
  ∀ (s : State),
    (∀ (src : Byte) (loc : DWord), 1 ≤ src.toNat → src.toNat ≤ 0x10 →
      ∃ t, exec (.uncorrectableError src loc) s = .next t ∧ Logged s t src clsUncorrectable loc ∧
        (s.uePending = true → t.contained = true ∧ t.acq.stopped = true) ∧ (s.uePending = false → t.contained = s.contained)) ∧
    (∀ (src : Byte) (loc : DWord), 1 ≤ src.toNat → src.toNat ≤ 0x10 →
      ∃ t, exec (.fatalError src loc) s = .next t ∧ Logged s t src clsFatal loc ∧ t.contained = true ∧ t.acq.stopped = true) ∧
    (∃ t, exec .cartoucheWatchdogExpiry s = .next t ∧ Logged s t 0x10 clsFatal 0x1F ∧ t.contained = true ∧ t.acq.stopped = true) ∧
    (∀ (m : Master) (v : Word), s.answers Reg.ERR_LOG_CTL = true →
      ∃ t, exec (.errLogPop m v) s = .next t ∧ t = { s with log := t.log } ∧ t.log.nextSeq = s.log.nextSeq ∧
        t.log.entries = if bit v 0 then s.log.entries.tail else s.log.entries) ∧
    (s.contextRuns = true →
      ∃ t, exec .cxlLinkDown s = .next t ∧ Logged s t 0x0A clsUncorrectable 0 ∧ t.boot.linkUp = false) ∧
    (s.contextRuns = false →
      ∃ t, exec .cxlLinkDown s = .next t ∧ t.boot.linkUp = false ∧ t.ctx = s.ctx ∧ t.log.nextSeq = s.log.nextSeq + 1 ∧
        (s.log.entries.length < 64 → ∃ x, t.log.entries = s.log.entries ++ [x] ∧ x.source = 0x0A ∧ x.cls = clsInfo ∧ x.loc = 0)) ∧
    (s.doomed = false → ∀ kind (pic : Fin 1024) lg unit origin, let t := s.arrayFault kind pic lg unit origin
      t.rd Reg.ARY_FAULT_COUNT = satInc (s.rd Reg.ARY_FAULT_COUNT) ∧ t.rdB Reg.ERR_STATUS 28 = true ∧
      (s.rd Reg.ARY_FAULT ≠ 0 → t.rd Reg.ARY_FAULT = s.rd Reg.ARY_FAULT) ∧
      (s.rd Reg.ARY_FAULT = 0 → kind < 8 → lg < 8 → unit < 8 → origin < 16 → s.arr.cycle < 64 →
        t.rdF Reg.ARY_FAULT 28 3 = kind ∧ t.rdF Reg.ARY_FAULT 16 10 = pic.val ∧ t.rdF Reg.ARY_FAULT 13 3 = lg ∧
        t.rdF Reg.ARY_FAULT 10 3 = unit ∧ t.rdF Reg.ARY_FAULT 6 4 = origin ∧ t.rdF Reg.ARY_FAULT 0 6 = s.arr.cycle) ∧
      (s.ctx = ctxRunning → t.ctx = ctxHalted ∧ t.aryState = aryStopped)) ∧
    (s.doomed = true → ∀ kind (pic : Fin 1024) lg unit origin, s.arrayFault kind pic lg unit origin = s) ∧
    (∀ (r : Fin 16) (m : Master) e, Runs s r 0x63 16 e → e.param 0 1 ≤ 2 → e.param 1 1 = 1 ∨ e.param 1 1 = 2 →
      e.firstNonzero 0x2A 0x30 = none → s.injectable (e.param 0 1) (e.param 8 8) = true →
      (m = .f1 → s.rdB Reg.SEC_PRIV 0 = true →
        ∃ u : State, exec (.errInject r m) s = .next (u.complete r stOk) ∧ u.running r = s.running r ∧
          u = { s with arr := u.arr, mem := u.mem } ∧
          (e.param 0 1 = 0 → let p := e.param 8 8 % 1024
            let a := e.param 8 8 / 2 ^ 13 % 2 ^ 17
            SMap.get 0 (u.picot p).sramErr a = SMap.get 0 (s.picot p).sramErr a ^^^ (if e.param 1 1 = 2 then 0x11 else 0x1))) ∧
      (m ≠ .f1 ∨ s.rdB Reg.SEC_PRIV 0 = false → exec (.errInject r m) s = .next (s.completeRefused r 412)))

/-- R405 to R412: the calibration store is read, written and saved, records are appended and the full bank compacted, and an
ageing monitor takes its daily sample. -/
def Obligations.CalibrationResults : Prop :=
  ∀ (s : State) (r : Fin 16) (e : SubEntry) (m : Master) (bs : List Byte),
    (Runs s r 0x60 0 e →
      let rs := (lastRecs s.cal.journal).filter (fun x => decide (x.typ ≤ 4))
      let all := rs.flatMap CalRec.bytes
      (all.length ≤ e.len0.toNat → Succeeds s (.calRead r none) r (s.emit (.hostWrite e.addr0 all)) (BitVec.ofNat 64 all.length)
        (BitVec.ofNat 64 rs.length)) ∧
      (e.len0.toNat < all.length → exec (.calRead r none) s = .next (s.completeBad r 0x10))) ∧
    (Runs s r 0x61 4 e → e.param 0 4 = 0x57524C43 →
      (m = .f1 → s.rdB Reg.SEC_PRIV 0 = true → s.ctx = ctxNone →
        (∀ rs, calRecs (bs.take e.len0.toNat) (bs.length + 1) 0 [] = .ok rs →
          ∃ u, Succeeds s (.calWrite r m bs none) r u (BitVec.ofNat 64 rs.length) 0 ∧
            u.cal = rs.foldl (fun c x => c.append x.1 x.2.1 x.2.2) s.cal) ∧
        (∀ off, calRecs (bs.take e.len0.toNat) (bs.length + 1) 0 [] = .error off →
          exec (.calWrite r m bs none) s = .next (s.completeBad r off))) ∧
      (m = .f1 → s.rdB Reg.SEC_PRIV 0 = true → s.ctx ≠ ctxNone → exec (.calWrite r m bs none) s = .next (s.completeState r)) ∧
      (m ≠ .f1 ∨ s.rdB Reg.SEC_PRIV 0 = false → exec (.calWrite r m bs none) s = .next (s.completeRefused r 412))) ∧
    (Runs s r 0x62 0 e →
      (m = .f1 → s.rdB Reg.SEC_PRIV 0 = true → s.ctx = ctxNone →
        let vs := s.adaptEqs.calInUse
        ∃ u, Succeeds s (.calSave r m) r u (BitVec.ofNat 64 vs.length) 0 ∧
          u.cal = vs.foldl (fun c x => c.append x.1 x.2.1 x.2.2) s.cal) ∧
      (m = .f1 → s.rdB Reg.SEC_PRIV 0 = true → s.ctx ≠ ctxNone → exec (.calSave r m) s = .next (s.completeState r)) ∧
      (m ≠ .f1 ∨ s.rdB Reg.SEC_PRIV 0 = false → exec (.calSave r m) s = .next (s.completeRefused r 412))) ∧
    (∀ (c : CalStore) (typ key : Nat) (p : List Byte), c.inUse ≠ none → c.bank.torn = false →
      let rec' : CalRec := { seq := c.seq, typ := typ, key := key, factory := false, payload := p }
      (c.append typ key p).seq = c.seq + 1 ∧
      (c.bank.used + rec'.size ≤ 786432 →
        (c.append typ key p).bank = { c.bank with recs := c.bank.recs ++ [rec'] } ∧ (c.append typ key p).inUse = c.inUse) ∧
      (786432 < c.bank.used + rec'.size →
        (c.append typ key p).inUse = c.inUse.map (fun b => !b) ∧ (c.append typ key p).bank.gen = c.bank.gen + 1 ∧
        (c.append typ key p).bank.recs = inForceRecs c.bank.recs ++ [rec'])) ∧
    (∀ (kind : Fin 5) (index : BitVec 16) (y : Int), let k := kind.val * 65536 + index.toNat
      let new := (SMap.get Monitor.none s.health k).sample kind.val y
      ∃ t, exec (.ageingSample kind index y) s = .next t ∧ SMap.get Monitor.none t.health k = new ∧
        (∀ j, j ≠ k → SMap.get Monitor.none t.health j = SMap.get Monitor.none s.health j) ∧
        t.cal = s.cal.append 0x10 k new.payload)

/-- R14, R144, R352, R407, R414, R428 to R437: the pins and the boot phases in order, the ROM's choice of firmware, and a boot or
a trial that does not end. -/
def Obligations.BootResults : Prop :=
  ∀ (s : State),
    (s.boot.porLow = true →
      let low : List Out := .pps false s.timeline :: (List.range 16).map (fun o => .trig o false)
      ∃ t, exec .porLRise s = .next t ∧
        OnlyRegs { s with boot := { s.boot with porLow := false, began := s.now }, out := s.out ++ low } t [Reg.GLB_POWER_STATUS] ∧
        t.rdF Reg.GLB_POWER_STATUS 0 12 = 0xFFF) ∧
    (s.boot.perstLow = true → exec .perstLRise s = .next { s with boot := { s.boot with perstLow := false, began := s.now } }) ∧
    (s.boot.porLow = false → s.boot.perstLow = false → exec .cxlLinkTrained s = .next { s with boot := { s.boot with linkUp := true } }) ∧
    (∀ ok : Bool, s.boot.cold = true → s.phase ≤ 1 → s.boot.porLow = false →
      ∃ t, exec (.fusesPhaseComplete ok) s = .next t ∧ t.phase = 2 ∧ t.fuse = s.fuse ∧ t.repair = s.fuse.repair ∧
        t.rdB Reg.SEC_CTX_STATUS 7 = ok ∧ ∀ x ∈ s.fuse.opkeys, x.1 < 32 → t.rdB Reg.SEC_OPKEYS x.1 = true) ∧
    (∀ failed, s.phase = 2 →
      ∃ t, exec (.bistComplete failed) s = .next t ∧ t.phase = 3 ∧ t.rdB Reg.GLB_CLK_STATUS 3 = true ∧
        t.rdB Reg.GLB_BOOT_STATUS 8 = t.rdB Reg.ARY_STATUS 7 ∧ (failed = [] → t.rdB Reg.ARY_STATUS 7 = false)) ∧
    (let f := s.flash.record
     let next := if s.boot.cold then 4 else 5
     s.phase = 3 →
     (stagedSlot f.staged = none → s.slotValid f.active = true →
       ∃ t, exec .firmwarePhaseComplete s = .next t ∧ t.phase = next ∧ t.boot.slot = some f.active ∧
         t.boot.measure = s.flash.measure f.active ∧ t.rd Reg.GLB_FW_SVN = BitVec.ofNat 32 (s.flash.svn f.active) ∧
         t.onTrial = false ∧ t.transition = false ∧ t.flash = s.flash) ∧
     (∀ b, stagedSlot f.staged = some b → 0 < f.tries → s.slotValid b = true →
       ∃ t, exec .firmwarePhaseComplete s = .next t ∧ t.phase = next ∧ t.boot.slot = some b ∧ t.onTrial = true ∧ t.transition = true ∧
         t.flash.record = { f with seq := f.seq + 1, tries := f.tries - 1 }) ∧
     (∀ b, stagedSlot f.staged = some b → f.tries = 0 → s.slotValid f.active = true →
       ∃ t, exec .firmwarePhaseComplete s = .next t ∧ t.phase = next ∧ t.boot.slot = some f.active ∧ t.onTrial = false ∧
         t.rdB Reg.GLB_FW_STATUS 4 = true ∧ t.flash.record = { f with seq := f.seq + 1, staged := 0, tries := 0 }) ∧
     (stagedSlot f.staged = none → s.slotValid f.active = false → s.slotValid (!f.active) = true →
       ∃ t, exec .firmwarePhaseComplete s = .next t ∧ t.phase = next ∧ t.boot.slot = some (!f.active) ∧
         t.flash.record = { f with seq := f.seq + 1, active := !f.active }) ∧
     (stagedSlot f.staged = none → s.slotValid false = false → s.slotValid true = false →
       ∃ t, exec .firmwarePhaseComplete s = .next t ∧ t.phase = 8 ∧ t.boot.slot = none ∧ t.rdB Reg.GLB_BOOT_STATUS 12 = true ∧
         t.rdB Reg.GLB_BOOT_STATUS 13 = true)) ∧
    (s.phase = 4 → ∃ t, exec .calibrationPhaseComplete s = .next t ∧ t.phase = 5 ∧ t.cal = s.cal.select) ∧
    (∀ (hbm : BitVec 12) (ddr : BitVec 8) (mm : Bool), s.phase = 5 →
      ∃ t, exec (.memoryTrainingComplete hbm ddr mm) s = .next t ∧ t.phase = 6 ∧ t.ctx = ctxScrubbing ∧ t.mem = s.mem ∧
        (s.boot.cold = true → t.rdF Reg.GLB_BOOT_STATUS 16 12 = hbm.toNat ∧ t.rdB Reg.GLB_BOOT_STATUS 9 = decide (hbm ≠ 0xFFF) ∧
          t.rdB Reg.GLB_BOOT_STATUS 10 = decide (ddr ≠ 0xFF) ∧ t.rdB Reg.GLB_BOOT_STATUS 11 = mm)) ∧
    (s.phase = 6 →
      ∃ t, exec .memoryInitComplete s = .next t ∧ t.phase = 7 ∧ t.ctx = ctxNone ∧ t.isProtected = false ∧ t.sec.scrub = 0 ∧
        ∀ l, s.boot.cold = true ∨ isHbm l = true ∨ (256 * l - ddrBase) / 2 ^ 30 ∈ s.mem.dirty → t.line l = Line.blank ∧ l ∉ t.mem.lost) ∧
    (4 ≤ s.phase → s.phase ≤ 6 →
      (s.onTrial = true → exec .bootTimerExpiry s = .next (s.warmReset 6)) ∧
      (s.onTrial = false → ∃ t, exec .bootTimerExpiry s = .next t ∧ OnlyRegs s t [Reg.GLB_BOOT_STATUS] ∧ t.phase = 15)) ∧
    (s.phase = 7 → s.onTrial = true → exec .trialTimeout s = .next (s.warmReset 5)) ∧
    (s.onTrial = false → exec .trialTimeout s = .next s)

/-- R401, R431 to R438: firmware is written into the slot that is not active, staged, confirmed or discarded by those who may,
and the Legend controller's watchdog is kicked, expires and ends in a restart. -/
def Obligations.FirmwareResults : Prop :=
  ∀ (s : State) (r : Fin 16) (e : SubEntry) (m : Master) (data : List Byte),
    let f := s.flash.record
    let other := !f.active
    (Runs s r 0x70 8 e → e.len0.toNat % 256 = 0 → e.len0.toNat ≤ 2 ^ 20 → e.param 0 8 = 0 →
      (s.fwAllowed m = true → s.transition = false →
        ∃ u, Succeeds s (.fwWrite r m data none) r u e.len0 0 ∧ u = { s with flash := u.flash } ∧
          u.flash.bytes other 0 e.len0.toNat = fitTo e.len0.toNat data ∧ u.flash.slot f.active = s.flash.slot f.active ∧
          u.flash.record = f ∧ ∀ i, e.len0.toNat ≤ i → SMap.get 0xFF (u.flash.slot other) i = 0xFF) ∧
      (s.fwAllowed m = true → s.transition = true → exec (.fwWrite r m data none) s = .next (s.completeState r)) ∧
      (s.fwAllowed m = false → exec (.fwWrite r m data none) s = .next (s.completeRefused r 438))) ∧
    (Runs s r 0x71 0 e →
      (s.fwAllowed m = true → s.transition = false → s.slotValid other = true → s.phase ≠ 8 →
        ∃ u, Succeeds s (.fwStage r m) r u (BitVec.ofNat 64 (s.flash.svn other)) 0 ∧ u.transition = true ∧
          u.flash.record = { f with seq := f.seq + 1, staged := stagedCode other, tries := 3 }) ∧
      (s.fwAllowed m = true → s.transition = false → s.slotValid other = false → exec (.fwStage r m) s = .next (s.completeRefused r 431)) ∧
      (s.fwAllowed m = true → s.transition = true → exec (.fwStage r m) s = .next (s.completeState r)) ∧
      (s.fwAllowed m = false → exec (.fwStage r m) s = .next (s.completeRefused r 438))) ∧
    (Runs s r 0x72 1 e → e.param 0 1 ≤ 1 →
      (∀ b, s.fwAllowed m = true → s.onTrial = true → s.phase = 7 → s.boot.slot = some b →
        ∃ u, Succeeds s (.fwConfirm r m) r u (BitVec.ofNat 64 u.fuse.minSvn) 0 ∧ u.onTrial = false ∧ u.transition = false ∧
          u.flash.record = { seq := f.seq + 1, active := b, staged := 0, tries := 0 } ∧
          u.fuse = { s.fuse with minSvn := if e.param 0 1 = 1 then max s.fuse.minSvn (min (s.rd Reg.GLB_FW_SVN).toNat 64) else s.fuse.minSvn }) ∧
      (s.fwAllowed m = true → s.onTrial = false → exec (.fwConfirm r m) s = .next (s.completeState r)) ∧
      (s.fwAllowed m = false → exec (.fwConfirm r m) s = .next (s.completeRefused r 438))) ∧
    (Runs s r 0x73 0 e →
      (s.fwAllowed m = true → s.transition = true → s.onTrial = false →
        ∃ t, exec (.fwDiscard r m) s = .next t ∧ t.running r = none ∧ t.transition = false ∧ t.out = (s.complete r stOk).out ∧
          t.flash.record = { f with seq := f.seq + 1, staged := 0, tries := 0 }) ∧
      (s.fwAllowed m = true → s.transition = false → exec (.fwDiscard r m) s = .next (s.completeState r)) ∧
      (s.fwAllowed m = false → exec (.fwDiscard r m) s = .next (s.completeRefused r 438))) ∧
    (∀ v : Word, s.answers Reg.HLT_WDOG = true → bit v 16 = true →
      (m = .legend →
        ∃ t, exec (.watchdogKick m v) s = .next t ∧ OnlyRegs { s with boot := { s.boot with kicked := s.timeline } } t [Reg.HLT_WDOG] ∧
          t.rdB Reg.HLT_WDOG 16 = false) ∧
      (m ≠ .legend → exec (.watchdogKick m v) s = .next (s.refuse m Reg.HLT_WDOG))) ∧
    (s.boot.slot ≠ none → s.boot.legendDown = false →
      ∃ t, exec .watchdogExpiry s = .next t ∧
        ((s.boot.expiries.filter (fun t => decide ((s.timeline - t).toNat < 640000000000))).length < 2 →
          t.boot.legendDown = true ∧ t.rdB Reg.HLT_STATUS 2 = true ∧ t.contained = s.contained ∧ t.ctx = s.ctx ∧
          ∀ k : Fin 16, ∀ x, s.running k = some x → State.legendRuns x.opcode = true → t.running k = none) ∧
        (2 ≤ (s.boot.expiries.filter (fun t => decide ((s.timeline - t).toNat < 640000000000))).length → s.onTrial = false →
          t.contained = true)) ∧
    (s.boot.slot = none ∨ s.boot.legendDown = true → exec .watchdogExpiry s = .next s) ∧
    (exec .legendRestartComplete s = .next { s with boot := { s.boot with legendDown := false, kicked := s.timeline } })

/-- A step takes the command at the front of the queue and runs it with the queue's rest; with an empty queue (the model's
choice, log entry 20) it runs the clocks to their next edge. -/
def Obligations.StepRunsFrontCommand : Prop :=
  (∀ (c : Instr) (s : State), step { s with pending := c :: s.pending } = exec c s) ∧
  (∀ (s : State) (c : Instr) (rest : List Instr), s.pending = c :: rest → step s = exec c { s with pending := rest }) ∧
  (∀ s : State, s.pending = [] → step s = .next s.tick)

/-- Every command completes with a next state, and none touches the queue of waiting commands or the stepping; none but those
that burn fuses touches a fuse (R144, R380, R436). -/
def Obligations.CommandsComplete : Prop :=
  ∀ (c : Instr) (s : State), ∃ t, exec c s = .next t ∧ t.pending = s.pending ∧ t.b0 = s.b0 ∧ (burnsFuses c = false → t.fuse = s.fuse)

/-- R144, R380, R436: whatever step the block takes, a burned fuse stays burned: the repair of a row, the hash of an operator-key
slot, and MIN_SVN, which never falls. -/
def Obligations.FusesOnlyGrow : Prop :=
  ∀ (f : Fuses) (s t : State), f.le s.fuse → step s = .next t → f.le t.fuse

/-- R308, R348, R428, R440: after reset every register word reads its reset value (zero where chapter 14 gives a source and no
number: the model's choice, log entry 3), the device is in phase ROM without a context, the servo runs free, nothing waits, the
logs are empty, and the fuses (DESIGN CHOICE, log entry 4) are as the fuse invariant asks. -/
def Obligations.ResetValues : Prop :=
  let s := State.reset
  (∀ k, s.rd k = resetWord k) ∧ s.phase = 0 ∧ s.ctx = ctxNone ∧ s.aryState = aryIdle ∧ s.servo = 0 ∧ s.time.rate = 0 ∧
  s.rd Reg.GLB_CLK_STATUS = 3 ∧ s.rd Reg.ERR_CFG = 0x0001_0000 ∧ s.rd Reg.TIM_STEP_THR = 1000 ∧
  s.pending = [] ∧ s.log.entries = [] ∧ s.out = [] ∧ s.boot.cold = true ∧ (∀ p, s.picot p = Picot.blank) ∧
  (∀ l, s.line l = Line.blank) ∧ (∀ r, s.running r = none) ∧ Fuses.blank.le s.fuse
end

