-- ==== Sys2Proof/Laws/SMap.lean ====
section
/-!
SUPPORT. The laws of sparse stores: a read after a write, and the canonical form that every write keeps.
-/

namespace Sys2Proof.SMap

variable {α : Type}

@[simp] theorem get_nil (d : α) (k : Nat) : SMap.get d [] k = d := rfl

theorem get_cons (d : α) (k' : Nat) (v : α) (m : SMap α) (k : Nat) :
    SMap.get d ((k', v) :: m) k = if k = k' then v else SMap.get d m k := rfl

theorem get_map_const (d x : α) (l : List Nat) (k : Nat) :
    SMap.get d (l.map (fun p => (p, x))) k = if k ∈ l then x else d := by
  induction l with
  | nil => rfl
  | cons p l ih => by_cases h : k = p <;> simp [get_cons, ih, h]

theorem get_insert (d : α) (m : SMap α) (k j : Nat) (v : α) :
    SMap.get d (SMap.insert m k v) j = if j = k then v else SMap.get d m j := by
  induction m with
  | nil => rfl
  | cons p m ih =>
    obtain ⟨k', v'⟩ := p
    by_cases h1 : k < k'
    · simp [SMap.insert, h1, get_cons]
    · by_cases h2 : k = k'
      · subst h2
        by_cases hj : j = k <;> simp [SMap.insert, get_cons, hj]
      · by_cases hj : j = k
        · subst hj
          simp [SMap.insert, h1, h2, get_cons, ih]
        · simp [SMap.insert, h1, h2, get_cons, ih, hj]

theorem get_erase (d : α) (m : SMap α) (k j : Nat) :
    SMap.get d (SMap.erase m k) j = if j = k then d else SMap.get d m j := by
  induction m with
  | nil => simp [SMap.erase]
  | cons p m ih =>
    obtain ⟨k', v'⟩ := p
    by_cases h : k = k'
    · subst h
      by_cases hj : j = k
      · subst hj
        simpa [SMap.erase] using ih
      · simp [SMap.erase, get_cons, ih, hj]
    · by_cases hj : j = k
      · subst hj
        simp [SMap.erase, h, get_cons, ih]
      · simp [SMap.erase, h, get_cons, ih, hj]

/-- Read after write, at every key. -/
theorem get_set [DecidableEq α] (d : α) (m : SMap α) (k j : Nat) (v : α) :
    SMap.get d (SMap.set d m k v) j = if j = k then v else SMap.get d m j := by
  unfold SMap.set
  split
  · rename_i h
    rw [get_erase, h]
  · exact get_insert d m k j v

@[simp] theorem get_set_self [DecidableEq α] (d : α) (m : SMap α) (k : Nat) (v : α) :
    SMap.get d (SMap.set d m k v) k = v := by simp [get_set]

theorem get_set_ne [DecidableEq α] (d : α) (m : SMap α) {k j : Nat} (v : α) (h : j ≠ k) :
    SMap.get d (SMap.set d m k v) j = SMap.get d m j := by simp [get_set, h]

/-- A write at a key of one default leaves what another default reads elsewhere. -/
theorem get_set_ne' [DecidableEq α] (d e : α) (m : SMap α) {k j : Nat} (v : α) (h : j ≠ k) :
    SMap.get e (SMap.set d m k v) j = SMap.get e m j := by
  unfold SMap.set
  split
  · simp [get_erase, h]
  · simp [get_insert, h]

theorem above_insert (m : SMap α) (b k : Nat) (v : α) (hm : SMap.above b m = true) (hb : b < k) :
    SMap.above b (SMap.insert m k v) = true := by
  induction m with
  | nil => simpa [SMap.insert, SMap.above] using hb
  | cons p m ih =>
    obtain ⟨k', v'⟩ := p
    simp only [SMap.above, Bool.and_eq_true, decide_eq_true_eq] at hm
    unfold SMap.insert
    split
    · simp [SMap.above, hb, hm]
    · split
      · simp [SMap.above, hb, hm]
      · simp [SMap.above, hm, ih hm.2]

theorem above_erase (m : SMap α) (b k : Nat) (hm : SMap.above b m = true) :
    SMap.above b (SMap.erase m k) = true := by
  induction m with
  | nil => rfl
  | cons p m ih =>
    obtain ⟨k', v'⟩ := p
    simp only [SMap.above, Bool.and_eq_true, decide_eq_true_eq] at hm
    unfold SMap.erase
    split
    · exact ih hm.2
    · simp [SMap.above, hm, ih hm.2]

theorem above_trans (m : SMap α) (b c : Nat) (hm : SMap.above c m = true) (hbc : b ≤ c) :
    SMap.above b m = true := by
  induction m with
  | nil => rfl
  | cons p m ih =>
    obtain ⟨k', v'⟩ := p
    simp only [SMap.above, Bool.and_eq_true, decide_eq_true_eq] at hm ⊢
    exact ⟨by omega, ih hm.2⟩

theorem wf_insert [DecidableEq α] (d : Nat → α) (m : SMap α) (k : Nat) (v : α) (hm : SMap.wf d m = true)
    (hv : v ≠ d k) : SMap.wf d (SMap.insert m k v) = true := by
  induction m with
  | nil => simp [SMap.insert, SMap.wf, SMap.above, hv]
  | cons p m ih =>
    obtain ⟨k', v'⟩ := p
    simp only [SMap.wf, Bool.and_eq_true, decide_eq_true_eq] at hm
    obtain ⟨⟨ha, hne⟩, hw⟩ := hm
    unfold SMap.insert
    split
    · rename_i h
      simp [SMap.wf, SMap.above, ha, hne, hw, hv, h, above_trans m k k' ha (le_of_lt h)]
    · split
      · rename_i _ h
        subst h
        simp [SMap.wf, ha, hw, hv]
      · simp [SMap.wf, hne, ih hw, above_insert m k' k v ha (by omega)]

theorem wf_erase [DecidableEq α] (d : Nat → α) (m : SMap α) (k : Nat) (hm : SMap.wf d m = true) :
    SMap.wf d (SMap.erase m k) = true := by
  induction m with
  | nil => rfl
  | cons p m ih =>
    obtain ⟨k', v'⟩ := p
    simp only [SMap.wf, Bool.and_eq_true, decide_eq_true_eq] at hm
    obtain ⟨⟨ha, hne⟩, hw⟩ := hm
    unfold SMap.erase
    split
    · exact ih hw
    · simp [SMap.wf, hne, ih hw, above_erase m k' k ha]

/-- A write keeps the canonical form of a store whose key `k` reads as `d k` where unlisted. -/
theorem wf_set [DecidableEq α] (d : Nat → α) (m : SMap α) (k : Nat) (v : α) (hm : SMap.wf d m = true) :
    SMap.wf d (SMap.set (d k) m k v) = true := by
  unfold SMap.set
  split
  · exact wf_erase d m k hm
  · rename_i h
    exact wf_insert d m k v hm h

end Sys2Proof.SMap
end

