-- ==== Sys2Proof/Laws/Keep.lean ====
section
/-!
SUPPORT. What commands leave alone: the queue of commands, the device's constants and the fuses, in one value, and the
lemmas by which it passes through the shapes of the model's definitions.
-/

namespace Sys2Proof.Machine

/-- The queue, the stepping, the module capacity and the fuses. -/
def State.keep (s : State) : List Instr × Bool × Fin 4 × Fuses := (s.pending, s.b0, s.ddrLog, s.fuse)

/-- An outcome whose next state, where there is one, keeps what `s` holds. -/
def Keeps (s : State) (o : Outcome) : Prop := ∀ t, o = .next t → t.keep = s.keep

/-- The same of an optional state. -/
def OKeeps (s : State) (o : Option State) : Prop := ∀ t, o = some t → t.keep = s.keep

@[simp] theorem keeps_next (s t : State) : Keeps s (.next t) ↔ t.keep = s.keep :=
  ⟨fun h => h t rfl, fun h u hu => by cases hu; exact h⟩

@[simp] theorem keeps_ite (c : Prop) [Decidable c] (s : State) (a b : Outcome) :
    Keeps s (if c then a else b) ↔ if c then Keeps s a else Keeps s b := by split <;> rfl

@[simp] theorem okeeps_none (s : State) : OKeeps s none := fun _ h => by cases h

@[simp] theorem okeeps_some (s t : State) : OKeeps s (some t) ↔ t.keep = s.keep :=
  ⟨fun h => h t rfl, fun h u hu => by cases hu; exact h⟩

@[simp] theorem okeeps_ite (c : Prop) [Decidable c] (s : State) (a b : Option State) :
    OKeeps s (if c then a else b) ↔ if c then OKeeps s a else OKeeps s b := by split <;> rfl

theorem Fuses.le_refl (f : Fuses) : f.le f := ⟨fun _ _ => rfl, fun _ _ h => h, Nat.le_refl _⟩

theorem Fuses.le_trans {f g h : Fuses} (a : f.le g) (b : g.le h) : f.le h := by
  refine ⟨fun row hr => ?_, fun slot x hx => b.2.1 slot x (a.2.1 slot x hx), Nat.le_trans a.2.2 b.2.2⟩
  have e := a.1 row hr
  rw [b.1 row (by unfold Fuses.burned at hr ⊢; rwa [e]), e]

/-- `t` may follow `s`: queue and constants are the same, and the fuses have only grown. -/
def Grows (s t : State) : Prop := t.pending = s.pending ∧ t.b0 = s.b0 ∧ t.ddrLog = s.ddrLog ∧ s.fuse.le t.fuse

theorem State.keep_parts {s t : State} (h : t.keep = s.keep) :
    t.pending = s.pending ∧ t.b0 = s.b0 ∧ t.ddrLog = s.ddrLog ∧ t.fuse = s.fuse := by
  simpa [State.keep] using h

theorem Grows.of_keep {s t : State} (h : t.keep = s.keep) : Grows s t := by
  simp only [State.keep, Prod.mk.injEq] at h
  exact ⟨h.1, h.2.1, h.2.2.1, h.2.2.2 ▸ Fuses.le_refl _⟩

theorem Grows.trans {s t u : State} (a : Grows s t) (b : Grows t u) : Grows s u :=
  ⟨b.1.trans a.1, b.2.1.trans a.2.1, b.2.2.1.trans a.2.2.1, Fuses.le_trans a.2.2.2 b.2.2.2⟩

/-- An outcome whose next state, where there is one, may follow `s`. -/
def GrowsO (s : State) (o : Outcome) : Prop := ∀ t, o = .next t → Grows s t

/-- The same of an optional state. -/
def OGrows (s : State) (o : Option State) : Prop := ∀ t, o = some t → Grows s t

theorem ogrows_none (s : State) : OGrows s none := fun _ h => by cases h

theorem ogrows_some {s t : State} (h : Grows s t) : OGrows s (some t) := fun u hu => by cases hu; exact h

theorem ogrows_ite {c : Prop} [Decidable c] {s : State} {a b : Option State} (ha : OGrows s a) (hb : OGrows s b) :
    OGrows s (if c then a else b) := by split <;> assumption

theorem GrowsO.of_keeps {s : State} {o : Outcome} (h : Keeps s o) : GrowsO s o := fun t ht => .of_keep (h t ht)

namespace State

@[simp] theorem keep_eta (s : State) : (s.pending, s.b0, s.ddrLog, s.fuse) = s.keep := rfl

@[simp] theorem keep_mk (a1 : List Instr) (a2 : Bool) (a3 : SMap Word) (a4 : SMap Latch) (a5 : List Out) (a6 : Nat) (a7 : DWord)
    (a8 : ArrCore) (a9 : Image) (a10 : Hold) (a11 : Ingress) (a12 : Trigger) (a13 : Acq) (a14 : SMap Sub) (a15 : Nat)
    (a16 : SMap (List Launch)) (a17 : CalStore) (a18 : Adapt) (a19 : TimeSt) (a20 : SMap HostQ) (a21 : SMap DWord)
    (a22 : ReplayQ) (a23 : SecSt) (a24 : SMap Monitor) (a25 : Flash) (a26 : BootSt) (a27 : MemState) (a28 : Fin 4)
    (a29 : List (Fin 1024)) (a30 : Fuses) (a31 : SMap Byte) (a32 : ErrLog) (a33 : Bool) (a34 : SMap Ring) (a35 a36 : Nat) :
    (State.mk a1 a2 a3 a4 a5 a6 a7 a8 a9 a10 a11 a12 a13 a14 a15 a16 a17 a18 a19 a20 a21 a22 a23 a24 a25 a26 a27 a28 a29 a30 a31
      a32 a33 a34 a35 a36).keep = (a1, a2, a28, a30) := rfl

@[simp] theorem keep_ite (c : Prop) [Decidable c] (a b : State) :
    (if c then a else b).keep = if c then a.keep else b.keep := by split <;> rfl

@[simp] theorem keep_dite (c : Prop) [Decidable c] (a : c → State) (b : ¬c → State) :
    (dite c a b).keep = if h : c then (a h).keep else (b h).keep := by split <;> rfl

@[simp] theorem keep_cond (c : Bool) (a b : State) : (cond c a b).keep = cond c a.keep b.keep := by cases c <;> rfl

/-- A fold of a function that keeps. -/
@[simp] theorem keep_foldl {α : Type} (f : State → α → State) (l : List α) (s : State)
    (h : ∀ t x, (f t x).keep = t.keep) : (l.foldl f s).keep = s.keep := by
  induction l generalizing s with
  | nil => rfl
  | cons x l ih => rw [List.foldl_cons, ih, h]

/-- A fold whose state is one of two parts. -/
@[simp] theorem keep_foldl_fst {α β : Type} (f : State × β → α → State × β) (l : List α) (p : State × β)
    (h : ∀ q x, (f q x).1.keep = q.1.keep) : (l.foldl f p).1.keep = p.1.keep := by
  induction l generalizing p with
  | nil => rfl
  | cons x l ih => rw [List.foldl_cons, ih, h]

@[simp] theorem keep_foldl_snd {α β : Type} (f : β × State → α → β × State) (l : List α) (p : β × State)
    (h : ∀ q x, (f q x).2.keep = q.2.keep) : (l.foldl f p).2.keep = p.2.keep := by
  induction l generalizing p with
  | nil => rfl
  | cons x l ih => rw [List.foldl_cons, ih, h]

theorem keep_of_ite (c : Prop) [Decidable c] (a b : State) {k : List Instr × Bool × Fin 4 × Fuses} (ha : a.keep = k)
    (hb : b.keep = k) : (if c then a else b).keep = k := by split <;> assumption

theorem keep_of_fst {β : Type} {p : State × β} {t : State} {b : β} {s : State} (h : p = (t, b)) (hk : p.1.keep = s.keep) :
    t.keep = s.keep := by subst h; exact hk

theorem keep_of_snd {β : Type} {p : β × State} {t : State} {b : β} {s : State} (h : p = (b, t)) (hk : p.2.keep = s.keep) :
    t.keep = s.keep := by subst h; exact hk

@[simp] theorem keep_ite_fst {β : Type} (c : Prop) [Decidable c] (a b : State × β) :
    (if c then a else b).1.keep = if c then a.1.keep else b.1.keep := by split <;> rfl

@[simp] theorem keep_ite_snd {β : Type} (c : Prop) [Decidable c] (a b : β × State) :
    (if c then a else b).2.keep = if c then a.2.keep else b.2.keep := by split <;> rfl

end State

end Sys2Proof.Machine
end

