-- ==== Sys2Proof/Laws/KeepOps.lean ====
section
/-!
SUPPORT. What no function of Machine/Ops.lean touches: the queue, the device's constants and the fuses.
-/

namespace Sys2Proof.Machine
open State

@[simp] theorem keep_State_wr (s : State) (k : Nat) (v : Word) :
    (State.wr s k v).keep = s.keep := by
  unfold State.wr
  simp

@[simp] theorem keep_State_wrF (s : State) (k lo n v : Nat) :
    (State.wrF s k lo n v).keep = s.keep := by
  unfold State.wrF
  simp

@[simp] theorem keep_State_wrB (s : State) (k i : Nat) (b : Bool) :
    (State.wrB s k i b).keep = s.keep := by
  unfold State.wrB
  simp

@[simp] theorem keep_State_wr64 (s : State) (k : Nat) (v : DWord) :
    (State.wr64 s k v).keep = s.keep := by
  unfold State.wr64
  simp

@[simp] theorem keep_State_count (s : State) (k : Nat) (n : Nat) :
    (State.count s k n).keep = s.keep := by
  unfold State.count
  simp

@[simp] theorem keep_State_count64 (s : State) (k : Nat) (n : Nat) :
    (State.count64 s k n).keep = s.keep := by
  unfold State.count64
  simp

@[simp] theorem keep_State_countF (s : State) (k lo n : Nat) (by' : Nat) :
    (State.countF s k lo n by').keep = s.keep := by
  unfold State.countF
  simp

@[simp] theorem keep_State_emit (s : State) (o : Out) :
    (State.emit s o).keep = s.keep := by
  unfold State.emit
  simp

@[simp] theorem keep_State_free (s : State) :
    (State.free s).2.keep = s.keep := by
  unfold State.free
  simp

@[simp] theorem keep_State_free256 (s : State) :
    (State.free256 s).2.keep = s.keep := by
  unfold State.free256
  simp

@[simp] theorem keep_State_request (s : State) (n : Nat) :
    (State.request s n).keep = s.keep :=  by
  unfold State.request
  simp

@[simp] theorem keep_State_draw (s : State) (n : Nat) :
    (State.draw s n).2.keep = s.keep := by
  unfold State.draw
  simp

@[simp] theorem keep_State_newGen (s : State) (n : Nat) :
    (State.newGen s n).2.keep = s.keep :=  by
  unfold State.newGen
  simp

@[simp] theorem keep_State_setCtx (s : State) (n : Nat) :
    (State.setCtx s n).keep = s.keep := by
  unfold State.setCtx
  simp

@[simp] theorem keep_State_setAryState (s : State) (n : Nat) :
    (State.setAryState s n).keep = s.keep := by
  unfold State.setAryState
  simp

@[simp] theorem keep_State_sendVector (s : State) (v : BitVec 6) :
    (State.sendVector s v).keep = s.keep :=  by
  unfold State.sendVector
  simp

@[simp] theorem keep_State_raise (s : State) (v : BitVec 6) :
    (State.raise s v).keep = s.keep :=  by
  unfold State.raise
  simp

@[simp] theorem keep_State_irq (s : State) (src : Nat) :
    (State.irq s src).keep = s.keep := by
  unfold State.irq
  simp

end Sys2Proof.Machine
end

