-- ==== Sys2Proof/Laws/KeepAccess.lean ====
section
/-!
SUPPORT. What no function of Machine/Access.lean touches: the queue, the device's constants and the fuses.
-/

namespace Sys2Proof.Machine
open State

@[simp] theorem keep_State_violation (s : State) (kind : Nat) (m : Master) (off : Nat) :
    (State.violation s kind m off).keep = s.keep := by
  unfold State.violation
  simp

@[simp] theorem keep_State_refuse (s : State) (m : Master) (off : Nat) :
    (State.refuse s m off).keep = s.keep := by
  unfold State.refuse
  simp

@[simp] theorem keep_State_setPhase (s : State) (n : Nat) :
    (State.setPhase s n).keep = s.keep := by
  unfold State.setPhase
  simp

@[simp] theorem keep_State_atReg (s : State) (m : Master) (off : Nat) (f : State → State) (hf : ∀ x0, (f x0).keep = x0.keep) :
    (State.atReg s m off f).keep = s.keep := by
  unfold State.atReg
  simp [*]

@[simp] theorem keep_State_mergeWord (s : State) (off : Nat) (v : Word) :
    (State.mergeWord s off v).keep = s.keep := by
  unfold State.mergeWord
  dsimp only
  split <;> simp

end Sys2Proof.Machine
end

