-- ==== Sys2Proof/Laws/KeepCaptureClose.lean ====
section
/-!
SUPPORT. What no function of Machine/CaptureClose.lean touches: the queue, the device's constants and the fuses.
-/

namespace Sys2Proof.Machine
open State

@[simp] theorem keep_State_queueStatus (s : State) :
    (State.queueStatus s).keep = s.keep := by
  unfold State.queueStatus
  simp

@[simp] theorem keep_State_closeEvent (s : State) (c : Nat) :
    (State.closeEvent s c).keep = s.keep := by
  unfold State.closeEvent
  dsimp only
  split <;> simp

@[simp] theorem keep_State_closeCaptures (s : State) :
    (State.closeCaptures s).keep = s.keep := by
  unfold State.closeCaptures
  simp

@[simp] theorem keep_State_stopCapture (s : State) :
    (State.stopCapture s).keep = s.keep := by
  unfold State.stopCapture
  simp

@[simp] theorem keep_State_drivePin (s : State) (o : Nat) (on : Bool) :
    (State.drivePin s o on).keep = s.keep :=  by
  unfold State.drivePin
  simp

@[simp] theorem keep_State_resetOutputs (s : State) :
    (State.resetOutputs s).keep = s.keep :=  by
  unfold State.resetOutputs
  simp

@[simp] theorem keep_State_idleOutputs (s : State) :
    (State.idleOutputs s).keep = s.keep := by
  unfold State.idleOutputs
  simp

@[simp] theorem keep_State_freezeRing (s : State) :
    (State.freezeRing s).keep = s.keep := by
  unfold State.freezeRing
  simp

end Sys2Proof.Machine
end

