-- ==== Sys2Proof/Laws/KeepAdaptBase.lean ====
section
/-!
SUPPORT. What no function of Machine/AdaptBase.lean touches: the queue, the device's constants and the fuses.
-/

namespace Sys2Proof.Machine
open State

@[simp] theorem keep_State_adaptFlip (s : State) (sel : Word) :
    (State.adaptFlip s sel).keep = s.keep := by
  unfold State.adaptFlip
  simp

@[simp] theorem keep_State_policyMiss (s : State) :
    (State.policyMiss s).keep = s.keep := by
  unfold State.policyMiss
  simp

@[simp] theorem keep_State_journalEntry (s : State) (e : EbEntry) :
    (State.journalEntry s e).keep = s.keep :=  by
  unfold State.journalEntry
  simp

@[simp] theorem keep_State_noteFiring (s : State) (cls : Nat) (n : Int) :
    (State.noteFiring s cls n).keep = s.keep := by
  unfold State.noteFiring
  simp

end Sys2Proof.Machine
end

