-- ==== Sys2Proof/Laws/KeepHostRing.lean ====
section
/-!
SUPPORT. What no function of Machine/HostRing.lean touches: the queue, the device's constants and the fuses.
-/

namespace Sys2Proof.Machine
open State

@[simp] theorem keep_State_setRing (s : State) (r : Nat) (x : Ring) :
    (State.setRing s r x).keep = s.keep := by
  unfold State.setRing
  simp

@[simp] theorem keep_State_ringIrq (s : State) (r : Nat) :
    (State.ringIrq s r).keep = s.keep := by
  unfold State.ringIrq
  simp

@[simp] theorem keep_State_writeCompletion (s : State) (r : Nat) (c : Completion) :
    (State.writeCompletion s r c).keep = s.keep := by
  unfold State.writeCompletion
  simp

@[simp] theorem keep_State_complete (s : State) (r : Nat) (status : Byte) (res0 res1 : DWord) (detail : Word) :
    (State.complete s r status res0 res1 detail).keep = s.keep := by
  unfold State.complete
  dsimp only
  split <;> simp

@[simp] theorem keep_State_completeOp (s : State) (op : Byte) (r : Nat) (status : Byte) (res0 res1 : DWord) :
    (State.completeOp s op r status res0 res1).keep = s.keep := by
  unfold State.completeOp
  simp
  split <;> simp

@[simp] theorem keep_State_completeState (s : State) (r : Nat) :
    (State.completeState s r).keep = s.keep := by
  unfold State.completeState
  simp

@[simp] theorem keep_State_abortRings (s : State) (keep : List Nat) :
    (State.abortRings s keep).keep = s.keep := by
  unfold State.abortRings
  simp

end Sys2Proof.Machine
end

