-- ==== Sys2Proof/Laws/KeepErrors.lean ====
section
/-!
SUPPORT. What no function of Machine/Errors.lean touches: the queue, the device's constants and the fuses.
-/

namespace Sys2Proof.Machine
open State

@[simp] theorem keep_State_logOverflow (s : State) :
    (State.logOverflow s).keep = s.keep := by
  unfold State.logOverflow
  simp

@[simp] theorem keep_State_addEntry (s : State) (src : Byte) (cls : Nat) (loc : DWord) (withheld lost contain : Bool) :
    (State.addEntry s src cls loc withheld lost contain).keep = s.keep := by
  unfold State.addEntry
  simp
  split <;> simp

@[simp] theorem keep_State_logCorrected (s : State) (src : Byte) (loc : DWord) :
    (State.logCorrected s src loc).keep = s.keep := by
  unfold State.logCorrected
  simp
  split <;> simp

@[simp] theorem keep_State_logMinor (s : State) (src : Byte) (cls : Nat) (loc : DWord) :
    (State.logMinor s src cls loc).keep = s.keep := by
  unfold State.logMinor
  simp

@[simp] theorem keep_State_holdStop (s : State) :
    (State.holdStop s).keep = s.keep := by
  unfold State.holdStop
  simp

@[simp] theorem keep_State_haltContext (s : State) :
    (State.haltContext s).keep = s.keep := by
  unfold State.haltContext
  simp

@[simp] theorem keep_State_stopForError (s : State) :
    (State.stopForError s).keep = s.keep := by
  unfold State.stopForError
  simp

@[simp] theorem keep_State_enterContain (s : State) :
    (State.enterContain s).keep = s.keep := by
  unfold State.enterContain
  simp

@[simp] theorem keep_State_uncorrectable (s : State) (src : Byte) (loc : DWord) (withheld lost : Bool) :
    (State.uncorrectable s src loc withheld lost).keep = s.keep := by
  unfold State.uncorrectable
  simp

@[simp] theorem keep_State_fatal (s : State) (src : Byte) (loc : DWord) :
    (State.fatal s src loc).keep = s.keep := by
  unfold State.fatal
  simp

@[simp] theorem keep_State_popLog (s : State) :
    (State.popLog s).keep = s.keep := by
  unfold State.popLog
  simp

@[simp] theorem keep_State_arrayFault (s : State) (kind : Nat) (pic : Fin 1024) (logical unit origin : Nat) (ahead : Nat) :
    (State.arrayFault s kind pic logical unit origin ahead).keep = s.keep :=  by
  unfold State.arrayFault
  simp

@[simp] theorem keep_State_bankFault (s : State) (pic : Fin 1024) (logical word : Nat) :
    (State.bankFault s pic logical word).keep = s.keep := by
  unfold State.bankFault
  simp

end Sys2Proof.Machine
end

