-- ==== Sys2Proof/Laws/KeepIngressOps.lean ====
section
/-!
SUPPORT. What no function of Machine/IngressOps.lean touches: the queue, the device's constants and the fuses.
-/

namespace Sys2Proof.Machine
open State

@[simp] theorem keep_State_setLane (s : State) (n : Nat) (x : LaneIn) :
    (State.setLane s n x).keep = s.keep := by
  unfold State.setLane
  simp

@[simp] theorem keep_State_setLink (s : State) (k : Nat) (x : JLink) :
    (State.setLink s k x).keep = s.keep := by
  unfold State.setLink
  simp

@[simp] theorem keep_State_countIdle (s : State) (block frames : Nat) :
    (State.countIdle s block frames).keep = s.keep := by
  unfold State.countIdle
  simp

@[simp] theorem keep_State_deliverRaw (s : State) (xs : List RawSample) :
    (State.deliverRaw s xs).keep = s.keep := by
  unfold State.deliverRaw
  simp

@[simp] theorem keep_State_fillRaw (s : State) (lane first count : Nat) :
    (State.fillRaw s lane first count).keep = s.keep := by
  unfold State.fillRaw
  simp

@[simp] theorem keep_State_setCfgErrs (s : State) :
    (State.setCfgErrs s).keep = s.keep := by
  unfold State.setCfgErrs
  simp

end Sys2Proof.Machine
end

