-- ==== Sys2Proof/Laws/KeepServo.lean ====
section
/-!
SUPPORT. What no function of Machine/Servo.lean touches: the queue, the device's constants and the fuses.
-/

namespace Sys2Proof.Machine
open State

@[simp] theorem keep_State_setPtpTime (s : State) (t : Int) :
    (State.setPtpTime s t).keep = s.keep := by
  unfold State.setPtpTime
  simp

@[simp] theorem keep_State_lineEdges (s : State) (n : Nat) :
    (State.lineEdges s n).keep = s.keep := by
  unfold State.lineEdges
  simp

@[simp] theorem keep_State_stepTimeline (s : State) (d : Int) :
    (State.stepTimeline s d).keep = s.keep := by
  unfold State.stepTimeline
  simp

@[simp] theorem keep_State_writeTimeSet (s : State) (m : Master) (relative : Bool) :
    (State.writeTimeSet s m relative).keep = s.keep := by
  unfold State.writeTimeSet
  simp

@[simp] theorem keep_State_setAdj (s : State) (rate : Int) :
    (State.setAdj s rate).keep = s.keep := by
  unfold State.setAdj
  simp

@[simp] theorem keep_State_relimit (s : State) :
    (State.relimit s).keep = s.keep :=  by
  unfold State.relimit
  simp

@[simp] theorem keep_State_moveServo (s : State) (n : Nat) :
    (State.moveServo s n).keep = s.keep := by
  unfold State.moveServo
  simp

@[simp] theorem keep_State_followServoCfg (s : State) :
    (State.followServoCfg s).keep = s.keep := by
  unfold State.followServoCfg
  simp

@[simp] theorem keep_State_applyOffset (s : State) (th log : Int) :
    (State.applyOffset s th log).keep = s.keep := by
  unfold State.applyOffset
  simp
  split <;> simp

@[simp] theorem keep_State_outlier (s : State) :
    (State.outlier s).keep = s.keep := by
  unfold State.outlier
  simp

@[simp] theorem keep_State_acquire (s : State) (th log : Int) (counts : Bool) :
    (State.acquire s th log counts).keep = s.keep := by
  unfold State.acquire
  simp

@[simp] theorem keep_State_servoOffset (s : State) (th log : Int) :
    (State.servoOffset s th log).keep = s.keep := by
  unfold State.servoOffset
  simp
  split <;> simp

@[simp] theorem keep_State_quiet (s : State) :
    (State.quiet s).keep = s.keep := by
  unfold State.quiet
  try dsimp only
  split <;> simp

@[simp] theorem keep_State_syncOffset (s : State) :
    (State.syncOffset s).keep = s.keep := by
  unfold State.syncOffset
  try dsimp only
  repeat' split
  all_goals simp

@[simp] theorem keep_State_delayResp (s : State) (t4 : Int) (corr : DWord) :
    (State.delayResp s t4 corr).keep = s.keep := by
  unfold State.delayResp
  try dsimp only
  split <;> simp

@[simp] theorem keep_State_pdelayResp (s : State) (port : Nat) (t1 : DWord) (t2 t3 : Int) (t4 : DWord) (corr : Int) :
    (State.pdelayResp s port t1 t2 t3 t4 corr).keep = s.keep := by
  unfold State.pdelayResp
  simp

@[simp] theorem keep_State_ppsEdge (s : State) (stamp : DWord) :
    (State.ppsEdge s stamp).keep = s.keep := by
  unfold State.ppsEdge
  simp

@[simp] theorem keep_State_ppsRise (s : State) :
    (State.ppsRise s).keep = s.keep :=  by
  unfold State.ppsRise
  simp

@[simp] theorem keep_State_ppsFall (s : State) (t : DWord) :
    (State.ppsFall s t).keep = s.keep :=  by
  unfold State.ppsFall
  simp

@[simp] theorem keep_State_writePpsCfg (s : State) (v : Word) :
    (State.writePpsCfg s v).keep = s.keep :=  by
  unfold State.writePpsCfg
  simp

@[simp] theorem keep_execTimelineWrap (s : State) :
    Keeps s (execTimelineWrap s) := by
  unfold execTimelineWrap
  simp

@[simp] theorem keep_execTimelineSetAbsolute (m : Master) (s : State) :
    Keeps s (execTimelineSetAbsolute m s) := by
  unfold execTimelineSetAbsolute
  simp

@[simp] theorem keep_execTimelineSetRelative (m : Master) (s : State) :
    Keeps s (execTimelineSetRelative m s) := by
  unfold execTimelineSetRelative
  simp

@[simp] theorem keep_execSyncOffsetCompute (s : State) :
    Keeps s (execSyncOffsetCompute s) := by
  unfold execSyncOffsetCompute
  simp

@[simp] theorem keep_execDelayRespReceive (t4 : Int) (corr : DWord) (s : State) :
    Keeps s (execDelayRespReceive t4 corr s) := by
  unfold execDelayRespReceive
  simp

@[simp] theorem keep_execPdelayRespReceive (port : Fin 2) (t1 : DWord) (t2 t3 : Int) (t4 : DWord) (corr : Int) (s : State) :
    Keeps s (execPdelayRespReceive port t1 t2 t3 t4 corr s) := by
  unfold execPdelayRespReceive
  simp

@[simp] theorem keep_execServoQuietTimeout (s : State) :
    Keeps s (execServoQuietTimeout s) := by
  unfold execServoQuietTimeout
  simp

@[simp] theorem keep_execPpsInEdge (stamp : DWord) (s : State) :
    Keeps s (execPpsInEdge stamp s) := by
  unfold execPpsInEdge
  simp

@[simp] theorem keep_execPpsOutEdge (s : State) :
    Keeps s (execPpsOutEdge s) := by
  unfold execPpsOutEdge
  simp

@[simp] theorem keep_execPpsOutPulseEnd (s : State) :
    Keeps s (execPpsOutPulseEnd s) := by
  unfold execPpsOutPulseEnd
  simp

@[simp] theorem keep_execClk10mGate (present : Bool) (ppb : Int) (s : State) :
    Keeps s (execClk10mGate present ppb s) := by
  unfold execClk10mGate
  simp

@[simp] theorem keep_State_l1 (s : State) (clock : Option Int) :
    (State.l1 s clock).keep = s.keep :=  by
  unfold State.l1
  cases clock <;> simp

@[simp] theorem keep_execL1Lock (clock : Option Int) (s : State) :
    Keeps s (execL1Lock clock s) :=  by
  unfold execL1Lock
  simp

end Sys2Proof.Machine
end

