-- ==== Sys2Proof/Laws/KeepSubscribers.lean ====
section
/-!
SUPPORT. What no function of Machine/Subscribers.lean touches: the queue, the device's constants and the fuses.
-/

namespace Sys2Proof.Machine
open State

@[simp] theorem keep_State_setSub (s : State) (n : Nat) (x : Sub) :
    (State.setSub s n x).keep = s.keep := by
  unfold State.setSub
  simp

@[simp] theorem keep_State_produce (s : State) (takes : Sub → Bool) (rec' : List Byte) :
    (State.produce s takes rec').keep = s.keep := by
  unfold State.produce
  simp

@[simp] theorem keep_State_setLaunchQ (s : State) (port : Nat) (q : List Launch) :
    (State.setLaunchQ s port q).keep = s.keep := by
  unfold State.setLaunchQ
  simp

@[simp] theorem keep_State_enqueueLaunch (s : State) (port : Nat) (l : Launch) :
    (State.enqueueLaunch s port l).keep = s.keep := by
  unfold State.enqueueLaunch
  simp

end Sys2Proof.Machine
end

