-- ==== Sys2Proof/Laws/KeepMemory.lean ====
section
/-!
SUPPORT. What no function of Machine/Memory.lean touches: the queue, the device's constants and the fuses.
-/

namespace Sys2Proof.Machine
open State

@[simp] theorem keep_State_putLine (s : State) (l : Nat) (x : Line) :
    (State.putLine s l x).keep = s.keep := by
  unfold State.putLine
  simp

@[simp] theorem keep_State_countFixed (s : State) (l : Nat) (f : Nat × Nat) :
    (State.countFixed s l f).keep = s.keep := by
  unfold State.countFixed
  simp

@[simp] theorem keep_State_countUe (s : State) (l : Nat) :
    (State.countUe s l).keep = s.keep := by
  unfold State.countUe
  simp

@[simp] theorem keep_State_readLine (s : State) (l : Nat) (bus : BitVec 2048) (withheld : Bool) :
    (State.readLine s l bus withheld).1.keep = s.keep := by
  unfold State.readLine
  simp
  split <;> simp

@[simp] theorem keep_State_exhaust (s : State) :
    (State.exhaust s).keep = s.keep := by
  unfold State.exhaust
  simp

@[simp] theorem keep_State_writeLine (s : State) (l : Nat) (data : BitVec 2048) :
    (State.writeLine s l data).keep = s.keep := by
  unfold State.writeLine
  simp

@[simp] theorem keep_State_writePart (s : State) (l lo : Nat) (bs : List Byte) :
    (State.writePart s l lo bs).keep = s.keep := by
  unfold State.writePart
  try dsimp only
  repeat' split
  all_goals first
    | (simp; done)
    | (refine keep_of_fst (by assumption) ?_; simp; done)
    | (simp; refine keep_of_fst (by assumption) ?_; simp; done)
    | (refine keep_of_snd (by assumption) ?_; simp; done)
    | (simp; refine keep_of_snd (by assumption) ?_; simp; done)
    | (simp_all; done)

@[simp] theorem keep_State_writeBytes (s : State) (dpa : Nat) (bs : List Byte) :
    (State.writeBytes s dpa bs).keep = s.keep := by
  unfold State.writeBytes
  simp

@[simp] theorem keep_State_readBytes (s : State) (dpa len : Nat) (withheld : Bool) :
    (State.readBytes s dpa len withheld).1.keep = s.keep := by
  unfold State.readBytes
  simp

@[simp] theorem keep_State_patrol (s : State) (l : Nat) :
    (State.patrol s l).keep = s.keep := by
  unfold State.patrol
  simp
  split <;> simp

@[simp] theorem keep_State_enqueueMem (s : State) (r : MemReq) :
    (State.enqueueMem s r).keep = s.keep := by
  unfold State.enqueueMem
  simp

@[simp] theorem keep_State_serveMem (s : State) (c : Nat) :
    (State.serveMem s c).keep = s.keep := by
  unfold State.serveMem
  try dsimp only
  repeat' split
  all_goals simp

@[simp] theorem keep_State_drainCtl (s : State) (c : Nat) :
    (State.drainCtl s c).keep = s.keep :=  by
  unfold State.drainCtl
  simp

@[simp] theorem keep_State_drainFor (s : State) (dpa len : Nat) :
    (State.drainFor s dpa len).keep = s.keep :=  by
  unfold State.drainFor
  simp

@[simp] theorem keep_State_disturb (s : State) (c : Nat) (bus : BitVec 2048) :
    (State.disturb s c bus).keep = s.keep := by
  unfold State.disturb
  try dsimp only
  split <;> simp

@[simp] theorem keep_execPatrolRead (line : BitVec 36) (s : State) :
    Keeps s (execPatrolRead line s) := by
  unfold execPatrolRead
  simp

@[simp] theorem keep_execKeyExhausted (s : State) :
    Keeps s (execKeyExhausted s) := by
  unfold execKeyExhausted
  simp

@[simp] theorem keep_execDdr5RequestServe (ch : Fin 8) (bus : BitVec 2048) (s : State) :
    Keeps s (execDdr5RequestServe ch bus s) := by
  unfold execDdr5RequestServe
  simp

end Sys2Proof.Machine
end

