-- ==== Sys2Proof/Laws/KeepFrontEnd.lean ====
section
/-!
SUPPORT. What no function of Machine/FrontEnd.lean touches: the queue, the device's constants and the fuses.
-/

namespace Sys2Proof.Machine
open State

@[simp] theorem keep_State_countEv (s : State) (e : Ev) :
    (State.countEv s e).keep = s.keep := by
  unfold State.countEv
  simp

@[simp] theorem keep_State_tap (s : State) (chan : Nat) (n : Int) :
    (State.tap s chan n).2.keep = s.keep := by
  unfold State.tap
  try dsimp only
  split <;> simp

@[simp] theorem keep_State_pushTap (s : State) (x : RawSample) :
    (State.pushTap s x).keep = s.keep := by
  unfold State.pushTap
  simp

@[simp] theorem keep_State_beginBlock (s : State) (b : Nat) :
    (State.beginBlock s b).keep = s.keep := by
  unfold State.beginBlock
  simp

@[simp] theorem keep_State_toTrigger (s : State) (chan n : Nat) (x : Sample) :
    (State.toTrigger s chan n x).keep = s.keep := by
  unfold State.toTrigger
  simp

@[simp] theorem keep_State_toRing (s : State) (chan n : Nat) (x : Sample) :
    (State.toRing s chan n x).keep = s.keep := by
  unfold State.toRing
  simp

@[simp] theorem keep_State_toSurvey (s : State) (chan n : Nat) (x : Sample) :
    (State.toSurvey s chan n x).keep = s.keep := by
  unfold State.toSurvey
  simp

@[simp] theorem keep_State_toStats (s : State) (chan n : Nat) (x : Sample) (q : Quantized) (sat : Nat) (ovr : Bool) :
    (State.toStats s chan n x q sat ovr).keep = s.keep := by
  unfold State.toStats
  simp

@[simp] theorem keep_State_putQuant (s : State) (chan n : Nat) (code : Nat) (bad : Bool) :
    (State.putQuant s chan n code bad).keep = s.keep := by
  unfold State.putQuant
  simp

@[simp] theorem keep_State_ebStatus (s : State) :
    (State.ebStatus s).keep = s.keep := by
  unfold State.ebStatus
  simp

@[simp] theorem keep_State_putEntry (s : State) (e : EbEntry) :
    (State.putEntry s e).keep = s.keep := by
  unfold State.putEntry
  simp

@[simp] theorem keep_State_notePresent (s : State) (b : Nat) :
    (State.notePresent s b).keep = s.keep :=  by
  unfold State.notePresent
  simp

@[simp] theorem keep_State_formEntries (n : Nat) (s : State) : (State.formEntries n s).keep = s.keep := by
  induction n generalizing s with
  | zero => rfl
  | succ n ih =>
    unfold State.formEntries
    dsimp only
    split
    · rfl
    · simp [ih]

@[simp] theorem keep_State_stampBlock (s : State) (b stamp : Nat) :
    (State.stampBlock s b stamp).keep = s.keep := by
  unfold State.stampBlock
  simp

@[simp] theorem keep_State_emitCode (s : State) (chan n : Nat) (ovr : Bool) (stamp : Nat) :
    (State.emitCode s chan n ovr stamp).keep = s.keep := by
  unfold State.emitCode
  simp

@[simp] theorem keep_State_frontEnd (s : State) (x : RawSample) :
    (State.frontEnd s x).keep = s.keep := by
  unfold State.frontEnd
  try dsimp only
  split <;> simp

@[simp] theorem keep_execFrontEndSample (s : State) :
    Keeps s (execFrontEndSample s) := by
  unfold execFrontEndSample
  try dsimp only
  split <;> simp

end Sys2Proof.Machine
end

