-- ==== Sys2Proof/Laws/KeepArrayOps.lean ====
section
/-!
SUPPORT. What no function of Machine/ArrayOps.lean touches: the queue, the device's constants and the fuses.
-/

namespace Sys2Proof.Machine
open State

@[simp] theorem keep_State_setPicot (s : State) (p : Nat) (x : Picot) :
    (State.setPicot s p x).keep = s.keep := by
  unfold State.setPicot
  simp

@[simp] theorem keep_State_setLg (s : State) (loc : At) (x : Logical) :
    (State.setLg s loc x).keep = s.keep := by
  unfold State.setLg
  simp

@[simp] theorem keep_State_sramCheck (s : State) (p : Nat) (as : List Nat) :
    (s.sramCheck p as).1.keep = s.keep := by
  induction as with
  | nil => rfl
  | cons a as ih =>
    unfold State.sramCheck
    dsimp only
    split <;> simp [ih]

@[simp] theorem keep_State_sramWrite (s : State) (p a : Nat) (v : BitVec 256) :
    (State.sramWrite s p a v).keep = s.keep := by
  unfold State.sramWrite
  simp

@[simp] theorem keep_State_countEvent (s : State) (p k n : Nat) :
    (State.countEvent s p k n).keep = s.keep := by
  unfold State.countEvent
  simp

@[simp] theorem keep_State_countEvents (s : State) (p : Nat) (e : Ev) :
    (State.countEvents s p e).keep = s.keep := by
  unfold State.countEvents
  simp

@[simp] theorem keep_State_fly (s : State) (loc : At) (slot lat : Nat) (r : Res) :
    (State.fly s loc slot lat r).keep = s.keep := by
  unfold State.fly
  simp

@[simp] theorem keep_State_flyReg (s : State) (loc : At) (lat : Nat) (vd : BitVec 5) (o : VOut) :
    (State.flyReg s loc lat vd o).keep = s.keep := by
  unfold State.flyReg
  simp

@[simp] theorem keep_State_vectorOp (s : State) (h : MHead) (lat : Nat) (vd : BitVec 5) (o : VOut) :
    (State.vectorOp s h lat vd o).keep = s.keep := by
  unfold State.vectorOp
  simp

@[simp] theorem keep_State_requestHold (s : State) (cause : Nat) (src : HoldSrc) (cancel : Bool) :
    (State.requestHold s cause src cancel).keep = s.keep := by
  unfold State.requestHold
  simp
  split <;> simp

@[simp] theorem keep_State_pushFlit (s : State) (p : Fin 1024) (q : Fin 16) (f : Flit) :
    (State.pushFlit s p q f).keep = s.keep := by
  unfold State.pushFlit
  simp

@[simp] theorem keep_State_pushToken (s : State) (p : Fin 1024) (q : Fin 8) (t : BitVec 16) :
    (State.pushToken s p q t).keep = s.keep := by
  unfold State.pushToken
  simp

@[simp] theorem keep_State_popFlit (s : State) (p : Fin 1024) (q : Fin 16) :
    (State.popFlit s p q).2.keep = s.keep := by
  unfold State.popFlit
  dsimp only
  split <;> simp

@[simp] theorem keep_State_popToken (s : State) (p : Fin 1024) (q : Fin 8) :
    (State.popToken s p q).2.keep = s.keep := by
  unfold State.popToken
  dsimp only
  split <;> simp

@[simp] theorem keep_State_trace (s : State) (loc : At) (event detail pc : Nat) :
    (State.trace s loc event detail pc).keep = s.keep := by
  unfold State.trace
  simp

end Sys2Proof.Machine
end

