-- ==== Sys2Proof/Laws/KeepLinks.lean ====
section
/-!
SUPPORT. What no function of Machine/Links.lean touches: the queue, the device's constants and the fuses.
-/

namespace Sys2Proof.Machine
open State

@[simp] theorem keep_State_clashFlit (s : State) (q : Fin 1024) (inp : Dir) (w : Nat) :
    (State.clashFlit s q inp w).keep = s.keep :=  by
  unfold State.clashFlit
  simp

@[simp] theorem keep_State_clashToken (s : State) (q : Fin 1024) (inp : Dir) (w : Nat) :
    (State.clashToken s q inp w).keep = s.keep :=  by
  unfold State.clashToken
  simp

@[simp] theorem keep_State_clashHub (s : State) (port : Fin 32) (w : Nat) :
    (State.clashHub s port w).keep = s.keep :=  by
  unfold State.clashHub
  simp

@[simp] theorem keep_State_driveFlit (s : State) (p : Fin 1024) (d : Dir) (wait : Nat) (f : Flit) (lg : Nat) (check : BitVec 16) :
    (State.driveFlit s p d wait f lg check).keep = s.keep :=  by
  unfold State.driveFlit
  try dsimp only
  repeat' split
  all_goals first
    | (simp; done)
    | (try simp
       refine (keep_foldl _ _ _ (fun t x => ?_)).trans ?_
       · try dsimp only
         repeat' split
         all_goals simp
       · simp)

@[simp] theorem keep_State_driveToken (s : State) (p : Fin 1024) (d : Dir) (wait : Nat) (t : BitVec 16) (lg : Nat) (par : Bool) :
    (State.driveToken s p d wait t lg par).keep = s.keep :=  by
  unfold State.driveToken
  try dsimp only
  repeat' split
  all_goals first
    | (simp; done)
    | (try simp
       refine (keep_foldl _ _ _ (fun t x => ?_)).trans ?_
       · try dsimp only
         repeat' split
         all_goals simp
       · simp)

@[simp] theorem keep_State_enterFlit (s : State) (p : Fin 1024) (inp : Dir) (q : Fin 16) (f : Flit) :
    (State.enterFlit s p inp q f).keep = s.keep := by
  unfold State.enterFlit
  simp

@[simp] theorem keep_State_enterToken (s : State) (p : Fin 1024) (inp : Dir) (q : Fin 8) (t : BitVec 16) :
    (State.enterToken s p inp q t).keep = s.keep := by
  unfold State.enterToken
  simp

@[simp] theorem keep_State_flitArrives (s : State) (p : Fin 1024) (inp : Dir) (f : Flit) (check : BitVec 16) :
    (State.flitArrives s p inp f check).keep = s.keep :=  by
  unfold State.flitArrives
  simp

@[simp] theorem keep_execFlitArrival (p : Fin 1024) (inp : Dir) (data : BitVec 256) (side : BitVec 8) (check : BitVec 16) (s : State) :
    Keeps s (execFlitArrival p inp data side check s) :=  by
  unfold execFlitArrival
  try dsimp only
  repeat' split
  all_goals first
    | (simp; done)
    | (try simp
       refine (keep_foldl _ _ _ (fun t x => ?_)).trans ?_
       · try dsimp only
         repeat' split
         all_goals simp
       · simp)

@[simp] theorem keep_State_tokenArrives (s : State) (p : Fin 1024) (inp : Dir) (tok : BitVec 16) (par : Bool) :
    (State.tokenArrives s p inp tok par).keep = s.keep := by
  unfold State.tokenArrives
  simp

@[simp] theorem keep_execTokenArrival (p : Fin 1024) (inp : Dir) (tok : BitVec 16) (par : Bool) (s : State) :
    Keeps s (execTokenArrival p inp tok par s) := by
  unfold execTokenArrival
  simp

end Sys2Proof.Machine
end

