-- ==== Sys2Proof/Laws/KeepHolds.lean ====
section
/-!
SUPPORT. What no function of Machine/Holds.lean touches: the queue, the device's constants and the fuses.
-/

namespace Sys2Proof.Machine
open State

@[simp] theorem keep_State_clearHold (s : State) (cause : Nat) (src : HoldSrc) :
    (State.clearHold s cause src).keep = s.keep := by
  unfold State.clearHold
  simp

@[simp] theorem keep_State_declareDeadlock (s : State) (w : Word) :
    (State.declareDeadlock s w).keep = s.keep := by
  unfold State.declareDeadlock
  simp

@[simp] theorem keep_execHoldRequestDeferred (cause : Fin 8) (src : HoldSrc) (s : State) :
    Keeps s (execHoldRequestDeferred cause src s) := by
  unfold execHoldRequestDeferred
  simp

@[simp] theorem keep_execHoldRequestCancelling (cause : Fin 8) (src : HoldSrc) (s : State) :
    Keeps s (execHoldRequestCancelling cause src s) := by
  unfold execHoldRequestCancelling
  simp

@[simp] theorem keep_execHoldCauseClear (cause : Fin 8) (src : HoldSrc) (s : State) :
    Keeps s (execHoldCauseClear cause src s) := by
  unfold execHoldCauseClear
  simp

@[simp] theorem keep_execHoldLimitDeadlock (cause : Fin 8) (s : State) :
    Keeps s (execHoldLimitDeadlock cause s) := by
  unfold execHoldLimitDeadlock
  simp
  split <;> simp

@[simp] theorem keep_execWaitlcDeadlock (loc : At) (s : State) :
    Keeps s (execWaitlcDeadlock loc s) := by
  unfold execWaitlcDeadlock
  try dsimp only
  split <;> simp

@[simp] theorem keep_execBridgeRetry (b : Fin 4) (s : State) :
    Keeps s (execBridgeRetry b s) := by
  unfold execBridgeRetry
  simp

@[simp] theorem keep_execBridgeRetryComplete (b : Fin 4) (s : State) :
    Keeps s (execBridgeRetryComplete b s) := by
  unfold execBridgeRetryComplete
  simp

@[simp] theorem keep_execBridgeRetryExhausted (b : Fin 4) (s : State) :
    Keeps s (execBridgeRetryExhausted b s) := by
  unfold execBridgeRetryExhausted
  simp

end Sys2Proof.Machine
end

