-- ==== Sys2Proof/Laws/KeepMemLink.lean ====
section
/-!
SUPPORT. What no function of Machine/MemLink.lean touches: the queue, the device's constants and the fuses.
-/

namespace Sys2Proof.Machine
open State

@[simp] theorem keep_State_lportAccess (s : State) (loc : At) (word : Nat) :
    (State.lportAccess s loc word).1.keep = s.keep := by
  unfold State.lportAccess
  simp

@[simp] theorem keep_State_flySegment (s : State) (loc : At) (lat : Nat) (v : BitVec 5) (seg : BitVec 3) (x : BitVec 256) (bad : Bool) :
    (State.flySegment s loc lat v seg x bad).keep = s.keep := by
  unfold State.flySegment
  simp

@[simp] theorem keep_execNopl (_loc : At) (s : State) :
    Keeps s (execNopl _loc s) := by
  unfold execNopl
  simp

@[simp] theorem keep_execLdw (loc : At) (a : LM) (s : State) :
    Keeps s (execLdw loc a s) := by
  unfold execLdw
  simp

@[simp] theorem keep_execStw (loc : At) (a : LM) (s : State) :
    Keeps s (execStw loc a s) := by
  unfold execStw
  simp

@[simp] theorem keep_execSend (loc : At) (a : LS) (s : State) :
    Keeps s (execSend loc a s) := by
  unfold execSend
  try dsimp only
  repeat' split
  all_goals first
    | (simp; done)
    | (refine keep_of_fst (by assumption) ?_; simp; done)
    | (simp; refine keep_of_fst (by assumption) ?_; simp; done)
    | (refine keep_of_snd (by assumption) ?_; simp; done)
    | (simp; refine keep_of_snd (by assumption) ?_; simp; done)
    | (simp_all; done)

@[simp] theorem keep_execRecv (loc : At) (a : LR) (s : State) :
    Keeps s (execRecv loc a s) := by
  unfold execRecv
  try dsimp only
  repeat' split
  all_goals first
    | (simp; done)
    | (refine keep_of_fst (by assumption) ?_; simp; done)
    | (simp; refine keep_of_fst (by assumption) ?_; simp; done)
    | (refine keep_of_snd (by assumption) ?_; simp; done)
    | (simp; refine keep_of_snd (by assumption) ?_; simp; done)
    | (simp_all; done)

@[simp] theorem keep_execQput (loc : At) (a : LQ) (s : State) :
    Keeps s (execQput loc a s) := by
  unfold execQput
  simp

@[simp] theorem keep_execMreq (loc : At) (a : LN) (s : State) :
    Keeps s (execMreq loc a s) := by
  unfold execMreq
  simp

@[simp] theorem keep_execHatom (loc : At) (a : LH) (s : State) :
    Keeps s (execHatom loc a s) := by
  unfold execHatom
  simp

end Sys2Proof.Machine
end

