-- ==== Sys2Proof/Laws/KeepMemLane.lean ====
section
/-!
SUPPORT. What no function of Machine/MemLane.lean touches: the queue, the device's constants and the fuses.
-/

namespace Sys2Proof.Machine
open State

@[simp] theorem keep_State_laneAccess (s : State) (p : Fin 1024) (base : Nat) :
    (State.laneAccess s p base).1.keep = s.keep :=  by
  unfold State.laneAccess
  simp

@[simp] theorem keep_State_laneRead (s : State) (p : Fin 1024) (base : Nat) :
    (State.laneRead s p base).1.keep = s.keep :=  by
  unfold State.laneRead
  simp

@[simp] theorem keep_State_laneWrite (s : State) (p : Fin 1024) (base : Nat) (x : BitVec 2048) :
    (State.laneWrite s p base x).keep = s.keep := by
  unfold State.laneWrite
  try dsimp only
  split <;> simp

@[simp] theorem keep_State_storeBeat (s : State) (x : LaneStore) :
    (State.storeBeat s x).keep = s.keep :=  by
  unfold State.storeBeat
  simp

@[simp] theorem keep_State_storesCycle (s : State) :
    (State.storesCycle s).keep = s.keep :=  by
  unfold State.storesCycle
  simp

@[simp] theorem keep_State_laneJob (s : State) (p : Fin 1024) (r : LaneReq) :
    (State.laneJob s p r).keep = s.keep :=  by
  unfold State.laneJob
  simp

@[simp] theorem keep_State_laneDeliver (s : State) (b : LaneBeat) :
    (State.laneDeliver s b).keep = s.keep :=  by
  unfold State.laneDeliver
  simp

@[simp] theorem keep_State_jobBeat (s : State) (p : Fin 1024) (r : LaneReq) :
    (State.jobBeat s p r).1.keep = s.keep :=  by
  unfold State.jobBeat
  try dsimp only
  split <;> simp

@[simp] theorem keep_State_jobsCycle (s : State) (p : Fin 1024) :
    (State.jobsCycle s p).keep = s.keep :=  by
  unfold State.jobsCycle
  try dsimp only
  repeat' split
  all_goals first
    | (simp; done)
    | (try simp
       refine (keep_foldl_fst _ _ _ (fun t x => ?_)).trans ?_
       · try dsimp only
         repeat' split
         all_goals simp_all
       · simp)

@[simp] theorem keep_State_laneMove (s : State) :
    (State.laneMove s).keep = s.keep :=  by
  unfold State.laneMove
  simp

@[simp] theorem keep_State_laneDrive (s : State) (p : Fin 1024) (req : Bool) (bits : BitVec 2048) (word addr : Nat) :
    (State.laneDrive s p req bits word addr).keep = s.keep :=  by
  unfold State.laneDrive
  simp

@[simp] theorem keep_State_lanePut (s : State) (p : Fin 1024) :
    (State.lanePut s p).keep = s.keep :=  by
  unfold State.lanePut
  try dsimp only
  repeat' split
  all_goals simp

@[simp] theorem keep_State_laneGet (s : State) (p : Fin 1024) :
    (State.laneGet s p).keep = s.keep :=  by
  unfold State.laneGet
  simp

@[simp] theorem keep_State_laneCycle (s : State) (p : Fin 1024) :
    (State.laneCycle s p).keep = s.keep := by
  unfold State.laneCycle
  simp

@[simp] theorem keep_State_laneStoreAll (s : State) (p : Fin 1024) (r : LaneReq) (y0 : Nat) (y1 : Nat) :
    (State.laneStoreAll s p r y0 y1).keep = s.keep :=  by
  induction y0 generalizing s p r y1 with
  | zero => simp [State.laneStoreAll]
  | succ n ih =>
    unfold State.laneStoreAll
    try dsimp only
    repeat' split
    all_goals simp [ih]

@[simp] theorem keep_State_laneTake (s : State) (p : Fin 1024) :
    (State.laneTake s p).keep = s.keep :=  by
  unfold State.laneTake
  try dsimp only
  repeat' split
  all_goals simp

@[simp] theorem keep_State_laneBeat (s : State) (p : Fin 1024) :
    (State.laneBeat s p).keep = s.keep := by
  unfold State.laneBeat
  try dsimp only
  repeat' split
  all_goals simp

@[simp] theorem keep_State_serveBeat (s : State) (p i : Nat) (r : LaneReq) (bus : BitVec 2048) :
    (State.serveBeat s p i r bus).keep = s.keep :=  by
  unfold State.serveBeat
  simp

@[simp] theorem keep_State_serveHbm (s : State) (stack : Fin 12) (late : Bool) (bus : BitVec 2048) :
    (State.serveHbm s stack late bus).keep = s.keep := by
  unfold State.serveHbm
  try dsimp only
  repeat' split
  all_goals simp

@[simp] theorem keep_State_arrayFirst (s : State) (stack : Fin 12) :
    (State.arrayFirst s stack).keep = s.keep :=  by
  unfold State.arrayFirst
  simp
  split <;> simp

@[simp] theorem keep_execMemlaneRequest (p : Fin 1024) (s : State) :
    Keeps s (execMemlaneRequest p s) := by
  unfold execMemlaneRequest
  simp

@[simp] theorem keep_execMemlaneReadBeat (p : Fin 1024) (s : State) :
    Keeps s (execMemlaneReadBeat p s) := by
  unfold execMemlaneReadBeat
  simp

@[simp] theorem keep_execHbmRequestServe (stack : Fin 12) (late : Bool) (bus : BitVec 2048) (s : State) :
    Keeps s (execHbmRequestServe stack late bus s) := by
  unfold execHbmRequestServe
  simp

end Sys2Proof.Machine
end

