-- ==== Sys2Proof/Laws/KeepRowSums.lean ====
section
/-!
SUPPORT. What no function of Machine/RowSums.lean touches: the queue, the device's constants and the fuses.
-/

namespace Sys2Proof.Machine
open State Config

@[simp] theorem keep_State_setDesc (s : State) (r : RowPlan) (off n v : Nat) :
    (State.setDesc s r off n v).keep = s.keep :=  by
  unfold State.setDesc
  try dsimp only
  repeat' split
  all_goals first
    | (simp; done)
    | (try simp
       refine (keep_foldl_snd _ _ _ (fun t x => ?_)).trans ?_
       · try dsimp only
         repeat' split
         all_goals simp_all
       · simp)

@[simp] theorem keep_State_floatRow (s : State) (r : RowPlan) :
    (State.floatRow s r).keep = s.keep :=  by
  unfold State.floatRow
  try dsimp only
  repeat' split
  all_goals first
    | (simp; done)
    | (try simp
       refine (keep_foldl_snd _ _ _ (fun t x => ?_)).trans ?_
       · try dsimp only
         repeat' split
         all_goals simp_all
       · simp)

@[simp] theorem keep_State_putFold (s : State) (bank : Nat) (x : RowPlan × Int) :
    (State.putFold s bank x).keep = s.keep :=  by
  unfold State.putFold
  try dsimp only
  repeat' split
  all_goals first
    | (simp; done)
    | (try simp
       refine (keep_foldl_snd _ _ _ (fun t x => ?_)).trans ?_
       · try dsimp only
         repeat' split
         all_goals simp_all
       · simp)

@[simp] theorem keep_State_foldRows (s : State) (bank : Nat) :
    (State.foldRows s bank).keep = s.keep :=  by
  unfold State.foldRows
  simp

@[simp] theorem keep_State_loadRows (s : State) :
    (State.loadRows s).keep = s.keep :=  by
  unfold State.loadRows
  simp

@[simp] theorem keep_State_refold (s : State) (b : Nat) :
    (State.refold s b).keep = s.keep :=  by
  unfold State.refold
  simp

end Sys2Proof.Machine
end

