-- ==== Sys2Proof/Laws/KeepHistRing.lean ====
section
/-!
SUPPORT. What no function of Machine/HistRing.lean touches: the queue, the device's constants and the fuses.
-/

namespace Sys2Proof.Machine
open State

@[simp] theorem keep_State_ringWrite (s : State) (r : Nat) (bs : List Byte) :
    (State.ringWrite s r bs).keep = s.keep := by
  unfold State.ringWrite
  simp

@[simp] theorem keep_State_ringRead (s : State) (r len : Nat) (withheld : Bool) :
    (State.ringRead s r len withheld).1.keep = s.keep := by
  unfold State.ringRead
  simp

@[simp] theorem keep_State_ringBlockDone (s : State) :
    (State.ringBlockDone s).keep = s.keep := by
  unfold State.ringBlockDone
  simp

@[simp] theorem keep_State_countSlot (s : State) (b : Nat) (bytes : List Byte) :
    (State.countSlot s b bytes).keep = s.keep :=  by
  unfold State.countSlot
  simp

@[simp] theorem keep_State_readerBlock (s : State) :
    (State.readerBlock s).keep = s.keep := by
  unfold State.readerBlock
  simp

@[simp] theorem keep_State_resumeEb (s : State) :
    (State.resumeEb s).keep = s.keep := by
  unfold State.resumeEb
  simp

@[simp] theorem keep_State_debtCycle (s : State) :
    (State.debtCycle s).keep = s.keep := by
  unfold State.debtCycle
  simp

@[simp] theorem keep_State_shedLevel (s : State) : s.shedLevel.keep = s.keep := rfl

@[simp] theorem keep_State_overrunSkip (s : State) :
    (State.overrunSkip s).keep = s.keep := by
  unfold State.overrunSkip
  simp

@[simp] theorem keep_State_legendWrite (s : State) (dpa : Nat) (bs : List Byte) :
    (State.legendWrite s dpa bs).keep = s.keep :=  by
  unfold State.legendWrite
  simp

@[simp] theorem keep_State_statClose (s : State) :
    (State.statClose s).keep = s.keep := by
  unfold State.statClose
  simp
  split <;> simp

@[simp] theorem keep_State_recAdvance (s : State) :
    (State.recAdvance s).keep = s.keep := by
  unfold State.recAdvance
  simp

@[simp] theorem keep_State_setRec (s : State) (bank chan w : Nat) (v : Word) :
    (State.setRec s bank chan w v).keep = s.keep := by
  unfold State.setRec
  simp

@[simp] theorem keep_State_writeRecData (s : State) (m : Master) (v : Word) :
    (State.writeRecData s m v).keep = s.keep := by
  unfold State.writeRecData
  simp

@[simp] theorem keep_State_armRec (s : State) (b : Nat) :
    (State.armRec s b).1.keep = s.keep := by
  unfold State.armRec
  simp

@[simp] theorem keep_State_writeRecSwitch (s : State) (hi : Word) :
    (State.writeRecSwitch s hi).keep = s.keep := by
  unfold State.writeRecSwitch
  simp

@[simp] theorem keep_State_activateRec (s : State) :
    (State.activateRec s).keep = s.keep := by
  unfold State.activateRec
  simp

@[simp] theorem keep_State_freeStaging (s : State) :
    (State.freeStaging s).keep = s.keep := by
  unfold State.freeStaging
  try dsimp only
  split <;> simp

@[simp] theorem keep_State_hubInject (s : State) (port : Fin 32) (wait : Nat) (f : Flit) (tok : BitVec 16) :
    (State.hubInject s port wait f tok).keep = s.keep := by
  unfold State.hubInject
  simp

@[simp] theorem keep_State_injectEntry (s : State) (p : InEntry) (e : EbEntry) :
    (State.injectEntry s p e).keep = s.keep := by
  unfold State.injectEntry
  simp

@[simp] theorem keep_State_takeEntry (s : State) (e : EbEntry) :
    (State.takeEntry s e).keep = s.keep := by
  unfold State.takeEntry
  simp

@[simp] theorem keep_State_injectNext (s : State) (k : Nat) :
    (State.injectNext s k).keep = s.keep := by
  unfold State.injectNext
  simp
  split <;> simp

@[simp] theorem keep_execRingReaderTakeover (s : State) :
    Keeps s (execRingReaderTakeover s) := by
  unfold execRingReaderTakeover
  simp

@[simp] theorem keep_execRingReaderBlock (s : State) :
    Keeps s (execRingReaderBlock s) := by
  unfold execRingReaderBlock
  simp

@[simp] theorem keep_execEbResume (s : State) :
    Keeps s (execEbResume s) := by
  unfold execEbResume
  simp

@[simp] theorem keep_execIngRecDataWrite (m : Master) (v : Word) (s : State) :
    Keeps s (execIngRecDataWrite m v s) := by
  unfold execIngRecDataWrite
  simp

@[simp] theorem keep_execRecSwitchArm (m : Master) (hi : Word) (s : State) :
    Keeps s (execRecSwitchArm m hi s) := by
  unfold execRecSwitchArm
  simp

@[simp] theorem keep_execRecSwitchActivate (s : State) :
    Keeps s (execRecSwitchActivate s) := by
  unfold execRecSwitchActivate
  simp

@[simp] theorem keep_execStagingBankFree (s : State) :
    Keeps s (execStagingBankFree s) := by
  unfold execStagingBankFree
  simp

@[simp] theorem keep_execStatIntervalClose (s : State) :
    Keeps s (execStatIntervalClose s) := by
  unfold execStatIntervalClose
  simp

@[simp] theorem keep_execDebtUpdate (s : State) :
    Keeps s (execDebtUpdate s) := by
  unfold execDebtUpdate
  simp

@[simp] theorem keep_execShedLevelUpdate (s : State) :
    Keeps s (execShedLevelUpdate s) := by
  unfold execShedLevelUpdate
  simp

@[simp] theorem keep_execOverrunSkip (s : State) :
    Keeps s (execOverrunSkip s) := by
  unfold execOverrunSkip
  simp

@[simp] theorem keep_execInputPlanInject (k : BitVec 16) (s : State) :
    Keeps s (execInputPlanInject k s) := by
  unfold execInputPlanInject
  simp

end Sys2Proof.Machine
end

