-- ==== Sys2Proof/Laws/KeepTrigOps.lean ====
section
/-!
SUPPORT. What no function of Machine/TrigOps.lean touches: the queue, the device's constants and the fuses.
-/

namespace Sys2Proof.Machine
open State

@[simp] theorem keep_State_setTcls (s : State) (c : Nat) (x : TClass) :
    (State.setTcls s c x).keep = s.keep := by
  unfold State.setTcls
  simp

@[simp] theorem keep_State_setPrim (s : State) (u : Nat) (x : Prim) :
    (State.setPrim s u x).keep = s.keep := by
  unfold State.setPrim
  simp

@[simp] theorem keep_State_setMask (s : State) (k : Nat) (x : Mask) :
    (State.setMask s k x).keep = s.keep := by
  unfold State.setMask
  simp

@[simp] theorem keep_State_setExtIn (s : State) (n : Nat) (x : ExtIn) :
    (State.setExtIn s n x).keep = s.keep := by
  unfold State.setExtIn
  simp

@[simp] theorem keep_State_setStream (s : State) (v : Nat) (x : VStream) :
    (State.setStream s v x).keep = s.keep := by
  unfold State.setStream
  simp

@[simp] theorem keep_State_charge (s : State) (c k : Nat) (a b : Int) :
    (State.charge s c k a b).keep = s.keep := by
  unfold State.charge
  simp

@[simp] theorem keep_State_pushTo (s : State) (c : Nat) (e : SlotEvent) :
    (State.pushTo s c e).keep = s.keep := by
  unfold State.pushTo
  simp

@[simp] theorem keep_State_pushEvent (s : State) (kind : SrcKind) (idx : Nat) (e : SlotEvent) :
    (State.pushEvent s kind idx e).keep = s.keep := by
  unfold State.pushEvent
  simp

end Sys2Proof.Machine
end

