-- ==== Sys2Proof/Laws/KeepCombiner.lean ====
section
/-!
SUPPORT. What no function of Machine/Combiner.lean touches: the queue, the device's constants and the fuses.
-/

namespace Sys2Proof.Machine
open State

@[simp] theorem keep_State_refuseCapture (s : State) (c a b : Nat) :
    (State.refuseCapture s c a b).keep = s.keep := by
  unfold State.refuseCapture
  simp

@[simp] theorem keep_State_openEvent (s : State) (e : CapEvent) :
    (State.openEvent s e).1.keep = s.keep := by
  unfold State.openEvent
  simp

@[simp] theorem keep_State_captureRequest (s : State) (f : Firing) :
    (State.captureRequest s f).1.keep = s.keep := by
  unfold State.captureRequest
  simp
  split <;> simp

@[simp] theorem keep_State_setTout (s : State) (o : Nat) (x : TOut) :
    (State.setTout s o x).keep = s.keep := by
  unfold State.setTout
  simp

@[simp] theorem keep_State_startPulse (s : State) (o : Nat) :
    (State.startPulse s o).keep = s.keep := by
  unfold State.startPulse
  simp

@[simp] theorem keep_State_endPulse (s : State) (o : Nat) :
    (State.endPulse s o).keep = s.keep :=  by
  unfold State.endPulse
  simp

@[simp] theorem keep_State_driveOutput (s : State) (o : Nat) (t : Int) :
    (State.driveOutput s o t).1.keep = s.keep := by
  unfold State.driveOutput
  simp

@[simp] theorem keep_State_startTimed (s : State) (o : Nat) :
    (State.startTimed s o).keep = s.keep :=  by
  unfold State.startTimed
  try dsimp only
  split <;> simp

@[simp] theorem keep_State_driveOutputs (s : State) (c : Nat) (t : Int) :
    (State.driveOutputs s c t).1.keep = s.keep := by
  unfold State.driveOutputs
  simp

@[simp] theorem keep_State_notify (s : State) (f : Firing) (seq : Nat) (late : Bool) (event : BitVec 64) :
    (State.notify s f seq late event).keep = s.keep := by
  unfold State.notify
  simp

@[simp] theorem keep_State_accept (s : State) (f : Firing) :
    (State.accept s f).keep = s.keep := by
  unfold State.accept
  simp

@[simp] theorem keep_State_fireClass (s : State) (f : Firing) (mark : Int) :
    (State.fireClass s f mark).keep = s.keep := by
  unfold State.fireClass
  simp

@[simp] theorem keep_State_instant (s : State) (c : Nat) (es live : List SlotEvent) (mark : Int) (cycle : Nat) (again : Bool) :
    (State.instant s c es live mark cycle again).keep = s.keep := by
  unfold State.instant
  simp
  split <;> simp

@[simp] theorem keep_State_fastEvaluate (s : State) (c : Nat) :
    (State.fastEvaluate s c).keep = s.keep := by
  unfold State.fastEvaluate
  try dsimp only
  split <;> simp

@[simp] theorem keep_State_slowEvaluate (s : State) (c : Nat) :
    (State.slowEvaluate s c).keep = s.keep := by
  unfold State.slowEvaluate
  try dsimp only
  split <;> simp

@[simp] theorem keep_State_evaluate (s : State) (c : Nat) (slow : Bool) :
    (State.evaluate s c slow).keep = s.keep := by
  unfold State.evaluate
  simp

@[simp] theorem keep_State_enableClass (s : State) (c : Nat) :
    (State.enableClass s c).keep = s.keep := by
  unfold State.enableClass
  simp

@[simp] theorem keep_State_freeThr (s : State) :
    (State.freeThr s).keep = s.keep := by
  unfold State.freeThr
  try dsimp only
  split <;> simp

@[simp] theorem keep_State_armThr (s : State) (b : Nat) :
    (State.armThr s b).1.keep = s.keep := by
  unfold State.armThr
  simp

@[simp] theorem keep_State_writeThrSwitch (s : State) (hi : Word) :
    (State.writeThrSwitch s hi).keep = s.keep := by
  unfold State.writeThrSwitch
  simp

@[simp] theorem keep_State_swapThr (s : State) :
    (State.swapThr s).keep = s.keep := by
  unfold State.swapThr
  exact keep_foldl _ _ _ (fun t v => by simp)

@[simp] theorem keep_State_activateThr (s : State) :
    (State.activateThr s).keep = s.keep := by
  unfold State.activateThr
  dsimp only
  split
  · rw [keep_State_freeThr, State.keep_mk]
    simp
  · rfl

@[simp] theorem keep_State_verdictLatency (s : State) (v idx : Nat) :
    (State.verdictLatency s v idx).keep = s.keep := by
  unfold State.verdictLatency
  try dsimp only
  split <;> simp

@[simp] theorem keep_State_chargeStream (s : State) (v cause b span chan : Nat) :
    (State.chargeStream s v cause b span chan).keep = s.keep := by
  unfold State.chargeStream
  simp

@[simp] theorem keep_State_verdict (s : State) (v : Nat) (flit : BitVec 256) (bad : Bool) :
    (State.verdict s v flit bad).keep = s.keep := by
  unfold State.verdict
  simp

@[simp] theorem keep_execVerdictArrival (stream : Fin 256) (flit : BitVec 256) (bad : Bool) (s : State) :
    Keeps s (execVerdictArrival stream flit bad s) := by
  unfold execVerdictArrival
  simp

@[simp] theorem keep_execThrSwitchArm (m : Master) (hi : Word) (s : State) :
    Keeps s (execThrSwitchArm m hi s) := by
  unfold execThrSwitchArm
  simp

@[simp] theorem keep_execThrSwitchActivate (s : State) :
    Keeps s (execThrSwitchActivate s) := by
  unfold execThrSwitchActivate
  simp

@[simp] theorem keep_execClassEnable (c : Fin 64) (s : State) :
    Keeps s (execClassEnable c s) := by
  unfold execClassEnable
  simp

@[simp] theorem keep_execFastClassEvaluate (c : Fin 64) (s : State) :
    Keeps s (execFastClassEvaluate c s) := by
  unfold execFastClassEvaluate
  simp

@[simp] theorem keep_execSlowClassEvaluate (c : Fin 64) (s : State) :
    Keeps s (execSlowClassEvaluate c s) := by
  unfold execSlowClassEvaluate
  simp

@[simp] theorem keep_execTimedPulseStart (o : Fin 16) (s : State) :
    Keeps s (execTimedPulseStart o s) :=  by
  unfold execTimedPulseStart
  simp

@[simp] theorem keep_execOutputPulseEnd (o : Fin 16) (s : State) :
    Keeps s (execOutputPulseEnd o s) := by
  unfold execOutputPulseEnd
  simp

end Sys2Proof.Machine
end

