-- ==== Sys2Proof/Laws/KeepCapture.lean ====
section
/-!
SUPPORT. What no function of Machine/Capture.lean touches: the queue, the device's constants and the fuses.
-/

namespace Sys2Proof.Machine
open State

@[simp] theorem keep_State_areaWrite (s : State) (a : Area) (bs : List Byte) :
    (State.areaWrite s a bs).keep = s.keep := by
  unfold State.areaWrite
  simp

@[simp] theorem keep_State_areaPad (s : State) (a : Area) (len : Nat) :
    (State.areaPad s a len).keep = s.keep := by
  unfold State.areaPad
  simp

@[simp] theorem keep_State_eventDrain (s : State) (len : Nat) :
    (State.eventDrain s len).keep = s.keep :=  by
  unfold State.eventDrain
  simp

@[simp] theorem keep_State_refuseEvent (s : State) (e : CapEvent) :
    (State.refuseEvent s e).keep = s.keep := by
  unfold State.refuseEvent
  simp

@[simp] theorem keep_State_setHead (s : State) (e : CapEvent) :
    (State.setHead s e).keep = s.keep := by
  unfold State.setHead
  simp

@[simp] theorem keep_State_refuseAtRisk (s : State) :
    (State.refuseAtRisk s).keep = s.keep := by
  unfold State.refuseAtRisk
  simp

@[simp] theorem keep_State_captureRead (s : State) (ls : List Nat) (m : SMap (BitVec 2048)) :
    (s.captureRead ls m).1.keep = s.keep := by
  induction ls generalizing s m with
  | nil => rfl
  | cons l ls ih =>
    unfold State.captureRead
    split
    · rename_i h
      rw [ih]
      exact keep_of_fst h (by simp)
    · rename_i h
      exact (keep_of_fst h (by simp) : _ = s.keep)

@[simp] theorem keep_State_dropHead (s : State) :
    (State.dropHead s).keep = s.keep := by
  unfold State.dropHead
  simp

@[simp] theorem keep_State_finishEvent (s : State) (bs : List Byte) :
    (State.finishEvent s bs).keep = s.keep := by
  unfold State.finishEvent
  simp

@[simp] theorem keep_State_withholdHead (s : State) (e : CapEvent) :
    (State.withholdHead s e).keep = s.keep := by
  unfold State.withholdHead
  simp

@[simp] theorem keep_State_copyBlock (s : State) :
    (State.copyBlock s).keep = s.keep :=  by
  unfold State.copyBlock
  try dsimp only
  repeat' split
  all_goals first
    | (simp; done)
    | (refine keep_of_fst (by assumption) ?_; simp; done)
    | (simp; refine keep_of_fst (by assumption) ?_; simp; done)
    | (refine keep_of_snd (by assumption) ?_; simp; done)
    | (simp; refine keep_of_snd (by assumption) ?_; simp; done)
    | (simp_all; done)

@[simp] theorem keep_State_copyComplete (s : State) : s.copyComplete.keep = s.keep := by
  unfold State.copyComplete
  split
  · split
    · exact keep_State_finishEvent ..
    · split
      · exact keep_State_withholdHead ..
      · split
        · rename_i h
          exact (keep_State_withholdHead ..).trans (keep_of_fst h (keep_State_captureRead ..))
        · rename_i h
          exact (keep_State_finishEvent ..).trans (keep_of_fst h (keep_State_captureRead ..))
  · rfl

@[simp] theorem keep_State_refuseOversize (s : State) :
    (State.refuseOversize s).keep = s.keep := by
  unfold State.refuseOversize
  try dsimp only
  split <;> simp

@[simp] theorem keep_State_copyStart (s : State) :
    (State.copyStart s).keep = s.keep := by
  unfold State.copyStart
  try dsimp only
  split <;> simp

@[simp] theorem keep_State_writeRptr (s : State) (m : Master) (a : Area) (v : DWord) :
    (State.writeRptr s m a v).keep = s.keep := by
  unfold State.writeRptr
  simp

@[simp] theorem keep_execRingBlockComplete (s : State) :
    Keeps s (execRingBlockComplete s) := by
  unfold execRingBlockComplete
  simp

@[simp] theorem keep_execCaptureEventClose (c : Fin 64) (s : State) :
    Keeps s (execCaptureEventClose c s) := by
  unfold execCaptureEventClose
  try dsimp only
  split <;> simp

@[simp] theorem keep_execCaptureCopyStart (s : State) :
    Keeps s (execCaptureCopyStart s) := by
  unfold execCaptureCopyStart
  simp

@[simp] theorem keep_execCaptureRefuseOversize (s : State) :
    Keeps s (execCaptureRefuseOversize s) := by
  unfold execCaptureRefuseOversize
  simp

@[simp] theorem keep_execCaptureCopyComplete (s : State) :
    Keeps s (execCaptureCopyComplete s) := by
  unfold execCaptureCopyComplete
  simp

@[simp] theorem keep_execStoreRptrWrite (m : Master) (survey : Bool) (v : DWord) (s : State) :
    Keeps s (execStoreRptrWrite m survey v s) := by
  unfold execStoreRptrWrite
  simp

end Sys2Proof.Machine
end

