-- ==== Sys2Proof/Laws/KeepFill.lean ====
section
/-!
SUPPORT. What no function of Machine/Fill.lean touches: the queue, the device's constants and the fuses.
-/

namespace Sys2Proof.Machine
open State Config

@[simp] theorem keep_State_configureUnit (s : State) (p : Nat) (k : Nat) (u : Nat) :
    (State.configureUnit s p k u).keep = s.keep := by
  unfold State.configureUnit
  simp

@[simp] theorem keep_State_configureQueue (s : State) (p : Nat) (k : Nat) (q : Nat) :
    (State.configureQueue s p k q).keep = s.keep := by
  unfold State.configureQueue
  simp

@[simp] theorem keep_State_configureTqueue (s : State) (p : Nat) (k : Nat) (q : Nat) :
    (State.configureTqueue s p k q).keep = s.keep := by
  unfold State.configureTqueue
  simp

@[simp] theorem keep_State_configure (s : State) (p k : Nat) :
    (State.configure s p k).keep = s.keep := by
  unfold State.configure
  simp

@[simp] theorem keep_State_bind (s : State) (p : Nat) (l : Fin 8) (k : Fin 8) (old : SlotKind) :
    (State.bind s p l k old).keep = s.keep := by
  unfold State.bind
  simp

@[simp] theorem keep_State_fillDone (s : State) (p : Nat) (f : FillIn) :
    (State.fillDone s p f).keep = s.keep := by
  unfold State.fillDone
  try dsimp only
  split <;> simp

@[simp] theorem keep_State_fillHeader (s : State) (p : Fin 1024) (data : BitVec 256) :
    (State.fillHeader s p data).keep = s.keep := by
  unfold State.fillHeader
  simp

@[simp] theorem keep_State_fillBody (s : State) (p : Fin 1024) (f : FillIn) (data : BitVec 256) :
    (State.fillBody s p f data).keep = s.keep := by
  unfold State.fillBody
  simp

@[simp] theorem keep_State_fillFlit (s : State) (p : Fin 1024) (data : BitVec 256) :
    (State.fillFlit s p data).keep = s.keep := by
  unfold State.fillFlit
  try dsimp only
  split <;> simp

@[simp] theorem keep_State_followBind (s : State) (loc : At) :
    (State.followBind s loc).keep = s.keep := by
  unfold State.followBind
  try dsimp only
  split <;> simp

@[simp] theorem keep_State_armFlipAt (s : State) (n : DWord) (sel : Word) :
    (State.armFlipAt s n sel).1.keep = s.keep :=  by
  unfold State.armFlipAt
  simp

@[simp] theorem keep_State_armFlip (s : State) (hi : Word) :
    (State.armFlip s hi).1.keep = s.keep := by
  unfold State.armFlip
  simp

@[simp] theorem keep_State_writeFlip (s : State) (m : Master) (hi : Word) :
    (State.writeFlip s m hi).keep = s.keep := by
  unfold State.writeFlip
  simp

@[simp] theorem keep_State_flipOne (s : State) (p : Fin 1024) (l : Fin 8) :
    (State.flipOne s p l).keep = s.keep := by
  unfold State.flipOne
  try dsimp only
  split <;> simp

@[simp] theorem keep_State_flipAll (s : State) :
    (State.flipAll s).keep = s.keep := by
  unfold State.flipAll
  try dsimp only
  repeat' split
  all_goals first
    | (simp; done)
    | (refine keep_of_fst (by assumption) ?_; simp; done)
    | (simp; refine keep_of_fst (by assumption) ?_; simp; done)
    | (refine keep_of_snd (by assumption) ?_; simp; done)
    | (simp; refine keep_of_snd (by assumption) ?_; simp; done)
    | (simp_all; done)

@[simp] theorem keep_execFillReceive (p : Fin 1024) (data : BitVec 256) (_last : Bool) (s : State) :
    Keeps s (execFillReceive p data _last s) := by
  unfold execFillReceive
  simp

@[simp] theorem keep_execFollowBind (loc : At) (s : State) :
    Keeps s (execFollowBind loc s) := by
  unfold execFollowBind
  simp

@[simp] theorem keep_execFlipArm (m : Master) (hi : Word) (s : State) :
    Keeps s (execFlipArm m hi s) := by
  unfold execFlipArm
  simp

@[simp] theorem keep_execFlipExecute (s : State) :
    Keeps s (execFlipExecute s) := by
  unfold execFlipExecute
  simp

end Sys2Proof.Machine
end

