-- ==== Sys2Proof/Laws/KeepRings.lean ====
section
/-!
SUPPORT. What no function of Machine/Rings.lean touches: the queue, the device's constants and the fuses.
-/

namespace Sys2Proof.Machine
open State

@[simp] theorem keep_State_writeTail (s : State) (r : Nat) (v : Word) :
    (State.writeTail s r v).keep = s.keep := by
  unfold State.writeTail
  simp

@[simp] theorem keep_State_releaseHeld (s : State) (r : Nat) :
    (State.releaseHeld s r).keep = s.keep := by
  unfold State.releaseHeld
  try dsimp only
  split <;> simp

@[simp] theorem keep_State_writeHead (s : State) (r : Nat) (v : Word) :
    (State.writeHead s r v).keep = s.keep := by
  unfold State.writeHead
  simp

@[simp] theorem keep_State_writeRingCfg (s : State) (m : Master) (r : Nat) (v : Word) :
    (State.writeRingCfg s m r v).keep = s.keep := by
  unfold State.writeRingCfg
  simp

@[simp] theorem keep_State_fetch (s : State) (r : Nat) (entry : BitVec 512) :
    (State.fetch s r entry).keep = s.keep := by
  unfold State.fetch
  simp

@[simp] theorem keep_State_fetchFails (s : State) (r : Nat) :
    (State.fetchFails s r).keep = s.keep := by
  unfold State.fetchFails
  simp

@[simp] theorem keep_State_coalesceTimer (s : State) (r : Nat) :
    (State.coalesceTimer s r).keep = s.keep := by
  unfold State.coalesceTimer
  simp

@[simp] theorem keep_State_completeRefused (s : State) (r rule : Nat) :
    (State.completeRefused s r rule).keep = s.keep := by
  unfold State.completeRefused
  simp

@[simp] theorem keep_State_completeBad (s : State) (r off : Nat) :
    (State.completeBad s r off).keep = s.keep := by
  unfold State.completeBad
  simp

@[simp] theorem keep_State_completeDma (s : State) (r : Nat) (which : Fin 3) :
    (State.completeDma s r which).keep = s.keep := by
  unfold State.completeDma
  simp

@[simp] theorem keep_State_onRing (s : State) (r : Fin 16) (op : Byte) (used : Nat) (f : SubEntry → State)
    (hf : ∀ x, (f x).keep = s.keep) : (s.onRing r op used f).keep = s.keep := by
  unfold State.onRing
  repeat' split
  all_goals simp [hf]

theorem grows_onRing (s : State) (r : Fin 16) (op : Byte) (used : Nat) (f : SubEntry → State)
    (hf : ∀ x, Grows s (f x)) : Grows s (s.onRing r op used f) := by
  unfold State.onRing
  repeat' split
  all_goals first | exact hf _ | exact .of_keep (by simp)

@[simp] theorem keep_State_needsContext (s : State) (r : Nat) (f : State) (hf : f.keep = s.keep) :
    (State.needsContext s r f).keep = s.keep := by
  unfold State.needsContext
  simp [*]

@[simp] theorem keep_State_needsState (s : State) (r : Nat) (ok : Bool) (f : State) (hf : f.keep = s.keep) :
    (State.needsState s r ok f).keep = s.keep := by
  unfold State.needsState
  simp [*]

@[simp] theorem keep_execSqTailWrite (m : Master) (r : Fin 16) (v : Word) (s : State) :
    Keeps s (execSqTailWrite m r v s) := by
  unfold execSqTailWrite
  simp

@[simp] theorem keep_execCqHeadWrite (m : Master) (r : Fin 16) (v : Word) (s : State) :
    Keeps s (execCqHeadWrite m r v s) := by
  unfold execCqHeadWrite
  simp

@[simp] theorem keep_execRingEnable (m : Master) (r : Fin 16) (v : Word) (s : State) :
    Keeps s (execRingEnable m r v s) := by
  unfold execRingEnable
  simp

@[simp] theorem keep_execRingDisable (m : Master) (r : Fin 16) (v : Word) (s : State) :
    Keeps s (execRingDisable m r v s) := by
  unfold execRingDisable
  simp

@[simp] theorem keep_execSubmissionFetch (r : Fin 16) (entry : BitVec 512) (s : State) :
    Keeps s (execSubmissionFetch r entry s) := by
  unfold execSubmissionFetch
  simp

@[simp] theorem keep_execFetchError (r : Fin 16) (s : State) :
    Keeps s (execFetchError r s) := by
  unfold execFetchError
  simp

@[simp] theorem keep_execCoalesceTimerExpiry (r : Fin 16) (s : State) :
    Keeps s (execCoalesceTimerExpiry r s) := by
  unfold execCoalesceTimerExpiry
  simp

@[simp] theorem keep_execNop (r : Fin 16) (s : State) :
    Keeps s (execNop r s) := by
  unfold execNop
  simp

end Sys2Proof.Machine
end

