-- ==== Sys2Proof/Laws/KeepTrainMem.lean ====
section
/-!
SUPPORT. What no function of Machine/TrainMem.lean touches: the queue, the device's constants and the fuses.
-/

namespace Sys2Proof.Machine
open State Config

@[simp] theorem keep_State_putBits (s : State) (pic : Nat) (w : RowWeight) (n code : Nat) :
    (State.putBits s pic w n code).keep = s.keep :=  by
  unfold State.putBits
  simp

@[simp] theorem keep_State_putCode (s : State) (t : TensorPlan) (b : Bool) (e code : Nat) :
    (State.putCode s t b e code).keep = s.keep :=  by
  unfold State.putCode
  simp

@[simp] theorem keep_State_putScale (s : State) (t : TensorPlan) (b : Bool) (i code : Nat) :
    (State.putScale s t b i code).keep = s.keep :=  by
  unfold State.putScale
  simp

@[simp] theorem keep_State_closeRow (s : State) (i : Nat) :
    (State.closeRow s i).keep = s.keep :=  by
  unfold State.closeRow
  simp

@[simp] theorem keep_State_copyDesc (s : State) (i j : Nat) :
    (State.copyDesc s i j).keep = s.keep :=  by
  unfold State.copyDesc
  simp

@[simp] theorem keep_State_copyTensor (s : State) (t : TensorPlan) (live : Bool) :
    (State.copyTensor s t live).keep = s.keep :=  by
  unfold State.copyTensor
  simp

@[simp] theorem keep_State_takeArr (s t : State) :
    (State.takeArr s t).keep = s.keep :=  by
  unfold State.takeArr
  simp

@[simp] theorem keep_State_copyLive (s : State) :
    (State.copyLive s).keep = s.keep :=  by
  unfold State.copyLive
  simp

end Sys2Proof.Machine
end

