-- ==== Sys2Proof/Laws/KeepTrainer.lean ====
section
/-!
SUPPORT. What no function of Machine/Trainer.lean touches: the queue, the device's constants and the fuses.
-/

namespace Sys2Proof.Machine
open State Config

@[simp] theorem keep_State_formReport (s : State) (kind : Nat) (live shadow : Word) (windows : Nat) :
    (State.formReport s kind live shadow windows).keep = s.keep :=  by
  unfold State.formReport
  simp

@[simp] theorem keep_State_plainReport (s : State) (kind : Nat) :
    (State.plainReport s kind).keep = s.keep :=  by
  unfold State.plainReport
  simp

@[simp] theorem keep_State_resumeTrainer (s : State) :
    (State.resumeTrainer s).keep = s.keep :=  by
  unfold State.resumeTrainer
  simp

@[simp] theorem keep_State_settleStep (s : State) :
    (State.settleStep s).keep = s.keep := by
  unfold State.settleStep
  try dsimp only
  split <;> simp

@[simp] theorem keep_State_applyParams (s : State) (b : Nat) :
    (State.applyParams s b).keep = s.keep := by
  unfold State.applyParams
  simp

@[simp] theorem keep_State_validate (s : State) :
    (State.validate s).keep = s.keep :=  by
  unfold State.validate
  simp

@[simp] theorem keep_State_takeWindow (s : State) (w : TrainWin) :
    (State.takeWindow s w).keep = s.keep := by
  unfold State.takeWindow
  simp

@[simp] theorem keep_State_selectionInject (s : State) :
    (State.selectionInject s).keep = s.keep := by
  unfold State.selectionInject
  simp

@[simp] theorem keep_State_parameterInject (s : State) :
    (State.parameterInject s).keep = s.keep := by
  unfold State.parameterInject
  simp

@[simp] theorem keep_State_trainStep (s : State) (cols : List GradCol) :
    (State.trainStep s cols).keep = s.keep :=  by
  unfold State.trainStep
  try dsimp only
  repeat' split
  all_goals first
    | (simp; done)
    | (try simp
       refine (keep_foldl_snd _ _ _ (fun t x => ?_)).trans ?_
       · try dsimp only
         repeat' split
         all_goals simp_all
       · simp)

@[simp] theorem keep_execSelectionFlitInject (s : State) :
    Keeps s (execSelectionFlitInject s) := by
  unfold execSelectionFlitInject
  simp

@[simp] theorem keep_execParameterFlitInject (s : State) :
    Keeps s (execParameterFlitInject s) := by
  unfold execParameterFlitInject
  simp

@[simp] theorem keep_execTrainingStepStart (cols : List GradCol) (s : State) :
    Keeps s (execTrainingStepStart cols s) :=  by
  unfold execTrainingStepStart
  simp

end Sys2Proof.Machine
end

