-- ==== Sys2Proof/Laws/KeepIngress.lean ====
section
/-!
SUPPORT. What no function of Machine/Ingress.lean touches: the queue, the device's constants and the fuses.
-/

namespace Sys2Proof.Machine
open State

@[simp] theorem keep_State_setGap (s : State) (n : Nat) :
    (State.setGap s n).keep = s.keep := by
  unfold State.setGap
  simp

@[simp] theorem keep_State_laneFault (s : State) (n : Nat) :
    (State.laneFault s n).keep = s.keep := by
  unfold State.laneFault
  simp

@[simp] theorem keep_State_crcError (s : State) (n : Nat) :
    (State.crcError s n).keep = s.keep := by
  unfold State.crcError
  simp

@[simp] theorem keep_State_adaptEq (s : State) (n : Nat) :
    (State.adaptEq s n).keep = s.keep :=  by
  unfold State.adaptEq
  simp

@[simp] theorem keep_State_dropLane (s : State) (n : Nat) :
    (State.dropLane s n).keep = s.keep := by
  unfold State.dropLane
  simp

@[simp] theorem keep_State_dropLinks (s : State) :
    (State.dropLinks s).keep = s.keep := by
  unfold State.dropLinks
  simp

@[simp] theorem keep_State_reconfigure (s : State) :
    (State.reconfigure s).keep = s.keep := by
  unfold State.reconfigure
  simp

@[simp] theorem keep_State_writeLaneCfg (s : State) (m : Master) (n : Nat) (v : Word) :
    (State.writeLaneCfg s m n v).keep = s.keep := by
  unfold State.writeLaneCfg
  simp

@[simp] theorem keep_State_writeLinkCfg (s : State) (k : Nat) (v : Word) :
    (State.writeLinkCfg s k v).keep = s.keep := by
  unfold State.writeLinkCfg
  simp

@[simp] theorem keep_State_dataFrame (s : State) (n : Nat) (f : NolerFrame) (stamp : DWord) :
    (State.dataFrame s n f stamp).keep = s.keep := by
  unfold State.dataFrame
  simp

@[simp] theorem keep_State_frame (s : State) (n : Nat) (f : NolerFrame) (stamp : DWord) :
    (State.frame s n f stamp).keep = s.keep := by
  unfold State.frame
  simp

@[simp] theorem keep_State_fillTick (s : State) (n : Nat) :
    (State.fillTick s n).keep = s.keep := by
  unfold State.fillTick
  simp

@[simp] theorem keep_State_startEq (s : State) (n : Nat) :
    (State.startEq s n).keep = s.keep := by
  unfold State.startEq
  simp

@[simp] theorem keep_State_loseAlign (s : State) (n : Nat) :
    (State.loseAlign s n).keep = s.keep := by
  unfold State.loseAlign
  simp

@[simp] theorem keep_State_linkSysref (s : State) (k : Nat) (stamp : DWord) (off : Bool) :
    (State.linkSysref s k stamp off).keep = s.keep := by
  unfold State.linkSysref
  simp

@[simp] theorem keep_State_multiblock (s : State) (k : Nat) (words : List (BitVec 16)) (badLanes : BitVec 64) :
    (State.multiblock s k words badLanes).keep = s.keep := by
  unfold State.multiblock
  simp

@[simp] theorem keep_execIngLaneCfgWrite (m : Master) (lane : Fin 64) (v : Word) (s : State) :
    Keeps s (execIngLaneCfgWrite m lane v s) := by
  unfold execIngLaneCfgWrite
  simp

@[simp] theorem keep_execLaneLock (lane : Fin 64) (locked : Bool) (s : State) :
    Keeps s (execLaneLock lane locked s) := by
  unfold execLaneLock
  simp

@[simp] theorem keep_execLaneAligned (lane : Fin 64) (s : State) :
    Keeps s (execLaneAligned lane s) := by
  unfold execLaneAligned
  simp

@[simp] theorem keep_execLaneAlignmentLost (lane : Fin 64) (s : State) :
    Keeps s (execLaneAlignmentLost lane s) := by
  unfold execLaneAlignmentLost
  simp

@[simp] theorem keep_execNolerFrameReceive (lane : Fin 64) (wire : BitVec 1024) (stamp : DWord) (s : State) :
    Keeps s (execNolerFrameReceive lane wire stamp s) := by
  unfold execNolerFrameReceive
  simp

@[simp] theorem keep_execFillSampleTick (lane : Fin 64) (s : State) :
    Keeps s (execFillSampleTick lane s) := by
  unfold execFillSampleTick
  simp

@[simp] theorem keep_execJesdLinkCfgWrite (m : Master) (link : Fin 16) (v : Word) (s : State) :
    Keeps s (execJesdLinkCfgWrite m link v s) := by
  unfold execJesdLinkCfgWrite
  simp

@[simp] theorem keep_execJesdMultiblockReceive (link : Fin 16) (words : List (BitVec 16)) (badLanes : BitVec 64) (s : State) :
    Keeps s (execJesdMultiblockReceive link words badLanes s) := by
  unfold execJesdMultiblockReceive
  simp

@[simp] theorem keep_execJesdSyncLost (lane : Fin 64) (s : State) :
    Keeps s (execJesdSyncLost lane s) := by
  unfold execJesdSyncLost
  simp

@[simp] theorem keep_execSyncHeaderLock (lane : Fin 64) (s : State) :
    Keeps s (execSyncHeaderLock lane s) := by
  unfold execSyncHeaderLock
  simp

end Sys2Proof.Machine
end

