-- ==== Sys2Proof/Laws/KeepTrigger.lean ====
section
/-!
SUPPORT. What no function of Machine/Trigger.lean touches: the queue, the device's constants and the fuses.
-/

namespace Sys2Proof.Machine
open State

@[simp] theorem keep_State_startMasks (s : State) (u n : Nat) (t : Int) :
    (State.startMasks s u n t).keep = s.keep := by
  unfold State.startMasks
  simp

@[simp] theorem keep_State_firePrim (s : State) (u n : Nat) (t : Int) :
    (State.firePrim s u n t).keep = s.keep := by
  unfold State.firePrim
  simp

@[simp] theorem keep_State_evalPrim (s : State) (u : Nat) (x : TSample) :
    (State.evalPrim s u x).keep = s.keep := by
  unfold State.evalPrim
  simp

@[simp] theorem keep_State_stepPrim (s : State) (u : Nat) :
    (State.stepPrim s u).keep = s.keep := by
  unfold State.stepPrim
  try dsimp only
  split <;> simp

@[simp] theorem keep_State_enablePrim (s : State) (u : Nat) :
    (State.enablePrim s u).keep = s.keep := by
  unfold State.enablePrim
  simp

@[simp] theorem keep_State_testPoint (s : State) (k : Nat) (x : TSample) (n i : Nat) (t0 : Int) :
    (State.testPoint s k x n i t0).keep = s.keep := by
  unfold State.testPoint
  try dsimp only
  split <;> simp

@[simp] theorem keep_State_stepMask (s : State) (k : Nat) :
    (State.stepMask s k).keep = s.keep := by
  unfold State.stepMask
  try dsimp only
  repeat' split
  all_goals simp

@[simp] theorem keep_State_fireInput (s : State) (n : Nat) (stamp : DWord) (tdc : Option TdcCapture) :
    (State.fireInput s n stamp tdc).keep = s.keep := by
  unfold State.fireInput
  simp

@[simp] theorem keep_State_detects (s : State) (lasts : Nat) :
    (State.detects s lasts).2.keep = s.keep :=  by
  unfold State.detects
  simp

@[simp] theorem keep_State_takeEdge (s : State) (n : Nat) (lvl : Bool) (stamp : DWord) (tdc : Option TdcCapture) :
    (State.takeEdge s n lvl stamp tdc).keep = s.keep :=  by
  unfold State.takeEdge
  simp

@[simp] theorem keep_State_inputEdge (s : State) (n : Nat) (pin : Bool) (stamp : DWord) (tdc : Option TdcCapture) (lasts : Nat) :
    (State.inputEdge s n pin stamp tdc lasts).keep = s.keep :=  by
  unfold State.inputEdge
  simp

@[simp] theorem keep_State_rearm (s : State) (y0 : TrigSrc) :
    (State.rearm s y0).keep = s.keep := by
  unfold State.rearm
  try dsimp only
  split <;> simp

@[simp] theorem keep_State_stuck (s : State) (y0 : TrigSrc) :
    (State.stuck s y0).keep = s.keep := by
  unfold State.stuck
  try dsimp only
  split <;> simp

@[simp] theorem keep_State_startTdc (s : State) (t0 : DWord) :
    (State.startTdc s t0).keep = s.keep := by
  unfold State.startTdc
  simp

@[simp] theorem keep_State_writeTdcCfg (s : State) (m : Master) (v : Word) (t0 : DWord) :
    (State.writeTdcCfg s m v t0).keep = s.keep :=  by
  unfold State.writeTdcCfg
  simp

@[simp] theorem keep_State_anchorStamp (s : State) :
    (State.anchorStamp s).2.keep = s.keep :=  by
  unfold State.anchorStamp
  simp

@[simp] theorem keep_State_calibrate (s : State) (line : Nat) (counts : List Nat) :
    (State.calibrate s line counts).keep = s.keep := by
  unfold State.calibrate
  simp

@[simp] theorem keep_execPrimitiveSample (u : Fin 1024) (s : State) :
    Keeps s (execPrimitiveSample u s) := by
  unfold execPrimitiveSample
  simp

@[simp] theorem keep_execPrimitiveEnable (u : Fin 1024) (s : State) :
    Keeps s (execPrimitiveEnable u s) := by
  unfold execPrimitiveEnable
  simp

@[simp] theorem keep_execHoldoffExpiry (src : TrigSrc) (s : State) :
    Keeps s (execHoldoffExpiry src s) := by
  unfold execHoldoffExpiry
  simp

@[simp] theorem keep_execStuckDetect (src : TrigSrc) (s : State) :
    Keeps s (execStuckDetect src s) := by
  unfold execStuckDetect
  simp

@[simp] theorem keep_execMaskPointTest (k : Fin 64) (s : State) :
    Keeps s (execMaskPointTest k s) := by
  unfold execMaskPointTest
  simp

@[simp] theorem keep_State_writeMaskStatus (s : State) (v : Word) :
    (State.writeMaskStatus s v).keep = s.keep := by
  unfold State.writeMaskStatus
  simp

@[simp] theorem keep_execMaskRearm (m : Master) (v : Word) (s : State) :
    Keeps s (execMaskRearm m v s) := by
  unfold execMaskRearm
  simp

@[simp] theorem keep_execExternalInputEdge (n : Fin 16) (level : PinLevel) (stamp : DWord) (tdc : Option TdcCapture) (s : State) :
    Keeps s (execExternalInputEdge n level stamp tdc s) :=  by
  unfold execExternalInputEdge
  simp

@[simp] theorem keep_execTdcEnable (m : Master) (v : Word) (t0 : DWord) (s : State) :
    Keeps s (execTdcEnable m v t0 s) := by
  unfold execTdcEnable
  simp

@[simp] theorem keep_execTdcLineCalibrate (n : Fin 16) (counts : List Nat) (s : State) :
    Keeps s (execTdcLineCalibrate n counts s) := by
  unfold execTdcLineCalibrate
  simp

@[simp] theorem keep_execTdcLineSwap (n : Fin 16) (s : State) :
    Keeps s (execTdcLineSwap n s) := by
  unfold execTdcLineSwap
  simp

@[simp] theorem keep_execTdcLock (locked : Bool) (s : State) :
    Keeps s (execTdcLock locked s) := by
  unfold execTdcLock
  simp

@[simp] theorem keep_execSysrefEdge (stamp : DWord) (off : BitVec 16) (s : State) :
    Keeps s (execSysrefEdge stamp off s) := by
  unfold execSysrefEdge
  simp

end Sys2Proof.Machine
end

