-- ==== Sys2Proof/Laws/KeepAdapt.lean ====
section
/-!
SUPPORT. What no function of Machine/Adapt.lean touches: the queue, the device's constants and the fuses.
-/

namespace Sys2Proof.Machine
open State Config

@[simp] theorem keep_State_requestParam (s : State) (host : Bool) (b id : Nat) (v : Word) :
    (State.requestParam s host b id v).1.keep = s.keep := by
  unfold State.requestParam
  simp

@[simp] theorem keep_State_requestPause (s : State) (b : Nat) (on : Bool) :
    (State.requestPause s b on).1.keep = s.keep := by
  unfold State.requestPause
  simp

@[simp] theorem keep_State_pauseSoon (s : State) (on : Bool) :
    (State.pauseSoon s on).keep = s.keep := by
  unfold State.pauseSoon
  try dsimp only
  split <;> simp

@[simp] theorem keep_State_writeStatus (s : State) :
    (State.writeStatus s).keep = s.keep := by
  unfold State.writeStatus
  simp

@[simp] theorem keep_State_acted (s : State) (b : Nat) (ok : Bool) :
    (State.acted s b ok).keep = s.keep := by
  unfold State.acted
  simp

@[simp] theorem keep_State_abandonSwap (s : State) :
    (State.abandonSwap s).keep = s.keep := by
  unfold State.abandonSwap
  simp

@[simp] theorem keep_State_startSwap (s : State) (live shadow : Word) (windows block : Nat) :
    (State.startSwap s live shadow windows block).keep = s.keep := by
  unfold State.startSwap
  simp

@[simp] theorem keep_State_carrySwap (s : State) (block : Nat) :
    (State.carrySwap s block).keep = s.keep := by
  unfold State.carrySwap
  simp

@[simp] theorem keep_State_takeReport (s : State) (flit : BitVec 256) :
    (State.takeReport s flit).keep = s.keep := by
  unfold State.takeReport
  simp

@[simp] theorem keep_State_receiveReport (s : State) (flit : Option (BitVec 256)) :
    (State.receiveReport s flit).keep = s.keep :=  by
  unfold State.receiveReport
  try dsimp only
  split <;> simp

@[simp] theorem keep_State_nextThr (s : State) (b : Nat) :
    (State.nextThr s b).keep = s.keep := by
  unfold State.nextThr
  simp

@[simp] theorem keep_State_thresholdInterval (s : State) :
    (State.thresholdInterval s).keep = s.keep := by
  unfold State.thresholdInterval
  try dsimp only
  split <;> simp

@[simp] theorem keep_State_nextRange (s : State) (mid : Bool) :
    (State.nextRange s mid).keep = s.keep := by
  unfold State.nextRange
  simp

@[simp] theorem keep_State_stageRange (s : State) (act chan : Nat) :
    (State.stageRange s act chan).keep = s.keep := by
  unfold State.stageRange
  simp

@[simp] theorem keep_State_rangeInterval (s : State) :
    (State.rangeInterval s).keep = s.keep := by
  unfold State.rangeInterval
  try dsimp only
  split <;> simp

@[simp] theorem keep_State_periodBoundary (s : State) :
    (State.periodBoundary s).keep = s.keep := by
  unfold State.periodBoundary
  try dsimp only
  split <;> simp

@[simp] theorem keep_State_startPolicy (s : State) :
    (State.startPolicy s).keep = s.keep := by
  unfold State.startPolicy
  simp

@[simp] theorem keep_State_stopPolicies (s : State) :
    (State.stopPolicies s).keep = s.keep := by
  unfold State.stopPolicies
  simp

@[simp] theorem keep_State_needsAdapt (s : State) (r : Nat) (f : State) (hf : f.keep = s.keep) :
    (State.needsAdapt s r f).keep = s.keep := by
  unfold State.needsAdapt
  simp [*]

@[simp] theorem keep_State_takeLabel (s : State) (w : List Byte) :
    (State.takeLabel s w).1.keep = s.keep := by
  unfold State.takeLabel
  simp

@[simp] theorem keep_execTrainerReportReceive (flit : Option (BitVec 256)) (s : State) :
    Keeps s (execTrainerReportReceive flit s) := by
  unfold execTrainerReportReceive
  simp

@[simp] theorem keep_execThresholdPolicyInterval (s : State) :
    Keeps s (execThresholdPolicyInterval s) := by
  unfold execThresholdPolicyInterval
  simp

@[simp] theorem keep_execRangePolicyInterval (s : State) :
    Keeps s (execRangePolicyInterval s) := by
  unfold execRangePolicyInterval
  simp

@[simp] theorem keep_execTrainPeriodBoundary (s : State) :
    Keeps s (execTrainPeriodBoundary s) := by
  unfold execTrainPeriodBoundary
  simp

@[simp] theorem keep_execLabel (r : Fin 16) (records : List Byte) (dma : Option (Fin 3)) (s : State) :
    Keeps s (execLabel r records dma s) := by
  unfold execLabel
  try rw [keeps_next]
  repeat' first
    | (simp; done)
    | refine keep_State_onRing _ _ _ _ _ (fun e => ?_)
    | refine keep_State_needsContext _ _ ?_
    | refine keep_State_needsState _ _ _ ?_
    | refine keep_State_needsAdapt _ _ ?_
    | split
    | dsimp only

@[simp] theorem keep_execTrainParam (r : Fin 16) (s : State) :
    Keeps s (execTrainParam r s) := by
  unfold execTrainParam
  try rw [keeps_next]
  repeat' first
    | (simp; done)
    | refine keep_State_onRing _ _ _ _ _ (fun e => ?_)
    | refine keep_State_needsContext _ _ ?_
    | refine keep_State_needsState _ _ _ ?_
    | refine keep_State_needsAdapt _ _ ?_
    | split
    | dsimp only

@[simp] theorem keep_execPolicy (r : Fin 16) (block : List Byte) (dma : Option (Fin 3)) (s : State) :
    Keeps s (execPolicy r block dma s) := by
  unfold execPolicy
  try dsimp only
  split <;> simp

end Sys2Proof.Machine
end

