-- ==== Sys2Proof/Laws/KeepAtomics.lean ====
section
/-!
SUPPORT. What no function of Machine/Atomics.lean touches: the queue, the device's constants and the fuses.
-/

namespace Sys2Proof.Machine
open State

@[simp] theorem keep_State_returnAtomic (s : State) (col : Fin 32) (old : Word) :
    (State.returnAtomic s col old).keep = s.keep := by
  unfold State.returnAtomic
  simp

@[simp] theorem keep_State_needCxl (s : State) (x : Nat × Nat) :
    (State.needCxl s x).keep = s.keep :=  by
  unfold State.needCxl
  simp

@[simp] theorem keep_State_cxlMet (s : State) :
    (State.cxlMet s).keep = s.keep :=  by
  unfold State.cxlMet
  simp

@[simp] theorem keep_State_atomicsCycle (s : State) :
    (State.atomicsCycle s).keep = s.keep :=  by
  unfold State.atomicsCycle
  try dsimp only
  repeat' split
  all_goals first
    | (simp; done)
    | (try simp
       refine (keep_foldl _ _ _ (fun t x => ?_)).trans ?_
       · try dsimp only
         repeat' split
         all_goals simp
       · simp)

@[simp] theorem keep_State_setAtomic (s : State) (a : Atomic) (old : Word) :
    (State.setAtomic s a old).keep = s.keep :=  by
  unfold State.setAtomic
  simp

@[simp] theorem keep_State_runAtomic (s : State) (a : Atomic) (old : Option Word) :
    (State.runAtomic s a old).keep = s.keep :=  by
  unfold State.runAtomic
  try dsimp only
  repeat' split
  all_goals simp

@[simp] theorem keep_execHatomExecute (col : Fin 32) (old : Option Word) (s : State) :
    Keeps s (execHatomExecute col old s) := by
  unfold execHatomExecute
  try dsimp only
  split <;> simp

end Sys2Proof.Machine
end

