-- ==== Sys2Proof/Laws/KeepDebug.lean ====
section
/-!
SUPPORT. What no function of Machine/Debug.lean touches: the queue, the device's constants and the fuses.
-/

namespace Sys2Proof.Machine
open State

@[simp] theorem keep_State_startPeek (s : State) (p : Fin 1024) (v : Word) :
    (State.startPeek s p v).keep = s.keep := by
  unfold State.startPeek
  simp

@[simp] theorem keep_State_finishPeek (s : State) (p : Fin 1024) (masked : Bool) (v : BitVec 256) :
    (State.finishPeek s p masked v).keep = s.keep := by
  unfold State.finishPeek
  simp

@[simp] theorem keep_State_runPeek (s : State) (p : Fin 1024) :
    (State.runPeek s p).keep = s.keep := by
  unfold State.runPeek
  simp
  split <;> simp

/-- Burning the fuses of an unburned row. -/
theorem grows_burn (s : State) (row : Nat) (b : Byte) (h : ¬s.fuse.burned row) :
    Grows s { s with fuse := { s.fuse with repair := SMap.set 0x1F s.fuse.repair row b } } := by
  refine ⟨rfl, rfl, rfl, fun row' hr => ?_, fun _ _ h => h, Nat.le_refl _⟩
  exact SMap.get_set_ne _ _ _ (fun e => h (e ▸ hr))

theorem grows_burnRepair (s : State) (m : Master) (v : Word) : Grows s (s.burnRepair m v) := by
  unfold State.burnRepair
  have k : ((s.mergeWord Reg.ARY_REPAIR_CMD v).wrB Reg.ARY_REPAIR_CMD 31 false).keep = s.keep := by simp
  split
  · generalize (s.mergeWord Reg.ARY_REPAIR_CMD v).wrB Reg.ARY_REPAIR_CMD 31 false = s1 at k
    have hf := (State.keep_parts k).2.2.2
    dsimp only
    split
    · split
      · exact .of_keep (by simp [k])
      · split
        · exact .of_keep (by simp [k])
        · rename_i h
          refine ((Grows.of_keep k).trans (grows_burn s1 _ _ ?_)).trans (.of_keep (keep_State_wrB ..))
          unfold Fuses.burned
          rw [hf]
          exact h
    · exact .of_keep k
  · exact .of_keep (by simp)

@[simp] theorem keep_State_bistResult (s : State) (failed : List Nat) :
    (State.bistResult s failed).keep = s.keep := by
  unfold State.bistResult
  try dsimp only
  split <;> simp

@[simp] theorem keep_execPeekStart (m : Master) (p : Fin 1024) (v : Word) (s : State) :
    Keeps s (execPeekStart m p v s) := by
  unfold execPeekStart
  simp

@[simp] theorem keep_execPeekComplete (p : Fin 1024) (s : State) :
    Keeps s (execPeekComplete p s) := by
  unfold execPeekComplete
  simp

theorem grows_execRepairBurn (m : Master) (v : Word) (s : State) : GrowsO s (execRepairBurn m v s) := by
  intro t ht
  unfold execRepairBurn State.atReg at ht
  cases ht
  split
  · split
    · exact grows_burnRepair s m v
    · exact .of_keep (by simp)
  · exact grows_burnRepair s m v

end Sys2Proof.Machine
end

