-- ==== Sys2Proof/Laws/KeepHealth.lean ====
section
/-!
SUPPORT. What no function of Machine/Health.lean touches: the queue, the device's constants and the fuses.
-/

namespace Sys2Proof.Machine
open State

@[simp] theorem keep_State_calStatus (s : State) :
    (State.calStatus s).keep = s.keep := by
  unfold State.calStatus
  simp

@[simp] theorem keep_State_appendCal (s : State) (rs : List (Nat × Nat × List Byte)) :
    (State.appendCal s rs).keep = s.keep := by
  unfold State.appendCal
  simp

@[simp] theorem keep_State_adaptEqs (s : State) :
    (State.adaptEqs s).keep = s.keep :=  by
  unfold State.adaptEqs
  simp

@[simp] theorem keep_State_needsPriv (s : State) (r : Nat) (m : Master) (rule : Nat) (f : State) (hf : f.keep = s.keep) :
    (State.needsPriv s r m rule f).keep = s.keep := by
  unfold State.needsPriv
  simp [*]

@[simp] theorem keep_State_eolStatus (s : State) :
    (State.eolStatus s).keep = s.keep := by
  unfold State.eolStatus
  try dsimp only
  split <;> simp

@[simp] theorem keep_State_ageing (s : State) (kind index : Nat) (v : Int) :
    (State.ageing s kind index v).keep = s.keep := by
  unfold State.ageing
  simp

@[simp] theorem keep_State_inject (s : State) (target symbols loc : Nat) :
    (State.inject s target symbols loc).keep = s.keep := by
  unfold State.inject
  simp

@[simp] theorem keep_State_linkDown (s : State) :
    (State.linkDown s).keep = s.keep := by
  unfold State.linkDown
  simp

@[simp] theorem keep_execUncorrectableError (src : Byte) (loc : DWord) (s : State) :
    Keeps s (execUncorrectableError src loc s) := by
  unfold execUncorrectableError
  simp

@[simp] theorem keep_execFatalError (src : Byte) (loc : DWord) (s : State) :
    Keeps s (execFatalError src loc s) := by
  unfold execFatalError
  simp

@[simp] theorem keep_execErrLogPop (m : Master) (v : Word) (s : State) :
    Keeps s (execErrLogPop m v s) := by
  unfold execErrLogPop
  simp

@[simp] theorem keep_execCxlLinkDown (s : State) :
    Keeps s (execCxlLinkDown s) := by
  unfold execCxlLinkDown
  simp

@[simp] theorem keep_execCartoucheWatchdogExpiry (s : State) :
    Keeps s (execCartoucheWatchdogExpiry s) := by
  unfold execCartoucheWatchdogExpiry
  simp

@[simp] theorem keep_execAgeingSample (kind : Fin 5) (index : BitVec 16) (y : Int) (s : State) :
    Keeps s (execAgeingSample kind index y s) := by
  unfold execAgeingSample
  simp

@[simp] theorem keep_execCalRead (r : Fin 16) (dma : Option (Fin 3)) (s : State) :
    Keeps s (execCalRead r dma s) := by
  unfold execCalRead
  try dsimp only
  split <;> simp

@[simp] theorem keep_execCalWrite (r : Fin 16) (m : Master) (records : List Byte) (dma : Option (Fin 3)) (s : State) :
    Keeps s (execCalWrite r m records dma s) := by
  unfold execCalWrite
  try rw [keeps_next]
  repeat' first
    | (simp; done)
    | refine keep_State_onRing _ _ _ _ _ (fun e => ?_)
    | refine keep_State_needsContext _ _ ?_
    | refine keep_State_needsState _ _ _ ?_
    | refine keep_State_needsPriv _ _ _ _ ?_
    | split
    | dsimp only

@[simp] theorem keep_execCalSave (r : Fin 16) (m : Master) (s : State) :
    Keeps s (execCalSave r m s) := by
  unfold execCalSave
  simp

@[simp] theorem keep_execErrInject (r : Fin 16) (m : Master) (s : State) :
    Keeps s (execErrInject r m s) := by
  unfold execErrInject
  try rw [keeps_next]
  repeat' first
    | (simp; done)
    | refine keep_State_onRing _ _ _ _ _ (fun e => ?_)
    | refine keep_State_needsContext _ _ ?_
    | refine keep_State_needsState _ _ _ ?_
    | refine keep_State_needsPriv _ _ _ _ ?_
    | split
    | dsimp only

end Sys2Proof.Machine
end

