-- ==== Sys2Proof/Laws/KeepMacsec.lean ====
section
/-!
SUPPORT. What no function of Machine/Macsec.lean touches: the queue, the device's constants and the fuses.
-/

namespace Sys2Proof.Machine
open State

@[simp] theorem keep_State_setMacSa (s : State) (p : Nat) (x : MacSa) :
    (State.setMacSa s p x).keep = s.keep :=  by
  unfold State.setMacSa
  simp

@[simp] theorem keep_State_macReceive (s : State) (p : Nat) (f : List Byte) :
    (State.macReceive s p f).2.keep = s.keep :=  by
  unfold State.macReceive
  try dsimp only
  repeat' split
  all_goals simp

@[simp] theorem keep_State_sendFrame (s : State) (p : Nat) (mac f : List Byte) :
    (State.sendFrame s p mac f).keep = s.keep :=  by
  unfold State.sendFrame
  simp
  split <;> simp

@[simp] theorem keep_State_newSak (s : State) (p : Nat) (key : List Byte) (x : BitVec 256) :
    (State.newSak s p key x).keep = s.keep :=  by
  unfold State.newSak
  simp

end Sys2Proof.Machine
end

