-- ==== Sys2Proof/Laws/KeepPorts.lean ====
section
/-!
SUPPORT. What no function of Machine/Ports.lean touches: the queue, the device's constants and the fuses.
-/

namespace Sys2Proof.Machine
open State

@[simp] theorem keep_State_rxDrop (s : State) (p : Nat) :
    (State.rxDrop s p).keep = s.keep := by
  unfold State.rxDrop
  simp

@[simp] theorem keep_State_setEthQueue (s : State) (p : Nat) (q : List EthFrame) :
    (State.setEthQueue s p q).keep = s.keep := by
  unfold State.setEthQueue
  simp

@[simp] theorem keep_State_announce (s : State) (m : List Byte) :
    (State.announce s m).keep = s.keep := by
  unfold State.announce
  try dsimp only
  split <;> simp

@[simp] theorem keep_State_finishSync (s : State) (x : PtpSync) :
    (State.finishSync s x).keep = s.keep := by
  unfold State.finishSync
  try dsimp only
  split <;> simp

@[simp] theorem keep_State_ocMessage (s : State) (m : List Byte) (t : DWord) :
    (State.ocMessage s m t).keep = s.keep := by
  unfold State.ocMessage
  simp
  split <;> simp

@[simp] theorem keep_State_takeFrame (s : State) (p : Nat) (f : List Byte) (t : DWord) :
    (State.takeFrame s p f t).keep = s.keep :=  by
  unfold State.takeFrame
  try dsimp only
  split <;> simp

@[simp] theorem keep_State_receiveFrame (s : State) (p : Nat) (f : List Byte) (capture : DWord) (fcsOk : Bool) :
    (State.receiveFrame s p f capture fcsOk).keep = s.keep :=  by
  unfold State.receiveFrame
  simp
  split <;> simp

@[simp] theorem keep_State_withCorr (s : State) (p : Nat) (f : List Byte) (off : Nat) (d : Int) :
    (State.withCorr s p f off d).1.keep = s.keep := by
  unfold State.withCorr
  simp

@[simp] theorem keep_State_transmit (s : State) (p : Nat) (capture : DWord) :
    (State.transmit s p capture).keep = s.keep := by
  unfold State.transmit
  try dsimp only
  repeat' split
  all_goals simp

@[simp] theorem keep_State_sendOwn (s : State) (p kind : Nat) (f : List Byte) (capture : DWord) :
    (State.sendOwn s p kind f capture).keep = s.keep :=  by
  unfold State.sendOwn
  simp

@[simp] theorem keep_State_ptpHead (s : State) (p : Nat) (dst : List Byte) :
    (State.ptpHead s p dst).2.keep = s.keep :=  by
  unfold State.ptpHead
  simp

@[simp] theorem keep_State_sendPdelayReq (s : State) (capture : DWord) (p : Nat) :
    (State.sendPdelayReq s capture p).keep = s.keep :=  by
  unfold State.sendPdelayReq
  simp

@[simp] theorem keep_State_sendDelayReq (s : State) (capture : DWord) :
    (State.sendDelayReq s capture).keep = s.keep := by
  unfold State.sendDelayReq
  simp

@[simp] theorem keep_State_launchHead (s : State) (p : Nat) (actual : DWord) :
    (State.launchHead s p actual).keep = s.keep := by
  unfold State.launchHead
  try dsimp only
  split <;> simp

@[simp] theorem keep_State_cancelLaunches (s : State) :
    (State.cancelLaunches s).keep = s.keep := by
  unfold State.cancelLaunches
  simp

@[simp] theorem keep_execEthFrameReceive (port : Fin 2) (addrs body : List Byte) (stamp : DWord) (fcsOk : Bool) (s : State) :
    Keeps s (execEthFrameReceive port addrs body stamp fcsOk s) :=  by
  unfold execEthFrameReceive
  simp

@[simp] theorem keep_execEthFrameTransmit (port : Fin 2) (stamp : DWord) (s : State) :
    Keeps s (execEthFrameTransmit port stamp s) := by
  unfold execEthFrameTransmit
  simp

@[simp] theorem keep_execTcMatchEntryExpire (s : State) :
    Keeps s (execTcMatchEntryExpire s) := by
  unfold execTcMatchEntryExpire
  simp

@[simp] theorem keep_execPtpDelayReqSend (stamp : DWord) (s : State) :
    Keeps s (execPtpDelayReqSend stamp s) := by
  unfold execPtpDelayReqSend
  simp

@[simp] theorem keep_execLaunchNoticeSend (port : Fin 2) (actual : DWord) (s : State) :
    Keeps s (execLaunchNoticeSend port actual s) := by
  unfold execLaunchNoticeSend
  simp

end Sys2Proof.Machine
end

