-- ==== Sys2Proof/Laws/KeepLoader.lean ====
section
/-!
SUPPORT. What no function of Machine/Loader.lean touches: the queue, the device's constants and the fuses.
-/

namespace Sys2Proof.Machine
open State Config

@[simp] theorem keep_State_storeFill (s : State) (f : FillRec) :
    (State.storeFill s f).keep = s.keep := by
  unfold State.storeFill
  simp

@[simp] theorem keep_State_restateLatencies (s : State) :
    (State.restateLatencies s).keep = s.keep := by
  unfold State.restateLatencies
  simp

@[simp] theorem keep_State_loaderRegs (s : State) (p : Parsed) :
    (State.loaderRegs s p).keep = s.keep := by
  unfold State.loaderRegs
  simp

@[simp] theorem keep_State_initialContents (s : State) (p : Parsed) :
    (State.initialContents s p).keep = s.keep := by
  unfold State.initialContents
  simp

@[simp] theorem keep_State_applyImage (s : State) (b : List Byte) (p : Parsed) (vals : List (SeedRec × Nat)) (queues : SMap HostQ) :
    (State.applyImage s b p vals queues).keep = s.keep := by
  unfold State.applyImage
  simp

@[simp] theorem keep_State_loadImage (s : State) (r : Nat) (b seeds table : List Byte) (count : Nat) :
    (State.loadImage s r b seeds table count).keep = s.keep := by
  unfold State.loadImage
  try dsimp only
  repeat' split
  all_goals simp

@[simp] theorem keep_execLoad (r : Fin 16) (image seeds hqTable : List Byte) (dma : Option (Fin 3)) (s : State) :
    Keeps s (execLoad r image seeds hqTable dma s) := by
  unfold execLoad
  try dsimp only
  split <;> simp

end Sys2Proof.Machine
end

