-- ==== Sys2Proof/Laws/KeepStop.lean ====
section
/-!
SUPPORT. What no function of Machine/Stop.lean touches: the queue, the device's constants and the fuses.
-/

namespace Sys2Proof.Machine
open State

@[simp] theorem keep_State_setHq (s : State) (q : Nat) (x : HostQ) :
    (State.setHq s q x).keep = s.keep := by
  unfold State.setHq
  simp

@[simp] theorem keep_State_eachPicot (s : State) (f : State → Fin 1024 → State) (hf : ∀ x0 x1, (f x0 x1).keep = x0.keep) :
    (State.eachPicot s f).keep = s.keep := by
  unfold State.eachPicot
  simp [*]

@[simp] theorem keep_State_remember (s : State) :
    (State.remember s).keep = s.keep := by
  unfold State.remember
  simp

@[simp] theorem keep_State_rewindAdapt (s : State) (x : Snap) (flipped : Bool) :
    (State.rewindAdapt s x flipped).keep = s.keep :=  by
  unfold State.rewindAdapt
  simp

@[simp] theorem keep_State_rewindReqs (s : State) (x : Snap) :
    (State.rewindReqs s x).keep = s.keep :=  by
  unfold State.rewindReqs
  simp

@[simp] theorem keep_State_restore (s : State) (x : Snap) (n : Nat) :
    (State.restore s x n).keep = s.keep :=  by
  unfold State.restore
  simp

@[simp] theorem keep_State_traceHold (s : State) (event : Nat) :
    (State.traceHold s event).keep = s.keep := by
  unfold State.traceHold
  simp

@[simp] theorem keep_State_enterStop (s : State) :
    (State.enterStop s).keep = s.keep := by
  unfold State.enterStop
  try dsimp only
  split <;> simp

@[simp] theorem keep_State_stopNow (s : State) (cause : Nat) (src : HoldSrc) :
    (State.stopNow s cause src).keep = s.keep := by
  unfold State.stopNow
  simp

end Sys2Proof.Machine
end

