-- ==== Sys2Proof/Laws/KeepClock.lean ====
section
/-!
SUPPORT. What no function of Machine/Clock.lean touches: the queue, the device's constants and the fuses.
-/

namespace Sys2Proof.Machine
open State

@[simp] theorem keep_State_thermal (s : State) (tl th p : BitVec 16) :
    (State.thermal s tl th p).keep = s.keep := by
  unfold State.thermal
  simp

@[simp] theorem keep_State_askStep (s : State) (n : Nat) :
    (State.askStep s n).keep = s.keep := by
  unfold State.askStep
  simp

@[simp] theorem keep_State_hotExpiry (s : State) :
    (State.hotExpiry s).keep = s.keep := by
  unfold State.hotExpiry
  simp

@[simp] theorem keep_State_coolExpiry (s : State) :
    (State.coolExpiry s).keep = s.keep := by
  unfold State.coolExpiry
  simp

@[simp] theorem keep_State_followCap (s : State) :
    (State.followCap s).keep = s.keep := by
  unfold State.followCap
  simp

@[simp] theorem keep_State_writeStepCap (s : State) (v : Word) :
    (State.writeStepCap s v).keep = s.keep := by
  unfold State.writeStepCap
  simp

@[simp] theorem keep_State_raiseStep (s : State) (period : Nat) :
    (State.raiseStep s period).keep = s.keep :=  by
  unfold State.raiseStep
  simp

@[simp] theorem keep_State_beginStep (s : State) :
    (State.beginStep s).keep = s.keep := by
  unfold State.beginStep
  try dsimp only
  split <;> simp

@[simp] theorem keep_State_endStep (s : State) :
    (State.endStep s).keep = s.keep := by
  unfold State.endStep
  simp

@[simp] theorem keep_State_tripCheck (s : State) (tl th : BitVec 16) :
    (State.tripCheck s tl th).keep = s.keep := by
  unfold State.tripCheck
  simp

@[simp] theorem keep_execThermalSample (tLogic tHbm power : BitVec 16) (s : State) :
    Keeps s (execThermalSample tLogic tHbm power s) := by
  unfold execThermalSample
  simp

@[simp] theorem keep_execHotSampleCountExpiry (s : State) :
    Keeps s (execHotSampleCountExpiry s) := by
  unfold execHotSampleCountExpiry
  simp

@[simp] theorem keep_execCoolSampleCountExpiry (s : State) :
    Keeps s (execCoolSampleCountExpiry s) := by
  unfold execCoolSampleCountExpiry
  simp

@[simp] theorem keep_execStepCapWrite (m : Master) (v : Word) (s : State) :
    Keeps s (execStepCapWrite m v s) := by
  unfold execStepCapWrite
  simp

@[simp] theorem keep_execStepChangeBegin (s : State) :
    Keeps s (execStepChangeBegin s) := by
  unfold execStepChangeBegin
  simp

@[simp] theorem keep_execThermalTripCheck (tLogic tHbm : BitVec 16) (s : State) :
    Keeps s (execThermalTripCheck tLogic tHbm s) := by
  unfold execThermalTripCheck
  simp

end Sys2Proof.Machine
end

