-- ==== Sys2Proof/Laws/KeepHostMem.lean ====
section
/-!
SUPPORT. What no function of Machine/HostMem.lean touches: the queue, the device's constants and the fuses.
-/

namespace Sys2Proof.Machine
open State

@[simp] theorem keep_State_writeCount (s : State) (i bytes : Nat) (v : DWord) :
    (State.writeCount s i bytes v).keep = s.keep := by
  unfold State.writeCount
  simp

@[simp] theorem keep_State_hdmMeta (s : State) (cached : Bool) :
    (State.hdmMeta s cached).keep = s.keep := by
  unfold State.hdmMeta
  simp

@[simp] theorem keep_State_hdmRead (s : State) (dpa len : Nat) :
    (State.hdmRead s dpa len).keep = s.keep := by
  unfold State.hdmRead
  simp

@[simp] theorem keep_State_hdmWrite (s : State) (dpa : Nat) (bs : List Byte) :
    (State.hdmWrite s dpa bs).keep = s.keep := by
  unfold State.hdmWrite
  simp

@[simp] theorem keep_State_prefetch (s : State) (q : Nat) :
    (State.prefetch s q).keep = s.keep := by
  unfold State.prefetch
  try dsimp only
  split <;> simp

@[simp] theorem keep_State_tellFar (s : State) (q : Nat) (x : HostQ) :
    (State.tellFar s q x).keep = s.keep := by
  unfold State.tellFar
  simp

@[simp] theorem keep_State_settlePeer (s : State) (q : Nat) :
    (State.settlePeer s q).keep = s.keep :=  by
  unfold State.settlePeer
  try dsimp only
  split <;> simp

@[simp] theorem keep_State_queueInject (s : State) (port : Fin 32) :
    (State.queueInject s port).keep = s.keep := by
  unfold State.queueInject
  try dsimp only
  repeat' split
  all_goals simp

@[simp] theorem keep_State_drainEject (n q : Nat) (s : State) : (State.drainEject n q s).keep = s.keep := by
  induction n generalizing s with
  | zero => rfl
  | succ n ih =>
    unfold State.drainEject
    dsimp only
    repeat' split
    all_goals simp [ih]

@[simp] theorem keep_State_takeCommit (s : State) (q : Nat) :
    (State.takeCommit s q).keep = s.keep := by
  unfold State.takeCommit
  try dsimp only
  split <;> simp

@[simp] theorem keep_State_queueEject (s : State) (q : Nat) :
    (State.queueEject s q).keep = s.keep := by
  unfold State.queueEject
  try dsimp only
  split <;> simp

@[simp] theorem keep_State_subStatus (s : State) (n : Nat) :
    (State.subStatus s n).keep = s.keep := by
  unfold State.subStatus
  simp

@[simp] theorem keep_State_tellSub (s : State) (x : Sub) (n : Nat) :
    (State.tellSub s x n).keep = s.keep :=  by
  unfold State.tellSub
  simp

@[simp] theorem keep_State_freeIfDone (s : State) (n : Nat) :
    (State.freeIfDone s n).keep = s.keep := by
  unfold State.freeIfDone
  simp
  split <;> simp

@[simp] theorem keep_State_writeRecord (s : State) (n : Nat) :
    (State.writeRecord s n).keep = s.keep := by
  unfold State.writeRecord
  try dsimp only
  split <;> simp

@[simp] theorem keep_State_drainSub (k n : Nat) (s : State) : (State.drainSub k n s).keep = s.keep := by
  induction n generalizing s with
  | zero => rfl
  | succ n ih =>
    unfold State.drainSub
    split
    · rfl
    · simp [ih]

@[simp] theorem keep_State_joinSub (s : State) (r : Nat) (d : List Byte) :
    (State.joinSub s r d).keep = s.keep := by
  unfold State.joinSub
  try dsimp only
  split <;> simp

@[simp] theorem keep_State_leaveSub (s : State) (r n : Nat) :
    (State.leaveSub s r n).keep = s.keep := by
  unfold State.leaveSub
  simp

@[simp] theorem keep_State_copyRecords (a : Area) (kind room n pos : Nat) (acc : List Byte) (k : Nat) (s : State) :
    (State.copyRecords a kind room n pos acc k s).1.keep = s.keep := by
  induction n generalizing pos acc k s with
  | zero => rfl
  | succ n ih =>
    unfold State.copyRecords
    dsimp only
    repeat' split
    all_goals simp [ih]

@[simp] theorem keep_State_readArea (s : State) (r : Nat) (e : SubEntry) (a : Area) (kind : Nat) (dma : Option (Fin 3)) :
    (State.readArea s r e a kind dma).keep = s.keep := by
  unfold State.readArea
  simp
  split <;> simp

@[simp] theorem keep_execHdmRead (dpa : BitVec 44) (len : Nat) (cached : Bool) (s : State) :
    Keeps s (execHdmRead dpa len cached s) := by
  unfold execHdmRead
  simp

@[simp] theorem keep_execHdmWrite (dpa : BitVec 44) (bytes : List Byte) (cached : Bool) (s : State) :
    Keeps s (execHdmWrite dpa bytes cached s) := by
  unfold execHdmWrite
  simp

@[simp] theorem keep_execCountWordWrite (i : Fin 32768) (bytes : Nat) (v : DWord) (s : State) :
    Keeps s (execCountWordWrite i bytes v s) := by
  unfold execCountWordWrite
  simp

@[simp] theorem keep_execHostQueuePrefetch (q : BitVec 14) (s : State) :
    Keeps s (execHostQueuePrefetch q s) := by
  unfold execHostQueuePrefetch
  simp

@[simp] theorem keep_execHostQueueInject (port : Fin 32) (s : State) :
    Keeps s (execHostQueueInject port s) := by
  unfold execHostQueueInject
  simp

@[simp] theorem keep_execHostQueueEject (q : BitVec 14) (s : State) :
    Keeps s (execHostQueueEject q s) := by
  unfold execHostQueueEject
  simp

@[simp] theorem keep_execSubJoin (r : Fin 16) (desc : List Byte) (dma : Option (Fin 3)) (s : State) :
    Keeps s (execSubJoin r desc dma s) := by
  unfold execSubJoin
  try dsimp only
  repeat' split
  all_goals simp

@[simp] theorem keep_execSubLeave (r : Fin 16) (s : State) :
    Keeps s (execSubLeave r s) := by
  unfold execSubLeave
  simp

@[simp] theorem keep_execSubscriberRecordWrite (n : Fin 1024) (s : State) :
    Keeps s (execSubscriberRecordWrite n s) := by
  unfold execSubscriberRecordWrite
  simp

@[simp] theorem keep_execReadEvents (r : Fin 16) (dma : Option (Fin 3)) (s : State) :
    Keeps s (execReadEvents r dma s) := by
  unfold execReadEvents
  simp

@[simp] theorem keep_execReadSurvey (r : Fin 16) (dma : Option (Fin 3)) (s : State) :
    Keeps s (execReadSurvey r dma s) := by
  unfold execReadSurvey
  simp

end Sys2Proof.Machine
end

