-- ==== Sys2Proof/Laws/KeepContext.lean ====
section
/-!
SUPPORT. What no function of Machine/Context.lean touches: the queue, the device's constants and the fuses.
-/

namespace Sys2Proof.Machine
open State

@[simp] theorem keep_State_dropRegs (s : State) (p : Nat → Bool) :
    (State.dropRegs s p).keep = s.keep := by
  unfold State.dropRegs
  simp

@[simp] theorem keep_State_arrayClear (s : State) :
    (State.arrayClear s).keep = s.keep := by
  unfold State.arrayClear
  simp

@[simp] theorem keep_State_copyCalibration (s : State) :
    (State.copyCalibration s).keep = s.keep := by
  unfold State.copyCalibration
  try dsimp only
  repeat' split
  all_goals first
    | (simp; done)
    | (try simp
       refine (keep_foldl _ _ _ (fun t x => ?_)).trans ?_
       · try dsimp only
         repeat' split
         all_goals simp
       · simp)

@[simp] theorem keep_State_leaveBoot (s : State) :
    (State.leaveBoot s).keep = s.keep := by
  unfold State.leaveBoot
  simp

@[simp] theorem keep_State_startHub (s : State) (first : Nat) :
    (State.startHub s first).keep = s.keep := by
  unfold State.startHub
  simp

@[simp] theorem keep_State_clearForStart (s : State) (first : Nat) (replay : Bool) :
    (State.clearForStart s first replay).keep = s.keep := by
  unfold State.clearForStart
  simp

@[simp] theorem keep_State_sizeRing (s : State) :
    (State.sizeRing s).keep = s.keep := by
  unfold State.sizeRing
  simp

@[simp] theorem keep_State_startContext (s : State) (first : Nat) (replay : Bool) :
    (State.startContext s first replay).keep = s.keep := by
  unfold State.startContext
  try dsimp only
  repeat' split
  all_goals first
    | (simp; done)
    | (try simp
       refine (keep_foldl _ _ _ (fun t x => ?_)).trans ?_
       · try dsimp only
         repeat' split
         all_goals simp
       · simp)

@[simp] theorem keep_State_start (s : State) (r fb : Nat) (replay : Bool) :
    (State.start s r fb replay).keep = s.keep := by
  unfold State.start
  simp

@[simp] theorem keep_State_startReplay (s : State) (r : Nat) (e : SubEntry) (buf : ReplayBuf) :
    (State.startReplay s r e buf).keep = s.keep := by
  unfold State.startReplay
  simp
  split <;> simp

@[simp] theorem keep_State_replayBlock (s : State) :
    (State.replayBlock s).keep = s.keep := by
  unfold State.replayBlock
  try dsimp only
  split <;> simp

@[simp] theorem keep_State_replayFails (s : State) :
    (State.replayFails s).keep = s.keep :=  by
  unfold State.replayFails
  try dsimp only
  split <;> simp

@[simp] theorem keep_State_dropRequests (s : State) :
    (State.dropRequests s).keep = s.keep := by
  unfold State.dropRequests
  simp

@[simp] theorem keep_State_beginEnding (s : State) :
    (State.beginEnding s).keep = s.keep := by
  unfold State.beginEnding
  simp

@[simp] theorem keep_State_stopRing (s : State) (r : Nat) :
    (State.stopRing s r).keep = s.keep := by
  unfold State.stopRing
  simp

@[simp] theorem keep_State_stopQuiet (s : State) :
    (State.stopQuiet s).keep = s.keep := by
  unfold State.stopQuiet
  simp

@[simp] theorem keep_State_destroyKeys (s : State) :
    (State.destroyKeys s).keep = s.keep := by
  unfold State.destroyKeys
  simp

@[simp] theorem keep_State_scrubKey (s : State) :
    (State.scrubKey s).keep = s.keep :=  by
  unfold State.scrubKey
  simp

@[simp] theorem keep_State_dropScrubKey (s : State) :
    (State.dropScrubKey s).keep = s.keep :=  by
  unfold State.dropScrubKey
  simp

@[simp] theorem keep_State_beginScrub (s : State) :
    (State.beginScrub s).keep = s.keep := by
  unfold State.beginScrub
  simp

@[simp] theorem keep_State_clearContext (s : State) :
    (State.clearContext s).keep = s.keep := by
  unfold State.clearContext
  simp

@[simp] theorem keep_State_endContextReset (s : State) :
    (State.endContextReset s).keep = s.keep := by
  unfold State.endContextReset
  simp

@[simp] theorem keep_State_endEnding (s : State) :
    (State.endEnding s).keep = s.keep := by
  unfold State.endEnding
  simp

@[simp] theorem keep_State_endScrub (s : State) :
    (State.endScrub s).keep = s.keep := by
  unfold State.endScrub
  simp

@[simp] theorem keep_execStart (r : Fin 16) (s : State) :
    Keeps s (execStart r s) := by
  unfold execStart
  simp

@[simp] theorem keep_execReplay (r : Fin 16) (buf : ReplayBuf) (dma : Option (Fin 3)) (s : State) :
    Keeps s (execReplay r buf dma s) := by
  unfold execReplay
  try dsimp only
  split <;> simp

@[simp] theorem keep_execReplayBlockFetch (s : State) :
    Keeps s (execReplayBlockFetch s) :=  by
  unfold execReplayBlockFetch
  simp

@[simp] theorem keep_execStop (r : Fin 16) (s : State) :
    Keeps s (execStop r s) := by
  unfold execStop
  simp

@[simp] theorem keep_execCtxStopRegister (m : Master) (v : Word) (s : State) :
    Keeps s (execCtxStopRegister m v s) := by
  unfold execCtxStopRegister
  simp

@[simp] theorem keep_execEndingComplete (s : State) :
    Keeps s (execEndingComplete s) := by
  unfold execEndingComplete
  simp

@[simp] theorem keep_execScrubComplete (s : State) :
    Keeps s (execScrubComplete s) := by
  unfold execScrubComplete
  simp

end Sys2Proof.Machine
end

