-- ==== Sys2Proof/Laws/KeepSecurity.lean ====
section
/-!
SUPPORT. What no function of Machine/Security.lean touches: the queue, the device's constants and the fuses.
-/

namespace Sys2Proof.Machine
open State

@[simp] theorem keep_State_writeAnswer (s : State) (r : Nat) (dma : Option (Fin 3)) (addr : DWord) (bs : List Byte) (res0 res1 : Nat) :
    (State.writeAnswer s r dma addr bs res0 res1).keep = s.keep := by
  unfold State.writeAnswer
  try dsimp only
  split <;> simp

@[simp] theorem keep_State_openContext (s : State) (r : Nat) (prot : Bool) (owner : List Byte) :
    (State.openContext s r prot owner).keep = s.keep := by
  unfold State.openContext
  simp

@[simp] theorem keep_State_keysInstalled (s : State) :
    (State.keysInstalled s).keep = s.keep := by
  unfold State.keysInstalled
  try dsimp only
  split <;> simp

@[simp] theorem keep_State_keepNonce (s : State) (nonce : List Byte) :
    (State.keepNonce s nonce).keep = s.keep := by
  unfold State.keepNonce
  simp

@[simp] theorem keep_State_attest (s : State) (r : Nat) (e : SubEntry) (nonce : List Byte) (dma : Option (Fin 3)) :
    (State.attest s r e nonce dma).keep = s.keep := by
  unfold State.attest
  simp

@[simp] theorem keep_State_release (s : State) (r : Nat) (blob : List Byte) :
    (State.release s r blob).keep = s.keep := by
  unfold State.release
  try dsimp only
  split <;> simp

@[simp] theorem keep_State_exportKey (s : State) (r : Nat) (e : SubEntry) (dma : Option (Fin 3)) :
    (State.exportKey s r e dma).keep = s.keep := by
  unfold State.exportKey
  simp

@[simp] theorem keep_State_signCompletion (s : State) (r : Nat) (status : Byte) (res0 : DWord) (detail : Word) :
    (State.signCompletion s r status res0 detail).keep = s.keep :=  by
  unfold State.signCompletion
  try dsimp only
  split <;> simp

@[simp] theorem keep_State_grant (s : State) (r slot secs : Nat) (sig modulus : List Byte) :
    (State.grant s r slot secs sig modulus).keep = s.keep := by
  unfold State.grant
  try dsimp only
  split <;> simp

theorem find_insert {α : Type} (m : SMap α) (k : Nat) (v : α) (j : Nat) (h : j ≠ k) :
    (SMap.insert m k v).find? (fun e => decide (e.1 = j)) = m.find? (fun e => decide (e.1 = j)) := by
  induction m with
  | nil => simp [SMap.insert, Ne.symm h]
  | cons p m ih =>
    unfold SMap.insert
    split
    · simp [List.find?_cons, Ne.symm h]
    · split
      · rename_i e
        simp [List.find?_cons, ← e, Ne.symm h]
      · simp [List.find?_cons, ih]

theorem grows_enrol (s : State) (r slot : Nat) (m : Master) (modulus : List Byte) : Grows s (s.enrol r slot m modulus) := by
  unfold State.enrol
  split
  · exact .of_keep (by simp)
  · rename_i h
    dsimp only
    refine Grows.trans (t := { s with fuse := { s.fuse with opkeys := SMap.insert s.fuse.opkeys slot (sha256 modulus) } })
      ⟨rfl, rfl, rfl, fun _ _ => rfl, fun k x hx => ?_, Nat.le_refl _⟩ (.of_keep ((keep_State_complete ..).trans (keep_State_wrB ..)))
    unfold Fuses.opkey at hx ⊢
    dsimp only
    rw [find_insert]
    · exact hx
    · intro e
      subst e
      simp only [Bool.or_eq_true, not_or, Bool.not_eq_true] at h
      have h2 := h.2
      rw [List.any_eq_false] at h2
      have : s.fuse.opkeys.find? (fun e => decide (e.1 = k)) = none := by
        rw [List.find?_eq_none]
        exact h2
      rw [this] at hx
      cases hx

@[simp] theorem keep_State_setIde (s : State) (p : CxlProto) (on : Bool) :
    (State.setIde s p on).keep = s.keep := by
  unfold State.setIde
  simp

@[simp] theorem keep_State_loseIde (s : State) (p : CxlProto) :
    (State.loseIde s p).keep = s.keep := by
  unfold State.loseIde
  simp

@[simp] theorem keep_State_spdm (s : State) (q : SpdmReq) (nonce : List Byte) :
    (State.spdm s q nonce).keep = s.keep := by
  unfold State.spdm
  try dsimp only
  split <;> simp

@[simp] theorem keep_State_mka (s : State) (p : Nat) (valid : Bool) :
    (State.mka s p valid).keep = s.keep := by
  unfold State.mka
  simp

@[simp] theorem keep_execCtxOpen (r : Fin 16) (ownerKey : List Byte) (dma : Option (Fin 3)) (s : State) :
    Keeps s (execCtxOpen r ownerKey dma s) := by
  unfold execCtxOpen
  try rw [keeps_next]
  repeat' first
    | (simp; done)
    | refine keep_State_onRing _ _ _ _ _ (fun e => ?_)
    | refine keep_State_needsContext _ _ ?_
    | refine keep_State_needsState _ _ _ ?_
    | refine keep_State_needsAdapt _ _ ?_
    | split
    | dsimp only

@[simp] theorem keep_execKeyInstallComplete (s : State) :
    Keeps s (execKeyInstallComplete s) := by
  unfold execKeyInstallComplete
  simp

@[simp] theorem keep_execAttest (r : Fin 16) (nonce : List Byte) (dma : Option (Fin 3)) (s : State) :
    Keeps s (execAttest r nonce dma s) := by
  unfold execAttest
  simp

@[simp] theorem keep_execKeyRelease (r : Fin 16) (blob : List Byte) (dma : Option (Fin 3)) (s : State) :
    Keeps s (execKeyRelease r blob dma s) := by
  unfold execKeyRelease
  try dsimp only
  split <;> simp

@[simp] theorem keep_execKeyExport (r : Fin 16) (dma : Option (Fin 3)) (s : State) :
    Keeps s (execKeyExport r dma s) := by
  unfold execKeyExport
  simp

@[simp] theorem keep_execGetCert (r : Fin 16) (dma : Option (Fin 3)) (s : State) :
    Keeps s (execGetCert r dma s) := by
  unfold execGetCert
  simp

@[simp] theorem keep_execPrivChallenge (r : Fin 16) (dma : Option (Fin 3)) (s : State) :
    Keeps s (execPrivChallenge r dma s) := by
  unfold execPrivChallenge
  simp

@[simp] theorem keep_execPrivGrant (r : Fin 16) (signature modulus : List Byte) (dma : Option (Fin 3)) (s : State) :
    Keeps s (execPrivGrant r signature modulus dma s) := by
  unfold execPrivGrant
  try rw [keeps_next]
  repeat' first
    | (simp; done)
    | refine keep_State_onRing _ _ _ _ _ (fun e => ?_)
    | refine keep_State_needsContext _ _ ?_
    | refine keep_State_needsState _ _ _ ?_
    | refine keep_State_needsAdapt _ _ ?_
    | split
    | dsimp only

@[simp] theorem keep_execPrivExpiry (s : State) :
    Keeps s (execPrivExpiry s) := by
  unfold execPrivExpiry
  simp

theorem grows_execOpkeyEnrol (r : Fin 16) (m : Master) (modulus : List Byte) (dma : Option (Fin 3)) (s : State) :
    GrowsO s (execOpkeyEnrol r m modulus dma s) := by
  intro t ht
  unfold execOpkeyEnrol at ht
  cases ht
  refine grows_onRing _ _ _ _ _ (fun e => ?_)
  split
  · exact .of_keep (by simp)
  · split
    · exact .of_keep (by simp)
    · split
      · exact .of_keep (by simp)
      · exact grows_enrol ..

@[simp] theorem keep_execCakSet (r : Fin 16) (m : Master) (cak : List Byte) (dma : Option (Fin 3)) (s : State) :
    Keeps s (execCakSet r m cak dma s) := by
  unfold execCakSet
  try rw [keeps_next]
  repeat' first
    | (simp; done)
    | refine keep_State_onRing _ _ _ _ _ (fun e => ?_)
    | refine keep_State_needsContext _ _ ?_
    | refine keep_State_needsState _ _ _ ?_
    | refine keep_State_needsAdapt _ _ ?_
    | split
    | dsimp only

@[simp] theorem keep_execMkaMessage (port : Fin 2) (_msg : List Byte) (valid : Bool) (s : State) :
    Keeps s (execMkaMessage port _msg valid s) := by
  unfold execMkaMessage
  simp

@[simp] theorem keep_execSpdmMessage (req : SpdmReq) (nonce : List Byte) (s : State) :
    Keeps s (execSpdmMessage req nonce s) := by
  unfold execSpdmMessage
  simp

@[simp] theorem keep_execIdeLost (p : CxlProto) (s : State) :
    Keeps s (execIdeLost p s) := by
  unfold execIdeLost
  simp

@[simp] theorem keep_execSpareKeyReady (s : State) :
    Keeps s (execSpareKeyReady s) := by
  unfold execSpareKeyReady
  simp

@[simp] theorem keep_execDrbgReseed (s : State) :
    Keeps s (execDrbgReseed s) := by
  unfold execDrbgReseed
  simp

@[simp] theorem keep_execEntropyHealthFail (s : State) :
    Keeps s (execEntropyHealthFail s) := by
  unfold execEntropyHealthFail
  simp

end Sys2Proof.Machine
end

