-- ==== Sys2Proof/Laws/KeepReset.lean ====
section
/-!
SUPPORT. What no function of Machine/Reset.lean touches: the queue, the device's constants and the fuses.
-/

namespace Sys2Proof.Machine
open State

@[simp] theorem keep_State_absorbed (s : State) :
    (State.absorbed s).keep = s.keep := by
  unfold State.absorbed
  simp

@[simp] theorem keep_State_dropOutputs (s : State) (t : State) (ht : t.keep = s.keep) :
    (State.dropOutputs s t).keep = s.keep :=  by
  unfold State.dropOutputs
  simp [*]

@[simp] theorem keep_State_coldKept (s : State) :
    (State.coldKept s).keep = s.keep := by
  unfold State.coldKept
  simp

@[simp] theorem keep_State_coldReset (s : State) (cause : Nat) :
    (State.coldReset s cause).keep = s.keep := by
  unfold State.coldReset
  simp

@[simp] theorem keep_State_writeColdReset (s : State) (m : Master) (v : Word) :
    (State.writeColdReset s m v).keep = s.keep := by
  unfold State.writeColdReset
  simp

@[simp] theorem keep_State_endPending (s : State) :
    (State.endPending s).keep = s.keep := by
  unfold State.endPending
  simp

@[simp] theorem keep_State_warmReset (s : State) (cause : Nat) :
    (State.warmReset s cause).keep = s.keep := by
  unfold State.warmReset
  simp

@[simp] theorem keep_State_clearRings (s : State) :
    (State.clearRings s).keep = s.keep := by
  unfold State.clearRings
  simp

@[simp] theorem keep_State_contextReset (s : State) :
    (State.contextReset s).keep = s.keep := by
  unfold State.contextReset
  simp

@[simp] theorem keep_State_arrayReset (s : State) (m : Master) :
    (State.arrayReset s m).keep = s.keep := by
  unfold State.arrayReset
  simp

@[simp] theorem keep_State_writeResetCtl (s : State) (m : Master) (v : Word) :
    (State.writeResetCtl s m v).keep = s.keep := by
  unfold State.writeResetCtl
  simp
  split <;> simp

@[simp] theorem keep_State_relocked (s : State) :
    (State.relocked s).keep = s.keep := by
  unfold State.relocked
  simp
  split <;> simp

@[simp] theorem keep_State_railOut (s : State) (rail : Nat) (long : Bool) :
    (State.railOut s rail long).keep = s.keep := by
  unfold State.railOut
  simp

@[simp] theorem keep_execColdReset (cause : Fin 3) (m : Master) (v : Word) (s : State) :
    Keeps s (execColdReset cause m v s) := by
  unfold execColdReset
  simp

@[simp] theorem keep_execRailExcursion (rail : Fin 12) (long : Bool) (s : State) :
    Keeps s (execRailExcursion rail long s) := by
  unfold execRailExcursion
  simp

@[simp] theorem keep_execWarmReset (cause : Fin 8) (m : Master) (v : Word) (s : State) :
    Keeps s (execWarmReset cause m v s) := by
  unfold execWarmReset
  simp

@[simp] theorem keep_execContextReset (flr : Bool) (m : Master) (v : Word) (s : State) :
    Keeps s (execContextReset flr m v s) := by
  unfold execContextReset
  simp

@[simp] theorem keep_execArrayReset (m : Master) (v : Word) (s : State) :
    Keeps s (execArrayReset m v s) := by
  unfold execArrayReset
  simp

@[simp] theorem keep_execFunction1Flr (s : State) :
    Keeps s (execFunction1Flr s) := by
  unfold execFunction1Flr
  simp

@[simp] theorem keep_execIslandRelockComplete (s : State) :
    Keeps s (execIslandRelockComplete s) := by
  unfold execIslandRelockComplete
  simp

end Sys2Proof.Machine
end

