-- ==== Sys2Proof/Laws/KeepBoot.lean ====
section
/-!
SUPPORT. What no function of Machine/Boot.lean touches: the queue, the device's constants and the fuses.
-/

namespace Sys2Proof.Machine
open State

@[simp] theorem keep_State_fwStatus (s : State) :
    (State.fwStatus s).keep = s.keep := by
  unfold State.fwStatus
  simp

@[simp] theorem keep_State_putRecord (s : State) (r : BootRec) :
    (State.putRecord s r).keep = s.keep := by
  unfold State.putRecord
  simp

@[simp] theorem keep_State_look (s : State) (b : Bool) :
    (State.look s b).keep = s.keep := by
  unfold State.look
  simp

@[simp] theorem keep_State_setTransition (s : State) (b : Bool) :
    (State.setTransition s b).keep = s.keep := by
  unfold State.setTransition
  simp

@[simp] theorem keep_State_runSlot (s : State) (b trial : Bool) :
    (State.runSlot s b trial).keep = s.keep := by
  unfold State.runSlot
  simp

@[simp] theorem keep_State_runActive (s : State) :
    (State.runActive s).keep = s.keep := by
  unfold State.runActive
  simp

@[simp] theorem keep_State_rollBack (s : State) :
    (State.rollBack s).keep = s.keep := by
  unfold State.rollBack
  simp

@[simp] theorem keep_State_chooseSlot (s : State) :
    (State.chooseSlot s).keep = s.keep := by
  unfold State.chooseSlot
  try dsimp only
  split <;> simp

@[simp] theorem keep_State_beginInit (s : State) :
    (State.beginInit s).keep = s.keep := by
  unfold State.beginInit
  simp

@[simp] theorem keep_State_trained (s : State) (hbm : BitVec 12) (ddr : BitVec 8) (mismatch : Bool) :
    (State.trained s hbm ddr mismatch).keep = s.keep := by
  unfold State.trained
  simp

@[simp] theorem keep_State_ready (s : State) :
    (State.ready s).keep = s.keep := by
  unfold State.ready
  simp

@[simp] theorem keep_State_readStore (s : State) :
    (State.readStore s).keep = s.keep := by
  unfold State.readStore
  try dsimp only
  repeat' split
  all_goals simp

@[simp] theorem keep_State_readFuses (s : State) (entropyOk : Bool) :
    (State.readFuses s entropyOk).keep = s.keep := by
  unfold State.readFuses
  simp

@[simp] theorem keep_State_bistDone (s : State) (failed : List Nat) :
    (State.bistDone s failed).keep = s.keep := by
  unfold State.bistDone
  simp

@[simp] theorem keep_State_needsFw (s : State) (r : Nat) (m : Master) (f : State) (hf : f.keep = s.keep) :
    (State.needsFw s r m f).keep = s.keep := by
  unfold State.needsFw
  simp [*]

@[simp] theorem keep_State_setStaged (s : State) (m : List Byte) :
    (State.setStaged s m).keep = s.keep := by
  unfold State.setStaged
  simp

@[simp] theorem keep_State_stage (s : State) (r : Nat) :
    (State.stage s r).keep = s.keep := by
  unfold State.stage
  simp

theorem grows_confirm (s : State) (r : Nat) (commit : Bool) : Grows s (s.confirm r commit) := by
  unfold State.confirm
  split
  · exact .of_keep (by simp)
  · dsimp only
    split
    · exact .of_keep (by simp)
    · generalize hf : (if commit = true then _ else s.fuse) = f
      refine Grows.trans (t := { s with fuse := f }) ⟨rfl, rfl, rfl, ?_⟩ (.of_keep ((keep_State_complete ..).trans
        ((keep_State_setStaged ..).trans ((keep_State_setTransition ..).trans ((keep_State_wrB ..).trans (keep_State_putRecord ..))))))
      subst hf
      split
      · exact ⟨fun _ _ => rfl, fun _ _ h => h, Nat.le_max_left ..⟩
      · exact Fuses.le_refl _

@[simp] theorem keep_State_discard (s : State) (r : Nat) :
    (State.discard s r).keep = s.keep := by
  unfold State.discard
  simp

@[simp] theorem keep_State_abortLegend (s : State) : s.abortLegend.keep = s.keep := by
  unfold State.abortLegend
  refine keep_foldl _ _ _ (fun t r => ?_)
  split
  · split
    · exact keep_State_complete ..
    · rfl
  · rfl

@[simp] theorem keep_State_legendFails (s : State) (es : List DWord) :
    (State.legendFails s es).keep = s.keep := by
  unfold State.legendFails
  simp

@[simp] theorem keep_State_kick (s : State) :
    (State.kick s).keep = s.keep := by
  unfold State.kick
  simp

@[simp] theorem keep_State_watchdog (s : State) :
    (State.watchdog s).keep = s.keep := by
  unfold State.watchdog
  simp

@[simp] theorem keep_State_writeWdog (s : State) (m : Master) (v : Word) :
    (State.writeWdog s m v).keep = s.keep := by
  unfold State.writeWdog
  simp

@[simp] theorem keep_execPorLRise (s : State) :
    Keeps s (execPorLRise s) := by
  unfold execPorLRise
  simp

@[simp] theorem keep_execPerstLRise (s : State) :
    Keeps s (execPerstLRise s) := by
  unfold execPerstLRise
  simp

@[simp] theorem keep_execCxlLinkTrained (s : State) :
    Keeps s (execCxlLinkTrained s) := by
  unfold execCxlLinkTrained
  simp

@[simp] theorem keep_execFusesPhaseComplete (entropyOk : Bool) (s : State) :
    Keeps s (execFusesPhaseComplete entropyOk s) := by
  unfold execFusesPhaseComplete
  simp

@[simp] theorem keep_execBistComplete (failed : List Nat) (s : State) :
    Keeps s (execBistComplete failed s) := by
  unfold execBistComplete
  simp

@[simp] theorem keep_execFirmwarePhaseComplete (s : State) :
    Keeps s (execFirmwarePhaseComplete s) := by
  unfold execFirmwarePhaseComplete
  simp

@[simp] theorem keep_execCalibrationPhaseComplete (s : State) :
    Keeps s (execCalibrationPhaseComplete s) := by
  unfold execCalibrationPhaseComplete
  simp

@[simp] theorem keep_execMemoryTrainingComplete (hbmOk : BitVec 12) (ddrOk : BitVec 8) (mismatch : Bool) (s : State) :
    Keeps s (execMemoryTrainingComplete hbmOk ddrOk mismatch s) := by
  unfold execMemoryTrainingComplete
  simp

@[simp] theorem keep_execMemoryInitComplete (s : State) :
    Keeps s (execMemoryInitComplete s) := by
  unfold execMemoryInitComplete
  simp

@[simp] theorem keep_execBootTimerExpiry (s : State) :
    Keeps s (execBootTimerExpiry s) := by
  unfold execBootTimerExpiry
  simp

@[simp] theorem keep_execTrialTimeout (s : State) :
    Keeps s (execTrialTimeout s) := by
  unfold execTrialTimeout
  simp

@[simp] theorem keep_execFwWrite (r : Fin 16) (m : Master) (data : List Byte) (dma : Option (Fin 3)) (s : State) :
    Keeps s (execFwWrite r m data dma s) :=  by
  unfold execFwWrite
  try dsimp only
  repeat' split
  all_goals simp

@[simp] theorem keep_execFwStage (r : Fin 16) (m : Master) (s : State) :
    Keeps s (execFwStage r m s) := by
  unfold execFwStage
  simp

theorem grows_execFwConfirm (r : Fin 16) (m : Master) (s : State) : GrowsO s (execFwConfirm r m s) := by
  intro t ht
  unfold execFwConfirm at ht
  cases ht
  refine grows_onRing _ _ _ _ _ (fun e => ?_)
  split
  · exact .of_keep (by simp)
  · unfold State.needsFw
    split
    · exact grows_confirm ..
    · exact .of_keep (by simp)

@[simp] theorem keep_execFwDiscard (r : Fin 16) (m : Master) (s : State) :
    Keeps s (execFwDiscard r m s) := by
  unfold execFwDiscard
  simp

@[simp] theorem keep_execWatchdogKick (m : Master) (v : Word) (s : State) :
    Keeps s (execWatchdogKick m v s) := by
  unfold execWatchdogKick
  simp

@[simp] theorem keep_execWatchdogExpiry (s : State) :
    Keeps s (execWatchdogExpiry s) := by
  unfold execWatchdogExpiry
  simp

@[simp] theorem keep_execLegendRestartComplete (s : State) :
    Keeps s (execLegendRestartComplete s) := by
  unfold execLegendRestartComplete
  simp

end Sys2Proof.Machine
end

