-- ==== Sys2Proof/Laws/KeepScalar.lean ====
section
/-!
SUPPORT. What no function of Machine/Scalar.lean touches: the queue, the device's constants and the fuses.
-/

namespace Sys2Proof.Machine
open State

@[simp] theorem keep_State_flyGp (s : State) (loc : At) (lat : Nat) (r : BitVec 4) (v : Word) :
    (State.flyGp s loc lat r v).keep = s.keep := by
  unfold State.flyGp
  simp

@[simp] theorem keep_State_flyPair (s : State) (loc : At) (lat : Nat) (r : BitVec 4) (v : DWord) :
    (State.flyPair s loc lat r v).keep = s.keep := by
  unfold State.flyPair
  simp

@[simp] theorem keep_State_scalarOp (s : State) (loc : At) (lat : Nat) (r : BitVec 4) (v : Word) :
    (State.scalarOp s loc lat r v).keep = s.keep := by
  unfold State.scalarOp
  simp

@[simp] theorem keep_execRdtime (loc : At) (gd : BitVec 4) (s : State) :
    Keeps s (execRdtime loc gd s) := by
  unfold execRdtime
  simp

@[simp] theorem keep_execRdsens (loc : At) (gd : BitVec 4) (_sens : BitVec 4) (reading : Word) (s : State) :
    Keeps s (execRdsens loc gd _sens reading s) := by
  unfold execRdsens
  simp

@[simp] theorem keep_execQlen (loc : At) (gd : BitVec 4) (tq : Bool) (q : BitVec 4) (s : State) :
    Keeps s (execQlen loc gd tq q s) := by
  unfold execQlen
  simp

@[simp] theorem keep_execRdround (loc : At) (gd : BitVec 4) (s : State) :
    Keeps s (execRdround loc gd s) := by
  unfold execRdround
  simp

@[simp] theorem keep_execMovi (loc : At) (gd : BitVec 4) (imm : BitVec 24) (s : State) :
    Keeps s (execMovi loc gd imm s) := by
  unfold execMovi
  simp

@[simp] theorem keep_execLdc (loc : At) (gd : BitVec 4) (ck : BitVec 8) (s : State) :
    Keeps s (execLdc loc gd ck s) := by
  unfold execLdc
  simp

@[simp] theorem keep_execAddi (loc : At) (a : LI) (s : State) :
    Keeps s (execAddi loc a s) := by
  unfold execAddi
  simp

@[simp] theorem keep_execAdd (loc : At) (a : LG) (s : State) :
    Keeps s (execAdd loc a s) := by
  unfold execAdd
  simp

@[simp] theorem keep_execSub (loc : At) (a : LG) (s : State) :
    Keeps s (execSub loc a s) := by
  unfold execSub
  simp

@[simp] theorem keep_execMul (loc : At) (a : LG) (s : State) :
    Keeps s (execMul loc a s) := by
  unfold execMul
  simp

@[simp] theorem keep_execAndScalar (loc : At) (a : LG) (s : State) :
    Keeps s (execAndScalar loc a s) := by
  unfold execAndScalar
  simp

@[simp] theorem keep_execOrScalar (loc : At) (a : LG) (s : State) :
    Keeps s (execOrScalar loc a s) := by
  unfold execOrScalar
  simp

@[simp] theorem keep_execXorScalar (loc : At) (a : LG) (s : State) :
    Keeps s (execXorScalar loc a s) := by
  unfold execXorScalar
  simp

@[simp] theorem keep_execShli (loc : At) (a : LK) (s : State) :
    Keeps s (execShli loc a s) := by
  unfold execShli
  simp

@[simp] theorem keep_execShri (loc : At) (a : LK) (s : State) :
    Keeps s (execShri loc a s) := by
  unfold execShri
  simp

@[simp] theorem keep_execVtog (loc : At) (a : LV) (s : State) :
    Keeps s (execVtog loc a s) := by
  unfold execVtog
  simp

@[simp] theorem keep_execGtov (loc : At) (a : LV) (s : State) :
    Keeps s (execGtov loc a s) := by
  unfold execGtov
  simp

@[simp] theorem keep_execCmpg (loc : At) (a : LP) (s : State) :
    Keeps s (execCmpg loc a s) := by
  unfold execCmpg
  simp

end Sys2Proof.Machine
end

