-- ==== Sys2Proof/Laws/KeepControl.lean ====
section
/-!
SUPPORT. What no function of Machine/Control.lean touches: the queue, the device's constants and the fuses.
-/

namespace Sys2Proof.Machine
open State

@[simp] theorem keep_State_goTo (s : State) (loc : At) (pc : Nat) :
    (State.goTo s loc pc).keep = s.keep := by
  unfold State.goTo
  simp

@[simp] theorem keep_State_loopEnd (s : State) (loc : At) (p n : Nat) :
    (s.loopEnd loc p n).keep = s.keep := by
  induction n generalizing s with
  | zero => simp [State.loopEnd]
  | succ n ih =>
    unfold State.loopEnd
    dsimp only
    repeat' split
    all_goals simp [ih]

@[simp] theorem keep_State_advance (s : State) (h : CHead) :
    (State.advance s h).keep = s.keep := by
  unfold State.advance
  simp

@[simp] theorem keep_State_branch (s : State) (h : CHead) (target : Nat) :
    (State.branch s h target).keep = s.keep := by
  unfold State.branch
  simp

@[simp] theorem keep_State_controlOp (s : State) (h : CHead) (f : State → State) (hf : ∀ x0, (f x0).keep = x0.keep) :
    (State.controlOp s h f).keep = s.keep := by
  unfold State.controlOp
  simp [*]

@[simp] theorem keep_State_flyLc (s : State) (loc : At) (n : Fin 8) (count : BitVec 16) (timer : Bool) :
    (State.flyLc s loc n count timer).keep = s.keep := by
  unfold State.flyLc
  simp

@[simp] theorem keep_execNopc (h : CHead) (s : State) :
    Keeps s (execNopc h s) := by
  unfold execNopc
  simp

@[simp] theorem keep_execLcset (h : CHead) (lc : Fin 8) (trip : BitVec 16) (s : State) :
    Keeps s (execLcset h lc trip s) := by
  unfold execLcset
  simp

@[simp] theorem keep_execLctim (h : CHead) (lc : Fin 8) (trip : BitVec 16) (s : State) :
    Keeps s (execLctim h lc trip s) := by
  unfold execLctim
  simp

@[simp] theorem keep_execLcgp (h : CHead) (lc : Fin 8) (gs : BitVec 4) (s : State) :
    Keeps s (execLcgp h lc gs s) := by
  unfold execLcgp
  simp

@[simp] theorem keep_State_tokenOp (s : State) (h : CHead) (tq : Fin 8) (kind : Option Nat) (f : BitVec 16 → State → State) (hf : ∀ x0 x1, (f x0 x1).keep = x1.keep) :
    (State.tokenOp s h tq kind f).keep = s.keep := by
  unfold State.tokenOp
  try dsimp only
  repeat' split
  all_goals first
    | (simp [*]; done)
    | (refine keep_of_fst (by assumption) ?_; simp; done)
    | (simp [*]; refine keep_of_fst (by assumption) ?_; simp; done)
    | (refine keep_of_snd (by assumption) ?_; simp; done)
    | (simp [*]; refine keep_of_snd (by assumption) ?_; simp; done)
    | (simp_all; done)

@[simp] theorem keep_execLctok (h : CHead) (lc : Fin 8) (tq : Fin 8) (s : State) :
    Keeps s (execLctok h lc tq s) := by
  unfold execLctok
  simp

@[simp] theorem keep_execTpop (h : CHead) (gd : BitVec 4) (tq : Fin 8) (s : State) :
    Keeps s (execTpop h gd tq s) := by
  unfold execTpop
  simp

@[simp] theorem keep_execTprd (h : CHead) (tq : Fin 8) (s : State) :
    Keeps s (execTprd h tq s) := by
  unfold execTprd
  simp

@[simp] theorem keep_execLoop (h : CHead) (lc : Fin 8) (len : BitVec 11) (s : State) :
    Keeps s (execLoop h lc len s) := by
  unfold execLoop
  simp

@[simp] theorem keep_State_waits (s : State) (loc : At) (lc : Fin 8) :
    (State.waits s loc lc).keep = s.keep :=  by
  unfold State.waits
  simp

@[simp] theorem keep_execWaitlc (h : CHead) (lc : Fin 8) (s : State) :
    Keeps s (execWaitlc h lc s) := by
  unfold execWaitlc
  simp

@[simp] theorem keep_execWaitlcResume (loc : At) (s : State) :
    Keeps s (execWaitlcResume loc s) := by
  unfold execWaitlcResume
  try dsimp only
  split <;> simp

@[simp] theorem keep_execLoopTimerExpiry (p : Fin 1024) (lc : Fin 8) (s : State) :
    Keeps s (execLoopTimerExpiry p lc s) := by
  unfold execLoopTimerExpiry
  simp

@[simp] theorem keep_execJmp (h : CHead) (target : BitVec 11) (s : State) :
    Keeps s (execJmp h target s) := by
  unfold execJmp
  simp

@[simp] theorem keep_execBrp (h : CHead) (pbit : BitVec 4) (neg : Bool) (target : BitVec 11) (s : State) :
    Keeps s (execBrp h pbit neg target s) := by
  unfold execBrp
  simp

@[simp] theorem keep_execTsendi (h : CHead) (dir : Dir) (tok : BitVec 16) (s : State) :
    Keeps s (execTsendi h dir tok s) := by
  unfold execTsendi
  simp

@[simp] theorem keep_execTsendg (h : CHead) (dir : Dir) (gs : BitVec 4) (s : State) :
    Keeps s (execTsendg h dir gs s) := by
  unfold execTsendg
  simp

@[simp] theorem keep_execTput (h : CHead) (tq : Fin 8) (tok : BitVec 16) (s : State) :
    Keeps s (execTput h tq tok s) := by
  unfold execTput
  simp

@[simp] theorem keep_execPset (h : CHead) (pbit : BitVec 4) (gs : BitVec 4) (b : BitVec 5) (s : State) :
    Keeps s (execPset h pbit gs b s) := by
  unfold execPset
  simp

@[simp] theorem keep_State_setSteer (s : State) (p : Fin 1024) (u : Fin 4) (on : Bool) :
    (State.setSteer s p u on).keep = s.keep := by
  unfold State.setSteer
  simp

@[simp] theorem keep_execSteer (h : CHead) (u : Fin 4) (on : Bool) (s : State) :
    Keeps s (execSteer h u on s) := by
  unfold execSteer
  simp

@[simp] theorem keep_execBclr (h : CHead) (s : State) :
    Keeps s (execBclr h s) := by
  unfold execBclr
  simp

end Sys2Proof.Machine
end

