-- ==== Sys2Proof/Laws/KeepExactSum.lean ====
section
/-!
SUPPORT. What no function of Machine/ExactSum.lean touches: the queue, the device's constants and the fuses.
-/

namespace Sys2Proof.Machine
open State

@[simp] theorem keep_execXcvt (h : MHead) (a : MV) (s : State) :
    Keeps s (execXcvt h a s) := by
  unfold execXcvt
  simp

@[simp] theorem keep_execXadd (h : MHead) (a : MV) (s : State) :
    Keeps s (execXadd h a s) := by
  unfold execXadd
  simp

@[simp] theorem keep_execXrnd (h : MHead) (a : MV) (s : State) :
    Keeps s (execXrnd h a s) := by
  unfold execXrnd
  simp

@[simp] theorem keep_execVrsum (h : MHead) (a : MV) (s : State) :
    Keeps s (execVrsum h a s) := by
  unfold execVrsum
  simp

@[simp] theorem keep_execVrmax (h : MHead) (a : MV) (s : State) :
    Keeps s (execVrmax h a s) := by
  unfold execVrmax
  simp

@[simp] theorem keep_execVrng (h : MHead) (a : MV) (s : State) :
    Keeps s (execVrng h a s) := by
  unfold execVrng
  simp

end Sys2Proof.Machine
end

