-- ==== Sys2Proof/Laws/KeepMatrix.lean ====
section
/-!
SUPPORT. What no function of Machine/Matrix.lean touches: the queue, the device's constants and the fuses.
-/

namespace Sys2Proof.Machine
open State

@[simp] theorem keep_State_sramOp (s : State) (h : MHead) (words : List Nat) (land : State → State) (hland : ∀ x0, (land x0).keep = x0.keep) :
    (State.sramOp s h words land).keep = s.keep := by
  unfold State.sramOp
  simp [*]

@[simp] theorem keep_execNopm (_h : MHead) (s : State) :
    Keeps s (execNopm _h s) := by
  unfold execNopm
  simp

@[simp] theorem keep_execWld (h : MHead) (a : MT) (s : State) :
    Keeps s (execWld h a s) := by
  unfold execWld
  simp

@[simp] theorem keep_execWsc (h : MHead) (a : MS) (s : State) :
    Keeps s (execWsc h a s) := by
  unfold execWsc
  simp

@[simp] theorem keep_execWswap (h : MHead) (s : State) :
    Keeps s (execWswap h s) := by
  unfold execWswap
  simp

@[simp] theorem keep_execMma (h : MHead) (a : MM) (s : State) :
    Keeps s (execMma h a s) := by
  unfold execMma
  simp

@[simp] theorem keep_execAccq (h : MHead) (a : MQ) (s : State) :
    Keeps s (execAccq h a s) := by
  unfold execAccq
  simp

@[simp] theorem keep_execAccx (h : MHead) (a : MA) (s : State) :
    Keeps s (execAccx h a s) := by
  unfold execAccx
  simp

@[simp] theorem keep_execAcca (h : MHead) (a : MA) (s : State) :
    Keeps s (execAcca h a s) := by
  unfold execAcca
  simp

@[simp] theorem keep_execAccz (h : MHead) (a : MA) (s : State) :
    Keeps s (execAccz h a s) := by
  unfold execAccz
  simp

end Sys2Proof.Machine
end

