-- ==== Sys2Proof/Laws/KeepSteer.lean ====
section
/-!
SUPPORT. What no function of Machine/Steer.lean touches: the queue, the device's constants and the fuses.
-/

namespace Sys2Proof.Machine
open State

@[simp] theorem keep_State_steerPush (s : State) (p : Fin 1024) (q : Fin 16) (f : Flit) :
    (State.steerPush s p q f).keep = s.keep := by
  unfold State.steerPush
  simp

@[simp] theorem keep_State_steerDrop (s : State) (p : Fin 1024) (q : Fin 16) :
    (State.steerDrop s p q).keep = s.keep := by
  unfold State.steerDrop
  simp

@[simp] theorem keep_State_steerDone (s : State) (p : Fin 1024) (u : Fin 4) :
    (State.steerDone s p u).keep = s.keep := by
  unfold State.steerDone
  simp

@[simp] theorem keep_State_steerToken (s : State) (p : Fin 1024) (u : Fin 4) (enabled : Nat → Bool) :
    (State.steerToken s p u enabled).1.keep = s.keep := by
  unfold State.steerToken
  simp
  split <;> simp

@[simp] theorem keep_State_steerReady (s : State) (p : Fin 1024) (u : Fin 4) :
    (State.steerReady s p u).keep = s.keep := by
  unfold State.steerReady
  simp

@[simp] theorem keep_State_splitStep (s : State) (p : Fin 1024) (u : Fin 4) :
    (State.splitStep s p u).keep = s.keep := by
  unfold State.splitStep
  simp
  split <;> simp

@[simp] theorem keep_State_mergeStep (s : State) (p : Fin 1024) (u : Fin 4) :
    (State.mergeStep s p u).keep = s.keep := by
  unfold State.mergeStep
  simp
  split <;> simp

@[simp] theorem keep_State_selectStep (s : State) (p : Fin 1024) (u : Fin 4) :
    (State.selectStep s p u).keep = s.keep := by
  unfold State.selectStep
  try dsimp only
  repeat' split
  all_goals first
    | (simp; done)
    | (try simp
       refine (keep_foldl _ _ _ (fun t x => ?_)).trans ?_
       · try dsimp only
         repeat' split
         all_goals simp
       · simp)

@[simp] theorem keep_State_steerStep (s : State) (p : Fin 1024) (u : Fin 4) (mode : Nat) (f : State → State) (hf : ∀ x0, (f x0).keep = x0.keep) :
    (State.steerStep s p u mode f).keep = s.keep := by
  unfold State.steerStep
  simp [*]

@[simp] theorem keep_execSteerSplitItem (p : Fin 1024) (u : Fin 4) (s : State) :
    Keeps s (execSteerSplitItem p u s) := by
  unfold execSteerSplitItem
  simp

@[simp] theorem keep_execSteerMergeItem (p : Fin 1024) (u : Fin 4) (s : State) :
    Keeps s (execSteerMergeItem p u s) := by
  unfold execSteerMergeItem
  simp

@[simp] theorem keep_execSteerSelectItem (p : Fin 1024) (u : Fin 4) (s : State) :
    Keeps s (execSteerSelectItem p u s) := by
  unfold execSteerSelectItem
  simp

end Sys2Proof.Machine
end

