-- ==== Sys2Proof/Laws/KeepSurvey.lean ====
section
/-!
SUPPORT. What no function of Machine/Survey.lean touches: the queue, the device's constants and the fuses.
-/

namespace Sys2Proof.Machine
open State

@[simp] theorem keep_State_putSurvey (s : State) (kind interval : Nat) (bs : List Byte) :
    (State.putSurvey s kind interval bs).keep = s.keep := by
  unfold State.putSurvey
  simp

@[simp] theorem keep_State_averaging (s : State) :
    (State.averaging s).keep = s.keep := by
  unfold State.averaging
  simp

@[simp] theorem keep_State_reduction (s : State) :
    (State.reduction s).keep = s.keep := by
  unfold State.reduction
  simp

@[simp] theorem keep_State_lowerLag (s : State) (b : Nat) :
    (State.lowerLag s b).keep = s.keep :=  by
  unfold State.lowerLag
  simp

@[simp] theorem keep_State_inputGate (s : State) :
    (State.inputGate s).keep = s.keep := by
  unfold State.inputGate
  simp

@[simp] theorem keep_execAveragingInterval (s : State) :
    Keeps s (execAveragingInterval s) := by
  unfold execAveragingInterval
  simp

@[simp] theorem keep_execReductionInterval (s : State) :
    Keeps s (execReductionInterval s) := by
  unfold execReductionInterval
  simp

@[simp] theorem keep_execInputGateCheck (s : State) :
    Keeps s (execInputGateCheck s) := by
  unfold execInputGateCheck
  simp

end Sys2Proof.Machine
end

