-- ==== Sys2Proof/Laws/KeepRegFile.lean ====
section
/-!
SUPPORT. What no function of Machine/RegFile.lean touches: the queue, the device's constants and the fuses.
-/

namespace Sys2Proof.Machine
open State

@[simp] theorem keep_State_unitWrite (s : State) (m : Master) (off cfg : Nat) (v : Word) (enable clear : State → State) (henable : ∀ x0, (enable x0).keep = x0.keep) (hclear : ∀ x0, (clear x0).keep = x0.keep) :
    (State.unitWrite s m off cfg v enable clear).keep = s.keep := by
  unfold State.unitWrite
  simp [*]

@[simp] theorem keep_State_writeOutCfg (s : State) (o : Nat) (v : Word) :
    (State.writeOutCfg s o v).keep = s.keep :=  by
  unfold State.writeOutCfg
  simp

@[simp] theorem keep_State_writePrim (s : State) (m : Master) (off : Nat) (v : Word) :
    (State.writePrim s m off v).keep = s.keep := by
  unfold State.writePrim
  simp

@[simp] theorem keep_State_writeMask (s : State) (m : Master) (off : Nat) (v : Word) :
    (State.writeMask s m off v).keep = s.keep := by
  unfold State.writeMask
  simp

@[simp] theorem keep_State_writeClass (s : State) (m : Master) (off : Nat) (v : Word) :
    (State.writeClass s m off v).keep = s.keep := by
  unfold State.writeClass
  simp

@[simp] theorem keep_State_writePoint (s : State) (m : Master) (v : Word) :
    (State.writePoint s m v).keep = s.keep := by
  unfold State.writePoint
  simp

@[simp] theorem keep_State_writeInCfg (s : State) (n : Nat) (v : Word) :
    (State.writeInCfg s n v).keep = s.keep := by
  unfold State.writeInCfg
  simp

@[simp] theorem keep_State_writeAvgCfg (s : State) (v : Word) :
    (State.writeAvgCfg s v).keep = s.keep := by
  unfold State.writeAvgCfg
  simp

@[simp] theorem keep_State_writeRedCfg (s : State) (v : Word) :
    (State.writeRedCfg s v).keep = s.keep := by
  unfold State.writeRedCfg
  simp

@[simp] theorem keep_State_writeIdle (s : State) (m : Master) (off : Nat) (v : Word) :
    (State.writeIdle s m off v).keep = s.keep := by
  unfold State.writeIdle
  simp

@[simp] theorem keep_State_writeAreaReg (s : State) (m : Master) (off : Nat) (v : Word) :
    (State.writeAreaReg s m off v).keep = s.keep := by
  unfold State.writeAreaReg
  simp

@[simp] theorem keep_State_writeRptrWord (s : State) (m : Master) (a : Area) (off : Nat) (v : Word) :
    (State.writeRptrWord s m a off v).keep = s.keep := by
  unfold State.writeRptrWord
  simp

@[simp] theorem keep_State_writeLow (s : State) (m : Master) (off : Nat) (v : Word) :
    OKeeps s (State.writeLow s m off v) := by
  unfold State.writeLow
  simp

@[simp] theorem keep_State_writeRingWord (s : State) (m : Master) (off : Nat) (v : Word) :
    (State.writeRingWord s m off v).keep = s.keep := by
  unfold State.writeRingWord
  simp

@[simp] theorem keep_State_writePct (s : State) (off : Nat) (v : Word) :
    (State.writePct s off v).keep = s.keep := by
  unfold State.writePct
  simp

@[simp] theorem keep_State_writeSetCtl (s : State) (m : Master) (v : Word) :
    (State.writeSetCtl s m v).keep = s.keep := by
  unfold State.writeSetCtl
  simp

theorem grows_writeHigh (s : State) (m : Master) (off : Nat) (v : Word) : OGrows s (s.writeHigh m off v) := by
  unfold State.writeHigh
  repeat' first
    | exact ogrows_none _
    | exact ogrows_some (grows_burnRepair ..)
    | exact ogrows_some (.of_keep (by simp))
    | apply ogrows_ite

theorem grows_writeWord (s : State) (m : Master) (off : Nat) (v : Word) : Grows s (s.writeWord m off v) := by
  unfold State.writeWord
  split
  · rename_i h
    exact .of_keep (keep_State_writeLow s m off v _ h)
  · cases h : s.writeHigh m off v with
    | none => exact .of_keep (keep_State_mergeWord ..)
    | some t => exact grows_writeHigh s m off v t h

theorem grows_writeReg (s : State) (m : Master) (off : Nat) (v : Word) : Grows s (s.writeReg m off v) := by
  unfold State.writeReg
  split
  · exact .of_keep (keep_State_violation ..)
  · split
    · exact .of_keep (keep_State_violation ..)
    · split
      · exact grows_writeWord ..
      · exact .of_keep (keep_State_refuse ..)

theorem grows_writeHighWord (t s : State) (m : Master) (off : Nat) (v : Word) : Grows t (t.writeHighWord s m off v) := by
  unfold State.writeHighWord
  dsimp only
  split
  · exact grows_writeReg ..
  · exact (grows_writeReg t m off v).trans (.of_keep (by simp))

theorem grows_writeAccess (s : State) (m : Master) (off : Nat) (w : Width) (v : DWord) : Grows s (s.writeAccess m off w v) := by
  unfold State.writeAccess
  split
  · exact .of_keep (by simp)
  · split
    · exact grows_writeReg ..
    · exact (grows_writeReg ..).trans (grows_writeHighWord ..)
    · split
      · exact .of_keep (keep_State_violation ..)
      · exact .of_keep (keep_State_violation ..)

@[simp] theorem keep_State_setLatch (s : State) (m : Master) (l : Latch) :
    (State.setLatch s m l).keep = s.keep := by
  unfold State.setLatch
  simp

@[simp] theorem keep_State_countRead (s : State) (m : Master) (off : Nat) :
    (State.countRead s m off).keep = s.keep := by
  unfold State.countRead
  try dsimp only
  split <;> simp

@[simp] theorem keep_State_readAccess (s : State) (m : Master) (off : Nat) (w : Width) :
    (State.readAccess s m off w).keep = s.keep := by
  unfold State.readAccess
  try dsimp only
  repeat' split
  all_goals simp

@[simp] theorem keep_State_writeBar2Word (s : State) (off : Nat) (v : Word) :
    (State.writeBar2Word s off v).keep = s.keep :=  by
  unfold State.writeBar2Word
  simp

@[simp] theorem keep_State_writeBar2 (s : State) (off : Nat) (w : Width) (v : DWord) :
    (State.writeBar2 s off w v).keep = s.keep :=  by
  unfold State.writeBar2
  try dsimp only
  split <;> simp

@[simp] theorem keep_State_readBar2 (s : State) (off : Nat) (w : Width) :
    (State.readBar2 s off w).keep = s.keep :=  by
  unfold State.readBar2
  simp

theorem grows_execRegisterWrite (m : Master) (a : BarAddr) (w : Width) (v : BitVec 64) (s : State) :
    GrowsO s (execRegisterWrite m a w v s) := by
  intro t ht
  unfold execRegisterWrite at ht
  cases ht
  split
  · exact .of_keep (by split <;> simp)
  · exact grows_writeAccess ..

theorem grows_execWideOrUnalignedAccess (m : Master) (off : BitVec 25) (w : Width) (wr : Bool) (v : BitVec 64) (s : State) :
    GrowsO s (execWideOrUnalignedAccess m off w wr v s) := by
  intro t ht
  unfold execWideOrUnalignedAccess at ht
  cases ht
  split
  · exact grows_writeAccess ..
  · exact .of_keep (keep_State_readAccess ..)

@[simp] theorem keep_execLowWordRead (m : Master) (a : BarAddr) (w : Width) (s : State) :
    Keeps s (execLowWordRead m a w s) :=  by
  unfold execLowWordRead
  simp

end Sys2Proof.Machine
end

