-- ==== Sys2Proof/Laws/KeepVector.lean ====
section
/-!
SUPPORT. What no function of Machine/Vector.lean touches: the queue, the device's constants and the fuses.
-/

namespace Sys2Proof.Machine
open State

@[simp] theorem keep_execFadd (h : MHead) (a : MV) (s : State) :
    Keeps s (execFadd h a s) := by
  unfold execFadd
  simp

@[simp] theorem keep_execFsub (h : MHead) (a : MV) (s : State) :
    Keeps s (execFsub h a s) := by
  unfold execFsub
  simp

@[simp] theorem keep_execFmul (h : MHead) (a : MV) (s : State) :
    Keeps s (execFmul h a s) := by
  unfold execFmul
  simp

@[simp] theorem keep_execFma (h : MHead) (a : MV) (s : State) :
    Keeps s (execFma h a s) := by
  unfold execFma
  simp

@[simp] theorem keep_execFmin (h : MHead) (a : MV) (s : State) :
    Keeps s (execFmin h a s) := by
  unfold execFmin
  simp

@[simp] theorem keep_execFmax (h : MHead) (a : MV) (s : State) :
    Keeps s (execFmax h a s) := by
  unfold execFmax
  simp

@[simp] theorem keep_execRcp (h : MHead) (a : MV) (s : State) :
    Keeps s (execRcp h a s) := by
  unfold execRcp
  simp

@[simp] theorem keep_execRsq (h : MHead) (a : MV) (s : State) :
    Keeps s (execRsq h a s) := by
  unfold execRsq
  simp

@[simp] theorem keep_execExp2 (h : MHead) (a : MV) (s : State) :
    Keeps s (execExp2 h a s) := by
  unfold execExp2
  simp

@[simp] theorem keep_execLog2 (h : MHead) (a : MV) (s : State) :
    Keeps s (execLog2 h a s) := by
  unfold execLog2
  simp

@[simp] theorem keep_execIadd (h : MHead) (a : MV) (s : State) :
    Keeps s (execIadd h a s) := by
  unfold execIadd
  simp

@[simp] theorem keep_execIsub (h : MHead) (a : MV) (s : State) :
    Keeps s (execIsub h a s) := by
  unfold execIsub
  simp

@[simp] theorem keep_execImul (h : MHead) (a : MV) (s : State) :
    Keeps s (execImul h a s) := by
  unfold execImul
  simp

@[simp] theorem keep_execImin (h : MHead) (a : MV) (s : State) :
    Keeps s (execImin h a s) := by
  unfold execImin
  simp

@[simp] theorem keep_execImax (h : MHead) (a : MV) (s : State) :
    Keeps s (execImax h a s) := by
  unfold execImax
  simp

@[simp] theorem keep_execAndVector (h : MHead) (a : MV) (s : State) :
    Keeps s (execAndVector h a s) := by
  unfold execAndVector
  simp

@[simp] theorem keep_execOrVector (h : MHead) (a : MV) (s : State) :
    Keeps s (execOrVector h a s) := by
  unfold execOrVector
  simp

@[simp] theorem keep_execXorVector (h : MHead) (a : MV) (s : State) :
    Keeps s (execXorVector h a s) := by
  unfold execXorVector
  simp

@[simp] theorem keep_execShl (h : MHead) (a : MV) (s : State) :
    Keeps s (execShl h a s) := by
  unfold execShl
  simp

@[simp] theorem keep_execShr (h : MHead) (a : MV) (s : State) :
    Keeps s (execShr h a s) := by
  unfold execShr
  simp

@[simp] theorem keep_execSar (h : MHead) (a : MV) (s : State) :
    Keeps s (execSar h a s) := by
  unfold execSar
  simp

@[simp] theorem keep_execCmp (h : MHead) (a : MV) (s : State) :
    Keeps s (execCmp h a s) := by
  unfold execCmp
  simp

@[simp] theorem keep_execVsel (h : MHead) (a : MV) (s : State) :
    Keeps s (execVsel h a s) := by
  unfold execVsel
  simp

@[simp] theorem keep_execCvt (h : MHead) (a : MV) (s : State) :
    Keeps s (execCvt h a s) := by
  unfold execCvt
  simp

@[simp] theorem keep_execQnt (h : MHead) (a : MV) (s : State) :
    Keeps s (execQnt h a s) := by
  unfold execQnt
  simp

@[simp] theorem keep_execDqt (h : MHead) (a : MV) (s : State) :
    Keeps s (execDqt h a s) := by
  unfold execDqt
  simp

@[simp] theorem keep_execScale (h : MHead) (a : MV) (s : State) :
    Keeps s (execScale h a s) := by
  unfold execScale
  simp

@[simp] theorem keep_execBqnt (h : MHead) (a : MV) (s : State) :
    Keeps s (execBqnt h a s) := by
  unfold execBqnt
  simp

@[simp] theorem keep_execCsum (h : MHead) (a : MV) (s : State) :
    Keeps s (execCsum h a s) := by
  unfold execCsum
  simp

@[simp] theorem keep_execVld (h : MHead) (a : MD) (s : State) :
    Keeps s (execVld h a s) := by
  unfold execVld
  simp

end Sys2Proof.Machine
end

