-- ==== Sys2Proof/Laws/KeepDispatch.lean ====
section
/-!
SUPPORT. What no command touches but those that burn fuses, command by command.
-/

namespace Sys2Proof.Machine

/-- A command that burns no fuse keeps the queue, the constants and the fuses. -/
theorem keeps_exec (i : Instr) (s : State) (h : burnsFuses i = false) : Keeps s (exec i s) := by
  cases i with
  | registerWrite => exact absurd h (by simp [burnsFuses])
  | wideOrUnalignedAccess => exact absurd h (by simp [burnsFuses])
  | lowWordRead a b c => exact keep_execLowWordRead a b c s
  | thermalSample a b c => exact keep_execThermalSample a b c s
  | hotSampleCountExpiry => exact keep_execHotSampleCountExpiry s
  | coolSampleCountExpiry => exact keep_execCoolSampleCountExpiry s
  | stepCapWrite a b => exact keep_execStepCapWrite a b s
  | stepChangeBegin => exact keep_execStepChangeBegin s
  | islandRelockComplete => exact keep_execIslandRelockComplete s
  | hbmRequestServe a b c => exact keep_execHbmRequestServe a b c s
  | ddr5RequestServe a b => exact keep_execDdr5RequestServe a b s
  | ingLaneCfgWrite a b c => exact keep_execIngLaneCfgWrite a b c s
  | laneLock a b => exact keep_execLaneLock a b s
  | laneAligned a => exact keep_execLaneAligned a s
  | laneAlignmentLost a => exact keep_execLaneAlignmentLost a s
  | nolerFrameReceive a b c => exact keep_execNolerFrameReceive a b c s
  | fillSampleTick a => exact keep_execFillSampleTick a s
  | jesdLinkCfgWrite a b c => exact keep_execJesdLinkCfgWrite a b c s
  | sysrefEdge a b => exact keep_execSysrefEdge a b s
  | jesdMultiblockReceive a b c => exact keep_execJesdMultiblockReceive a b c s
  | jesdSyncLost a => exact keep_execJesdSyncLost a s
  | frontEndSample => exact keep_execFrontEndSample s
  | ringBlockComplete => exact keep_execRingBlockComplete s
  | ringReaderTakeover => exact keep_execRingReaderTakeover s
  | ringReaderBlock => exact keep_execRingReaderBlock s
  | ebResume => exact keep_execEbResume s
  | ingRecDataWrite a b => exact keep_execIngRecDataWrite a b s
  | recSwitchArm a b => exact keep_execRecSwitchArm a b s
  | recSwitchActivate => exact keep_execRecSwitchActivate s
  | stagingBankFree => exact keep_execStagingBankFree s
  | statIntervalClose => exact keep_execStatIntervalClose s
  | debtUpdate => exact keep_execDebtUpdate s
  | shedLevelUpdate => exact keep_execShedLevelUpdate s
  | overrunSkip => exact keep_execOverrunSkip s
  | inputPlanInject a => exact keep_execInputPlanInject a s
  | flitArrival a b c d e => exact keep_execFlitArrival a b c d e s
  | tokenArrival a b c d => exact keep_execTokenArrival a b c d s
  | bridgeRetry a => exact keep_execBridgeRetry a s
  | bridgeRetryComplete a => exact keep_execBridgeRetryComplete a s
  | bridgeRetryExhausted a => exact keep_execBridgeRetryExhausted a s
  | memlaneRequest a => exact keep_execMemlaneRequest a s
  | memlaneReadBeat a => exact keep_execMemlaneReadBeat a s
  | steerSplitItem a b => exact keep_execSteerSplitItem a b s
  | steerMergeItem a b => exact keep_execSteerMergeItem a b s
  | steerSelectItem a b => exact keep_execSteerSelectItem a b s
  | fillReceive a b c => exact keep_execFillReceive a b c s
  | followBind a => exact keep_execFollowBind a s
  | flipArm a b => exact keep_execFlipArm a b s
  | flipExecute => exact keep_execFlipExecute s
  | repairBurn => exact absurd h (by simp [burnsFuses])
  | peekStart a b c => exact keep_execPeekStart a b c s
  | peekComplete a => exact keep_execPeekComplete a s
  | nopm a => exact keep_execNopm a s
  | wld a b => exact keep_execWld a b s
  | wsc a b => exact keep_execWsc a b s
  | wswap a => exact keep_execWswap a s
  | mma a b => exact keep_execMma a b s
  | accq a b => exact keep_execAccq a b s
  | accx a b => exact keep_execAccx a b s
  | acca a b => exact keep_execAcca a b s
  | accz a b => exact keep_execAccz a b s
  | fadd a b => exact keep_execFadd a b s
  | fsub a b => exact keep_execFsub a b s
  | fmul a b => exact keep_execFmul a b s
  | fma a b => exact keep_execFma a b s
  | fmin a b => exact keep_execFmin a b s
  | fmax a b => exact keep_execFmax a b s
  | rcp a b => exact keep_execRcp a b s
  | rsq a b => exact keep_execRsq a b s
  | exp2 a b => exact keep_execExp2 a b s
  | log2 a b => exact keep_execLog2 a b s
  | iadd a b => exact keep_execIadd a b s
  | isub a b => exact keep_execIsub a b s
  | imul a b => exact keep_execImul a b s
  | imin a b => exact keep_execImin a b s
  | imax a b => exact keep_execImax a b s
  | andVector a b => exact keep_execAndVector a b s
  | orVector a b => exact keep_execOrVector a b s
  | xorVector a b => exact keep_execXorVector a b s
  | shl a b => exact keep_execShl a b s
  | shr a b => exact keep_execShr a b s
  | sar a b => exact keep_execSar a b s
  | cmp a b => exact keep_execCmp a b s
  | vsel a b => exact keep_execVsel a b s
  | cvt a b => exact keep_execCvt a b s
  | qnt a b => exact keep_execQnt a b s
  | dqt a b => exact keep_execDqt a b s
  | scale a b => exact keep_execScale a b s
  | bqnt a b => exact keep_execBqnt a b s
  | csum a b => exact keep_execCsum a b s
  | vld a b => exact keep_execVld a b s
  | xcvt a b => exact keep_execXcvt a b s
  | xadd a b => exact keep_execXadd a b s
  | xrnd a b => exact keep_execXrnd a b s
  | vrsum a b => exact keep_execVrsum a b s
  | vrmax a b => exact keep_execVrmax a b s
  | vrng a b => exact keep_execVrng a b s
  | nopl a => exact keep_execNopl a s
  | ldw a b => exact keep_execLdw a b s
  | stw a b => exact keep_execStw a b s
  | send a b => exact keep_execSend a b s
  | recv a b => exact keep_execRecv a b s
  | qput a b => exact keep_execQput a b s
  | mreq a b => exact keep_execMreq a b s
  | hatom a b => exact keep_execHatom a b s
  | hatomExecute a b => exact keep_execHatomExecute a b s
  | rdtime a b => exact keep_execRdtime a b s
  | rdsens a b c d => exact keep_execRdsens a b c d s
  | qlen a b c d => exact keep_execQlen a b c d s
  | rdround a b => exact keep_execRdround a b s
  | movi a b c => exact keep_execMovi a b c s
  | ldc a b c => exact keep_execLdc a b c s
  | addi a b => exact keep_execAddi a b s
  | add a b => exact keep_execAdd a b s
  | sub a b => exact keep_execSub a b s
  | mul a b => exact keep_execMul a b s
  | andScalar a b => exact keep_execAndScalar a b s
  | orScalar a b => exact keep_execOrScalar a b s
  | xorScalar a b => exact keep_execXorScalar a b s
  | shli a b => exact keep_execShli a b s
  | shri a b => exact keep_execShri a b s
  | vtog a b => exact keep_execVtog a b s
  | gtov a b => exact keep_execGtov a b s
  | cmpg a b => exact keep_execCmpg a b s
  | nopc a => exact keep_execNopc a s
  | lcset a b c => exact keep_execLcset a b c s
  | lctim a b c => exact keep_execLctim a b c s
  | lctok a b c => exact keep_execLctok a b c s
  | lcgp a b c => exact keep_execLcgp a b c s
  | loop a b c => exact keep_execLoop a b c s
  | waitlc a b => exact keep_execWaitlc a b s
  | waitlcResume a => exact keep_execWaitlcResume a s
  | loopTimerExpiry a b => exact keep_execLoopTimerExpiry a b s
  | jmp a b => exact keep_execJmp a b s
  | brp a b c d => exact keep_execBrp a b c d s
  | tsendi a b c => exact keep_execTsendi a b c s
  | tsendg a b c => exact keep_execTsendg a b c s
  | tput a b c => exact keep_execTput a b c s
  | tpop a b c => exact keep_execTpop a b c s
  | tprd a b => exact keep_execTprd a b s
  | pset a b c d => exact keep_execPset a b c d s
  | steer a b c => exact keep_execSteer a b c s
  | bclr a => exact keep_execBclr a s
  | holdRequestDeferred a b => exact keep_execHoldRequestDeferred a b s
  | holdRequestCancelling a b => exact keep_execHoldRequestCancelling a b s
  | holdCauseClear a b => exact keep_execHoldCauseClear a b s
  | holdLimitDeadlock a => exact keep_execHoldLimitDeadlock a s
  | waitlcDeadlock a => exact keep_execWaitlcDeadlock a s
  | inputGateCheck => exact keep_execInputGateCheck s
  | verdictArrival a b c => exact keep_execVerdictArrival a b c s
  | primitiveSample a => exact keep_execPrimitiveSample a s
  | primitiveEnable a => exact keep_execPrimitiveEnable a s
  | holdoffExpiry a => exact keep_execHoldoffExpiry a s
  | stuckDetect a => exact keep_execStuckDetect a s
  | maskPointTest a => exact keep_execMaskPointTest a s
  | maskRearm a b => exact keep_execMaskRearm a b s
  | externalInputEdge a b c d => exact keep_execExternalInputEdge a b c d s
  | tdcEnable a b c => exact keep_execTdcEnable a b c s
  | tdcLineCalibrate a b => exact keep_execTdcLineCalibrate a b s
  | tdcLineSwap a => exact keep_execTdcLineSwap a s
  | thrSwitchArm a b => exact keep_execThrSwitchArm a b s
  | thrSwitchActivate => exact keep_execThrSwitchActivate s
  | classEnable a => exact keep_execClassEnable a s
  | fastClassEvaluate a => exact keep_execFastClassEvaluate a s
  | slowClassEvaluate a => exact keep_execSlowClassEvaluate a s
  | timedPulseStart a => exact keep_execTimedPulseStart a s
  | outputPulseEnd a => exact keep_execOutputPulseEnd a s
  | captureEventClose a => exact keep_execCaptureEventClose a s
  | captureCopyStart => exact keep_execCaptureCopyStart s
  | captureRefuseOversize => exact keep_execCaptureRefuseOversize s
  | captureCopyComplete => exact keep_execCaptureCopyComplete s
  | storeRptrWrite a b c => exact keep_execStoreRptrWrite a b c s
  | averagingInterval => exact keep_execAveragingInterval s
  | reductionInterval => exact keep_execReductionInterval s
  | selectionFlitInject => exact keep_execSelectionFlitInject s
  | parameterFlitInject => exact keep_execParameterFlitInject s
  | trainingStepStart a => exact keep_execTrainingStepStart a s
  | trainerReportReceive a => exact keep_execTrainerReportReceive a s
  | thresholdPolicyInterval => exact keep_execThresholdPolicyInterval s
  | rangePolicyInterval => exact keep_execRangePolicyInterval s
  | trainPeriodBoundary => exact keep_execTrainPeriodBoundary s
  | timelineWrap => exact keep_execTimelineWrap s
  | timelineSetAbsolute a => exact keep_execTimelineSetAbsolute a s
  | timelineSetRelative a => exact keep_execTimelineSetRelative a s
  | ethFrameReceive a b c d e => exact keep_execEthFrameReceive a b c d e s
  | ethFrameTransmit a b => exact keep_execEthFrameTransmit a b s
  | tcMatchEntryExpire => exact keep_execTcMatchEntryExpire s
  | ptpDelayReqSend a => exact keep_execPtpDelayReqSend a s
  | syncOffsetCompute => exact keep_execSyncOffsetCompute s
  | delayRespReceive a b => exact keep_execDelayRespReceive a b s
  | pdelayRespReceive a b c d e f => exact keep_execPdelayRespReceive a b c d e f s
  | servoQuietTimeout => exact keep_execServoQuietTimeout s
  | ppsInEdge a => exact keep_execPpsInEdge a s
  | ppsOutEdge => exact keep_execPpsOutEdge s
  | ppsOutPulseEnd => exact keep_execPpsOutPulseEnd s
  | clk10mGate a b => exact keep_execClk10mGate a b s
  | launchNoticeSend a b => exact keep_execLaunchNoticeSend a b s
  | sqTailWrite a b c => exact keep_execSqTailWrite a b c s
  | cqHeadWrite a b c => exact keep_execCqHeadWrite a b c s
  | ringEnable a b c => exact keep_execRingEnable a b c s
  | ringDisable a b c => exact keep_execRingDisable a b c s
  | submissionFetch a b => exact keep_execSubmissionFetch a b s
  | fetchError a => exact keep_execFetchError a s
  | coalesceTimerExpiry a => exact keep_execCoalesceTimerExpiry a s
  | nop a => exact keep_execNop a s
  | load a b c d e => exact keep_execLoad a b c d e s
  | start a => exact keep_execStart a s
  | stop a => exact keep_execStop a s
  | ctxStopRegister a b => exact keep_execCtxStopRegister a b s
  | readEvents a b => exact keep_execReadEvents a b s
  | readSurvey a b => exact keep_execReadSurvey a b s
  | replay a b c => exact keep_execReplay a b c s
  | replayBlockFetch => exact keep_execReplayBlockFetch s
  | label a b c => exact keep_execLabel a b c s
  | trainParam a => exact keep_execTrainParam a s
  | policy a b c => exact keep_execPolicy a b c s
  | subJoin a b c => exact keep_execSubJoin a b c s
  | subLeave a => exact keep_execSubLeave a s
  | subscriberRecordWrite a => exact keep_execSubscriberRecordWrite a s
  | hostQueuePrefetch a => exact keep_execHostQueuePrefetch a s
  | hostQueueInject a => exact keep_execHostQueueInject a s
  | hostQueueEject a => exact keep_execHostQueueEject a s
  | countWordWrite a b c => exact keep_execCountWordWrite a b c s
  | hdmRead a b c => exact keep_execHdmRead a b c s
  | hdmWrite a b c => exact keep_execHdmWrite a b c s
  | ctxOpen a b c => exact keep_execCtxOpen a b c s
  | keyInstallComplete => exact keep_execKeyInstallComplete s
  | attest a b c => exact keep_execAttest a b c s
  | keyRelease a b c => exact keep_execKeyRelease a b c s
  | keyExport a b => exact keep_execKeyExport a b s
  | getCert a b => exact keep_execGetCert a b s
  | privChallenge a b => exact keep_execPrivChallenge a b s
  | privGrant a b c d => exact keep_execPrivGrant a b c d s
  | privExpiry => exact keep_execPrivExpiry s
  | opkeyEnrol => exact absurd h (by simp [burnsFuses])
  | cakSet a b c d => exact keep_execCakSet a b c d s
  | mkaMessage a b c => exact keep_execMkaMessage a b c s
  | spdmMessage a b => exact keep_execSpdmMessage a b s
  | ideLost a => exact keep_execIdeLost a s
  | endingComplete => exact keep_execEndingComplete s
  | scrubComplete => exact keep_execScrubComplete s
  | spareKeyReady => exact keep_execSpareKeyReady s
  | drbgReseed => exact keep_execDrbgReseed s
  | entropyHealthFail => exact keep_execEntropyHealthFail s
  | keyExhausted => exact keep_execKeyExhausted s
  | patrolRead a => exact keep_execPatrolRead a s
  | uncorrectableError a b => exact keep_execUncorrectableError a b s
  | fatalError a b => exact keep_execFatalError a b s
  | errLogPop a b => exact keep_execErrLogPop a b s
  | cxlLinkDown => exact keep_execCxlLinkDown s
  | watchdogKick a b => exact keep_execWatchdogKick a b s
  | watchdogExpiry => exact keep_execWatchdogExpiry s
  | legendRestartComplete => exact keep_execLegendRestartComplete s
  | cartoucheWatchdogExpiry => exact keep_execCartoucheWatchdogExpiry s
  | thermalTripCheck a b => exact keep_execThermalTripCheck a b s
  | ageingSample a b c => exact keep_execAgeingSample a b c s
  | calRead a b => exact keep_execCalRead a b s
  | calWrite a b c d => exact keep_execCalWrite a b c d s
  | calSave a b => exact keep_execCalSave a b s
  | errInject a b => exact keep_execErrInject a b s
  | coldReset a b c => exact keep_execColdReset a b c s
  | railExcursion a b => exact keep_execRailExcursion a b s
  | warmReset a b c => exact keep_execWarmReset a b c s
  | contextReset a b c => exact keep_execContextReset a b c s
  | arrayReset a b => exact keep_execArrayReset a b s
  | function1Flr => exact keep_execFunction1Flr s
  | fusesPhaseComplete a => exact keep_execFusesPhaseComplete a s
  | bistComplete a => exact keep_execBistComplete a s
  | firmwarePhaseComplete => exact keep_execFirmwarePhaseComplete s
  | calibrationPhaseComplete => exact keep_execCalibrationPhaseComplete s
  | memoryTrainingComplete a b c => exact keep_execMemoryTrainingComplete a b c s
  | memoryInitComplete => exact keep_execMemoryInitComplete s
  | bootTimerExpiry => exact keep_execBootTimerExpiry s
  | trialTimeout => exact keep_execTrialTimeout s
  | fwWrite a b c d => exact keep_execFwWrite a b c d s
  | fwStage a b => exact keep_execFwStage a b s
  | fwConfirm => exact absurd h (by simp [burnsFuses])
  | fwDiscard a b => exact keep_execFwDiscard a b s
  | syncHeaderLock a => exact keep_execSyncHeaderLock a s
  | tdcLock a => exact keep_execTdcLock a s
  | l1Lock a => exact keep_execL1Lock a s
  | cxlLinkTrained => exact keep_execCxlLinkTrained s
  | porLRise => exact keep_execPorLRise s
  | perstLRise => exact keep_execPerstLRise s

end Sys2Proof.Machine
end

