-- ==== Sys2Proof/Laws/KeepIssue.lean ====
section
/-!
SUPPORT. What no function of Machine/Issue.lean touches: the queue, the device's constants and the fuses.
-/

namespace Sys2Proof.Machine
open State

theorem burnsFuses_mInstr (h : MHead) (w : SlotWord) : burnsFuses (mInstr h w) = false := by
  unfold mInstr
  split <;> rfl

theorem burnsFuses_lInstr (loc : At) (w : SlotWord) (x : Word) : burnsFuses (lInstr loc w x) = false := by
  unfold lInstr
  split <;> rfl

theorem burnsFuses_cInstr (h : CHead) (w : SlotWord) : burnsFuses (cInstr h w) = false := by
  unfold cInstr
  split <;> rfl

theorem keep_State_run (s : State) (i : Instr) (h : burnsFuses i = false) : (s.run i).keep = s.keep := by
  unfold State.run
  split
  · rename_i e
    exact keeps_exec i s h _ e
  · rfl

@[simp] theorem keep_run_steerSplitItem (s : State) (p : Fin 1024) (u : Fin 4) : (s.run (.steerSplitItem p u)).keep = s.keep := keep_State_run _ _ rfl

@[simp] theorem keep_run_steerMergeItem (s : State) (p : Fin 1024) (u : Fin 4) : (s.run (.steerMergeItem p u)).keep = s.keep := keep_State_run _ _ rfl

@[simp] theorem keep_run_steerSelectItem (s : State) (p : Fin 1024) (u : Fin 4) : (s.run (.steerSelectItem p u)).keep = s.keep := keep_State_run _ _ rfl

@[simp] theorem keep_run_flipExecute (s : State) : (s.run .flipExecute).keep = s.keep := keep_State_run _ _ rfl

@[simp] theorem keep_run_verdictArrival (s : State) (n : Fin 256) (f : BitVec 256) (b : Bool) : (s.run (.verdictArrival n f b)).keep = s.keep := keep_State_run _ _ rfl

@[simp] theorem keep_run_trainerReportReceive (s : State) (f : Option (BitVec 256)) : (s.run (.trainerReportReceive f)).keep = s.keep := keep_State_run _ _ rfl

@[simp] theorem keep_run_hostQueueEject (s : State) (q : BitVec 14) : (s.run (.hostQueueEject q)).keep = s.keep := keep_State_run _ _ rfl

@[simp] theorem keep_run_selectionFlitInject (s : State) : (s.run .selectionFlitInject).keep = s.keep := keep_State_run _ _ rfl

@[simp] theorem keep_run_parameterFlitInject (s : State) : (s.run .parameterFlitInject).keep = s.keep := keep_State_run _ _ rfl

@[simp] theorem keep_run_hostQueueInject (s : State) (p : Fin 32) : (s.run (.hostQueueInject p)).keep = s.keep := keep_State_run _ _ rfl

@[simp] theorem keep_run_islandRelockComplete (s : State) : (s.run .islandRelockComplete).keep = s.keep := keep_State_run _ _ rfl

@[simp] theorem keep_run_stepChangeBegin (s : State) : (s.run .stepChangeBegin).keep = s.keep := keep_State_run _ _ rfl

@[simp] theorem keep_run_inputGateCheck (s : State) : (s.run .inputGateCheck).keep = s.keep := keep_State_run _ _ rfl

@[simp] theorem keep_run_waitlcDeadlock (s : State) (loc : At) : (s.run (.waitlcDeadlock loc)).keep = s.keep := keep_State_run _ _ rfl

@[simp] theorem keep_run_holdLimitDeadlock (s : State) (k : Fin 8) : (s.run (.holdLimitDeadlock k)).keep = s.keep := keep_State_run _ _ rfl


@[simp] theorem keep_State_issueSlots (s : State) (loc : At) (b : BitVec 128) : (s.issueSlots loc b).keep = s.keep := by
  unfold State.issueSlots
  dsimp only
  rw [keep_State_run _ _ (by split <;> first | rfl | exact burnsFuses_cInstr ..)]
  refine keep_of_ite _ _ _ ?_ ?_
  · rw [keep_State_run _ _ (burnsFuses_mInstr ..)]
    split <;> simp
  · rw [keep_State_run _ _ (burnsFuses_lInstr ..), keep_State_run _ _ (burnsFuses_mInstr ..)]
    split <;> simp


@[simp] theorem keep_State_issueLate (s : State) (loc : At) (b : BitVec 128) : (s.issueLate loc b).keep = s.keep := by
  unfold State.issueLate
  dsimp only
  have k : (if (lSlot b).op = 0x05 then s.run (lInstr loc (lSlot b) 0) else s).keep = s.keep :=
    keep_of_ite _ _ _ (keep_State_run _ _ (burnsFuses_lInstr ..)) rfl
  refine keep_of_ite _ _ _ ?_ (keep_of_ite _ _ _ ?_ ?_)
  · exact (keep_State_pushToken ..).trans k
  · exact (keep_State_setSteer ..).trans k
  · exact k


@[simp] theorem keep_State_waitNext (s : State) (loc : At) :
    (State.waitNext s loc).keep = s.keep := by
  unfold State.waitNext
  try dsimp only
  split <;> simp

@[simp] theorem keep_State_issueAll (s : State) : s.issueAll.1.keep = s.keep := by
  unfold State.issueAll
  refine keep_foldl_fst _ _ _ (fun q p => ?_)
  dsimp only
  split
  · split
    · exact keep_State_issueSlots ..
    · exact keep_State_waitNext ..
  · rfl


end Sys2Proof.Machine
end

