-- ==== Sys2Proof/Laws/KeepLanding.lean ====
section
/-!
SUPPORT. What no function of Machine/Landing.lean touches: the queue, the device's constants and the fuses.
-/

namespace Sys2Proof.Machine
open State

@[simp] theorem keep_State_landTerms (s : State) (p bank first : Nat) (repl : Bool) (xs : List Int) (tag : Bool) :
    (State.landTerms s p bank first repl xs tag).keep = s.keep := by
  unfold State.landTerms
  simp

@[simp] theorem keep_State_landRes (s : State) (p l : Nat) (r : Res) :
    (State.landRes s p l r).keep = s.keep := by
  unfold State.landRes
  try dsimp only
  split <;> simp

@[simp] theorem keep_State_landPicot (s : State) (p : Nat) :
    (State.landPicot s p).keep = s.keep := by
  unfold State.landPicot
  simp

end Sys2Proof.Machine
end

