-- ==== Sys2Proof/Laws/KeepHoldCycle.lean ====
section
/-!
SUPPORT. What no function of Machine/HoldCycle.lean touches: the queue, the device's constants and the fuses.
-/

namespace Sys2Proof.Machine
open State

@[simp] theorem keep_State_clearAnswered (s : State) :
    (State.clearAnswered s).keep = s.keep := by
  unfold State.clearAnswered
  simp

@[simp] theorem keep_State_causeTimer (s : State) (k : Nat) : (s.causeTimer k).keep = s.keep := by
  unfold State.causeTimer
  dsimp only
  refine keep_of_ite _ _ _ ?_ ?_
  · rw [keep_State_run _ _ rfl]
    simp only [keep_mk, keep_eta]
  · simp only [keep_mk, keep_eta]

@[simp] theorem keep_State_causeTimers (s : State) :
    (State.causeTimers s).keep = s.keep := by
  unfold State.causeTimers
  simp

@[simp] theorem keep_State_steerUnit (s : State) (p : Fin 1024) (u : Fin 4) :
    (State.steerUnit s p u).keep = s.keep := by
  unfold State.steerUnit
  try dsimp only
  repeat' split
  all_goals first
    | (simp; done)
    | (try simp
       refine (keep_foldl _ _ _ (fun t x => ?_)).trans ?_
       · try dsimp only
         repeat' split
         all_goals simp
       · simp)

@[simp] theorem keep_State_steerAll (s : State) :
    (State.steerAll s).keep = s.keep := by
  unfold State.steerAll
  simp

@[simp] theorem keep_State_stoppedCycle (s : State) (fresh : Bool) :
    (State.stoppedCycle s fresh).keep = s.keep := by
  unfold State.stoppedCycle
  simp

@[simp] theorem keep_State_resume (s : State) :
    (State.resume s).keep = s.keep := by
  unfold State.resume
  simp

end Sys2Proof.Machine
end

