-- ==== Sys2Proof/Laws/KeepTick.lean ====
section
/-!
SUPPORT. What no function of Machine/Tick.lean touches: the queue, the device's constants and the fuses.
-/

namespace Sys2Proof.Machine
open State

@[simp] theorem keep_State_followAll (s : State) :
    (State.followAll s).keep = s.keep := by
  unfold State.followAll
  simp

@[simp] theorem keep_State_flipIfDue (s : State) :
    (State.flipIfDue s).keep = s.keep := by
  unfold State.flipIfDue
  simp

@[simp] theorem keep_State_enterAll (s : State) : s.enterAll.keep = s.keep := by
  unfold State.enterAll
  refine keep_State_eachPicot _ _ (fun t p => ?_)
  refine (keep_foldl _ _ _ (fun u e => ?_)).trans (keep_State_setPicot ..)
  split
  · split
    · exact (keep_State_fillFlit ..).trans (keep_State_setPicot ..)
    · exact keep_State_pushFlit ..
  · exact keep_State_pushToken ..

@[simp] theorem keep_State_arriveAll (s : State) : s.arriveAll.keep = s.keep := by
  unfold State.arriveAll
  refine (keep_foldl _ _ _ (fun t d => keep_foldl _ _ _ (fun u b => ?_))).trans (by simp only [keep_mk, keep_eta])
  dsimp only
  refine keep_of_ite _ _ _ ?_ ?_
  · split <;> simp
  · refine (keep_State_tokenArrives ..).trans ?_
    split <;> simp

@[simp] theorem keep_State_hubTake (s : State) (h : HubFlit) :
    (State.hubTake s h).keep = s.keep := by
  unfold State.hubTake
  simp

@[simp] theorem keep_State_hubAll (s : State) :
    (State.hubAll s).keep = s.keep := by
  unfold State.hubAll
  simp

@[simp] theorem keep_State_commitAll (s : State) :
    (State.commitAll s).keep = s.keep := by
  unfold State.commitAll
  simp

@[simp] theorem keep_State_adaptInject (s : State) (port : Nat) :
    (State.adaptInject s port).keep = s.keep := by
  unfold State.adaptInject
  simp
  split <;> simp

@[simp] theorem keep_State_injectAll (s : State) :
    (State.injectAll s).keep = s.keep := by
  unfold State.injectAll
  simp

@[simp] theorem keep_State_gateIfDue (s : State) :
    (State.gateIfDue s).keep = s.keep := by
  unfold State.gateIfDue
  simp

@[simp] theorem keep_State_cxlIfDue (s : State) :
    (State.cxlIfDue s).keep = s.keep := by
  unfold State.cxlIfDue
  try dsimp only
  repeat' split
  all_goals first
    | (simp; done)
    | (try simp
       refine (keep_foldl _ _ _ (fun t x => ?_)).trans ?_
       · try dsimp only
         repeat' split
         all_goals simp
       · simp)

@[simp] theorem keep_State_timerCounters (s : State) :
    (State.timerCounters s).keep = s.keep := by
  unfold State.timerCounters
  simp

@[simp] theorem keep_State_waitCycle (s : State) (loc : At) :
    (State.waitCycle s loc).keep = s.keep := by
  unfold State.waitCycle
  try dsimp only
  split <;> simp

@[simp] theorem keep_State_waitAll (s : State) :
    (State.waitAll s).keep = s.keep := by
  unfold State.waitAll
  try dsimp only
  split <;> simp

@[simp] theorem keep_State_endBoot (s : State) :
    (State.endBoot s).keep = s.keep :=  by
  unfold State.endBoot
  simp

@[simp] theorem keep_State_nextCycle (s : State) :
    (State.nextCycle s).keep = s.keep := by
  unfold State.nextCycle
  simp

@[simp] theorem keep_State_arrayCycle (s : State) :
    (State.arrayCycle s).keep = s.keep := by
  unfold State.arrayCycle
  simp

@[simp] theorem keep_State_runOrStop (s : State) :
    (State.runOrStop s).keep = s.keep := by
  unfold State.runOrStop
  try dsimp only
  split <;> simp

@[simp] theorem keep_State_arrayEdge (s : State) :
    (State.arrayEdge s).keep = s.keep := by
  unfold State.arrayEdge
  simp

@[simp] theorem keep_State_bootCycle (s : State) :
    (State.bootCycle s).keep = s.keep :=  by
  unfold State.bootCycle
  simp

@[simp] theorem keep_State_arrayTick (s : State) (period : Nat) :
    (State.arrayTick s period).keep = s.keep :=  by
  unfold State.arrayTick
  simp

@[simp] theorem keep_State_refTick (s : State) :
    (State.refTick s).keep = s.keep :=  by
  unfold State.refTick
  try dsimp only
  split <;> simp

@[simp] theorem keep_State_tick (s : State) :
    (State.tick s).keep = s.keep := by
  unfold State.tick
  simp

end Sys2Proof.Machine
end

