-- ==== Sys2Proof/Laws/Lanes.lean ====
section
/-!
SUPPORT. Packed elements: what each element of a packed register reads, and what a loop over elements collects.
-/

namespace Sys2Proof.Machine

theorem packNat_lt (w : Nat) (cs : List Nat) : packNat w cs < 2 ^ (w * cs.length) := by
  induction cs with
  | nil => simp [packNat]
  | cons c cs ih =>
    have h1 : c % 2 ^ w < 2 ^ w := Nat.mod_lt _ (Nat.two_pow_pos w)
    have h2 : 2 ^ w * (packNat w cs + 1) ≤ 2 ^ w * 2 ^ (w * cs.length) := Nat.mul_le_mul_left _ ih
    have h3 : 2 ^ (w * (c :: cs).length) = 2 ^ w * 2 ^ (w * cs.length) := by
      rw [List.length_cons, Nat.mul_succ, Nat.add_comm, Nat.pow_add]
    rw [packNat, h3]
    rw [Nat.mul_add] at h2
    omega

/-- Element `e` of a packed list. -/
theorem packNat_get (w : Nat) (cs : List Nat) (e : Nat) (h : e < cs.length) :
    packNat w cs / 2 ^ (w * e) % 2 ^ w = cs[e] % 2 ^ w := by
  induction cs generalizing e with
  | nil => simp at h
  | cons c cs ih =>
    cases e with
    | zero => simp [packNat]
    | succ e =>
      have h1 : packNat w (c :: cs) / 2 ^ (w * (e + 1)) = packNat w cs / 2 ^ (w * e) := by
        rw [Nat.mul_succ, Nat.add_comm, Nat.pow_add, ← Nat.div_div_eq_div_mul, packNat,
          Nat.add_mul_div_left _ _ (Nat.two_pow_pos w), Nat.div_eq_of_lt (Nat.mod_lt _ (Nat.two_pow_pos w)), Nat.zero_add]
      rw [h1, ih e (by simpa using h)]
      rfl

/-- An element of a packed register (R147). -/
theorem elem_packReg (w : Nat) (cs : List Nat) (e : Nat) (h : e < cs.length) (hw : w * cs.length ≤ 2048) :
    elem w (packReg w cs) e = cs[e] % 2 ^ w := by
  have hb : packNat w cs < 2 ^ 2048 :=
    Nat.lt_of_lt_of_le (packNat_lt w cs) (Nat.pow_le_pow_right (by omega) hw)
  unfold elem packReg
  rw [BitVec.extractLsb'_toNat, BitVec.toNat_ofNat, Nat.mod_eq_of_lt hb, Nat.shiftRight_eq_div_pow]
  exact packNat_get w cs e h

theorem collect_fst (f : Nat → Nat × Ev) (n : Nat) : (collect f n).1 = (List.range n).map (fun e => (f e).1) := by
  unfold collect
  generalize List.range n = l
  induction l with
  | nil => rfl
  | cons x l ih => simp [ih]

/-- An element of a register that a loop over elements packs. -/
theorem elem_collect (w : Nat) (f : Nat → Nat × Ev) (n e : Nat) (h : e < n) (hw : w * n ≤ 2048) :
    elem w (packReg w (collect f n).1) e = (f e).1 % 2 ^ w := by
  rw [elem_packReg w _ e (by simp [collect_fst, h]) (by simpa [collect_fst] using hw)]
  simp [collect_fst]

end Sys2Proof.Machine
end

