-- ==== Sys2Proof/Laws/State.lean ====
section
/-!
SUPPORT. What each named update of the state leaves as it was, field by field, and what a register reads after a write.
-/

namespace Sys2Proof.Machine.State

variable (s : State)

@[simp] theorem wr_pending (k : Nat) (v : Word) : (s.wr k v).pending = s.pending := rfl
@[simp] theorem wr_b0 (k : Nat) (v : Word) : (s.wr k v).b0 = s.b0 := rfl
@[simp] theorem wr_latches (k : Nat) (v : Word) : (s.wr k v).latches = s.latches := rfl
@[simp] theorem wr_out (k : Nat) (v : Word) : (s.wr k v).out = s.out := rfl
@[simp] theorem wr_now (k : Nat) (v : Word) : (s.wr k v).now = s.now := rfl
@[simp] theorem wr_timeline (k : Nat) (v : Word) : (s.wr k v).timeline = s.timeline := rfl
@[simp] theorem wr_arr (k : Nat) (v : Word) : (s.wr k v).arr = s.arr := rfl
@[simp] theorem wr_img (k : Nat) (v : Word) : (s.wr k v).img = s.img := rfl
@[simp] theorem wr_hold (k : Nat) (v : Word) : (s.wr k v).hold = s.hold := rfl
@[simp] theorem wr_ing (k : Nat) (v : Word) : (s.wr k v).ing = s.ing := rfl
@[simp] theorem wr_trg (k : Nat) (v : Word) : (s.wr k v).trg = s.trg := rfl
@[simp] theorem wr_acq (k : Nat) (v : Word) : (s.wr k v).acq = s.acq := rfl
@[simp] theorem wr_subs (k : Nat) (v : Word) : (s.wr k v).subs = s.subs := rfl
@[simp] theorem wr_joins (k : Nat) (v : Word) : (s.wr k v).joins = s.joins := rfl
@[simp] theorem wr_launch (k : Nat) (v : Word) : (s.wr k v).launch = s.launch := rfl
@[simp] theorem wr_cal (k : Nat) (v : Word) : (s.wr k v).cal = s.cal := rfl
@[simp] theorem wr_adapt (k : Nat) (v : Word) : (s.wr k v).adapt = s.adapt := rfl
@[simp] theorem wr_time (k : Nat) (v : Word) : (s.wr k v).time = s.time := rfl
@[simp] theorem wr_hostq (k : Nat) (v : Word) : (s.wr k v).hostq = s.hostq := rfl
@[simp] theorem wr_counts (k : Nat) (v : Word) : (s.wr k v).counts = s.counts := rfl
@[simp] theorem wr_replay (k : Nat) (v : Word) : (s.wr k v).replay = s.replay := rfl
@[simp] theorem wr_sec (k : Nat) (v : Word) : (s.wr k v).sec = s.sec := rfl
@[simp] theorem wr_health (k : Nat) (v : Word) : (s.wr k v).health = s.health := rfl
@[simp] theorem wr_flash (k : Nat) (v : Word) : (s.wr k v).flash = s.flash := rfl
@[simp] theorem wr_boot (k : Nat) (v : Word) : (s.wr k v).boot = s.boot := rfl
@[simp] theorem wr_mem (k : Nat) (v : Word) : (s.wr k v).mem = s.mem := rfl
@[simp] theorem wr_ddrLog (k : Nat) (v : Word) : (s.wr k v).ddrLog = s.ddrLog := rfl
@[simp] theorem wr_peeks (k : Nat) (v : Word) : (s.wr k v).peeks = s.peeks := rfl
@[simp] theorem wr_fuse (k : Nat) (v : Word) : (s.wr k v).fuse = s.fuse := rfl
@[simp] theorem wr_repair (k : Nat) (v : Word) : (s.wr k v).repair = s.repair := rfl
@[simp] theorem wr_log (k : Nat) (v : Word) : (s.wr k v).log = s.log := rfl
@[simp] theorem wr_ueStop (k : Nat) (v : Word) : (s.wr k v).ueStop = s.ueStop := rfl
@[simp] theorem wr_rings (k : Nat) (v : Word) : (s.wr k v).rings = s.rings := rfl
@[simp] theorem wr_keyGen (k : Nat) (v : Word) : (s.wr k v).keyGen = s.keyGen := rfl
@[simp] theorem wr_freeCount (k : Nat) (v : Word) : (s.wr k v).freeCount = s.freeCount := rfl

@[simp] theorem wrF_pending (k lo n v : Nat) : (s.wrF k lo n v).pending = s.pending := rfl
@[simp] theorem wrF_b0 (k lo n v : Nat) : (s.wrF k lo n v).b0 = s.b0 := rfl
@[simp] theorem wrF_latches (k lo n v : Nat) : (s.wrF k lo n v).latches = s.latches := rfl
@[simp] theorem wrF_out (k lo n v : Nat) : (s.wrF k lo n v).out = s.out := rfl
@[simp] theorem wrF_now (k lo n v : Nat) : (s.wrF k lo n v).now = s.now := rfl
@[simp] theorem wrF_timeline (k lo n v : Nat) : (s.wrF k lo n v).timeline = s.timeline := rfl
@[simp] theorem wrF_arr (k lo n v : Nat) : (s.wrF k lo n v).arr = s.arr := rfl
@[simp] theorem wrF_img (k lo n v : Nat) : (s.wrF k lo n v).img = s.img := rfl
@[simp] theorem wrF_hold (k lo n v : Nat) : (s.wrF k lo n v).hold = s.hold := rfl
@[simp] theorem wrF_ing (k lo n v : Nat) : (s.wrF k lo n v).ing = s.ing := rfl
@[simp] theorem wrF_trg (k lo n v : Nat) : (s.wrF k lo n v).trg = s.trg := rfl
@[simp] theorem wrF_acq (k lo n v : Nat) : (s.wrF k lo n v).acq = s.acq := rfl
@[simp] theorem wrF_subs (k lo n v : Nat) : (s.wrF k lo n v).subs = s.subs := rfl
@[simp] theorem wrF_joins (k lo n v : Nat) : (s.wrF k lo n v).joins = s.joins := rfl
@[simp] theorem wrF_launch (k lo n v : Nat) : (s.wrF k lo n v).launch = s.launch := rfl
@[simp] theorem wrF_cal (k lo n v : Nat) : (s.wrF k lo n v).cal = s.cal := rfl
@[simp] theorem wrF_adapt (k lo n v : Nat) : (s.wrF k lo n v).adapt = s.adapt := rfl
@[simp] theorem wrF_time (k lo n v : Nat) : (s.wrF k lo n v).time = s.time := rfl
@[simp] theorem wrF_hostq (k lo n v : Nat) : (s.wrF k lo n v).hostq = s.hostq := rfl
@[simp] theorem wrF_counts (k lo n v : Nat) : (s.wrF k lo n v).counts = s.counts := rfl
@[simp] theorem wrF_replay (k lo n v : Nat) : (s.wrF k lo n v).replay = s.replay := rfl
@[simp] theorem wrF_sec (k lo n v : Nat) : (s.wrF k lo n v).sec = s.sec := rfl
@[simp] theorem wrF_health (k lo n v : Nat) : (s.wrF k lo n v).health = s.health := rfl
@[simp] theorem wrF_flash (k lo n v : Nat) : (s.wrF k lo n v).flash = s.flash := rfl
@[simp] theorem wrF_boot (k lo n v : Nat) : (s.wrF k lo n v).boot = s.boot := rfl
@[simp] theorem wrF_mem (k lo n v : Nat) : (s.wrF k lo n v).mem = s.mem := rfl
@[simp] theorem wrF_ddrLog (k lo n v : Nat) : (s.wrF k lo n v).ddrLog = s.ddrLog := rfl
@[simp] theorem wrF_peeks (k lo n v : Nat) : (s.wrF k lo n v).peeks = s.peeks := rfl
@[simp] theorem wrF_fuse (k lo n v : Nat) : (s.wrF k lo n v).fuse = s.fuse := rfl
@[simp] theorem wrF_repair (k lo n v : Nat) : (s.wrF k lo n v).repair = s.repair := rfl
@[simp] theorem wrF_log (k lo n v : Nat) : (s.wrF k lo n v).log = s.log := rfl
@[simp] theorem wrF_ueStop (k lo n v : Nat) : (s.wrF k lo n v).ueStop = s.ueStop := rfl
@[simp] theorem wrF_rings (k lo n v : Nat) : (s.wrF k lo n v).rings = s.rings := rfl
@[simp] theorem wrF_keyGen (k lo n v : Nat) : (s.wrF k lo n v).keyGen = s.keyGen := rfl
@[simp] theorem wrF_freeCount (k lo n v : Nat) : (s.wrF k lo n v).freeCount = s.freeCount := rfl

@[simp] theorem wrB_pending (k i : Nat) (b : Bool) : (s.wrB k i b).pending = s.pending := rfl
@[simp] theorem wrB_b0 (k i : Nat) (b : Bool) : (s.wrB k i b).b0 = s.b0 := rfl
@[simp] theorem wrB_latches (k i : Nat) (b : Bool) : (s.wrB k i b).latches = s.latches := rfl
@[simp] theorem wrB_out (k i : Nat) (b : Bool) : (s.wrB k i b).out = s.out := rfl
@[simp] theorem wrB_now (k i : Nat) (b : Bool) : (s.wrB k i b).now = s.now := rfl
@[simp] theorem wrB_timeline (k i : Nat) (b : Bool) : (s.wrB k i b).timeline = s.timeline := rfl
@[simp] theorem wrB_arr (k i : Nat) (b : Bool) : (s.wrB k i b).arr = s.arr := rfl
@[simp] theorem wrB_img (k i : Nat) (b : Bool) : (s.wrB k i b).img = s.img := rfl
@[simp] theorem wrB_hold (k i : Nat) (b : Bool) : (s.wrB k i b).hold = s.hold := rfl
@[simp] theorem wrB_ing (k i : Nat) (b : Bool) : (s.wrB k i b).ing = s.ing := rfl
@[simp] theorem wrB_trg (k i : Nat) (b : Bool) : (s.wrB k i b).trg = s.trg := rfl
@[simp] theorem wrB_acq (k i : Nat) (b : Bool) : (s.wrB k i b).acq = s.acq := rfl
@[simp] theorem wrB_subs (k i : Nat) (b : Bool) : (s.wrB k i b).subs = s.subs := rfl
@[simp] theorem wrB_joins (k i : Nat) (b : Bool) : (s.wrB k i b).joins = s.joins := rfl
@[simp] theorem wrB_launch (k i : Nat) (b : Bool) : (s.wrB k i b).launch = s.launch := rfl
@[simp] theorem wrB_cal (k i : Nat) (b : Bool) : (s.wrB k i b).cal = s.cal := rfl
@[simp] theorem wrB_adapt (k i : Nat) (b : Bool) : (s.wrB k i b).adapt = s.adapt := rfl
@[simp] theorem wrB_time (k i : Nat) (b : Bool) : (s.wrB k i b).time = s.time := rfl
@[simp] theorem wrB_hostq (k i : Nat) (b : Bool) : (s.wrB k i b).hostq = s.hostq := rfl
@[simp] theorem wrB_counts (k i : Nat) (b : Bool) : (s.wrB k i b).counts = s.counts := rfl
@[simp] theorem wrB_replay (k i : Nat) (b : Bool) : (s.wrB k i b).replay = s.replay := rfl
@[simp] theorem wrB_sec (k i : Nat) (b : Bool) : (s.wrB k i b).sec = s.sec := rfl
@[simp] theorem wrB_health (k i : Nat) (b : Bool) : (s.wrB k i b).health = s.health := rfl
@[simp] theorem wrB_flash (k i : Nat) (b : Bool) : (s.wrB k i b).flash = s.flash := rfl
@[simp] theorem wrB_boot (k i : Nat) (b : Bool) : (s.wrB k i b).boot = s.boot := rfl
@[simp] theorem wrB_mem (k i : Nat) (b : Bool) : (s.wrB k i b).mem = s.mem := rfl
@[simp] theorem wrB_ddrLog (k i : Nat) (b : Bool) : (s.wrB k i b).ddrLog = s.ddrLog := rfl
@[simp] theorem wrB_peeks (k i : Nat) (b : Bool) : (s.wrB k i b).peeks = s.peeks := rfl
@[simp] theorem wrB_fuse (k i : Nat) (b : Bool) : (s.wrB k i b).fuse = s.fuse := rfl
@[simp] theorem wrB_repair (k i : Nat) (b : Bool) : (s.wrB k i b).repair = s.repair := rfl
@[simp] theorem wrB_log (k i : Nat) (b : Bool) : (s.wrB k i b).log = s.log := rfl
@[simp] theorem wrB_ueStop (k i : Nat) (b : Bool) : (s.wrB k i b).ueStop = s.ueStop := rfl
@[simp] theorem wrB_rings (k i : Nat) (b : Bool) : (s.wrB k i b).rings = s.rings := rfl
@[simp] theorem wrB_keyGen (k i : Nat) (b : Bool) : (s.wrB k i b).keyGen = s.keyGen := rfl
@[simp] theorem wrB_freeCount (k i : Nat) (b : Bool) : (s.wrB k i b).freeCount = s.freeCount := rfl

@[simp] theorem wr64_pending (k : Nat) (v : DWord) : (s.wr64 k v).pending = s.pending := rfl
@[simp] theorem wr64_b0 (k : Nat) (v : DWord) : (s.wr64 k v).b0 = s.b0 := rfl
@[simp] theorem wr64_latches (k : Nat) (v : DWord) : (s.wr64 k v).latches = s.latches := rfl
@[simp] theorem wr64_out (k : Nat) (v : DWord) : (s.wr64 k v).out = s.out := rfl
@[simp] theorem wr64_now (k : Nat) (v : DWord) : (s.wr64 k v).now = s.now := rfl
@[simp] theorem wr64_timeline (k : Nat) (v : DWord) : (s.wr64 k v).timeline = s.timeline := rfl
@[simp] theorem wr64_arr (k : Nat) (v : DWord) : (s.wr64 k v).arr = s.arr := rfl
@[simp] theorem wr64_img (k : Nat) (v : DWord) : (s.wr64 k v).img = s.img := rfl
@[simp] theorem wr64_hold (k : Nat) (v : DWord) : (s.wr64 k v).hold = s.hold := rfl
@[simp] theorem wr64_ing (k : Nat) (v : DWord) : (s.wr64 k v).ing = s.ing := rfl
@[simp] theorem wr64_trg (k : Nat) (v : DWord) : (s.wr64 k v).trg = s.trg := rfl
@[simp] theorem wr64_acq (k : Nat) (v : DWord) : (s.wr64 k v).acq = s.acq := rfl
@[simp] theorem wr64_subs (k : Nat) (v : DWord) : (s.wr64 k v).subs = s.subs := rfl
@[simp] theorem wr64_joins (k : Nat) (v : DWord) : (s.wr64 k v).joins = s.joins := rfl
@[simp] theorem wr64_launch (k : Nat) (v : DWord) : (s.wr64 k v).launch = s.launch := rfl
@[simp] theorem wr64_cal (k : Nat) (v : DWord) : (s.wr64 k v).cal = s.cal := rfl
@[simp] theorem wr64_adapt (k : Nat) (v : DWord) : (s.wr64 k v).adapt = s.adapt := rfl
@[simp] theorem wr64_time (k : Nat) (v : DWord) : (s.wr64 k v).time = s.time := rfl
@[simp] theorem wr64_hostq (k : Nat) (v : DWord) : (s.wr64 k v).hostq = s.hostq := rfl
@[simp] theorem wr64_counts (k : Nat) (v : DWord) : (s.wr64 k v).counts = s.counts := rfl
@[simp] theorem wr64_replay (k : Nat) (v : DWord) : (s.wr64 k v).replay = s.replay := rfl
@[simp] theorem wr64_sec (k : Nat) (v : DWord) : (s.wr64 k v).sec = s.sec := rfl
@[simp] theorem wr64_health (k : Nat) (v : DWord) : (s.wr64 k v).health = s.health := rfl
@[simp] theorem wr64_flash (k : Nat) (v : DWord) : (s.wr64 k v).flash = s.flash := rfl
@[simp] theorem wr64_boot (k : Nat) (v : DWord) : (s.wr64 k v).boot = s.boot := rfl
@[simp] theorem wr64_mem (k : Nat) (v : DWord) : (s.wr64 k v).mem = s.mem := rfl
@[simp] theorem wr64_ddrLog (k : Nat) (v : DWord) : (s.wr64 k v).ddrLog = s.ddrLog := rfl
@[simp] theorem wr64_peeks (k : Nat) (v : DWord) : (s.wr64 k v).peeks = s.peeks := rfl
@[simp] theorem wr64_fuse (k : Nat) (v : DWord) : (s.wr64 k v).fuse = s.fuse := rfl
@[simp] theorem wr64_repair (k : Nat) (v : DWord) : (s.wr64 k v).repair = s.repair := rfl
@[simp] theorem wr64_log (k : Nat) (v : DWord) : (s.wr64 k v).log = s.log := rfl
@[simp] theorem wr64_ueStop (k : Nat) (v : DWord) : (s.wr64 k v).ueStop = s.ueStop := rfl
@[simp] theorem wr64_rings (k : Nat) (v : DWord) : (s.wr64 k v).rings = s.rings := rfl
@[simp] theorem wr64_keyGen (k : Nat) (v : DWord) : (s.wr64 k v).keyGen = s.keyGen := rfl
@[simp] theorem wr64_freeCount (k : Nat) (v : DWord) : (s.wr64 k v).freeCount = s.freeCount := rfl

@[simp] theorem count_pending (k n : Nat) : (s.count k n).pending = s.pending := rfl
@[simp] theorem count_b0 (k n : Nat) : (s.count k n).b0 = s.b0 := rfl
@[simp] theorem count_latches (k n : Nat) : (s.count k n).latches = s.latches := rfl
@[simp] theorem count_out (k n : Nat) : (s.count k n).out = s.out := rfl
@[simp] theorem count_now (k n : Nat) : (s.count k n).now = s.now := rfl
@[simp] theorem count_timeline (k n : Nat) : (s.count k n).timeline = s.timeline := rfl
@[simp] theorem count_arr (k n : Nat) : (s.count k n).arr = s.arr := rfl
@[simp] theorem count_img (k n : Nat) : (s.count k n).img = s.img := rfl
@[simp] theorem count_hold (k n : Nat) : (s.count k n).hold = s.hold := rfl
@[simp] theorem count_ing (k n : Nat) : (s.count k n).ing = s.ing := rfl
@[simp] theorem count_trg (k n : Nat) : (s.count k n).trg = s.trg := rfl
@[simp] theorem count_acq (k n : Nat) : (s.count k n).acq = s.acq := rfl
@[simp] theorem count_subs (k n : Nat) : (s.count k n).subs = s.subs := rfl
@[simp] theorem count_joins (k n : Nat) : (s.count k n).joins = s.joins := rfl
@[simp] theorem count_launch (k n : Nat) : (s.count k n).launch = s.launch := rfl
@[simp] theorem count_cal (k n : Nat) : (s.count k n).cal = s.cal := rfl
@[simp] theorem count_adapt (k n : Nat) : (s.count k n).adapt = s.adapt := rfl
@[simp] theorem count_time (k n : Nat) : (s.count k n).time = s.time := rfl
@[simp] theorem count_hostq (k n : Nat) : (s.count k n).hostq = s.hostq := rfl
@[simp] theorem count_counts (k n : Nat) : (s.count k n).counts = s.counts := rfl
@[simp] theorem count_replay (k n : Nat) : (s.count k n).replay = s.replay := rfl
@[simp] theorem count_sec (k n : Nat) : (s.count k n).sec = s.sec := rfl
@[simp] theorem count_health (k n : Nat) : (s.count k n).health = s.health := rfl
@[simp] theorem count_flash (k n : Nat) : (s.count k n).flash = s.flash := rfl
@[simp] theorem count_boot (k n : Nat) : (s.count k n).boot = s.boot := rfl
@[simp] theorem count_mem (k n : Nat) : (s.count k n).mem = s.mem := rfl
@[simp] theorem count_ddrLog (k n : Nat) : (s.count k n).ddrLog = s.ddrLog := rfl
@[simp] theorem count_peeks (k n : Nat) : (s.count k n).peeks = s.peeks := rfl
@[simp] theorem count_fuse (k n : Nat) : (s.count k n).fuse = s.fuse := rfl
@[simp] theorem count_repair (k n : Nat) : (s.count k n).repair = s.repair := rfl
@[simp] theorem count_log (k n : Nat) : (s.count k n).log = s.log := rfl
@[simp] theorem count_ueStop (k n : Nat) : (s.count k n).ueStop = s.ueStop := rfl
@[simp] theorem count_rings (k n : Nat) : (s.count k n).rings = s.rings := rfl
@[simp] theorem count_keyGen (k n : Nat) : (s.count k n).keyGen = s.keyGen := rfl
@[simp] theorem count_freeCount (k n : Nat) : (s.count k n).freeCount = s.freeCount := rfl

@[simp] theorem count64_pending (k n : Nat) : (s.count64 k n).pending = s.pending := rfl
@[simp] theorem count64_b0 (k n : Nat) : (s.count64 k n).b0 = s.b0 := rfl
@[simp] theorem count64_latches (k n : Nat) : (s.count64 k n).latches = s.latches := rfl
@[simp] theorem count64_out (k n : Nat) : (s.count64 k n).out = s.out := rfl
@[simp] theorem count64_now (k n : Nat) : (s.count64 k n).now = s.now := rfl
@[simp] theorem count64_timeline (k n : Nat) : (s.count64 k n).timeline = s.timeline := rfl
@[simp] theorem count64_arr (k n : Nat) : (s.count64 k n).arr = s.arr := rfl
@[simp] theorem count64_img (k n : Nat) : (s.count64 k n).img = s.img := rfl
@[simp] theorem count64_hold (k n : Nat) : (s.count64 k n).hold = s.hold := rfl
@[simp] theorem count64_ing (k n : Nat) : (s.count64 k n).ing = s.ing := rfl
@[simp] theorem count64_trg (k n : Nat) : (s.count64 k n).trg = s.trg := rfl
@[simp] theorem count64_acq (k n : Nat) : (s.count64 k n).acq = s.acq := rfl
@[simp] theorem count64_subs (k n : Nat) : (s.count64 k n).subs = s.subs := rfl
@[simp] theorem count64_joins (k n : Nat) : (s.count64 k n).joins = s.joins := rfl
@[simp] theorem count64_launch (k n : Nat) : (s.count64 k n).launch = s.launch := rfl
@[simp] theorem count64_cal (k n : Nat) : (s.count64 k n).cal = s.cal := rfl
@[simp] theorem count64_adapt (k n : Nat) : (s.count64 k n).adapt = s.adapt := rfl
@[simp] theorem count64_time (k n : Nat) : (s.count64 k n).time = s.time := rfl
@[simp] theorem count64_hostq (k n : Nat) : (s.count64 k n).hostq = s.hostq := rfl
@[simp] theorem count64_counts (k n : Nat) : (s.count64 k n).counts = s.counts := rfl
@[simp] theorem count64_replay (k n : Nat) : (s.count64 k n).replay = s.replay := rfl
@[simp] theorem count64_sec (k n : Nat) : (s.count64 k n).sec = s.sec := rfl
@[simp] theorem count64_health (k n : Nat) : (s.count64 k n).health = s.health := rfl
@[simp] theorem count64_flash (k n : Nat) : (s.count64 k n).flash = s.flash := rfl
@[simp] theorem count64_boot (k n : Nat) : (s.count64 k n).boot = s.boot := rfl
@[simp] theorem count64_mem (k n : Nat) : (s.count64 k n).mem = s.mem := rfl
@[simp] theorem count64_ddrLog (k n : Nat) : (s.count64 k n).ddrLog = s.ddrLog := rfl
@[simp] theorem count64_peeks (k n : Nat) : (s.count64 k n).peeks = s.peeks := rfl
@[simp] theorem count64_fuse (k n : Nat) : (s.count64 k n).fuse = s.fuse := rfl
@[simp] theorem count64_repair (k n : Nat) : (s.count64 k n).repair = s.repair := rfl
@[simp] theorem count64_log (k n : Nat) : (s.count64 k n).log = s.log := rfl
@[simp] theorem count64_ueStop (k n : Nat) : (s.count64 k n).ueStop = s.ueStop := rfl
@[simp] theorem count64_rings (k n : Nat) : (s.count64 k n).rings = s.rings := rfl
@[simp] theorem count64_keyGen (k n : Nat) : (s.count64 k n).keyGen = s.keyGen := rfl
@[simp] theorem count64_freeCount (k n : Nat) : (s.count64 k n).freeCount = s.freeCount := rfl

@[simp] theorem countF_pending (k lo n c : Nat) : (s.countF k lo n c).pending = s.pending := rfl
@[simp] theorem countF_b0 (k lo n c : Nat) : (s.countF k lo n c).b0 = s.b0 := rfl
@[simp] theorem countF_latches (k lo n c : Nat) : (s.countF k lo n c).latches = s.latches := rfl
@[simp] theorem countF_out (k lo n c : Nat) : (s.countF k lo n c).out = s.out := rfl
@[simp] theorem countF_now (k lo n c : Nat) : (s.countF k lo n c).now = s.now := rfl
@[simp] theorem countF_timeline (k lo n c : Nat) : (s.countF k lo n c).timeline = s.timeline := rfl
@[simp] theorem countF_arr (k lo n c : Nat) : (s.countF k lo n c).arr = s.arr := rfl
@[simp] theorem countF_img (k lo n c : Nat) : (s.countF k lo n c).img = s.img := rfl
@[simp] theorem countF_hold (k lo n c : Nat) : (s.countF k lo n c).hold = s.hold := rfl
@[simp] theorem countF_ing (k lo n c : Nat) : (s.countF k lo n c).ing = s.ing := rfl
@[simp] theorem countF_trg (k lo n c : Nat) : (s.countF k lo n c).trg = s.trg := rfl
@[simp] theorem countF_acq (k lo n c : Nat) : (s.countF k lo n c).acq = s.acq := rfl
@[simp] theorem countF_subs (k lo n c : Nat) : (s.countF k lo n c).subs = s.subs := rfl
@[simp] theorem countF_joins (k lo n c : Nat) : (s.countF k lo n c).joins = s.joins := rfl
@[simp] theorem countF_launch (k lo n c : Nat) : (s.countF k lo n c).launch = s.launch := rfl
@[simp] theorem countF_cal (k lo n c : Nat) : (s.countF k lo n c).cal = s.cal := rfl
@[simp] theorem countF_adapt (k lo n c : Nat) : (s.countF k lo n c).adapt = s.adapt := rfl
@[simp] theorem countF_time (k lo n c : Nat) : (s.countF k lo n c).time = s.time := rfl
@[simp] theorem countF_hostq (k lo n c : Nat) : (s.countF k lo n c).hostq = s.hostq := rfl
@[simp] theorem countF_counts (k lo n c : Nat) : (s.countF k lo n c).counts = s.counts := rfl
@[simp] theorem countF_replay (k lo n c : Nat) : (s.countF k lo n c).replay = s.replay := rfl
@[simp] theorem countF_sec (k lo n c : Nat) : (s.countF k lo n c).sec = s.sec := rfl
@[simp] theorem countF_health (k lo n c : Nat) : (s.countF k lo n c).health = s.health := rfl
@[simp] theorem countF_flash (k lo n c : Nat) : (s.countF k lo n c).flash = s.flash := rfl
@[simp] theorem countF_boot (k lo n c : Nat) : (s.countF k lo n c).boot = s.boot := rfl
@[simp] theorem countF_mem (k lo n c : Nat) : (s.countF k lo n c).mem = s.mem := rfl
@[simp] theorem countF_ddrLog (k lo n c : Nat) : (s.countF k lo n c).ddrLog = s.ddrLog := rfl
@[simp] theorem countF_peeks (k lo n c : Nat) : (s.countF k lo n c).peeks = s.peeks := rfl
@[simp] theorem countF_fuse (k lo n c : Nat) : (s.countF k lo n c).fuse = s.fuse := rfl
@[simp] theorem countF_repair (k lo n c : Nat) : (s.countF k lo n c).repair = s.repair := rfl
@[simp] theorem countF_log (k lo n c : Nat) : (s.countF k lo n c).log = s.log := rfl
@[simp] theorem countF_ueStop (k lo n c : Nat) : (s.countF k lo n c).ueStop = s.ueStop := rfl
@[simp] theorem countF_rings (k lo n c : Nat) : (s.countF k lo n c).rings = s.rings := rfl
@[simp] theorem countF_keyGen (k lo n c : Nat) : (s.countF k lo n c).keyGen = s.keyGen := rfl
@[simp] theorem countF_freeCount (k lo n c : Nat) : (s.countF k lo n c).freeCount = s.freeCount := rfl

@[simp] theorem setCtx_pending (n : Nat) : (s.setCtx n).pending = s.pending := rfl
@[simp] theorem setCtx_b0 (n : Nat) : (s.setCtx n).b0 = s.b0 := rfl
@[simp] theorem setCtx_latches (n : Nat) : (s.setCtx n).latches = s.latches := rfl
@[simp] theorem setCtx_out (n : Nat) : (s.setCtx n).out = s.out := rfl
@[simp] theorem setCtx_now (n : Nat) : (s.setCtx n).now = s.now := rfl
@[simp] theorem setCtx_timeline (n : Nat) : (s.setCtx n).timeline = s.timeline := rfl
@[simp] theorem setCtx_arr (n : Nat) : (s.setCtx n).arr = s.arr := rfl
@[simp] theorem setCtx_img (n : Nat) : (s.setCtx n).img = s.img := rfl
@[simp] theorem setCtx_hold (n : Nat) : (s.setCtx n).hold = s.hold := rfl
@[simp] theorem setCtx_ing (n : Nat) : (s.setCtx n).ing = s.ing := rfl
@[simp] theorem setCtx_trg (n : Nat) : (s.setCtx n).trg = s.trg := rfl
@[simp] theorem setCtx_acq (n : Nat) : (s.setCtx n).acq = s.acq := rfl
@[simp] theorem setCtx_subs (n : Nat) : (s.setCtx n).subs = s.subs := rfl
@[simp] theorem setCtx_joins (n : Nat) : (s.setCtx n).joins = s.joins := rfl
@[simp] theorem setCtx_launch (n : Nat) : (s.setCtx n).launch = s.launch := rfl
@[simp] theorem setCtx_cal (n : Nat) : (s.setCtx n).cal = s.cal := rfl
@[simp] theorem setCtx_adapt (n : Nat) : (s.setCtx n).adapt = s.adapt := rfl
@[simp] theorem setCtx_time (n : Nat) : (s.setCtx n).time = s.time := rfl
@[simp] theorem setCtx_hostq (n : Nat) : (s.setCtx n).hostq = s.hostq := rfl
@[simp] theorem setCtx_counts (n : Nat) : (s.setCtx n).counts = s.counts := rfl
@[simp] theorem setCtx_replay (n : Nat) : (s.setCtx n).replay = s.replay := rfl
@[simp] theorem setCtx_sec (n : Nat) : (s.setCtx n).sec = s.sec := rfl
@[simp] theorem setCtx_health (n : Nat) : (s.setCtx n).health = s.health := rfl
@[simp] theorem setCtx_flash (n : Nat) : (s.setCtx n).flash = s.flash := rfl
@[simp] theorem setCtx_boot (n : Nat) : (s.setCtx n).boot = s.boot := rfl
@[simp] theorem setCtx_mem (n : Nat) : (s.setCtx n).mem = s.mem := rfl
@[simp] theorem setCtx_ddrLog (n : Nat) : (s.setCtx n).ddrLog = s.ddrLog := rfl
@[simp] theorem setCtx_peeks (n : Nat) : (s.setCtx n).peeks = s.peeks := rfl
@[simp] theorem setCtx_fuse (n : Nat) : (s.setCtx n).fuse = s.fuse := rfl
@[simp] theorem setCtx_repair (n : Nat) : (s.setCtx n).repair = s.repair := rfl
@[simp] theorem setCtx_log (n : Nat) : (s.setCtx n).log = s.log := rfl
@[simp] theorem setCtx_ueStop (n : Nat) : (s.setCtx n).ueStop = s.ueStop := rfl
@[simp] theorem setCtx_rings (n : Nat) : (s.setCtx n).rings = s.rings := rfl
@[simp] theorem setCtx_keyGen (n : Nat) : (s.setCtx n).keyGen = s.keyGen := rfl
@[simp] theorem setCtx_freeCount (n : Nat) : (s.setCtx n).freeCount = s.freeCount := rfl

@[simp] theorem setAryState_pending (n : Nat) : (s.setAryState n).pending = s.pending := rfl
@[simp] theorem setAryState_b0 (n : Nat) : (s.setAryState n).b0 = s.b0 := rfl
@[simp] theorem setAryState_latches (n : Nat) : (s.setAryState n).latches = s.latches := rfl
@[simp] theorem setAryState_out (n : Nat) : (s.setAryState n).out = s.out := rfl
@[simp] theorem setAryState_now (n : Nat) : (s.setAryState n).now = s.now := rfl
@[simp] theorem setAryState_timeline (n : Nat) : (s.setAryState n).timeline = s.timeline := rfl
@[simp] theorem setAryState_arr (n : Nat) : (s.setAryState n).arr = s.arr := rfl
@[simp] theorem setAryState_img (n : Nat) : (s.setAryState n).img = s.img := rfl
@[simp] theorem setAryState_hold (n : Nat) : (s.setAryState n).hold = s.hold := rfl
@[simp] theorem setAryState_ing (n : Nat) : (s.setAryState n).ing = s.ing := rfl
@[simp] theorem setAryState_trg (n : Nat) : (s.setAryState n).trg = s.trg := rfl
@[simp] theorem setAryState_acq (n : Nat) : (s.setAryState n).acq = s.acq := rfl
@[simp] theorem setAryState_subs (n : Nat) : (s.setAryState n).subs = s.subs := rfl
@[simp] theorem setAryState_joins (n : Nat) : (s.setAryState n).joins = s.joins := rfl
@[simp] theorem setAryState_launch (n : Nat) : (s.setAryState n).launch = s.launch := rfl
@[simp] theorem setAryState_cal (n : Nat) : (s.setAryState n).cal = s.cal := rfl
@[simp] theorem setAryState_adapt (n : Nat) : (s.setAryState n).adapt = s.adapt := rfl
@[simp] theorem setAryState_time (n : Nat) : (s.setAryState n).time = s.time := rfl
@[simp] theorem setAryState_hostq (n : Nat) : (s.setAryState n).hostq = s.hostq := rfl
@[simp] theorem setAryState_counts (n : Nat) : (s.setAryState n).counts = s.counts := rfl
@[simp] theorem setAryState_replay (n : Nat) : (s.setAryState n).replay = s.replay := rfl
@[simp] theorem setAryState_sec (n : Nat) : (s.setAryState n).sec = s.sec := rfl
@[simp] theorem setAryState_health (n : Nat) : (s.setAryState n).health = s.health := rfl
@[simp] theorem setAryState_flash (n : Nat) : (s.setAryState n).flash = s.flash := rfl
@[simp] theorem setAryState_boot (n : Nat) : (s.setAryState n).boot = s.boot := rfl
@[simp] theorem setAryState_mem (n : Nat) : (s.setAryState n).mem = s.mem := rfl
@[simp] theorem setAryState_ddrLog (n : Nat) : (s.setAryState n).ddrLog = s.ddrLog := rfl
@[simp] theorem setAryState_peeks (n : Nat) : (s.setAryState n).peeks = s.peeks := rfl
@[simp] theorem setAryState_fuse (n : Nat) : (s.setAryState n).fuse = s.fuse := rfl
@[simp] theorem setAryState_repair (n : Nat) : (s.setAryState n).repair = s.repair := rfl
@[simp] theorem setAryState_log (n : Nat) : (s.setAryState n).log = s.log := rfl
@[simp] theorem setAryState_ueStop (n : Nat) : (s.setAryState n).ueStop = s.ueStop := rfl
@[simp] theorem setAryState_rings (n : Nat) : (s.setAryState n).rings = s.rings := rfl
@[simp] theorem setAryState_keyGen (n : Nat) : (s.setAryState n).keyGen = s.keyGen := rfl
@[simp] theorem setAryState_freeCount (n : Nat) : (s.setAryState n).freeCount = s.freeCount := rfl

@[simp] theorem emit_pending (o : Out) : (s.emit o).pending = s.pending := rfl
@[simp] theorem emit_b0 (o : Out) : (s.emit o).b0 = s.b0 := rfl
@[simp] theorem emit_regs (o : Out) : (s.emit o).regs = s.regs := rfl
@[simp] theorem emit_latches (o : Out) : (s.emit o).latches = s.latches := rfl
@[simp] theorem emit_now (o : Out) : (s.emit o).now = s.now := rfl
@[simp] theorem emit_timeline (o : Out) : (s.emit o).timeline = s.timeline := rfl
@[simp] theorem emit_arr (o : Out) : (s.emit o).arr = s.arr := rfl
@[simp] theorem emit_img (o : Out) : (s.emit o).img = s.img := rfl
@[simp] theorem emit_hold (o : Out) : (s.emit o).hold = s.hold := rfl
@[simp] theorem emit_ing (o : Out) : (s.emit o).ing = s.ing := rfl
@[simp] theorem emit_trg (o : Out) : (s.emit o).trg = s.trg := rfl
@[simp] theorem emit_acq (o : Out) : (s.emit o).acq = s.acq := rfl
@[simp] theorem emit_subs (o : Out) : (s.emit o).subs = s.subs := rfl
@[simp] theorem emit_joins (o : Out) : (s.emit o).joins = s.joins := rfl
@[simp] theorem emit_launch (o : Out) : (s.emit o).launch = s.launch := rfl
@[simp] theorem emit_cal (o : Out) : (s.emit o).cal = s.cal := rfl
@[simp] theorem emit_adapt (o : Out) : (s.emit o).adapt = s.adapt := rfl
@[simp] theorem emit_time (o : Out) : (s.emit o).time = s.time := rfl
@[simp] theorem emit_hostq (o : Out) : (s.emit o).hostq = s.hostq := rfl
@[simp] theorem emit_counts (o : Out) : (s.emit o).counts = s.counts := rfl
@[simp] theorem emit_replay (o : Out) : (s.emit o).replay = s.replay := rfl
@[simp] theorem emit_sec (o : Out) : (s.emit o).sec = s.sec := rfl
@[simp] theorem emit_health (o : Out) : (s.emit o).health = s.health := rfl
@[simp] theorem emit_flash (o : Out) : (s.emit o).flash = s.flash := rfl
@[simp] theorem emit_boot (o : Out) : (s.emit o).boot = s.boot := rfl
@[simp] theorem emit_mem (o : Out) : (s.emit o).mem = s.mem := rfl
@[simp] theorem emit_ddrLog (o : Out) : (s.emit o).ddrLog = s.ddrLog := rfl
@[simp] theorem emit_peeks (o : Out) : (s.emit o).peeks = s.peeks := rfl
@[simp] theorem emit_fuse (o : Out) : (s.emit o).fuse = s.fuse := rfl
@[simp] theorem emit_repair (o : Out) : (s.emit o).repair = s.repair := rfl
@[simp] theorem emit_log (o : Out) : (s.emit o).log = s.log := rfl
@[simp] theorem emit_ueStop (o : Out) : (s.emit o).ueStop = s.ueStop := rfl
@[simp] theorem emit_rings (o : Out) : (s.emit o).rings = s.rings := rfl
@[simp] theorem emit_keyGen (o : Out) : (s.emit o).keyGen = s.keyGen := rfl
@[simp] theorem emit_freeCount (o : Out) : (s.emit o).freeCount = s.freeCount := rfl

@[simp] theorem raise_pending (v : BitVec 6) : (s.raise v).pending = s.pending := by unfold raise; split <;> rfl
@[simp] theorem raise_b0 (v : BitVec 6) : (s.raise v).b0 = s.b0 := by unfold raise; split <;> rfl
@[simp] theorem raise_latches (v : BitVec 6) : (s.raise v).latches = s.latches := by unfold raise; split <;> rfl
@[simp] theorem raise_now (v : BitVec 6) : (s.raise v).now = s.now := by unfold raise; split <;> rfl
@[simp] theorem raise_timeline (v : BitVec 6) : (s.raise v).timeline = s.timeline := by unfold raise; split <;> rfl
@[simp] theorem raise_arr (v : BitVec 6) : (s.raise v).arr = s.arr := by unfold raise; split <;> rfl
@[simp] theorem raise_img (v : BitVec 6) : (s.raise v).img = s.img := by unfold raise; split <;> rfl
@[simp] theorem raise_hold (v : BitVec 6) : (s.raise v).hold = s.hold := by unfold raise; split <;> rfl
@[simp] theorem raise_ing (v : BitVec 6) : (s.raise v).ing = s.ing := by unfold raise; split <;> rfl
@[simp] theorem raise_trg (v : BitVec 6) : (s.raise v).trg = s.trg := by unfold raise; split <;> rfl
@[simp] theorem raise_acq (v : BitVec 6) : (s.raise v).acq = s.acq := by unfold raise; split <;> rfl
@[simp] theorem raise_subs (v : BitVec 6) : (s.raise v).subs = s.subs := by unfold raise; split <;> rfl
@[simp] theorem raise_joins (v : BitVec 6) : (s.raise v).joins = s.joins := by unfold raise; split <;> rfl
@[simp] theorem raise_launch (v : BitVec 6) : (s.raise v).launch = s.launch := by unfold raise; split <;> rfl
@[simp] theorem raise_cal (v : BitVec 6) : (s.raise v).cal = s.cal := by unfold raise; split <;> rfl
@[simp] theorem raise_adapt (v : BitVec 6) : (s.raise v).adapt = s.adapt := by unfold raise; split <;> rfl
@[simp] theorem raise_time (v : BitVec 6) : (s.raise v).time = s.time := by unfold raise; split <;> rfl
@[simp] theorem raise_hostq (v : BitVec 6) : (s.raise v).hostq = s.hostq := by unfold raise; split <;> rfl
@[simp] theorem raise_counts (v : BitVec 6) : (s.raise v).counts = s.counts := by unfold raise; split <;> rfl
@[simp] theorem raise_replay (v : BitVec 6) : (s.raise v).replay = s.replay := by unfold raise; split <;> rfl
@[simp] theorem raise_sec (v : BitVec 6) : (s.raise v).sec = s.sec := by unfold raise; split <;> rfl
@[simp] theorem raise_health (v : BitVec 6) : (s.raise v).health = s.health := by unfold raise; split <;> rfl
@[simp] theorem raise_flash (v : BitVec 6) : (s.raise v).flash = s.flash := by unfold raise; split <;> rfl
@[simp] theorem raise_boot (v : BitVec 6) : (s.raise v).boot = s.boot := by unfold raise; split <;> rfl
@[simp] theorem raise_mem (v : BitVec 6) : (s.raise v).mem = s.mem := by unfold raise; split <;> rfl
@[simp] theorem raise_ddrLog (v : BitVec 6) : (s.raise v).ddrLog = s.ddrLog := by unfold raise; split <;> rfl
@[simp] theorem raise_peeks (v : BitVec 6) : (s.raise v).peeks = s.peeks := by unfold raise; split <;> rfl
@[simp] theorem raise_fuse (v : BitVec 6) : (s.raise v).fuse = s.fuse := by unfold raise; split <;> rfl
@[simp] theorem raise_repair (v : BitVec 6) : (s.raise v).repair = s.repair := by unfold raise; split <;> rfl
@[simp] theorem raise_log (v : BitVec 6) : (s.raise v).log = s.log := by unfold raise; split <;> rfl
@[simp] theorem raise_ueStop (v : BitVec 6) : (s.raise v).ueStop = s.ueStop := by unfold raise; split <;> rfl
@[simp] theorem raise_rings (v : BitVec 6) : (s.raise v).rings = s.rings := by unfold raise; split <;> rfl
@[simp] theorem raise_keyGen (v : BitVec 6) : (s.raise v).keyGen = s.keyGen := by unfold raise; split <;> rfl
@[simp] theorem raise_freeCount (v : BitVec 6) : (s.raise v).freeCount = s.freeCount := by unfold raise; split <;> rfl

@[simp] theorem irq_pending (src : Nat) : (s.irq src).pending = s.pending := by unfold irq; dsimp only; split <;> simp
@[simp] theorem irq_b0 (src : Nat) : (s.irq src).b0 = s.b0 := by unfold irq; dsimp only; split <;> simp
@[simp] theorem irq_latches (src : Nat) : (s.irq src).latches = s.latches := by unfold irq; dsimp only; split <;> simp
@[simp] theorem irq_now (src : Nat) : (s.irq src).now = s.now := by unfold irq; dsimp only; split <;> simp
@[simp] theorem irq_timeline (src : Nat) : (s.irq src).timeline = s.timeline := by unfold irq; dsimp only; split <;> simp
@[simp] theorem irq_arr (src : Nat) : (s.irq src).arr = s.arr := by unfold irq; dsimp only; split <;> simp
@[simp] theorem irq_img (src : Nat) : (s.irq src).img = s.img := by unfold irq; dsimp only; split <;> simp
@[simp] theorem irq_hold (src : Nat) : (s.irq src).hold = s.hold := by unfold irq; dsimp only; split <;> simp
@[simp] theorem irq_ing (src : Nat) : (s.irq src).ing = s.ing := by unfold irq; dsimp only; split <;> simp
@[simp] theorem irq_trg (src : Nat) : (s.irq src).trg = s.trg := by unfold irq; dsimp only; split <;> simp
@[simp] theorem irq_acq (src : Nat) : (s.irq src).acq = s.acq := by unfold irq; dsimp only; split <;> simp
@[simp] theorem irq_subs (src : Nat) : (s.irq src).subs = s.subs := by unfold irq; dsimp only; split <;> simp
@[simp] theorem irq_joins (src : Nat) : (s.irq src).joins = s.joins := by unfold irq; dsimp only; split <;> simp
@[simp] theorem irq_launch (src : Nat) : (s.irq src).launch = s.launch := by unfold irq; dsimp only; split <;> simp
@[simp] theorem irq_cal (src : Nat) : (s.irq src).cal = s.cal := by unfold irq; dsimp only; split <;> simp
@[simp] theorem irq_adapt (src : Nat) : (s.irq src).adapt = s.adapt := by unfold irq; dsimp only; split <;> simp
@[simp] theorem irq_time (src : Nat) : (s.irq src).time = s.time := by unfold irq; dsimp only; split <;> simp
@[simp] theorem irq_hostq (src : Nat) : (s.irq src).hostq = s.hostq := by unfold irq; dsimp only; split <;> simp
@[simp] theorem irq_counts (src : Nat) : (s.irq src).counts = s.counts := by unfold irq; dsimp only; split <;> simp
@[simp] theorem irq_replay (src : Nat) : (s.irq src).replay = s.replay := by unfold irq; dsimp only; split <;> simp
@[simp] theorem irq_sec (src : Nat) : (s.irq src).sec = s.sec := by unfold irq; dsimp only; split <;> simp
@[simp] theorem irq_health (src : Nat) : (s.irq src).health = s.health := by unfold irq; dsimp only; split <;> simp
@[simp] theorem irq_flash (src : Nat) : (s.irq src).flash = s.flash := by unfold irq; dsimp only; split <;> simp
@[simp] theorem irq_boot (src : Nat) : (s.irq src).boot = s.boot := by unfold irq; dsimp only; split <;> simp
@[simp] theorem irq_mem (src : Nat) : (s.irq src).mem = s.mem := by unfold irq; dsimp only; split <;> simp
@[simp] theorem irq_ddrLog (src : Nat) : (s.irq src).ddrLog = s.ddrLog := by unfold irq; dsimp only; split <;> simp
@[simp] theorem irq_peeks (src : Nat) : (s.irq src).peeks = s.peeks := by unfold irq; dsimp only; split <;> simp
@[simp] theorem irq_fuse (src : Nat) : (s.irq src).fuse = s.fuse := by unfold irq; dsimp only; split <;> simp
@[simp] theorem irq_repair (src : Nat) : (s.irq src).repair = s.repair := by unfold irq; dsimp only; split <;> simp
@[simp] theorem irq_log (src : Nat) : (s.irq src).log = s.log := by unfold irq; dsimp only; split <;> simp
@[simp] theorem irq_ueStop (src : Nat) : (s.irq src).ueStop = s.ueStop := by unfold irq; dsimp only; split <;> simp
@[simp] theorem irq_rings (src : Nat) : (s.irq src).rings = s.rings := by unfold irq; dsimp only; split <;> simp
@[simp] theorem irq_keyGen (src : Nat) : (s.irq src).keyGen = s.keyGen := by unfold irq; dsimp only; split <;> simp
@[simp] theorem irq_freeCount (src : Nat) : (s.irq src).freeCount = s.freeCount := by unfold irq; dsimp only; split <;> simp

@[simp] theorem request_pending (n : Nat) : (s.request n).pending = s.pending := rfl
@[simp] theorem request_b0 (n : Nat) : (s.request n).b0 = s.b0 := rfl
@[simp] theorem request_latches (n : Nat) : (s.request n).latches = s.latches := rfl
@[simp] theorem request_now (n : Nat) : (s.request n).now = s.now := rfl
@[simp] theorem request_timeline (n : Nat) : (s.request n).timeline = s.timeline := rfl
@[simp] theorem request_arr (n : Nat) : (s.request n).arr = s.arr := rfl
@[simp] theorem request_img (n : Nat) : (s.request n).img = s.img := rfl
@[simp] theorem request_hold (n : Nat) : (s.request n).hold = s.hold := rfl
@[simp] theorem request_ing (n : Nat) : (s.request n).ing = s.ing := rfl
@[simp] theorem request_trg (n : Nat) : (s.request n).trg = s.trg := rfl
@[simp] theorem request_acq (n : Nat) : (s.request n).acq = s.acq := rfl
@[simp] theorem request_subs (n : Nat) : (s.request n).subs = s.subs := rfl
@[simp] theorem request_joins (n : Nat) : (s.request n).joins = s.joins := rfl
@[simp] theorem request_launch (n : Nat) : (s.request n).launch = s.launch := rfl
@[simp] theorem request_cal (n : Nat) : (s.request n).cal = s.cal := rfl
@[simp] theorem request_adapt (n : Nat) : (s.request n).adapt = s.adapt := rfl
@[simp] theorem request_time (n : Nat) : (s.request n).time = s.time := rfl
@[simp] theorem request_hostq (n : Nat) : (s.request n).hostq = s.hostq := rfl
@[simp] theorem request_counts (n : Nat) : (s.request n).counts = s.counts := rfl
@[simp] theorem request_replay (n : Nat) : (s.request n).replay = s.replay := rfl
@[simp] theorem request_health (n : Nat) : (s.request n).health = s.health := rfl
@[simp] theorem request_flash (n : Nat) : (s.request n).flash = s.flash := rfl
@[simp] theorem request_boot (n : Nat) : (s.request n).boot = s.boot := rfl
@[simp] theorem request_mem (n : Nat) : (s.request n).mem = s.mem := rfl
@[simp] theorem request_ddrLog (n : Nat) : (s.request n).ddrLog = s.ddrLog := rfl
@[simp] theorem request_peeks (n : Nat) : (s.request n).peeks = s.peeks := rfl
@[simp] theorem request_fuse (n : Nat) : (s.request n).fuse = s.fuse := rfl
@[simp] theorem request_repair (n : Nat) : (s.request n).repair = s.repair := rfl
@[simp] theorem request_log (n : Nat) : (s.request n).log = s.log := rfl
@[simp] theorem request_ueStop (n : Nat) : (s.request n).ueStop = s.ueStop := rfl
@[simp] theorem request_rings (n : Nat) : (s.request n).rings = s.rings := rfl
@[simp] theorem request_keyGen (n : Nat) : (s.request n).keyGen = s.keyGen := rfl
@[simp] theorem request_freeCount (n : Nat) : (s.request n).freeCount = s.freeCount := rfl
@[simp] theorem request_regs (n : Nat) : (s.request n).regs = s.regs := rfl
@[simp] theorem request_out (n : Nat) : (s.request n).out = s.out := rfl

@[simp] theorem free_snd_pending : s.free.2.pending = s.pending := rfl
@[simp] theorem free_snd_b0 : s.free.2.b0 = s.b0 := rfl
@[simp] theorem free_snd_regs : s.free.2.regs = s.regs := rfl
@[simp] theorem free_snd_latches : s.free.2.latches = s.latches := rfl
@[simp] theorem free_snd_out : s.free.2.out = s.out := rfl
@[simp] theorem free_snd_now : s.free.2.now = s.now := rfl
@[simp] theorem free_snd_timeline : s.free.2.timeline = s.timeline := rfl
@[simp] theorem free_snd_arr : s.free.2.arr = s.arr := rfl
@[simp] theorem free_snd_img : s.free.2.img = s.img := rfl
@[simp] theorem free_snd_hold : s.free.2.hold = s.hold := rfl
@[simp] theorem free_snd_ing : s.free.2.ing = s.ing := rfl
@[simp] theorem free_snd_trg : s.free.2.trg = s.trg := rfl
@[simp] theorem free_snd_acq : s.free.2.acq = s.acq := rfl
@[simp] theorem free_snd_subs : s.free.2.subs = s.subs := rfl
@[simp] theorem free_snd_joins : s.free.2.joins = s.joins := rfl
@[simp] theorem free_snd_launch : s.free.2.launch = s.launch := rfl
@[simp] theorem free_snd_cal : s.free.2.cal = s.cal := rfl
@[simp] theorem free_snd_adapt : s.free.2.adapt = s.adapt := rfl
@[simp] theorem free_snd_time : s.free.2.time = s.time := rfl
@[simp] theorem free_snd_hostq : s.free.2.hostq = s.hostq := rfl
@[simp] theorem free_snd_counts : s.free.2.counts = s.counts := rfl
@[simp] theorem free_snd_replay : s.free.2.replay = s.replay := rfl
@[simp] theorem free_snd_sec : s.free.2.sec = s.sec := rfl
@[simp] theorem free_snd_health : s.free.2.health = s.health := rfl
@[simp] theorem free_snd_flash : s.free.2.flash = s.flash := rfl
@[simp] theorem free_snd_boot : s.free.2.boot = s.boot := rfl
@[simp] theorem free_snd_mem : s.free.2.mem = s.mem := rfl
@[simp] theorem free_snd_ddrLog : s.free.2.ddrLog = s.ddrLog := rfl
@[simp] theorem free_snd_peeks : s.free.2.peeks = s.peeks := rfl
@[simp] theorem free_snd_fuse : s.free.2.fuse = s.fuse := rfl
@[simp] theorem free_snd_repair : s.free.2.repair = s.repair := rfl
@[simp] theorem free_snd_log : s.free.2.log = s.log := rfl
@[simp] theorem free_snd_ueStop : s.free.2.ueStop = s.ueStop := rfl
@[simp] theorem free_snd_rings : s.free.2.rings = s.rings := rfl
@[simp] theorem free_snd_keyGen : s.free.2.keyGen = s.keyGen := rfl
@[simp] theorem emit_out (o : Out) : (s.emit o).out = s.out ++ [o] := rfl
@[simp] theorem free_snd_freeCount : s.free.2.freeCount = s.freeCount + 1 := rfl
@[simp] theorem free_fst : s.free.1 = Config.freeValue s.freeCount := rfl

/-- A register read after a register write. -/
theorem rd_wr (k j : Nat) (v : Word) : (s.wr k v).rd j = if j = k then v else s.rd j := by
  unfold rd wr
  by_cases h : j = k
  · subst h; simp
  · simp [SMap.get_set_ne' _ _ _ _ h, h]

@[simp] theorem rd_wr_self (k : Nat) (v : Word) : (s.wr k v).rd k = v := by simp [rd_wr]

theorem rd_wr_ne {k j : Nat} (v : Word) (h : j ≠ k) : (s.wr k v).rd j = s.rd j := by simp [rd_wr, h]

@[simp] theorem emit_rd (o : Out) (k : Nat) : (s.emit o).rd k = s.rd k := rfl
@[simp] theorem free_snd_rd (k : Nat) : s.free.2.rd k = s.rd k := rfl

theorem wrF_rd (k lo n v j : Nat) :
    (s.wrF k lo n v).rd j = if j = k then putField (s.rd k) lo n v else s.rd j := rd_wr ..

theorem wrF_rd_ne {k j : Nat} (lo n v : Nat) (h : j ≠ k) : (s.wrF k lo n v).rd j = s.rd j := rd_wr_ne _ _ h

theorem wrB_rd_ne {k j : Nat} (i : Nat) (b : Bool) (h : j ≠ k) : (s.wrB k i b).rd j = s.rd j := rd_wr_ne _ _ h

/-- Raising a vector writes no register but the words of pending bits, which stand above every register of BAR0 (R345). -/
theorem raise_rd (v : BitVec 6) {k : Nat} (h : k < 0x0240_0000) : (s.raise v).rd k = s.rd k := by
  unfold raise
  split
  · refine wrB_rd_ne s _ _ ?_
    unfold Reg.msixPba Reg.bar2
    omega
  · rfl

theorem irq_rd (src : Nat) {k : Nat} (h : k < 0x0240_0000) : (s.irq src).rd k = s.rd k := by
  unfold irq
  dsimp only
  split
  · exact raise_rd s _ h
  · rfl

theorem count_rd (k n j : Nat) : (s.count k n).rd j = if j = k then satInc (s.rd k) n else s.rd j := rd_wr ..

@[simp] theorem count_rd_self (k n : Nat) : (s.count k n).rd k = satInc (s.rd k) n := by simp [count_rd]

theorem count_rd_ne {k j : Nat} (n : Nat) (h : j ≠ k) : (s.count k n).rd j = s.rd j := rd_wr_ne _ _ h

theorem wr64_rd (k : Nat) (v : DWord) (j : Nat) :
    (s.wr64 k v).rd j = if j = k + 4 then v.extractLsb' 32 32 else if j = k then v.extractLsb' 0 32 else s.rd j := by
  simp [wr64, rd_wr]

theorem wr64_rd_ne {k j : Nat} (v : DWord) (h1 : j ≠ k + 4) (h2 : j ≠ k) : (s.wr64 k v).rd j = s.rd j := by
  simp [wr64_rd, h1, h2]

@[simp] theorem wr64_rd64 (k : Nat) (v : DWord) : (s.wr64 k v).rd64 k = v := by
  unfold rd64
  rw [wr64_rd, wr64_rd, if_pos rfl, if_neg (by omega), if_pos rfl]
  apply BitVec.eq_of_getLsbD_eq
  intro i hi
  rw [BitVec.getLsbD_append, BitVec.getLsbD_extractLsb', BitVec.getLsbD_extractLsb']
  by_cases h : i < 32
  · simp [h]
  · simp [h, show i - 32 < 32 by omega, show 32 + (i - 32) = i by omega]

end Sys2Proof.Machine.State

namespace Sys2Proof.Machine

/-- The bits of a word after a field is replaced. -/
theorem putField_getLsbD (w : Word) (lo n v i : Nat) (hi : i < 32) :
    (putField w lo n v).getLsbD i = if lo ≤ i ∧ i < lo + n then v.testBit (i - lo) else w.getLsbD i := by
  have hm : ((2 ^ n - 1) * 2 ^ lo).testBit i = (decide (lo ≤ i) && decide (i - lo < n)) := by
    rw [Nat.testBit_mul_two_pow, Nat.testBit_two_pow_sub_one]
  have hv : (v * 2 ^ lo).testBit i = (decide (lo ≤ i) && v.testBit (i - lo)) := by
    rw [Nat.testBit_mul_two_pow]
  unfold putField
  simp only [BitVec.getLsbD_or, BitVec.getLsbD_and, BitVec.getLsbD_not, BitVec.getLsbD_ofNat, hi, decide_true, Bool.true_and, hm, hv]
  by_cases h1 : lo ≤ i
  · by_cases h2 : i < lo + n
    · simp [h1, h2, show i - lo < n by omega]
    · simp [h1, h2, show ¬ i - lo < n by omega]
  · simp [h1]

/-- A field reads what was put into it. -/
theorem fieldNat_putField_self (w : Word) (lo n v : Nat) (h : lo + n ≤ 32) :
    fieldNat (putField w lo n v) lo n = v % 2 ^ n := by
  apply Nat.eq_of_testBit_eq
  intro i
  simp only [fieldNat, Nat.testBit_mod_two_pow]
  rw [← BitVec.getLsbD, BitVec.getLsbD_extractLsb']
  by_cases hi : i < n
  · rw [putField_getLsbD _ _ _ _ _ (by omega)]
    simp [hi]
  · simp [hi]

/-- A field reads as before when another, apart from it, is replaced. -/
theorem fieldNat_putField_ne (w : Word) (lo n v lo' n' : Nat) (h : lo' + n' ≤ 32)
    (hd : lo' + n' ≤ lo ∨ lo + n ≤ lo') : fieldNat (putField w lo n v) lo' n' = fieldNat w lo' n' := by
  apply Nat.eq_of_testBit_eq
  intro i
  simp only [fieldNat]
  rw [← BitVec.getLsbD, ← BitVec.getLsbD, BitVec.getLsbD_extractLsb', BitVec.getLsbD_extractLsb']
  by_cases hi : i < n'
  · rw [putField_getLsbD _ _ _ _ _ (by omega)]
    simp [hi]
    intro h1 h2
    omega
  · simp [hi]

namespace State

variable (s : State)

theorem rdF_wrF_self (k lo n v : Nat) (h : lo + n ≤ 32) : (s.wrF k lo n v).rdF k lo n = v % 2 ^ n := by
  unfold rdF
  rw [wrF_rd, if_pos rfl, fieldNat_putField_self _ _ _ _ h]

theorem rdF_wrF_ne (k lo n v lo' n' : Nat) (h : lo' + n' ≤ 32) (hd : lo' + n' ≤ lo ∨ lo + n ≤ lo') :
    (s.wrF k lo n v).rdF k lo' n' = s.rdF k lo' n' := by
  unfold rdF
  rw [wrF_rd, if_pos rfl, fieldNat_putField_ne _ _ _ _ _ _ h hd]

theorem rdF_of_ne {k j : Nat} (lo n v lo' n' : Nat) (h : j ≠ k) :
    (s.wrF k lo n v).rdF j lo' n' = s.rdF j lo' n' := by
  unfold rdF
  rw [wrF_rd_ne _ _ _ _ h]

theorem setCtx_ctx (n : Nat) (h : n < 8) : (s.setCtx n).ctx = n := by
  unfold ctx setCtx
  rw [rdF_wrF_self _ _ _ _ _ (by omega), Nat.mod_eq_of_lt (by omega)]

theorem setAryState_aryState (n : Nat) (h : n < 8) : (s.setAryState n).aryState = n := by
  unfold aryState setAryState
  rw [rdF_wrF_self _ _ _ _ _ (by omega), Nat.mod_eq_of_lt (by omega)]

/-- Every register write keeps the canonical form of the register store. -/
theorem wr_wf (k : Nat) (v : Word) (h : SMap.wf resetWord s.regs = true) : SMap.wf resetWord (s.wr k v).regs = true :=
  SMap.wf_set resetWord s.regs k v h

end State

end Sys2Proof.Machine
end

