-- ==== Sys2Proof/Laws/Memory.lean ====
section
/-!
SUPPORT. HBM and DDR5 keep their canonical form (lines strictly rising, none listed as blank): every memory operation of
Machine/Memory.lean keeps it, and the state after reset has it.  What the error machinery leaves of memory comes first.
-/

namespace Sys2Proof.Machine
open State

/-- The canonical form of the external memories. -/
def State.linesWf (s : State) : Bool := SMap.wf (fun _ => Line.blank) s.mem.lines

@[simp] theorem mem_ite (c : Prop) [Decidable c] (a b : State) : (if c then a else b).mem = if c then a.mem else b.mem := by
  split <;> rfl

@[simp] theorem mem_foldl {α : Type} (f : State → α → State) (l : List α) (s : State) (h : ∀ t x, (f t x).mem = t.mem) :
    (l.foldl f s).mem = s.mem := by
  induction l generalizing s with
  | nil => rfl
  | cons x l ih => rw [List.foldl_cons, ih, h]

@[simp] theorem mem_setRing (s : State) (r : Nat) (x : Ring) :
    (State.setRing s r x).mem = s.mem := by
  unfold State.setRing
  simp

@[simp] theorem mem_ringIrq (s : State) (r : Nat) :
    (State.ringIrq s r).mem = s.mem := by
  unfold State.ringIrq
  simp

@[simp] theorem mem_writeCompletion (s : State) (r : Nat) (c : Completion) :
    (State.writeCompletion s r c).mem = s.mem := by
  unfold State.writeCompletion
  simp

@[simp] theorem mem_complete (s : State) (r : Nat) (status : Byte) (res0 res1 : DWord) (detail : Word) :
    (State.complete s r status res0 res1 detail).mem = s.mem := by
  unfold State.complete
  dsimp only
  split <;> simp

@[simp] theorem mem_completeOp (s : State) (op : Byte) (r : Nat) (status : Byte) (res0 res1 : DWord) :
    (State.completeOp s op r status res0 res1).mem = s.mem := by
  unfold State.completeOp
  simp
  split <;> simp

@[simp] theorem mem_completeState (s : State) (r : Nat) :
    (State.completeState s r).mem = s.mem := by
  unfold State.completeState
  simp

@[simp] theorem mem_abortRings (s : State) (keep : List Nat) :
    (State.abortRings s keep).mem = s.mem := by
  unfold State.abortRings
  simp

@[simp] theorem mem_queueStatus (s : State) :
    (State.queueStatus s).mem = s.mem := by
  unfold State.queueStatus
  simp

@[simp] theorem mem_closeEvent (s : State) (c : Nat) :
    (State.closeEvent s c).mem = s.mem := by
  unfold State.closeEvent
  dsimp only
  split <;> simp

@[simp] theorem mem_closeCaptures (s : State) :
    (State.closeCaptures s).mem = s.mem := by
  unfold State.closeCaptures
  simp

@[simp] theorem mem_stopCapture (s : State) :
    (State.stopCapture s).mem = s.mem := by
  unfold State.stopCapture
  simp

@[simp] theorem mem_drivePin (s : State) (o : Nat) (on : Bool) :
    (State.drivePin s o on).mem = s.mem := by
  unfold State.drivePin
  simp

@[simp] theorem mem_idleOutputs (s : State) :
    (State.idleOutputs s).mem = s.mem := by
  unfold State.idleOutputs
  simp

@[simp] theorem mem_freezeRing (s : State) :
    (State.freezeRing s).mem = s.mem := by
  unfold State.freezeRing
  simp

@[simp] theorem mem_logOverflow (s : State) :
    (State.logOverflow s).mem = s.mem := by
  unfold State.logOverflow
  simp

@[simp] theorem mem_addEntry (s : State) (src : Byte) (cls : Nat) (loc : DWord) (withheld lost contain : Bool) :
    (State.addEntry s src cls loc withheld lost contain).mem = s.mem := by
  unfold State.addEntry
  simp
  split <;> simp

@[simp] theorem mem_logCorrected (s : State) (src : Byte) (loc : DWord) :
    (State.logCorrected s src loc).mem = s.mem := by
  unfold State.logCorrected
  simp
  split <;> simp

@[simp] theorem mem_logMinor (s : State) (src : Byte) (cls : Nat) (loc : DWord) :
    (State.logMinor s src cls loc).mem = s.mem := by
  unfold State.logMinor
  simp

@[simp] theorem mem_holdStop (s : State) :
    (State.holdStop s).mem = s.mem := by
  unfold State.holdStop
  simp

@[simp] theorem mem_haltContext (s : State) :
    (State.haltContext s).mem = s.mem := by
  unfold State.haltContext
  simp

@[simp] theorem mem_stopForError (s : State) :
    (State.stopForError s).mem = s.mem := by
  unfold State.stopForError
  simp

@[simp] theorem mem_enterContain (s : State) :
    (State.enterContain s).mem = s.mem := by
  unfold State.enterContain
  simp

@[simp] theorem mem_uncorrectable (s : State) (src : Byte) (loc : DWord) (withheld lost : Bool) :
    (State.uncorrectable s src loc withheld lost).mem = s.mem := by
  unfold State.uncorrectable
  simp

@[simp] theorem mem_fatal (s : State) (src : Byte) (loc : DWord) :
    (State.fatal s src loc).mem = s.mem := by
  unfold State.fatal
  simp

@[simp] theorem mem_countFixed (s : State) (l : Nat) (f : Nat × Nat) : (s.countFixed l f).mem = s.mem := by
  unfold State.countFixed
  simp

@[simp] theorem mem_countUe (s : State) (l : Nat) : (s.countUe l).mem = s.mem := by
  unfold State.countUe
  simp

@[simp] theorem mem_exhaust (s : State) : s.exhaust.mem = s.mem := by
  unfold State.exhaust
  simp

theorem mem_ite_fst {β : Type} (c : Prop) [Decidable c] (a b : State × β) :
    (if c then a else b).1.mem = if c then a.1.mem else b.1.mem := by split <;> rfl

/-- Reading a line changes nothing of memory. -/
@[simp] theorem mem_readLine (s : State) (l : Nat) (bus : BitVec 2048) (withheld : Bool) :
    (s.readLine l bus withheld).1.mem = s.mem := by
  unfold State.readLine
  simp [mem_ite_fst]
  split <;> simp [mem_ite_fst]

theorem linesWf_reset : State.reset.linesWf = true := by decide +kernel

theorem linesWf_of_mem {s t : State} (h : t.mem = s.mem) (hs : s.linesWf = true) : t.linesWf = true := by
  unfold State.linesWf at *
  rw [h, hs]

theorem linesWf_of_lines {s t : State} (h : t.mem.lines = s.mem.lines) (hs : s.linesWf = true) : t.linesWf = true := by
  unfold State.linesWf at *
  rw [h, hs]

theorem linesWf_putLine (s : State) (l : Nat) (x : Line) (h : s.linesWf = true) : (s.putLine l x).linesWf = true :=
  SMap.wf_set (fun _ => Line.blank) _ l x h

theorem linesWf_writeLine (s : State) (l : Nat) (data : BitVec 2048) (h : s.linesWf = true) : (s.writeLine l data).linesWf = true := by
  have hw := SMap.wf_set (fun _ => Line.blank) s.mem.lines l
    (s.sealLine l (BitVec.ofNat 56 (s.verOf (controllerOf l))) data) h
  unfold State.linesWf State.writeLine
  simpa using hw

theorem linesWf_writePart (s : State) (l lo : Nat) (bs : List Byte) (h : s.linesWf = true) : (s.writePart l lo bs).linesWf = true := by
  have hr : (s.readLine l).1.linesWf = true := linesWf_of_mem (by simp) h
  unfold State.writePart
  split
  · exact linesWf_writeLine s l _ h
  · split
    · rename_i h1
      rw [h1] at hr
      exact linesWf_writeLine _ l _ hr
    · rename_i h1
      rw [h1] at hr
      exact hr

theorem linesWf_foldl {α : Type} (f : State → α → State) (l : List α) (s : State) (h : s.linesWf = true)
    (hf : ∀ t x, t.linesWf = true → (f t x).linesWf = true) : (l.foldl f s).linesWf = true := by
  induction l generalizing s with
  | nil => exact h
  | cons x l ih => exact ih _ (hf s x h)

theorem linesWf_writeBytes (s : State) (dpa : Nat) (bs : List Byte) (h : s.linesWf = true) : (s.writeBytes dpa bs).linesWf = true := by
  unfold State.writeBytes
  split
  · exact h
  · exact linesWf_foldl _ _ _ h fun t i ht => linesWf_writePart t _ _ _ ht

@[simp] theorem mem_readBytes (s : State) (dpa len : Nat) (withheld : Bool) : (s.readBytes dpa len withheld).1.mem = s.mem := by
  have hf : ∀ (l : List Nat) (p : State × List Byte) (k : Nat),
      (l.foldl (fun (acc : State × List Byte) i =>
        ((acc.1.readLine (k + i) 0 withheld).1, acc.2 ++ bytesOf 256 ((acc.1.readLine (k + i) 0 withheld).2.getD 0))) p).1.mem = p.1.mem := by
    intro l
    induction l with
    | nil => exact fun _ _ => rfl
    | cons x l ih => exact fun p k => (ih _ k).trans (by simp)
  unfold State.readBytes
  split
  · rfl
  · exact hf _ _ _

theorem linesWf_patrol (s : State) (l : Nat) (h : s.linesWf = true) : (s.patrol l).linesWf = true := by
  unfold State.patrol
  split
  · exact h
  · dsimp only
    split
    · split
      · exact linesWf_of_mem (by simp) h
      · exact linesWf_putLine _ _ _ (linesWf_of_mem (by simp) h)
    · split <;> exact linesWf_of_lines (by simp) h

theorem linesWf_serveMem (s : State) (c : Nat) (h : s.linesWf = true) : (s.serveMem c).linesWf = true := by
  unfold State.serveMem
  dsimp only
  split
  · exact h
  · split
    · exact linesWf_writeBytes _ _ _ h
    · exact linesWf_of_lines (by simp) h

theorem linesWf_drainCtl (s : State) (c : Nat) (h : s.linesWf = true) : (s.drainCtl c).linesWf = true := by
  unfold State.drainCtl
  exact linesWf_foldl _ _ _ h fun t _ ht => linesWf_serveMem t c ht

theorem linesWf_drainFor (s : State) (dpa len : Nat) (h : s.linesWf = true) : (s.drainFor dpa len).linesWf = true := by
  unfold State.drainFor
  exact linesWf_foldl _ _ _ h fun t c ht => linesWf_drainCtl t c ht

theorem linesWf_disturb (s : State) (c : Nat) (bus : BitVec 2048) (h : s.linesWf = true) : (s.disturb c bus).linesWf = true := by
  unfold State.disturb
  split
  · dsimp only
    split
    · exact h
    · exact linesWf_putLine _ _ _ h
  · exact h

end Sys2Proof.Machine
end

