-- ==== Sys2Proof/Laws/Picot.lean ====
section
/-!
SUPPORT. What putting a result in flight does to a picot, and to nothing else.
-/

namespace Sys2Proof.Machine

open Sys2Proof.Claims

theorem picot_setPicot (s : State) (p q : Nat) (x : Picot) : (s.setPicot p x).picot q = if q = p then x else s.picot q := by
  unfold State.picot State.setPicot
  exact SMap.get_set ..

@[simp] theorem picot_setPicot_self (s : State) (p : Nat) (x : Picot) : (s.setPicot p x).picot p = x := by
  simp [picot_setPicot]

theorem mem_insertFlight (x y : InFlight) (l : List InFlight) : y ∈ State.insertFlight x l ↔ y = x ∨ y ∈ l := by
  induction l with
  | nil => simp [State.insertFlight]
  | cons z l ih =>
    unfold State.insertFlight
    split
    · rw [List.mem_cons, ih, List.mem_cons]
      tauto
    · rw [List.mem_cons]

theorem onlyFlies_refl (s : State) (p : Fin 1024) : OnlyFlies s s p := ⟨rfl, fun _ _ => rfl, rfl, fun _ h => h⟩

theorem onlyFlies_trans {s t u : State} {p : Fin 1024} (a : OnlyFlies s t p) (b : OnlyFlies t u p) : OnlyFlies s u p := by
  obtain ⟨a1, a2, a3, a4⟩ := a
  obtain ⟨b1, b2, b3, b4⟩ := b
  refine ⟨?_, fun q h => (b2 q h).trans (a2 q h), ?_, fun x h => b4 x (a4 x h)⟩
  · rw [b1, a1]
  · rw [b3, a3]

/-- A result in flight, and what it leaves alone. -/
theorem onlyFlies_fly (s : State) (loc : At) (slot lat : Nat) (r : Res) : OnlyFlies s (s.fly loc slot lat r) loc.pic := by
  refine ⟨rfl, fun q h => ?_, ?_, fun x h => ?_⟩
  · unfold State.fly
    simp [picot_setPicot, h]
  · unfold State.fly
    simp
  · unfold State.fly
    simp [mem_insertFlight, h]

theorem flies_fly (s : State) (loc : At) (slot lat : Nat) (r : Res) : Flies (s.fly loc slot lat r) loc slot lat r := by
  unfold Flies State.fly
  simp [mem_insertFlight]

theorem flies_mono {s t : State} {loc : At} {slot lat : Nat} {r : Res} (h : Flies s loc slot lat r) (o : OnlyFlies s t loc.pic) :
    Flies t loc slot lat r := by
  obtain ⟨x, hx, h⟩ := h
  exact ⟨x, o.2.2.2 x hx, h⟩

theorem onlyFlies_countEvent (s : State) (p : Fin 1024) (q k n : Nat) : OnlyFlies s (s.countEvent q k n) p := by
  unfold State.countEvent
  split
  · exact onlyFlies_refl s p
  · exact ⟨rfl, fun _ _ => rfl, rfl, fun _ h => h⟩

theorem onlyFlies_countEvents (s : State) (p : Fin 1024) (q : Nat) (e : Ev) : OnlyFlies s (s.countEvents q e) p := by
  unfold State.countEvents
  exact onlyFlies_trans (onlyFlies_trans (onlyFlies_trans (onlyFlies_trans (onlyFlies_countEvent ..) (onlyFlies_countEvent ..))
    (onlyFlies_countEvent ..)) (onlyFlies_countEvent ..)) (onlyFlies_countEvent ..)

theorem issues_of {s : State} (h : s.hold.stopped = false) : s.issues = true := by
  unfold State.issues
  simp [h]

/-- A vector instruction that issues: its register and its tags are in flight, and nothing else but events changes. -/
theorem vectorOp_flies (s : State) (h : MHead) (lat : Nat) (vd : BitVec 5) (o : VOut) (hi : Issues s h) :
    OnlyFlies s (s.vectorOp h lat vd o) h.loc.pic ∧
    Flies (s.vectorOp h lat vd o) h.loc 0 lat (.lanes vd.toNat (BitVec.allOnes 64) o.val) ∧
    Flies (s.vectorOp h lat vd o) h.loc 0 lat (.tags vd.toNat 0xFF o.bad) := by
  have e : s.vectorOp h lat vd o = (s.flyReg h.loc lat vd o).countEvents h.loc.pic o.ev := by
    unfold State.vectorOp
    simp [issues_of hi.1, hi.2]
  rw [e]
  have o1 := onlyFlies_fly s h.loc 0 lat (.lanes vd.toNat (BitVec.allOnes 64) o.val)
  have o2 := onlyFlies_fly (s.fly h.loc 0 lat (.lanes vd.toNat (BitVec.allOnes 64) o.val)) h.loc 0 lat (.tags vd.toNat 0xFF o.bad)
  have o3 := onlyFlies_countEvents (s.flyReg h.loc lat vd o) h.loc.pic h.loc.pic o.ev
  refine ⟨onlyFlies_trans (onlyFlies_trans o1 o2) o3, ?_, ?_⟩
  · exact flies_mono (flies_mono (flies_fly ..) o2) o3
  · exact flies_mono (flies_fly ..) o3

end Sys2Proof.Machine
end

