-- ==== Sys2Proof/WellFormed.lean ====
section
/-!
DEFINITION. Well-formed commands: the operands that the spec's own rules allow.  For an instruction these are the checks
that the loader makes of a bundle (R125, R155 to R182, R445); for a command of the hub, the ranges of its operands.
-/

namespace Sys2Proof

namespace Wf

/-- PSEL and PNEG (R155). -/
def mhead (h : MHead) : Bool := decide (h.psel ∉ [12, 13, 14]) && !(decide (h.psel = 15) && h.pneg)
/-- The fields of layout MV in the order FMT, RND, VD, VA, VB, VC, CK, GI, SUB; those that an instruction does not use are
zero (R156, R157). -/
def uses (a : MV) (us : List Nat) : Bool :=
  [a.fmt.toNat, a.rnd.toNat, a.vd.toNat, a.va.toNat, a.vb.toNat, a.vc.toNat, a.ck.toNat, a.gi.toNat, a.sub.toNat].zipIdx.all
    (fun e => us.contains e.2 || e.1 == 0)
/-- An even register number (R445). -/
def even (r : BitVec 4) : Bool := decide (r.toNat % 2 = 0)
/-- An even segment (R159). -/
def even3 (r : BitVec 3) : Bool := decide (r.toNat % 2 = 0)
/-- FP32 alone (R107). -/
def fp (a : MV) : Bool := decide (a.fmt = 12)
/-- The integer formats (R107). -/
def int (a : MV) : Bool := decide (a.fmt ∈ [1, 2, 4, 5])
/-- FP32 or an integer format. -/
def any5 (a : MV) : Bool := fp a || int a
/-- A rounding choice (R156, R170). -/
def rounding (a : MV) : Bool := decide (a.rnd = 0) || (decide (a.rnd = 1) && even a.gi && decide (a.ck.toNat + 2 ≤ 255))
/-- A MAC-array format (R105). -/
def mac (f : BitVec 4) : Bool := decide (f ∈ [0, 1, 2, 6, 7, 8, 9, 10, 11])
/-- An SRAM word address (R108). -/
def word (w : BitVec 17) : Bool := decide (w ≤ 98303)
/-- An output that the edge of the graticule leaves in use (R125). -/
def drives (p : Fin 1024) (d : Dir) : Bool :=
  match d with
  | .n => decide (p.val / 32 ≠ 31)
  | .e => decide (p.val % 32 ≠ 31)
  | .s => true
  | .w => decide (p.val % 32 ≠ 0)
/-- A valid token, its parity apart (R119). -/
def token (t : BitVec 16) : Bool :=
  let kind := fieldNat t 13 3
  let value := fieldNat t 0 12
  !t.getLsbD 12 && decide (kind < 6) && (decide (kind ≠ 0) || decide (t = 0)) && (decide (kind ≠ 1) || decide (value < 4)) &&
    (decide (kind ≠ 4) || decide (value ≠ 0))
/-- A value that fits the width of its access. -/
def fits (w : Width) (v : BitVec 64) : Bool :=
  match w with
  | .b8 => decide (v.toNat < 2 ^ 8)
  | .b16 => decide (v.toNat < 2 ^ 16)
  | .b32 => decide (v.toNat < 2 ^ 32)
  | .b64 | .wider => true

/-- An access of BAR2 is function 0's, within its 128 KiB (R319). -/
def bar (m : Master) (bar2 : Bool) (off : BitVec 25) : Bool := !bar2 || (decide (m = .f0) && decide (off.toNat < 0x2_0000))

end Wf

/-- A command whose operands the spec allows. -/
def Instr.wf (i : Instr) : Bool :=
  match i with
  | .registerWrite m a w v => Wf.fits w v && Wf.bar m a.bar2 a.off
  | .wideOrUnalignedAccess _ _ w wr v => !wr || Wf.fits w v
  | .nopm h => Wf.mhead h
  | .wld h a => Wf.mhead h && decide (a.row ≤ 3071) && Wf.mac a.wfmt && (!a.part || decide (a.wfmt ∈ [10, 11]))
  | .wsc h a => Wf.mhead h && Wf.word a.word
  | .wswap h => Wf.mhead h
  | .mma h a => Wf.mhead h && Wf.mac a.afmt && (decide (a.afmt < 10) || Wf.even3 a.seg) && (!a.scaled || decide (a.afmt ∈ [1, 6, 7, 8, 9]))
  | .accq h a => Wf.mhead h && decide (a.rrow ≤ 3071) && decide (a.ck.toNat + 7 ≤ 255) && (decide (a.rnd = 0) || (decide (a.rnd = 1) && Wf.even a.gi && decide (a.cks.toNat + 2 ≤ 255)))
  | .accx h a => Wf.mhead h && decide (a.nlog = 0)
  | .acca h a => Wf.mhead h && decide (a.nlog = 0)
  | .accz h a => Wf.mhead h && !a.half && decide (a.v = 0)
  | .fadd h a => Wf.mhead h && Wf.uses a [0, 1, 2, 3, 4, 6, 7] && Wf.fp a && Wf.rounding a
  | .fsub h a => Wf.mhead h && Wf.uses a [0, 1, 2, 3, 4, 6, 7] && Wf.fp a && Wf.rounding a
  | .fmul h a => Wf.mhead h && Wf.uses a [0, 1, 2, 3, 4, 6, 7] && Wf.fp a && Wf.rounding a
  | .fma h a => Wf.mhead h && Wf.uses a [0, 1, 2, 3, 4, 5, 6, 7] && Wf.fp a && Wf.rounding a
  | .fmin h a => Wf.mhead h && Wf.uses a [0, 2, 3, 4] && Wf.fp a
  | .fmax h a => Wf.mhead h && Wf.uses a [0, 2, 3, 4] && Wf.fp a
  | .rcp h a => Wf.mhead h && Wf.uses a [0, 1, 2, 3, 6, 7] && Wf.fp a && Wf.rounding a
  | .rsq h a => Wf.mhead h && Wf.uses a [0, 1, 2, 3, 6, 7] && Wf.fp a && Wf.rounding a
  | .exp2 h a => Wf.mhead h && Wf.uses a [0, 1, 2, 3, 6, 7] && Wf.fp a && Wf.rounding a
  | .log2 h a => Wf.mhead h && Wf.uses a [0, 1, 2, 3, 6, 7] && Wf.fp a && Wf.rounding a
  | .iadd h a => Wf.mhead h && Wf.uses a [0, 2, 3, 4] && Wf.int a
  | .isub h a => Wf.mhead h && Wf.uses a [0, 2, 3, 4] && Wf.int a
  | .imul h a => Wf.mhead h && Wf.uses a [0, 2, 3, 4] && Wf.int a
  | .imin h a => Wf.mhead h && Wf.uses a [0, 2, 3, 4] && Wf.int a
  | .imax h a => Wf.mhead h && Wf.uses a [0, 2, 3, 4] && Wf.int a
  | .andVector h a => Wf.mhead h && Wf.uses a [0, 2, 3, 4] && Wf.any5 a
  | .orVector h a => Wf.mhead h && Wf.uses a [0, 2, 3, 4] && Wf.any5 a
  | .xorVector h a => Wf.mhead h && Wf.uses a [0, 2, 3, 4] && Wf.any5 a
  | .shl h a => Wf.mhead h && Wf.uses a [0, 2, 3, 4] && Wf.any5 a
  | .shr h a => Wf.mhead h && Wf.uses a [0, 2, 3, 4] && Wf.any5 a
  | .sar h a => Wf.mhead h && Wf.uses a [0, 2, 3, 4] && Wf.any5 a
  | .cmp h a => Wf.mhead h && Wf.uses a [0, 2, 3, 4, 8] && Wf.any5 a && decide (a.sub ≤ 7) && (decide (a.sub < 6) || Wf.fp a)
  | .vsel h a => Wf.mhead h && Wf.uses a [0, 2, 3, 4, 5] && Wf.any5 a
  | .cvt h a => Wf.mhead h && Wf.uses a [0, 1, 2, 3, 6, 7, 8] && Wf.rounding a && decide (a.fmt ∉ [13, 15]) && decide (a.sub ∉ [3, 13, 15])
  | .qnt h a => Wf.mhead h && Wf.uses a [0, 2, 3, 6] && decide (a.fmt ∈ [12, 4, 5]) && decide (a.ck.toNat + 5 ≤ 255)
  | .dqt h a => Wf.mhead h && Wf.uses a [0, 2, 3, 6] && decide (a.ck.toNat + 5 ≤ 255)
  | .scale h a => Wf.mhead h && Wf.uses a [0, 2, 3, 6] && Wf.fp a
  | .bqnt h a => Wf.mhead h && Wf.uses a [0, 1, 2, 3, 4, 6, 7, 8] && Wf.fp a && Wf.rounding a && decide (a.sub ∈ [1, 6, 7, 8, 9])
  | .csum h a => Wf.mhead h && Wf.uses a [0, 2, 3, 5] && decide (a.fmt ∈ [0, 1, 2, 4])
  | .vld h a => Wf.mhead h && Wf.word a.word && decide (a.word.toNat % 8 = 0)
  | .xcvt h a => Wf.mhead h && Wf.uses a [0, 2, 3, 6] && decide (a.fmt ∈ [12, 5])
  | .xadd h a => Wf.mhead h && Wf.uses a [2, 3, 4]
  | .xrnd h a => Wf.mhead h && Wf.uses a [0, 1, 2, 3, 6, 7] && Wf.rounding a && decide (a.fmt ∉ [3, 13, 15])
  | .vrsum h a => Wf.mhead h && Wf.uses a [0, 2, 3, 6] && Wf.any5 a
  | .vrmax h a => Wf.mhead h && Wf.uses a [0, 2, 3] && Wf.any5 a
  | .vrng h a => Wf.mhead h && Wf.uses a [2, 6, 7] && Wf.even a.gi && decide (a.ck.toNat + 2 ≤ 255)
  | .ldw _ a => Wf.word a.word
  | .stw _ a => Wf.word a.word
  | .send loc a => decide (a.src ≠ 3) && Wf.word a.word && Wf.drives loc.pic a.dir
  | .recv _ a => Wf.word a.word
  | .mreq _ a => Wf.word a.word && decide (a.word.toNat % 8 = 0)
  | .hatom _ a => decide (a.aop ≠ 3) && Wf.even a.ga && (decide (a.aop ≠ 2) || Wf.even a.go)
  | .rdtime _ gd => Wf.even gd
  | .rdsens _ _ sens _ => decide (sens ≤ 2)
  | .qlen _ _ tq q => !tq || decide (q ≤ 7)
  | .rdround _ gd => Wf.even gd
  | .addi _ a => !a.pair || (Wf.even a.gd && Wf.even a.ga)
  | .cmpg _ a => decide (a.pbit ≤ 11)
  | .lcset _ _ trip => decide (trip ≠ 0)
  | .lctim _ _ trip => decide (trip ≠ 0)
  | .loop _ _ len => decide (len ≠ 0)
  | .brp _ pbit _ _ => decide (pbit ≤ 11)
  | .tsendi h dir tok => Wf.token tok && Wf.drives h.loc.pic dir
  | .tsendg h dir _ => Wf.drives h.loc.pic dir
  | .tput _ _ tok => Wf.token tok && decide (tok ≠ 0)
  | .pset _ pbit _ _ => decide (pbit ≤ 11)
  | .holdRequestDeferred cause _ => decide (cause.val ∈ [1, 2, 4, 5, 6, 7])
  | .holdRequestCancelling cause _ => decide (cause.val ∈ [1, 3])
  | .holdLimitDeadlock cause => decide (cause.val ∈ [1, 2, 3, 4])
  | .ringEnable _ _ v => v.getLsbD 31
  | .ringDisable _ _ v => !v.getLsbD 31
  | .countWordWrite _ bytes _ => decide (1 ≤ bytes)
  | .hdmWrite _ bytes _ => !bytes.isEmpty
  | .warmReset cause _ _ => decide (3 ≤ cause.val)
  | .bistComplete failed => failed.all (fun i => decide (i < 1088))
  | .lowWordRead m a _ => Wf.bar m a.bar2 a.off
  | .thermalSample .. | .hotSampleCountExpiry | .coolSampleCountExpiry | .stepCapWrite ..
  | .stepChangeBegin | .islandRelockComplete | .hbmRequestServe .. | .ddr5RequestServe .. | .ingLaneCfgWrite ..
  | .laneLock .. | .laneAligned .. | .laneAlignmentLost .. | .nolerFrameReceive .. | .fillSampleTick ..
  | .jesdLinkCfgWrite .. | .sysrefEdge .. | .jesdMultiblockReceive .. | .jesdSyncLost .. | .frontEndSample
  | .ringBlockComplete | .ringReaderTakeover | .ringReaderBlock | .ebResume | .ingRecDataWrite .. | .recSwitchArm ..
  | .recSwitchActivate | .stagingBankFree | .statIntervalClose | .debtUpdate | .shedLevelUpdate | .overrunSkip
  | .inputPlanInject .. | .flitArrival .. | .tokenArrival .. | .bridgeRetry .. | .bridgeRetryComplete ..
  | .bridgeRetryExhausted .. | .memlaneRequest .. | .memlaneReadBeat .. | .steerSplitItem .. | .steerMergeItem ..
  | .steerSelectItem .. | .fillReceive .. | .followBind .. | .flipArm .. | .flipExecute | .repairBurn ..
  | .peekStart .. | .peekComplete .. | .nopl .. | .qput .. | .hatomExecute .. | .movi .. | .ldc .. | .add ..
  | .sub .. | .mul .. | .andScalar .. | .orScalar .. | .xorScalar .. | .shli .. | .shri .. | .vtog .. | .gtov ..
  | .nopc .. | .lctok .. | .lcgp .. | .waitlc .. | .waitlcResume .. | .loopTimerExpiry .. | .jmp .. | .tpop ..
  | .tprd .. | .steer .. | .bclr .. | .holdCauseClear .. | .waitlcDeadlock .. | .inputGateCheck | .verdictArrival ..
  | .primitiveSample .. | .primitiveEnable .. | .holdoffExpiry .. | .stuckDetect .. | .maskPointTest ..
  | .maskRearm .. | .externalInputEdge .. | .tdcEnable .. | .tdcLineCalibrate .. | .tdcLineSwap .. | .thrSwitchArm ..
  | .thrSwitchActivate | .classEnable .. | .fastClassEvaluate .. | .slowClassEvaluate .. | .timedPulseStart ..
  | .outputPulseEnd .. | .captureEventClose .. | .captureCopyStart | .captureRefuseOversize | .captureCopyComplete
  | .storeRptrWrite .. | .averagingInterval | .reductionInterval | .selectionFlitInject | .parameterFlitInject
  | .trainingStepStart .. | .trainerReportReceive .. | .thresholdPolicyInterval | .rangePolicyInterval
  | .trainPeriodBoundary | .timelineWrap | .timelineSetAbsolute .. | .timelineSetRelative .. | .ethFrameReceive ..
  | .ethFrameTransmit .. | .tcMatchEntryExpire | .ptpDelayReqSend .. | .syncOffsetCompute | .delayRespReceive ..
  | .pdelayRespReceive .. | .servoQuietTimeout | .ppsInEdge .. | .ppsOutEdge | .ppsOutPulseEnd | .clk10mGate ..
  | .launchNoticeSend .. | .sqTailWrite .. | .cqHeadWrite .. | .submissionFetch .. | .fetchError ..
  | .coalesceTimerExpiry .. | .nop .. | .load .. | .start .. | .stop .. | .ctxStopRegister .. | .readEvents ..
  | .readSurvey .. | .replay .. | .replayBlockFetch | .label .. | .trainParam .. | .policy .. | .subJoin ..
  | .subLeave .. | .subscriberRecordWrite .. | .hostQueuePrefetch .. | .hostQueueInject .. | .hostQueueEject ..
  | .hdmRead .. | .ctxOpen .. | .keyInstallComplete | .attest .. | .keyRelease .. | .keyExport .. | .getCert ..
  | .privChallenge .. | .privGrant .. | .privExpiry | .opkeyEnrol .. | .cakSet .. | .mkaMessage .. | .spdmMessage ..
  | .ideLost .. | .endingComplete | .scrubComplete | .spareKeyReady | .drbgReseed | .entropyHealthFail
  | .keyExhausted | .patrolRead .. | .uncorrectableError .. | .fatalError .. | .errLogPop .. | .cxlLinkDown
  | .watchdogKick .. | .watchdogExpiry | .legendRestartComplete | .cartoucheWatchdogExpiry | .thermalTripCheck ..
  | .ageingSample .. | .calRead .. | .calWrite .. | .calSave .. | .errInject .. | .coldReset .. | .railExcursion ..
  | .contextReset .. | .arrayReset .. | .function1Flr | .fusesPhaseComplete .. | .firmwarePhaseComplete
  | .calibrationPhaseComplete | .memoryTrainingComplete .. | .memoryInitComplete | .bootTimerExpiry | .trialTimeout
  | .fwWrite .. | .fwStage .. | .fwConfirm .. | .fwDiscard .. | .syncHeaderLock .. | .tdcLock .. | .l1Lock ..
  | .cxlLinkTrained | .porLRise | .perstLRise => true

end Sys2Proof
end

