-- ==== Sys2Proof/Tests/Slice0.lean ====
section
/-!
SUPPORT. Tests: well-formedness and what it refuses, one step each on small states, and a witness for the hypotheses of
each statement.
-/
open Sys2Proof Sys2Proof.Machine Sys2Proof.Claims

namespace Sys2Proof.Tests
set_option Elab.async false

/-! Small states that the tests are about. -/

/-- The state after reset. -/
def s0 : State := State.reset
/-- Register words on top of a state. -/
def regs (s : State) (ws : List (Nat × Word)) : State := ws.foldl (fun t w => t.wr w.1 w.2) s
/-- In phase READY, with a context in this state. -/
def inCtx (c : Nat) : State := (s0.setPhase 7).setCtx c
/-- Picot 0 with this content, the rest blank. -/
def pic0 (x : Picot) : State := s0.setPicot 0 x
def b0 : Picot := Picot.blank
def at0 : At := { pic := 0, lg := 0 }
/-- PSEL 15: always. -/
def m0 : MHead := { loc := at0, psel := 15, pneg := false }
def c0 : CHead := { loc := at0, fin := false }
def v0 : MV := { fmt := 12, rnd := 0, vd := 0, va := 1, vb := 2, vc := 3, ck := 0, gi := 0, sub := 0 }
def flit0 : Flit := { data := 7, kind := 0, bad := true, last := true }
/-- A submission entry: opcode, the two lengths, and the PARAM bytes as one number. -/
def entry (op len0 len1 param : Nat) : BitVec 512 :=
  BitVec.ofNat 512 (op + len0 * 2 ^ 128 + len1 * 2 ^ 256 + param * 2 ^ 320)
/-- Ring 0 runs an entry. -/
def ring0 (s : State) (e : BitVec 512) : State := s.setRing 0 { Ring.reset with running := some e }

/-! Well-formedness: a sample of well-formed commands, and for each check an ill-formed term that it refuses. -/

/-- An MV with nothing in it. -/
def z : MV := { fmt := 0, rnd := 0, vd := 0, va := 0, vb := 0, vc := 0, ck := 0, gi := 0, sub := 0 }
def fz : MV := { z with fmt := 12 }
def mm0 : MM := { bank := 0, acc := false, scaled := false, afmt := 1, va := 0, seg := 0, gs := 0 }
def mq0 : MQ := { bank := 0, vd := 0, seg := 0, rrow := 0, ck := 0, gc := 0, rnd := 0, gi := 0, cks := 0 }
def mt0 : MT := { row := 0, wfmt := 1, part := false }
def ma0 : MA := { bank := 0, half := false, v := 0, nlog := 0 }
def ls0 : LS := { dir := .s, src := 0, v := 0, seg := 0, dq := 0, word := 0, last := false }

theorem test_wf_samples :
    ([.nopm m0, .wld m0 mt0, .wld m0 { mt0 with wfmt := 10, part := true }, .wsc m0 { word := 98303, part := false },
      .wswap m0, .mma m0 mm0, .mma m0 { mm0 with scaled := true }, .accq m0 mq0, .accx m0 ma0, .accz m0 ma0,
      .fadd m0 { fz with vd := 1, va := 2, vb := 3, rnd := 1, ck := 253, gi := 2 }, .fma m0 { fz with vc := 9 },
      .fmin m0 fz, .iadd m0 { z with fmt := 5 }, .andVector m0 fz, .cmp m0 { fz with sub := 7 }, .vsel m0 { z with fmt := 4, vc := 3 },
      .cvt m0 { fz with sub := 1 }, .qnt m0 { fz with ck := 250 }, .dqt m0 fz, .scale m0 fz, .bqnt m0 { fz with sub := 6 },
      .csum m0 z, .vld m0 { vd := 0, word := 8 }, .xcvt m0 fz, .xadd m0 z, .xrnd m0 fz, .vrsum m0 fz, .vrmax m0 fz,
      .vrng m0 z, .ldw at0 { v := 0, seg := 0, word := 98303 }, .send at0 ls0,
      .mreq at0 { write := true, ga := 0, gl := 0, word := 8 }, .hatom at0 { aop := 2, ga := 2, go := 4 },
      .rdsens at0 0 2 0, .qlen at0 0 true 7, .rdround at0 14, .addi at0 { gd := 2, ga := 4, imm := 0, pair := true },
      .cmpg at0 { ga := 0, gb := 0, pbit := 11, cond := 0 }, .lcset c0 0 1, .loop c0 0 1, .brp c0 11 false 0,
      .tsendi c0 .s 0x8001, .tput c0 0 0x8001, .registerWrite .f0 ⟨false, 0⟩ .b8 255, .warmReset 3 .f0 0] : List Instr).all Instr.wf = true := by
  decide

/-- PSEL 12 to 14 and "not always" (R155); fields an instruction does not use (R156, R157); the rounding fields (R156, R170). -/
theorem test_wf_refuses_heads_and_unused_fields :
    ([.nopm { m0 with psel := 12 }, .nopm { m0 with psel := 14 }, .nopm { m0 with pneg := true },
      .fadd m0 { fz with vc := 1 }, .fadd m0 { fz with sub := 1 }, .fmin m0 { fz with rnd := 1 }, .dqt m0 { fz with vb := 1 },
      .vrng m0 { z with va := 1 }, .xadd m0 fz, .scale m0 { fz with rnd := 1 },
      .fadd m0 { fz with rnd := 2 }, .fadd m0 { fz with rnd := 3 }, .fadd m0 { fz with rnd := 1, gi := 1 },
      .fadd m0 { fz with rnd := 1, ck := 254 }, .vrng m0 { z with gi := 1 }, .vrng m0 { z with ck := 254 }] : List Instr).all
        (fun i => !i.wf) = true := by
  decide

/-- Formats (R107, R105) and the fields of the MAC-array instructions. -/
theorem test_wf_refuses_formats :
    ([.fadd m0 z, .rcp m0 { z with fmt := 5 }, .iadd m0 fz, .iadd m0 { z with fmt := 3 }, .andVector m0 { z with fmt := 8 },
      .cmp m0 { fz with sub := 8 }, .cmp m0 { z with fmt := 5, sub := 6 }, .cvt m0 { z with fmt := 13, sub := 1 },
      .cvt m0 { z with sub := 3 }, .qnt m0 { z with fmt := 1 }, .qnt m0 { fz with ck := 251 }, .dqt m0 { fz with ck := 251 },
      .scale m0 z, .bqnt m0 fz, .bqnt m0 { z with sub := 1 }, .csum m0 { z with fmt := 5 }, .xcvt m0 { z with fmt := 4 },
      .xrnd m0 { z with fmt := 15 }, .vrsum m0 { z with fmt := 6 },
      .wld m0 { mt0 with row := 3072 }, .wld m0 { mt0 with wfmt := 12 }, .wld m0 { mt0 with part := true },
      .wsc m0 { word := 98304, part := false }, .mma m0 { mm0 with afmt := 4 }, .mma m0 { mm0 with afmt := 10, seg := 1 },
      .mma m0 { mm0 with afmt := 2, scaled := true }, .accq m0 { mq0 with rrow := 3072 }, .accq m0 { mq0 with ck := 249 },
      .accq m0 { mq0 with rnd := 2 }, .accq m0 { mq0 with rnd := 1, gi := 1 }, .accq m0 { mq0 with rnd := 1, cks := 254 },
      .accx m0 { ma0 with nlog := 1 }, .acca m0 { ma0 with nlog := 1 }, .accz m0 { ma0 with half := true },
      .accz m0 { ma0 with v := 1 }] : List Instr).all (fun i => !i.wf) = true := by
  decide

/-- Memory words, edges of the graticule, tokens, registers and trip counts of slots L and C. -/
theorem test_wf_refuses_lane_and_control :
    ([.ldw at0 { v := 0, seg := 0, word := 98304 }, .stw at0 { v := 0, seg := 0, word := 98304 }, .vld m0 { vd := 0, word := 4 },
      .send at0 { ls0 with src := 3 }, .send at0 { ls0 with dir := .w }, .send { at0 with pic := 1023 } { ls0 with dir := .n },
      .send { at0 with pic := 31 } { ls0 with dir := .e },
      .recv at0 { dq := 0, toSram := true, v := 0, seg := 0, word := 98304 },
      .mreq at0 { write := true, ga := 0, gl := 0, word := 4 }, .hatom at0 { aop := 3, ga := 0, go := 0 },
      .hatom at0 { aop := 0, ga := 1, go := 0 }, .hatom at0 { aop := 2, ga := 0, go := 1 }, .rdtime at0 1, .rdround at0 1,
      .rdsens at0 0 3 0, .qlen at0 0 true 8, .addi at0 { gd := 1, ga := 0, imm := 0, pair := true },
      .addi at0 { gd := 0, ga := 1, imm := 0, pair := true }, .cmpg at0 { ga := 0, gb := 0, pbit := 12, cond := 0 },
      .lcset c0 0 0, .lctim c0 0 0, .loop c0 0 0, .brp c0 12 false 0, .pset c0 12 0 0,
      .tsendi c0 .s 0x1000, .tsendi c0 .s 0xC001, .tsendi c0 .s 0x0001, .tsendi c0 .s 0x2004, .tsendi c0 .s 0x8000,
      .tsendi c0 .w 0, .tsendg c0 .w 0, .tput c0 0 0] : List Instr).all (fun i => !i.wf) = true := by
  decide

/-- The ranges of the hub's commands. -/
theorem test_wf_refuses_hub_commands :
    ([.registerWrite .f0 ⟨false, 0⟩ .b8 256, .registerWrite .f0 ⟨false, 0⟩ .b16 0x10000, .registerWrite .f0 ⟨false, 0⟩ .b32 0x100000000,
      .wideOrUnalignedAccess .f0 1 .b8 true 256, .holdRequestDeferred 0 .stop, .holdRequestDeferred 3 .stop,
      .holdRequestCancelling 2 .stop, .holdLimitDeadlock 0, .holdLimitDeadlock 5, .ringEnable .f0 0 0,
      .ringDisable .f0 0 0x80000000, .countWordWrite 0 0 1, .hdmWrite 0 [] true, .warmReset 2 .f0 0,
      .bistComplete [1088]] : List Instr).all (fun i => !i.wf) = true := by
  decide

/-- The table gives its rows no bits, so no word spells a command. -/
theorem test_decode_none : decodeTableWord 32 0x12345678 = none := by decide
theorem test_withFetchWord : (s0.withFetchWord 32 0x12345678).pending = [] := by decide +kernel

/-! One step each, on small states.  Expected values come from the worked examples of the spec, or from its rules by hand. -/

/-- The state after one command; the state itself where the command stops. -/
def after (i : Instr) (s : State) : State :=
  match exec i s with
  | .next t => t
  | _ => s

/-- A finite value p ÷ q. -/
def val (neg : Bool) (p : Nat) (q : Nat := 1) : Val := .fin neg { num := p, den := q }

/-- Example of R63: S8, s = 0.5, z = −3: 1.25 becomes −1 and 1.75 becomes 1. -/
theorem test_quantize_example :
    (quantTo Fmt.s8 .rn (-3) (val false 5 4) (val false 1 2)).1 = 0xFF ∧
    (quantTo Fmt.s8 .rn (-3) (val false 7 4) (val false 1 2)).1 = 0x01 := by decide +kernel

/-- R63: a NaN quotient gives z clamped to the code range, and counts SAT beside NAN where the clamp changes it. -/
theorem test_quantize_nan :
    quantTo Fmt.u8 .rn (-3) .nan (val false 1 2) = (0, { sat := 1, nan := 1 }) ∧
    quantTo Fmt.s8 .rn (-3) .nan (val false 1 2) = (0xFD, { nan := 1 }) := by decide +kernel

/-- Examples of R53 to R57: 17 and 19 in E4M3; its values up to 448; 10⁶ in E5M2. -/
theorem test_convert_fp8_examples :
    (convert Fmt.e4m3 .rn (val false 17)).1 = 0x58 ∧ (convert Fmt.e4m3 .rn (val false 19)).1 = 0x5A ∧
    convert Fmt.e4m3 .rn (val false 460) = (0x7E, {}) ∧ (convert Fmt.e4m3 .rn (val false 500)) = (0x7E, { sat := 1 }) ∧
    (convert Fmt.e5m2 .rn (val false 1000000)).1 = 0x7B := by decide +kernel

/-- Example of R60: −0.3 and −0.5 become 0 in U8 and count nothing; −0.6 becomes 0 and counts SAT. -/
theorem test_convert_u8_examples :
    convert Fmt.u8 .rn (val true 3 10) = (0, {}) ∧ convert Fmt.u8 .rn (val true 1 2) = (0, {}) ∧
    convert Fmt.u8 .rn (val true 6 10) = (0, { sat := 1 }) := by decide +kernel

/-- Example of chapter 12: data symbol 0 of a word of zeros reads 0x3. -/
theorem test_ecc_example :
    syndrome 64 3 0 = { s0 := 3, s1 := 0, s2 := 6, s3 := 0xA } ∧ eccDecode 64 3 0 = .corrected 0 0 := by decide +kernel

/-- Example of chapter 08: the constants of a first step. -/
theorem test_adaptation_step_example :
    let d : Adapt := { Adapt.none with desc := some (List.replicate 0x2C 0 ++ [0, 0, 0x60, 0x3F, 0, 0, 0x7C, 0x3F]) }
    let x := d.beginStep { Trainer.none with lr := 0x3A800000 }
    x.1.step = 1 ∧ x.1.p1 = 0x3F600000 ∧ x.1.p2 = 0x3F7C0000 ∧ x.2.a = 0x3A800000 ∧ x.2.dk = 0x3F800000 := by decide +kernel

/-- Example of R227: a TDC edge at k = 3,000 and code 200 has the fine time 305,144,096. -/
theorem test_tdc_example :
    let u := { s0 with trg := { s0.trg with widths := [(0, List.replicate 199 79 ++ [50, 72])] } }
    let t := (u.wr64 Reg.TRG_TDC_PERIOD (BitVec.ofNat 64 (16384 * 2 ^ 32))).wr64 Reg.TRG_TDC_ANCHOR 1000000
    (t.tdcTime 0 { k := 3000, code := 200 }).1 = 305144096 := by decide +kernel

/-- Example of R217: x[n − 1] = 800 at 5,000 ns, x[n] = 1,300, A = 1,000: timeline 320,025, FINE 154. -/
theorem test_threshold_crossing_example :
    let x (n : Nat) (c : Int) : TSample := { index := n, code := c, bad := false }
    let u := { (s0.wr64 Reg.ING_SAMPLE_PERIOD (BitVec.ofNat 64 (64 * 2 ^ 32))).wr (Reg.prim 0 Reg.TRG_PRIM_THR) 1000 with
      ing := { s0.ing with replay := some (BitVec.ofNat 64 320000, 10) } }
    u.primTime 0 { Prim.none with prev := [x 10 800, x 9 700] } (x 11 1300) = 320025 * 256 + 154 := by decide +kernel

/-- Examples of R186 (chapter 06): with R = 64, 4,096 samples of 1 ns and step 0, K = 94 has H = 96 ÷ 94 − 1 = 0.0212, and K = 95 less
than the 2 % that an image needs. -/
theorem test_headroom_example :
    let img (k : Nat) : Parsed :=
      { hdr := List.replicate 0x11 0 ++ [64, 12, 0, BitVec.ofNat 8 k, 0], secs := [], plain := fun _ => none, fills := [], layouts := ([], true),
        seeds := [], sram := [], data := [] }
    let p := 64 * 2 ^ 32
    10000 * (headroomNum (img 94) p - headroomDen (img 94)) / headroomDen (img 94) = 212 ∧
    102 * headroomDen (img 94) ≤ 100 * headroomNum (img 94) p ∧ 100 * headroomNum (img 95) p < 102 * headroomDen (img 95) := by decide +kernel

/-- Example of chapter 09: 640 ns less the residence and the mean link delay in the correction field. -/
theorem test_correction_field_example : State.addCorr 0x2800000 (79008 * 1024) = (0x7528000, false) ∧
    State.addCorr 0x2800000 (79008 * 1024 + 3457024) = (0x7874000, false) := by decide +kernel

/-- Example of chapter 01: the debug window of picot (17, 20). -/
theorem test_picot_window_example : Reg.PCT_PEEK_ADDR 657 - Reg.PCT_PEEK_ADDR 0 = 0x01291000 - 0x01000000 := by decide +kernel

/-- Example of R325: a 16-bit write to the upper half of ING_DEBT_CFG is ignored and reported; a later 32-bit write takes effect. -/
theorem test_access_violation_example :
    let t := after (.wideOrUnalignedAccess .f0 0x20542 .b16 true 0) (inCtx 0)
    let u := after (.registerWrite .f0 ⟨false, 0x20542⟩ .b16 0) (inCtx 0)
    t.rd Reg.ERR_ACCESS = 1 ∧ u.rd Reg.ERR_ACCESS = 1 ∧ u.rd Reg.ERR_ACCESS_INFO = 0x80020542 ∧
    (after (.registerWrite .f0 ⟨false, 0x20540⟩ .b32 0x00640384) u).rd Reg.ING_DEBT_CFG = 0x00640384 := by decide +kernel

/-- ADD and MUL wrap at 32 bits (R178): 0xFFFFFFFF + 0xFFFFFFFF and its square. -/
theorem test_scalar_wraps :
    let s := pic0 { b0 with logicals := [(0, { Logical.none with gp := [(1, 0xFFFFFFFF)] })] }
    ((after (.add at0 { gd := 2, ga := 1, gb := 1 }) s).picot 0).flight.map (fun x => x.res) = [.gp 2 0xFFFFFFFE] ∧
    ((after (.mul at0 { gd := 2, ga := 1, gb := 1 }) s).picot 0).flight.map (fun x => x.res) = [.gp 2 1] := by decide +kernel

/-- ADDI on a pair carries from the low register into the high one (R178), and writes both. -/
theorem test_addi_pair :
    let s := pic0 { b0 with logicals := [(0, { Logical.none with gp := [(2, 0xFFFFFFFF), (3, 6)] })] }
    ((after (.addi at0 { gd := 4, ga := 2, imm := 1, pair := true }) s).picot 0).flight.map (fun x => x.res) =
      [.gp 4 0, .gp 5 7] := by decide +kernel

/-- IADD saturates (R158): 127 + 127 in S8 gives 127, and −128 + −128 gives −128. -/
theorem test_iadd_saturates :
    let s := pic0 { b0 with vr := [(1, BitVec.ofNat 2048 0x807F)] }
    ((after (.iadd m0 { z with fmt := 1, vd := 1, va := 1, vb := 1 }) s).picot 0).flight.any (fun x =>
      match x.res with
        | .lanes v _ y => v == 1 && Machine.elem 8 y 0 == 0x7F && Machine.elem 8 y 1 == 0x80
        | _ => false) = true := by decide +kernel

/-- Nothing issues in a hold. -/
theorem test_hold_stops_issue : after (.movi at0 1 5) { s0 with hold := { Hold.reset with stopped := true } } =
    { s0 with hold := { Hold.reset with stopped := true } } := by decide +kernel

/-- The timeline's last value and its wrap: ERA counts up (R289). -/
theorem test_timeline_wraps :
    let t := after .timelineWrap { s0 with timeline := 0xFFFFFFFFFFFFFFFF }
    t.rd Reg.TIM_ERA = 1 ∧ t.timeline = 63 := by decide +kernel

/-- A deferred hold stops the array in 8 cycles, or cause 3 cancels the last eight (R203). -/
theorem test_hold_request : (after (.holdRequestDeferred 1 (.hbm 0)) s0).hold.stopIn = some 8 ∧
    (after (.holdRequestDeferred 3 (.hbm 0)) s0).hold.stopIn = none ∧
    (after (.holdRequestCancelling 3 (.hbm 0)) s0).hold.cancel = some 8 := by decide +kernel

/-- THERMTRIP_L falls at 125 °C and not below (R404); readings are in sixteenths of a degree. -/
theorem test_thermtrip : (after (.thermalTripCheck 2000 0) (inCtx 0)).out.contains .thermtrip = true ∧
    (after (.thermalTripCheck 1999 0) (inCtx 0)).out.contains .thermtrip = false := by decide +kernel

/-- The first bytes of the completions that a command writes. -/
def wrote (t : State) : List (List Byte) :=
  t.out.filterMap (fun o => match o with
    | .hostWrite _ bs => some (bs.take 4)
    | _ => none)
/-- Ring 0 with 2 entries runs an entry with this CID. -/
def ringed (s : State) (op cid : Nat) : State := ring0 (regs s [(Reg.HQ_RING_CFG 0, 0x80110000)]) (entry (op + 65536 * cid) 0 0 0)

/-- NOP completes with OK: CID, STATUS 0, and FLAGS bit 0 on the ring's first pass (R331, R334); a nonzero reserved byte is BAD_PARAM. -/
theorem test_nop_completion : wrote (after (.nop 0) (ringed (inCtx 0) 0 7)) = [[7, 0, 0, 1]] ∧
    wrote (after (.nop 0) (ring0 (regs (inCtx 0) [(Reg.HQ_RING_CFG 0, 0x80110000)]) (entry 0 0 0 1))) = [[0, 0, 2, 1]] := by decide +kernel

/-- CTX_OPEN completes with CONTEXT_UNAVAILABLE in SCRUBBING (R351); LOAD does so without a context; START of a context with no image
completes with STATE. -/
theorem test_context_refusals :
    wrote (after (.ctxOpen 0 [] none) (ringed (inCtx ctxScrubbing) 0x40 1)) = [[1, 0, 6, 1]] ∧
    wrote (after (.load 0 [] [] [] none) (ringed (inCtx ctxNone) 1 1)) = [[1, 0, 6, 1]] ∧
    wrote (after (.start 0) (ringed (inCtx ctxReady) 2 1)) = [[1, 0, 5, 1]] := by decide +kernel

/-- A count word takes a greater value and ignores a lesser one and a narrow write (R343). -/
theorem test_count_word_rises :
    let s := after (.countWordWrite 5 8 9) s0
    s.countWord 5 = 9 ∧ (after (.countWordWrite 5 8 8) s).countWord 5 = 9 ∧ (after (.countWordWrite 5 4 10) s).countWord 5 = 9 := by decide +kernel

/-- The example of chapter 07: LUT 0x8 fires on index 3 alone. -/
theorem test_class_lut_example :
    let s := s0.wr (Reg.cls 0 (Reg.TRG_CLASS_LUT 0)) 8
    s.lutBit 0 3 = true ∧ s.lutBit 0 2 = false ∧ s.lutBit 0 7 = false ∧ s.lutBit 0 255 = false := by decide +kernel

/-- A repair burns the fuses of its row (R144): PCOL 3 with bit 7, and a burned row is not burned again. -/
theorem test_repair_burn :
    let a (v : Word) (s : State) := (after (.repairBurn .f1 v) s).fuse.repair
    let s := after (.repairBurn .f1 0x80000003) (regs (inCtx 0) [(Reg.SEC_PRIV, 1)])
    s.fuse.repair = [(0, 0x83)] ∧ a 0x80000004 s = [(0, 0x83)] ∧ a 0x80000103 s = [(0, 0x83), (1, 0x83)] := by decide +kernel

/-- The front command is taken with the queue's rest. -/
theorem test_step_takes_front :
    step { s0 with pending := [.nopm m0, .entropyHealthFail] } = exec (.nopm m0) { s0 with pending := [.entropyHealthFail] } := rfl

/-! Witnesses: states and operands that meet the hypotheses of each statement. -/

/-- FloatVectorResults, IntegerAndBitwiseResults, ConversionResults, ExactSumAndMatrixResults. -/
theorem witness_issues : Issues s0 m0 ∧ Fmt.width 12 ≤ 32 ∧ Fmt.width ((s0.mctx at0).ck 0 |>.extractLsb' 0 4) ≤ 32 ∧
    CleanWords s0 0 (rowWords 3071) ∧ CleanWords s0 0 [98303] ∧ CleanWords s0 0 ((List.range 8).map (fun i => 98296 + i)) ∧
    pairs 0 (s0.picot 0).active.fmt = true ∧ 256 * 7 + 32 * Fmt.width 0 ≤ 2048 := by
  simp only [Issues, CleanWords]; decide +kernel

/-- A picot whose data queue 15 and token queue 7 hold an entry and have room. -/
def queues : Picot :=
  { b0 with dq := [(15, { cap := 2, items := [flit0] })], tq := [(7, { cap := 2, items := [0x2FFF] })] }

/-- ScalarResults, ScalarArithmeticWraps, MemoryAndQueueResults, SendAndAtomicResults: a running array. -/
theorem witness_scalar : (pic0 queues).hold.stopped = false ∧ 98303 % 32 ∉ ((pic0 queues).picot 0).lanePort ∧
    CleanWords (pic0 queues) 0 [98303] ∧ (((pic0 queues).picot 0).queue 15).items = [flit0] ∧
    0 < (((pic0 queues).picot 0).queue 15).credit := by
  simp only [CleanWords]; decide +kernel

/-- An atomic of column 31 in the hub. -/
def atomic31 : Atomic := { col := 31, wait := 0, flit := 0, taken := 0, age := 0, result := none }

/-- SendAndAtomicResults: outputs inside a pillow, across a bridge and to the hub; an atomic in the hub. -/
theorem witness_send : neighbour 0 .n = some 32 ∧ crosses 480 .n = true ∧ neighbour 480 .n = some 512 ∧ neighbour 32 .s = some 0 ∧
    neighbour 31 .s = none ∧ FreeOutput s0 0 32 .n 4 ∧ FreeOutput s0 480 512 .n 2 ∧
    let s : State := { s0 with arr := { s0.arr with atomics := [atomic31] } }
    s.nextAtomic 31 = some atomic31 ∧ fieldNat atomic31.flit 128 2 = 0 ∧ (∀ h ∈ s.arr.hub, ¬(h.port = portOf 31 ∧ h.wait = 2)) := by
  simp only [FreeOutput]; decide +kernel

/-- A picot with a pricking of 2,048 bundles in slot 7, bound to logical pricking 0, whose link-slot entry of cycle 0
is `e` (`b0 := false`: not under the boot table). -/
def bound (n : Nat) (l : Logical) (e : Nat) (x : Picot) : State :=
  let w (v : Nat) : Stored := { gen := 1, word := BitVec.ofNat 256 v }
  { s0 with keyGen := 1 }.setPicot 0 { x with
    boot := false, slots := [(7, { kind := .bound, flits := [(0, w n), (3, w e)] })],
    fold := [(0, 0)], logicals := [(0, { l with slot := some 7 })] }


/-- ArrivalResults: link-slot entries that eject the north input's flit and token, or pass them south, and what arrives. -/
theorem witness_arrival :
    let s := bound 2 Logical.none (0x40 + 0x20 * 2 ^ 32) b0
    let t := bound 2 Logical.none 0x90 b0
    s.hold.stopped = false ∧ (s.picot 0).boot = false ∧ (State.flitSlot (s.linkSlot 0) 0).1 = 1 ∧
    (State.tokenSlot (s.linkSlot 0) 0).1 = 1 ∧ tokenInvalid 0x4FFF = false ∧ (0x4FFF : BitVec 16) ≠ 0 ∧
    (State.flitSlot (t.linkSlot 0) 0).1 = 2 ∧ neighbour 0 (dirOfNat (State.flitSlot (t.linkSlot 0) 0).2.1) = some 1 ∧
    FreeOutput t 0 1 .e 1 ∧ (1#8).getLsbD 0 = true ∧ flitCheck 1 0 ≠ flitCheck 1 0 + 1 := by
  simp only [FreeOutput]; decide +kernel

/-- ControlResults, TokenAndSteeringResults: an ordinary bundle before the last of the longest pricking, and one after which
nothing but a jump stays inside; counters at 0, at 1 and in timer mode; a predicate that holds and one that does not. -/
theorem witness_control :
    let lc : SMap LoopCtr := [(6, { count := 1, timer := true }), (7, { count := 1, timer := false })]
    let s := bound 2048 { Logical.none with pc := 2046, prd := 0x800 } 0 { queues with lc := lc }
    let w := bound 2048 { Logical.none with waiting := some 0 } 0 { queues with lc := lc }
    Straight s c0 ∧ ((s.picot 0).loopCtr 0).count = 0 ∧ ((s.picot 0).loopCtr 7).count ≠ 0 ∧ ((s.picot 0).loopCtr 6).timer = true ∧
    (s.lg at0).slot = some 7 ∧ 2047 < s.nBundles 0 7 ∧ ((s.lg at0).prd.getLsbD 11 != false) = true ∧
    ((s.lg at0).prd.getLsbD 11 != true) = false ∧ (w.lg at0).waiting = some 0 ∧ ((w.picot 0).loopCtr 0).count = 0 ∧
    (bound 3 Logical.none 0 b0).nBundles 0 7 = 3 ∧ (0 + (1#11).toNat + 1 < min 3 2048) := by
  simp only [Straight]; decide +kernel

/-- TokenAndSteeringResults: tokens that may leave, queues with room, at their last entry, of the kinds that TPRD and LCTOK take;
a unit that is configured; one in the middle of an item in each of the three modes. -/
theorem witness_tokens :
    let unit (m : Nat) : SteerUnit := { SteerUnit.off with cfg := BitVec.ofNat 64 (m + 0xF0 * 2 ^ 32), running := true, left := 1 }
    let s := pic0 { queues with steer := [(0, unit 1), (1, unit 2), (2, unit 3)] }
    neighbour 0 .n = some 32 ∧ FreeTokens s 0 32 .n ∧ tokenInvalid 0x4FFF = false ∧
    ((s.picot 0).tqueue 7).items = [0x2FFF] ∧ 0 < ((s.picot 0).tqueue 7).credit ∧ fieldNat (0xAFFF : BitVec 16) 13 3 = 5 ∧
    fieldNat (0x4000 : BitVec 16) 13 3 = 2 ∧ fieldNat (0x4000 : BitVec 16) 0 12 = 0 ∧
    ((s.picot 0).unit 0).mode = 1 ∧ ((s.picot 0).unit 1).mode = 2 ∧ ((s.picot 0).unit 2).mode = 3 ∧
    ((s.picot 0).unit 0).running = true ∧ ((s.picot 0).unit 0).left ≠ 0 := by
  simp only [FreeTokens]; decide +kernel

/-- NothingIssuesInAHold: a stopped array; a predicate that is 0, for an instruction that reads SRAM words and one that does not. -/
theorem witness_hold : ({ s0 with hold := { Hold.reset with stopped := true } } : State).hold.stopped = true ∧
    stitch (.nopm m0) = true ∧ stitch (.bclr c0) = true ∧ mSlotOf (.wswap m0) = some m0 ∧
    s0.predicate { m0 with psel := 11 } = false ∧ s0.hold.stopped = false ∧ sramWordsOf (.wswap m0) = [] ∧
    sramWordsOf (.wsc m0 { word := 98303, part := false }) ≠ [] ∧ mSlotOf (.wsc m0 { word := 98303, part := false }) = some m0 ∧
    CleanWords s0 0 [98303] := by
  simp only [CleanWords]; decide +kernel

/-- ResultsLand: one result in flight, with a cycle left and with two. -/
theorem witness_flight : let x (n : Nat) : InFlight := { left := n, cyc := 0, slot := 1, lg := 7, res := .gp 15 9 }
    ((pic0 { b0 with flight := [x 1] }).picot 0).flight = [x 1] ∧ ((pic0 { b0 with flight := [x 2] }).picot 0).flight = [x 2] := by
  decide +kernel

/-- HoldResults, BridgeAndDeadlockResults: no request, and one of each source; ARY_DEADLOCK empty and not. -/
theorem witness_requests :
    let s : State := { s0 with hold := { Hold.reset with reqs := [{ cause := 3, src := .bridge 3, cancel := true, cyc := 63 }] } }
    s0.requested 1 (.picotDq 1023 15) = false ∧ s.requested 3 (.bridge 3) = true ∧ s.deadlockReq 3 ≠ none ∧ s.arr.cycle < 64 ∧
    s0.hold.seen = [] ∧ s0.rd Reg.ARY_DEADLOCK = 0 ∧ (regs s0 [(Reg.ARY_DEADLOCK, 5)]).rd Reg.ARY_DEADLOCK ≠ 0 ∧
    let w := bound 2 { Logical.none with waiting := some 7 } 0 b0
    (w.lg at0).waiting = some 7 ∧ ((w.picot 0).loopCtr 7).timer = false ∧ (w.lg at0).waitAt < 64 := by decide +kernel

/-- A FILL header for picot 0, slot 7, logical pricking 7. -/
def fillHeader (mode len : Nat) : BitVec 256 := BitVec.ofNat 256 (7 * 2 ^ 10 + 7 * 2 ^ 13 + mode * 2 ^ 16 + len * 2 ^ 32)

/-- FillResults: headers with each MODE and a body of one flit and of the most; a header for another picot; a fill in its
middle and at its last flit, of the link of the last FILL flit; a logical pricking that is bound already. -/
theorem witness_fill :
    let f (m : BitVec 2) (n : Nat) (d : Bool) : FillIn := { slot := 6, logical := 0, mode := m, left := n, index := 1, discard := d }
    (∀ m < 3, fieldNat (fillHeader m 1) 32 16 ≠ 0 ∧ fieldNat (fillHeader m 65535) 32 16 = 65535 ∧ fieldNat (fillHeader m 1) 18 14 = 0 ∧
      fieldNat (fillHeader m 1) 48 16 = 0 ∧ fieldNat (fillHeader m 1) 64 192 = 0 ∧ field (fillHeader m 1) 16 2 ≠ 3) ∧
    (b0.slot 7).kind = .free ∧ State.filling b0 = none ∧ ¬(fieldNat (fillHeader 0 1) 0 5 = 1023 % 32 ∧ fieldNat (fillHeader 0 1) 5 5 = 1023 / 32) ∧
    let x (y : FillIn) : Picot := { b0 with fills := [(b0.fillLink, y)] }
    State.filling ((pic0 (x (f 1 2 false))).picot 0) = some (f 1 2 false) ∧
    State.filling ((pic0 (x (f 1 2 true))).picot 0) = some (f 1 2 true) ∧
    (∀ m < 3, State.filling ((pic0 (x (f m 1 false))).picot 0) = some (f m 1 false)) ∧
    let s := bound 2 Logical.none 0 (x (f 2 1 false))
    State.filling (s.picot 0) = some (f 2 1 false) ∧ ((s.picot 0).logical 0).slot = some 7 := by decide +kernel

/-- Every picot holds a shadow pricking for logical 0. -/
def shadowed : State :=
  let x : Picot := { b0 with logicals := [(0, { Logical.none with shadow := some 5 })] }
  let s := regs (inCtx 0) [(Reg.ARY_FLIP, 1), (Reg.ARY_FLIP_CFG, 1)]
  { s with arr := { s.arr with picots := (List.range 1024).map (fun p => (p, x)) } }

/-- FollowAndFlipResults: a flip that may be armed, since every picot has a shadow. -/
theorem witness_shadowed : shadowed.lacksShadow 0 = false := by
  unfold State.lacksShadow
  rw [List.any_eq_false]
  intro p hp
  have hx : shadowed.picot p = { b0 with logicals := [(0, { Logical.none with shadow := some 5 })] } := by
    unfold State.picot shadowed
    dsimp only
    rw [SMap.get_map_const, if_pos hp]
  rw [hx]
  decide

/-- FollowAndFlipResults: a logical pricking with a slot that follows, ended and not; a flip that may be armed for the next
round, with one pricking that has a shadow; an armed flip. -/
theorem witness_flip :
    let l : Logical := { Logical.none with follow := some 6, shadow := some 5 }
    let b := bound 2 l 0 b0
    (b.lg at0).follow = some 6 ∧ (b.lg at0).ended = false ∧ (b.lg at0).slot ≠ none ∧
    ((bound 2 { l with ended := true } 0 b0).lg at0).ended = true ∧
    let s := shadowed
    s.answers (Reg.ARY_FLIP + 4) = true ∧ s.rdB Reg.ARY_FLIP_STATUS 0 = false ∧ s.arr.round.toNat < (0#32 ++ s.rd Reg.ARY_FLIP).toNat ∧
    (∀ j < 8, bit (s.rd Reg.ARY_FLIP_CFG) j = true → j = 0) ∧
    let t := { b.wrB Reg.ARY_FLIP_STATUS 0 true with arr := { b.arr with flip := (1, 1) } }
    t.rdB Reg.ARY_FLIP_STATUS 0 = true ∧ (t.arr.picots.map Prod.fst).Nodup ∧ ((t.picot 0).logical 0).shadow = some 5 ∧
    bit t.arr.flip.2 0 = true ∧ bit t.arr.flip.2 7 = false := by decide +kernel

/-- RepairAndDebugResults: an array that answers, a debug read that waits, in the open and in a protected context, at the last
SRAM word; a privileged master and a row whose spare is unused, and one whose spare is burned. -/
theorem witness_repair :
    let s : State := { regs (inCtx 0) [(Reg.PCT_PEEK_ADDR 1023, 98303), (Reg.SEC_PRIV, 1)] with peeks := [1023] }
    s.answers (Reg.PCT_PEEK_ADDR 1023) = true ∧ (1023 : Fin 1024) ∈ s.peeks ∧ s.isProtected = false ∧
    (s.wrB Reg.SEC_CTX_STATUS 3 true).isProtected = true ∧ fieldNat (s.rd (Reg.PCT_PEEK_ADDR 1023)) 30 2 = 0 ∧
    fieldNat (s.rd (Reg.PCT_PEEK_ADDR 1023)) 0 17 < 98304 ∧ CleanWords s 1023 [98303] ∧ s.privileged .f1 = true ∧
    s.answers Reg.ARY_REPAIR_CMD = true ∧ ¬s.fuse.burned (State.repairRow 0x80003F0F) ∧ fieldNat (0x80003F0F : Word) 0 5 < 16 ∧
    ({ Fuses.blank with repair := [(63, 0x80)] } : Fuses).burned (State.repairRow 0x80003F0F) := by
  simp only [CleanWords, Fuses.burned]; decide +kernel


/-- MemoryLaneResults: a read and a write of one line that wait at a tap, at the last line of the pillow and the last SRAM
words; a request on the lane, and a beat on it that comes to its tap; a beat that has come, the last one and one before it; a write
at the end of its commit lag. -/
theorem witness_memory_lane :
    let r (w : Bool) (n : Nat) : LaneReq :=
      { addr := 0xFFFFFFFF, len := n, write := w, word := 98296, lg := 0, sent := false, beat := 0, due := 0, taken := 0, data := [] }
    let s := pic0 { b0 with laneOut := [r true 1] }
    let u := pic0 { b0 with laneIn := [{ r false 2 with data := [some 5] }] }
    s.hold.stopped = false ∧ (s.picot 0).laneOut = [r true 1] ∧ ((pic0 { b0 with laneOut := [r false 2] }).picot 0).laneOut = [r false 2] ∧
    CleanWords s 0 ((List.range 8).map (fun i => (r true 1).word + 8 * (r true 1).beat + i)) ∧ (r true 1).len = (r true 1).beat + 1 ∧
    (s.picot 0).lport = none ∧ s.arr.lanes = [] ∧
    (let b (out : Bool) : LaneBeat := { pic := 0, out := out, req := true, bits := 0, tap := 0, word := 98296, addr := 0, age := 1 }
     let w : State := { s0 with arr := { s0.arr with lanes := [b false, b true] } }
     w.arr.lanes.find? (fun x => x.out && x.req && decide (x.tap = 0)) = some (b true) ∧ (b true).bits.getLsbD 48 = false ∧
     w.arr.lanes.find? (fun x => !x.out && decide (x.tap = 0)) = some (b false)) ∧
    (let y : LaneStore := { wait := 1, line := 0, data := 5 }
     let v : State := { s0 with arr := { s0.arr with stores := [y] } }
     v.arr.stores = [y] ∧ RoomToWrite v) ∧
    (u.picot 0).laneIn = [{ r false 2 with data := [some 5] }] ∧ (u.picot 0).lport = none ∧ u.img.hbmKey = none := by
  simp only [CleanWords, RoomToWrite]; decide +kernel

/-- A host request of a controller. -/
def hostReq (dpa len : Nat) (bs : Option (List Byte)) : MemReq := { cls := 4, dpa := dpa, len := len, data := bs }

/-- MemoryServiceResults: a beat of the array at a stack; a host write of a whole line and a read up to the end of one, at an
HBM stack and at a DDR5 channel; lines that are good, corrected, bad and lost, with patrol enabled. -/
theorem witness_memory_service :
    let r : LaneReq := { addr := 0, len := 1, write := false, word := 0, lg := 0, sent := false, beat := 0, due := 0, taken := 0, data := [] }
    let s := pic0 { b0 with laneIn := [r] }
    s.arrayBeat 0 = some (0, 0, r) ∧ s.requested 2 (.hbm 0) = false ∧ s.readLine (r.line 0 0) = (s, some 0) ∧
    let bs : List Byte := List.replicate 256 3
    let q (x : MemReq) : State := { s0 with mem := { s0.mem with queue := [(11, [x]), (16 + 7, [x])] } }
    (q (hostReq 0 256 (some bs))).arrayBeat 11 = none ∧ RoomToWrite (q (hostReq 0 256 (some bs))) ∧
      SMap.get [] (q (hostReq 0 256 (some bs))).mem.queue 11 = [hostReq 0 256 (some bs)] ∧
    bs.length = 256 ∧ SMap.get [] (q (hostReq 255 1 none)).mem.queue 23 = [hostReq 255 1 none] ∧ 255 % 256 + 1 ≤ 256 ∧
    0 ∉ s0.mem.lost ∧ (s0.line 0).err = 0 ∧
    State.firstServed [hostReq 0 256 (some bs)] = some (hostReq 0 256 (some bs)) ∧
    State.firstServed [hostReq 255 1 none] = some (hostReq 255 1 none) ∧
    let p := regs (s0.putLine 1 { Line.blank with err := 1 }) [(Reg.MEM_PATROL_CFG, 0x80000000), (Reg.GLB_BOOT_STATUS, 0x70000000)]
    p.phase = 7 ∧ SMap.get [] p.mem.queue (controllerOf 1) = [] ∧ p.rdB Reg.MEM_PATROL_CFG 31 = true ∧ p.backed (256 * 1) = true ∧
      (checkLine (p.line 1).err).bad = none ∧
    (checkLine (p.line 1).err).fixed ≠ [] ∧ (checkLine 0x11).bad = some 0 ∧ p.mem.lost.length < 256 ∧
    1 ∈ ({ p.mem with lost := [1] } : MemState).lost ∧
    let k : State := { s0 with mem := { s0.mem with ctr := [(0, 2 ^ 56 - 2 ^ 32)] } }
    2 ^ 56 - 2 ^ 32 ≤ k.verOf 0 ∧ k.rdB Reg.SEC_CTX_STATUS 11 = false ∧ (k.wrB Reg.SEC_CTX_STATUS 11 true).rdB Reg.SEC_CTX_STATUS 11 = true ∧
    (∀ e ∈ s0.mem.ctr, e.2 < 2 ^ 56 - 2 ^ 32) := by
  simp only [RoomToWrite]; decide +kernel

/-- MemoryReadsBack. -/
theorem witness_write_counter : 0 < s0.verOf 0 ∧ s0.verOf 0 + 1 < 2 ^ 56 - 2 ^ 32 ∧ controllerOf 0 = 0 ∧
    SMap.wf (fun _ => Line.blank) s0.mem.lines = true := by decide +kernel

/-- RegisterAccessResults: a register without a rule of its own, one that needs privilege, a pair. -/
theorem witness_register_access :
    let s := regs (inCtx 0) [(Reg.SEC_PRIV, 1)]
    ((regAt Reg.TIM_STEP_THR).any (fun x => !x.1.priv) = true) ∧ s.answers Reg.TIM_STEP_THR = true ∧ Reg.TIM_STEP_THR % 4 = 0 ∧
    s.writeLow .f0 Reg.TIM_STEP_THR 7 = none ∧ s.writeHigh .f0 Reg.TIM_STEP_THR 7 = none ∧
    s.privileged .f1 = true ∧ s.privileged .f0 = false ∧
    ((regAt Reg.TIM_SET).any (fun x => x.1.pair && !x.1.priv && decide (x.2 = 0)) = true) ∧ Reg.TIM_SET % 8 = 0 ∧
    (({ s with latches := [(0, { low := some Reg.TIM_SET, word := 5 })] } : State).latch .f0).low = some Reg.TIM_SET ∧
    (s.writeReg .f0 Reg.TIM_SET 7).rd Reg.ERR_ACCESS = s.rd Reg.ERR_ACCESS ∧
    (let c := inCtx ctxRunning
     (c.writeReg .f0 327728 7).rd Reg.ERR_ACCESS ≠ c.rd Reg.ERR_ACCESS ∧ c.answers 327728 = true ∧
     (regAt 327728).any (fun x => x.1.pair && !x.1.priv && decide (x.2 = 0)) = true) ∧
    s.rdB (Reg.msix 63 3) 0 = true ∧ s.rdB (Reg.msixPba 63) 31 = false ∧
    (let u := regs s [(Reg.msix 63 3, 0), (Reg.msixPba 63, 0x80000000)]
     u.rdB (Reg.msix 63 3) 0 = false ∧ u.rdB (Reg.msixPba 63) 31 = true) := by
  decide +kernel

/-- AccessViolations: each way to violate R325 and R329. -/
theorem witness_violations :
    abortKind 0 .wider = some 1 ∧ abortKind 2 .b32 = some 2 ∧ abortKind 0 .b64 = some 1 ∧ abortKind 1 .b16 = some 2 ∧
    abortKind 1 .b8 = none ∧ (regAt (1 - 1 % 4)).isSome = true ∧ (regAt Reg.ARY_REPAIR_CMD).any (fun x => x.1.priv) = true ∧
    s0.privileged .f0 = false ∧ Reg.ARY_REPAIR_CMD % 4 = 0 ∧ regAt 0x1FFFFFC = none ∧ pairLow 0 = false ∧ pairLow Reg.TIM_SET = true ∧
    pairLow Reg.TIM_SET = true ∧ Reg.TIM_SET % 8 = 0 ∧
    s0.rdB Reg.ERR_ACCESS_INFO 31 = false ∧ (regs s0 [(Reg.ERR_ACCESS_INFO, 0x80000000)]).rdB Reg.ERR_ACCESS_INFO 31 = true := by
  decide +kernel

/-- ThrottleResults: a Legend controller that runs; samples at and below the thresholds; counts at their limits; a step asked
for, and one under way. -/
theorem witness_throttle :
    let s := inCtx 0
    let b (f : BootSt → BootSt) : State := { s with boot := f s.boot }
    s.legendUp = true ∧ State.isHot 0x7FFF (s.rd Reg.HLT_THERM_CFG) = true ∧ State.isHot 0x8000 (s.rd Reg.HLT_THERM_CFG) = false ∧
    State.isHot 0x8000 (s.rd Reg.HLT_HBM_CFG) = false ∧ s.stepCode = 3 ∧ s.stepCode ≠ 0 ∧ s.fastest ≤ s.stepCode - 1 ∧
    10 ≤ (b (fun x => { x with hot := 10, cool := 1000 })).boot.hot ∧ (s.wrF Reg.GLB_CLK_STATUS 0 2 2).stepCode < 3 ∧
    (s.wrF Reg.HLT_STEP_CAP 0 2 3).stepCode - 1 < (s.wrF Reg.HLT_STEP_CAP 0 2 3).fastest ∧ s.answers Reg.HLT_STEP_CAP = true ∧
    (b (fun x => { x with target := some 2 })).boot.target = some 2 ∧ s.changing = false ∧ s.requested 5 .legend = false ∧
    let u : State := { s.wrB Reg.GLB_CLK_STATUS 2 true with hold := { Hold.reset with reqs := [{ cause := 5, src := .legend, cancel := false, cyc := 0 }] } }
    s.now % 180 = 0 ∧ ({ s with now := 18 } : State).now % 180 ≠ 0 ∧ s.stepCode ≠ 2 ∧ u.changing = true ∧ u.boot.waiting = none ∧
      u.img.streams = [] ∧ u.fastest ≤ u.stepCode ∧ u.requested 5 .legend = true ∧
    (1759 : BitVec 16).toInt < 1760 ∧ (1599 : BitVec 16).toInt < 1600 ∧ (1760 : BitVec 16).toInt < 2000 ∧
    (1600 : BitVec 16).toInt < 2000 ∧ 2000 ≤ (2000 : BitVec 16).toInt ∧ (s.fatal 0x0E 2000).boot.thermtrip = false := by
  decide +kernel

/-- ColdResetResults, LesserResetResults: pins high; the keyed writes; states with and without a context; no step change. -/
theorem witness_resets :
    let s := inCtx ctxLoaded
    s.boot.porLow = false ∧ s.boot.perstLow = false ∧ s.privileged .cartouche = true ∧ fieldNat (0x9E370001 : Word) 16 16 = 0x9E37 ∧
    bit (0x9E370001 : Word) 0 = true ∧ fieldNat (0xC7A50001 : Word) 16 16 = 0xC7A5 ∧ fieldNat (0xC7A50001 : Word) 0 2 = 1 ∧
    fieldNat (0xC7A50003 : Word) 0 2 = 3 ∧ s.sec.ctxRst = false ∧ s.changing = false ∧
    s.ctx ∈ [ctxOpening, ctxReady, ctxLoaded, ctxRunning, ctxHalted] ∧ (inCtx ctxNone).ctx = ctxNone ∧
    (inCtx ctxScrubbing).ctx ∈ [ctxNone, ctxScrubbing] ∧
    ({ s with time := { s.time with ppsOut := true } } : State).time.ppsOut = true ∧
    (s.setTout 15 { TOut.none with high := true }).pinHigh 15 = true ∧
    (s.wrB (Reg.TRG_OUT_CFG 0) 30 true).pinHigh 0 = true := by decide +kernel


/-- CompletionResults: LOAD on two rings, of which the first fetched has its turn; a command that any ring runs at once. -/
theorem witness_turns :
    let load := SubEntry.mk (entry 1 0 0 0)
    let r (n : Nat) : Ring := { Ring.reset with running := some load.raw, turn := n }
    let s := ((inCtx ctxReady).setRing 0 (r 1)).setRing 1 (r 0)
    s.running 0 = some load ∧ s.running 1 = some load ∧ load.opcode ∈ [0x01, 0x02, 0x03, 0x40] ∧ (s.ring 1).turn < (s.ring 0).turn ∧
    s.sec.opening ≠ some 1 ∧ 1 ∉ s.sec.stops ∧ s.isTurn 0 = false ∧ s.isTurn 1 = true ∧ (0x00 : Byte) ∉ [0x01, 0x02, 0x03, 0x40] := by
  decide +kernel

/-- CompletionResults, RingResults: a running command; completion rings with room, full, and holding a completion; an entry
with a reserved byte; a ring that may fetch; doorbells inside and outside the ring; pending completions. -/
theorem witness_rings :
    let e := SubEntry.mk (entry 0 0 0 0)
    let cfg : Word := 0x80440402
    let s := regs (inCtx 0) [(Reg.HQ_RING_CFG 0, cfg), (Reg.HQ_SQ_TAIL 0, 15)]
    Runs (ring0 s e.raw) 0 0x00 0 e ∧ (ring0 s e.raw).cqFull 0 = false ∧
    (ring0 (s.wrF (Reg.HQ_CQ_HEAD 0) 0 12 1) e.raw).cqFull 0 = true ∧
    (SubEntry.mk (entry 0 0 0 1)).badByte 0 = some 0x28 ∧ (ring0 s0 e.raw).phaseTakes 0x00 = false ∧ s.mayFetch 0 = true ∧
    opAssigned 0x73 = true ∧ opAssigned 0x0C = false ∧ s.sqSize 0 = 16 ∧ s.answers (Reg.HQ_SQ_TAIL 0) = true ∧
    fieldNat (15 : Word) 0 12 < 16 ∧ 16 ≤ fieldNat (16 : Word) 0 12 ∧ (s.ring 0).held = none ∧
    s.rdB (Reg.HQ_RING_CFG 0) 31 = true ∧ s0.rdB (Reg.HQ_RING_CFG 15) 31 = false ∧ State.ringSizesOk 0x80CC0000 = true ∧
    (let w := (s.wrF (Reg.HQ_RING_STAT 0) 8 8 1).setRing 0 { Ring.reset with waiting := 1 }
     0 < (w.ring 0).waiting ∧ w.rdF (Reg.HQ_RING_STAT 0) 8 8 ≠ 0 ∧ w.vecMasked 4 = true ∧
     field (w.rd (Reg.HQ_RING_CFG 0)) 8 6 = (4 : BitVec 6) ∧ (regs w [(Reg.msix 4 3, 0)]).vecMasked 4 = false) ∧
    (s.wrF (Reg.HQ_CQ_HEAD 0) 0 12 1).fetchWaits 0 = true ∧ s.fetchWaits 0 = false := by
  simp only [Runs]; decide +kernel

/-- ContextLifeResults: START in LOADED and in another open state; STOP with a context and without one; ENDING; SCRUBBING with
no STOP that runs and with one. -/
theorem witness_context_life :
    let start := SubEntry.mk (entry 2 0 0 0)
    let stop := SubEntry.mk (entry 3 0 0 0)
    Runs (ring0 (inCtx ctxLoaded) start.raw) 0 0x02 9 start ∧ start.param 8 1 = 0 ∧ start.param 0 8 = 0 ∧
    (ring0 (inCtx ctxLoaded) start.raw).ctx = ctxLoaded ∧ (inCtx ctxLoaded).ueStop = false ∧
    (ring0 { (inCtx ctxLoaded).wr64 Reg.ING_SAMPLE_PERIOD (BitVec.ofNat 64 (64 * 2 ^ 32)) with img := { Image.none with blockLog2 := (inCtx ctxLoaded).rdF Reg.ING_BLOCK_CFG 0 5 } } start.raw).ingAccepted = true ∧
    ({ inCtx ctxLoaded with img := { Image.none with blockLog2 := 20 } } : State).ingAccepted = false ∧
    (SubEntry.mk (entry 2 0 0 1)).param 0 8 ≠ 0 ∧ (inCtx ctxLoaded).newestBlock = none ∧
    (inCtx ctxLoaded).adapt.policy = [] ∧ (inCtx ctxHalted).ctx ∈ [ctxReady, ctxRunning, ctxHalted] ∧
    Runs (ring0 (inCtx ctxOpening) stop.raw) 0 0x03 0 stop ∧
    (inCtx ctxOpening).ctx ∈ [ctxOpening, ctxReady, ctxLoaded, ctxRunning, ctxHalted] ∧
    Runs (ring0 (inCtx ctxNone) stop.raw) 0 0x03 0 stop ∧ (ring0 (inCtx ctxNone) stop.raw).ctx = ctxNone ∧
    (inCtx ctxEnding).answers Reg.SEC_CTX_STOP = true ∧ (inCtx ctxEnding).ctx = ctxEnding ∧ (inCtx ctxScrubbing).ctx = ctxScrubbing ∧
    (inCtx ctxScrubbing).sec.stops = [] := by
  simp only [Runs]; decide +kernel

/-- An image whose ring block is 256 bytes, in a ring of 1 GiB. -/
def smallImage : Image := { Image.none with ringBlock := 256, ringGib := 1 }
/-- A running context with that image, in replay mode. -/
def replaying (q : ReplayQ) : State := { (inCtx ctxRunning).wrB Reg.ING_EB_MODE 1 true with img := { smallImage with inputs := [InEntry.mk 31 0 0 0 0] }, replay := q }

/-- ReplayResults: a buffer of one block that is the expected one; the queue with two blocks and with the last. -/
theorem witness_replay :
    let e := SubEntry.mk (entry 6 256 0 (2 ^ 64))
    let s := ring0 (replaying { ring := none, blocks := [], next := some 0, taken := 0 }) e.raw
    let data : List Byte := List.replicate 256 0
    Runs s 0 0x06 12 e ∧ s.ctx = ctxRunning ∧ s.ueStop = false ∧ s.replaying = true ∧ s.replay.ring = none ∧
    s.replay.next = some (e.param 0 8) ∧ e.len0.toNat = e.param 8 4 * s.ringBlock ∧ e.param 8 4 = 1 ∧
    leAt ((data.drop (0 * s.ringBlock)).take s.ringBlock) 0 8 = 0 ∧
    let q (bs : List (List Byte)) := replaying { ring := some 0, blocks := bs, next := some 2, taken := 0 }
    (q [data, data]).replaying = true ∧ (q [data, data]).replay.lost ≠ some 0 ∧ (q [data, data]).blockPresent (q [data, data]).gateBlock = false ∧ (q [data]).replay.blocks = [data] ∧
    ({ q [data, data] with replay := { (q [data, data]).replay with lost := some 0 } } : State).replay.lost = some 0 ∧
    (replaying { ring := none, blocks := [], next := none, taken := 0 }).replay.blocks = [] := by
  simp only [Runs]; decide +kernel

/-- LaneResults: a lane that is on, unlocked and locked, aligned; a lane of a JESD204C link; a source that fills. -/
theorem witness_lanes :
    let noler : Word := 0xA0000320
    let jesd : Word := 0x80000320
    let s := regs (inCtx 0) [(Reg.ING_LANE_CFG 63, noler), (Reg.ING_LANE_CFG 0, jesd)]
    let a := regs s [(Reg.ING_LANE_STATUS 63, 3), (Reg.ING_LANE_STATUS 0, 3)]
    s.answers (Reg.ING_LANE_CFG 63) = true ∧ s.contextRuns = false ∧ s.laneOn 63 = true ∧ s.noler 63 = true ∧
    s.rdB (Reg.ING_LANE_STATUS 63) 0 = false ∧ a.rdB (Reg.ING_LANE_STATUS 63) 0 = true ∧ a.rdB (Reg.ING_LANE_STATUS 63) 1 = true ∧
    a.noler 0 = false ∧ a.rdB (Reg.ING_LANE_STATUS 0) 1 = true ∧ s.laneOn 0 = true ∧ s.laneMode 0 = 0 ∧ s.delivers 63 = false ∧
    a.delivers 63 = true ∧ ((s.setLane 63 { LaneIn.none with expect := some 0 }).lane 63).expect = some 0 ∧
    let l : State := { s with ing := { s.ing with links := [(15, { JLink.none with started := true })] } }
    (l.link 15).started = true ∧ (l.link 0).started = false ∧ s.answers (Reg.ING_JESD_LINK 15) = true := by
  decide +kernel

/-- FrontEndResults: the first raw sample of a channel, and one whose index has been passed. -/
theorem witness_front_end :
    let x : RawSample := { chan := 4095, index := 0, code := -1, bad := false, ovr := false, s16 := true, stamp := 0 }
    let s : State := { s0 with ing := { s0.ing with raw := [x] } }
    s.ing.raw = x :: [] ∧ SMap.get [] s.ing.taps 4095 = [] ∧ s.ing.first ≤ s.blockOf 0 ∧
    fieldNat (s.recWord (s.recBank (s.blockOf 0)) 4095 8) 0 14 = 0 ∧
    SMap.get [] ({ s.ing with taps := [(4095, [x])] } : Ingress).taps 4095 = x :: [] := by decide +kernel

/-- A running context whose one channel has delivered block 0. -/
def delivered : State :=
  { regs (inCtx ctxRunning) [(0x0002_4000, 0x80000000)] with
    img := smallImage, ing := { Ingress.none with next := [(0, 4096)] } }

/-- BufferResults: a block that is through; a gap at the array's entry; a buffer that resumes; a full backlog; an entry that is
due. -/
theorem witness_buffer :
    delivered.through delivered.ringNext = true ∧ delivered.ringSlots ≠ 0 ∧
    let g (f : Ingress → Ingress) : State := { inCtx ctxRunning with img := smallImage, ing := f Ingress.none }
    (g (fun i => { i with missed := some (0, 0) })).ing.missed.map Prod.fst = some Ingress.none.taken.1 ∧ s0.rdB Reg.ING_EB_MODE 0 = false ∧
    (g id).entriesBetween (0, 0) (0, 0) ≤ 30840 ∧
    let r : State := { (g id).wrB Reg.ING_EB_MODE 0 true with acq := { Acq.none with wblock := some 0 } }
    r.rdB Reg.ING_EB_MODE 0 = true ∧ r.ing.resume = none ∧ r.inRing r.feedNext.1 = true ∧
    (r.ringRead (r.slotAt r.feedNext.1) r.ringBlock).1 = r ∧
    let e (shed : Bool) : EbEntry := { block := 0, k := 0, group := 0, data := 5, bytes := 256, bad := false, shed := shed, overrun := false }
    let p (shed : Bool) : State := { g (fun i => { i with eb := [e shed] }) with img := { smallImage with inputs := [InEntry.mk 31 0 0 0 0] } }
    (p false).hold.stopped = false ∧ (p false).ctx = ctxRunning ∧ (p false).planOrder[(p false).ing.taken.2]? = some 0 ∧
    (p false).img.inputs[0]? = some (InEntry.mk 31 0 0 0 0) ∧ (p false).headEntry 0 = some (e false) ∧ (p true).headEntry 0 = some (e true) ∧
    (p true).planOrder.take (p true).ing.taken.2 = [] := by decide +kernel


/-- A reversal of n bits is a number of n bits. -/
theorem revBits_lt (n x : Nat) : revBits n x < 2 ^ n := by
  unfold revBits
  induction n with
  | zero => simp
  | succ n ih =>
    rw [List.range_succ, List.foldl_append]
    simp only [List.foldl_cons, List.foldl_nil, Nat.pow_succ]
    split <;> omega

/-- The descrambled bits of a Noler frame: 992 bits and their CRC, off by `d`. -/
def frame (x : BitVec 992) (d : Nat := 0) : BitVec 1024 := BitVec.ofNat 32 (frameCrc (x.setWidth 1024) + d) ++ x

/-- The CRC field of a frame made so: good with d = 0, bad with d = 1. -/
theorem frame_crc (x : BitVec 992) (d : Nat) : fieldNat (frame x d) 992 32 = (frameCrc (frame x d) + d) % 2 ^ 32 := by
  have h : frameCrc (frame x d) = frameCrc (x.setWidth 1024) := by
    have e : (List.range 960).map (fun i => (frame x d).getLsbD (32 + i)) =
        (List.range 960).map (fun i => (x.setWidth 1024).getLsbD (32 + i)) := by
      refine List.map_congr_left fun i hi => ?_
      have := List.mem_range.mp hi
      simp only [frame, BitVec.getLsbD_append, BitVec.getLsbD_setWidth]
      simp only [show 32 + i < 992 by omega, show 32 + i < 1024 by omega, decide_true, Bool.true_and, if_true]
    simp only [frameCrc, e]
  rw [h, fieldNat, frame, BitVec.extractLsb'_append_eq_left]
  simp only [BitVec.toNat_ofNat]

/-- LaneResults: a frame with a good CRC and one with a bad one. -/
theorem witness_frame_crc (x : BitVec 992) : fieldNat (frame x) 992 32 = frameCrc (frame x) ∧ fieldNat (frame x 1) 992 32 ≠ frameCrc (frame x 1) := by
  have h (d : Nat) : frameCrc (frame x d) < 2 ^ 32 := revBits_lt 32 _
  have h0 := h 0
  have h1 := h 1
  rw [frame_crc, frame_crc]
  omega

/-- Its fields below the CRC are those of the 992 bits. -/
theorem frame_field (x : BitVec 992) (lo n : Nat) (h : lo + n ≤ 992) : fieldNat (frame x) lo n = fieldNat x lo n := by
  refine congrArg BitVec.toNat (BitVec.eq_of_getLsbD_eq fun i hi => ?_)
  simp only [frame, BitVec.getLsbD_extractLsb', BitVec.getLsbD_append, show lo + i < 992 by omega, if_true]

/-- The sync word, VER 1, TYPE 0, S16, one channel, SAMPLE_INDEX as given. -/
def dataBits (index : Nat) : BitVec 992 := BitVec.ofNat 992 (0x5F3A0C96 + 2 ^ 32 + 2 ^ 40 + 2 ^ 48 + index * 2 ^ 96)

/-- Every frame comes over some wire without INVERT. -/
theorem frame_scrambled (x : BitVec 1024) : frameBits (x ^^^ scrambleMask) false false = x := by
  simp [frameBits]

/-- LaneResults: a lane that takes frames. -/
theorem witness_frame_lane :
    let s0' := regs (inCtx 0) [(Reg.ING_LANE_CFG 63, 0xA0000320), (Reg.ING_LANE_STATUS 63, 3)]
    let s := s0'.setLane 63 { LaneIn.none with expect := some 1, synced := true }
    s.laneOn 63 = true ∧ s.noler 63 = true ∧ s.rdB (Reg.ING_LANE_STATUS 63) 1 = true ∧ s.rdB (Reg.ING_LANE_CFG 63) 27 = false ∧
    s.laneMode 63 = 1 ∧ s.isProtected = false ∧ s.rdB (Reg.ING_LANE_STATUS 63) 5 = false ∧ s.contextRuns = false ∧
    (s.lane 63).synced = true ∧ (s.lane 63).expect = some 1 := by decide +kernel

/-- The fields of a frame by the places of their bits. -/
theorem frame_fields (g : BitVec 1024) (i : Nat) (h : fieldNat g 32 4 = 1 ∧ fieldNat g 36 4 = 0 ∧ fieldNat g 40 2 = 1 ∧
    fieldNat g 48 8 = 1 ∧ fieldNat g 96 64 = i) :
    NolerFrame.valid ⟨g⟩ = true ∧ NolerFrame.typ ⟨g⟩ = 0 ∧ NolerFrame.index ⟨g⟩ = i := by
  simp [NolerFrame.valid, NolerFrame.count, NolerFrame.ver, NolerFrame.typ, NolerFrame.sfmt, NolerFrame.nch, NolerFrame.index, h, Nat.mod_one]

/-- LaneResults: a good frame at the expected index, far ahead of it and behind it. -/
theorem witness_frames (i : Nat) (hi : i ∈ [0, 1, 2 + 2 ^ 20]) : (NolerFrame.valid ⟨frame (dataBits i)⟩ = true ∧
    NolerFrame.typ ⟨frame (dataBits i)⟩ = 0 ∧ NolerFrame.index ⟨frame (dataBits i)⟩ = i) ∧ fieldNat (frame (dataBits i)) 0 32 = 0x5F3A0C96 := by
  have h : fieldNat (dataBits i) 32 4 = 1 ∧ fieldNat (dataBits i) 36 4 = 0 ∧ fieldNat (dataBits i) 40 2 = 1 ∧
      fieldNat (dataBits i) 48 8 = 1 ∧ fieldNat (dataBits i) 96 64 = i ∧ fieldNat (dataBits i) 0 32 = 0x5F3A0C96 := by
    revert i; decide +kernel
  have e (lo n v : Nat) (l : lo + n ≤ 992) (q : fieldNat (dataBits i) lo n = v) := (frame_field (dataBits i) lo n l).trans q
  exact ⟨frame_fields _ i ⟨e 32 4 1 (by decide) h.1, e 36 4 0 (by decide) h.2.1, e 40 2 1 (by decide) h.2.2.1,
    e 48 8 1 (by decide) h.2.2.2.1, e 96 64 i (by decide) h.2.2.2.2.1⟩, e 0 32 _ (by decide) h.2.2.2.2.2⟩

/-- BufferResults: a backlog that fills a ring of no bytes. -/
theorem witness_overrun :
    let s : State := { inCtx ctxRunning with img := { Image.none with ringBlock := 256 } }
    s.ctx = ctxRunning ∧ s.replaying = false ∧ s.ringBlock ≠ 0 ∧ s.ringBytes ≤ s.ringAhead s.oldestKept + s.ringBlock ∧
    ({ s with ing := { s.ing with overrun := [0, 1] } } : State).oldestKept = 2 := by
  decide +kernel

/-- RecordAndDebtResults: a staging bank that is free; a switch that may be armed, one due, one done; a statistics interval that
is over; a debt over its limit that grows, and one under it that falls. -/
theorem witness_records :
    let s := regs delivered [(Reg.ING_REC_STATUS, 4), (Reg.ING_REC_ADDR, 0x1FFFF), (Reg.ING_STAT_CFG, 1), (Reg.ING_REC_SWITCH, 1)]
    s.answers Reg.ING_REC_DATA = true ∧ s.rdB Reg.ING_REC_STATUS 2 = true ∧ fieldNat (s.rd Reg.ING_REC_ADDR) 16 1 ≠ s.rdF Reg.ING_REC_STATUS 0 1 ∧
    s.rdB Reg.ING_REC_STATUS 1 = false ∧ ({ s with ing := { s.ing with newest := some 0 } } : State).newestSample = some 0 ∧
      s.blockOf 0 < ((0 : Word) ++ s.rd Reg.ING_REC_SWITCH).toNat ∧
    (s.channels.any (fun e => !State.quantFmt (fieldNat (s.recWord 1 e.1 0) 0 4))) = false ∧
    s.rdF Reg.ING_STAT_CFG 0 16 ≠ 0 ∧ s.counted (s.ing.statFrom + s.rdF Reg.ING_STAT_CFG 0 16 - 1) = true ∧
    s.img.regions.find? (fun r => decide (r.kind = 1)) = none ∧
    (s.wrB Reg.ING_REC_STATUS 1 true).rdB Reg.ING_REC_STATUS 1 = true ∧ 1 * s.blockLen ≤ (s.blockLen - 1) + 1 ∧
    ({ s.ing with recFrom := some 0 } : Ingress).recFrom = some 0 ∧ s.ing.missed = none ∧ s.img.inputs = [] ∧ 0 ≤ s.ing.ebNext.1 ∧
    ({ s with img := { s.img with k := 1, roundLen := 2 } } : State).debtUnit ≠ 0 ∧
    let d (new old : Nat) (l : Nat) : State :=
      { regs (inCtx ctxRunning) [(Reg.ING_SHED_MAP 0, 0x80), (Reg.ING_DEBT_CFG, 0x00010002), (Reg.ING_SHED_STATUS, BitVec.ofNat 32 l),
        (0x0002_4000, 0x80000000)] with
        img := { smallImage with k := 1, roundLen := 2 }, ing := { Ingress.none with debt := new, debtOld := old } }
    let u := (d 0 0 0).ringBytes * (d 0 0 0).debtUnit
    (d 0 0 0).replaying = false ∧ (d 0 0 0).shedList.length = 1 ∧ 2 * u ≤ 1000 * u ∧ (d u 0 0).ing.debtOld < (d u 0 0).ing.debt ∧
    (d 0 1 1).rdF Reg.ING_SHED_STATUS 0 7 = 1 ∧ (d 0 1 1).rdF Reg.ING_DEBT_CFG 0 10 = 2 ∧ (d 0 1 1).rdF Reg.ING_DEBT_CFG 16 10 = 1 ∧
    1000 * (d 0 1 1).ing.debt + 1 * u < 2 * u := by decide +kernel

/-- TriggerUnitResults, BadSamplesNeverTrigger: a level unit and a TOT unit with a sample that waits, active, inactive, BAD; units
that are disarmed, active for long, not enabled; a mask's instance at its last point and before it, inside and outside. -/
theorem witness_trigger :
    let x (c : Int) (b : Bool) : TSample := { index := 1, code := c, bad := b }
    let s (kind : Word) (y : TSample) : State :=
      { regs (inCtx ctxRunning) [(Reg.prim 1023 Reg.TRG_PRIM_CFG, 0x80000000 + kind), (Reg.prim 1023 Reg.TRG_PRIM_THR, 5)] with
        trg := { Trigger.none with primQ := [(1023, [y])] } }
    (s 0 (x 5 false)).ctx = ctxRunning ∧ (s 0 (x 5 false)).primEn 1023 = true ∧ (s 0x30000000 (x 5 true)).primEn 1023 = true ∧
    SMap.get [] (s 0 (x 5 false)).trg.primQ 1023 = [x 5 false] ∧ ((s 0 (x 5 false)).prim 1023).begin' = none ∧
    (s 0 (x 5 false)).primKind 1023 ≠ 3 ∧ (s 0 (x 5 false)).primActive 1023 [] (x 5 false) = true ∧
    (s 0 (x 4 false)).primActive 1023 [] (x 4 false) = false ∧ (s 0x30000000 (x 5 true)).primKind 1023 = 3 ∧ (x 5 true).bad = true ∧
    (s 0x10000000 (x 5 false)).primKind 1023 = 1 ∧
    [{ x 4 true with index := 0 }].find? (fun z => decide (z.index + (s 0 (x 5 false)).primTmin 1023 = (x 5 false).index)) =
      some { x 4 true with index := 0 } ∧
    bit (s0.primRd 0 Reg.TRG_PRIM_CFG) 31 = false ∧ s0.primHold 0 ≤ 1 ∧
    fineLe (0 + (s0.rd Reg.TRG_STUCK_TIME).toNat * finePerNs) ((s0.rd Reg.TRG_STUCK_TIME).toNat * finePerNs) = true ∧
    (let h : State := { s0 with timeline := BitVec.ofNat 64 (64 * (s0.rd Reg.TRG_STUCK_TIME).toNat) }
     (64 * fieldNat (h.inCfg 15) 0 16 : Int) ≤ tlSub h.timeline.toNat (h.extIn 15).since ∧
     (64 * (h.rd Reg.TRG_STUCK_TIME).toNat : Int) ≤ tlSub h.timeline.toNat (h.extIn 15).since ∧
     ((h.setExtIn 15 { ExtIn.none with level := true }).extIn 15).level = true ∧
     ((h.setExtIn 15 { ExtIn.none with disarmed := true }).extIn 15).disarmed = true) ∧
    let m (c : Int) (i : Nat) (pass : Word) : State :=
      { regs (inCtx ctxRunning) [(Reg.mask 63 Reg.TRG_MASK_CFG, 0x80000000 + pass), (Reg.mask 63 Reg.TRG_MASK_POINTS, 2), (Reg.TRG_MASK_SEL, 63)] with
        trg := { Trigger.none with maskQ := [(63, [{ index := 1, code := c, bad := false }])], masks := [(63,
          { Mask.none with inst := some (0, i, 0) })],
                                   points := [(0, 0x00050005), (1, 0x00050005)] } }
    (m 5 0 0).maskEn 63 = true ∧ (m 5 0 0).maskPoints 63 = some (0, 2) ∧ ((m 5 0 0).mask 63).inst = some (0, 0, 0) ∧
    (m 5 0 0).pointLo 0 = 5 ∧ (m 5 0 0).pointHi 1 = 5 ∧ (m 5 1 0x40000000).maskPass 63 = true ∧ (m 5 0 0).answers Reg.TRG_MASK_STATUS = true ∧
    (m 5 0 0).rdF Reg.TRG_MASK_SEL 0 6 = 63 := by decide +kernel

/-- TimingInputResults: an input that is enabled, inactive and armed, and one that is active; a TDC that is off; a link that
starts at SYSREF. -/
theorem witness_timing :
    let s := regs (inCtx 0) [(Reg.TRG_IN_CFG 15, 0x80000000)]
    (true != bit (s.inCfg 15) 30) = true ∧ (s.extIn 15).level = false ∧ bit (s.inCfg 15) 31 = true ∧ (s.extIn 15).disarmed = false ∧
    (false != bit (s.inCfg 15) 30) = false ∧ ((s.setExtIn 15 { ExtIn.none with level := true }).extIn 15).level = true ∧
    s.answers Reg.TRG_TDC_CFG = true ∧ s.rdB Reg.TRG_TDC_CFG 31 = false ∧ bit (0x80000000 : Word) 30 = false ∧
    [1].foldl (· + ·) 0 ≠ 0 ∧ s.idleLine 15 ∈ ({ Trigger.none with calib := [31] } : Trigger).calib ∧
    let l := regs (inCtx 0) [(Reg.ING_JESD_LINK 15, 0x201 + 63 * 2 ^ 26), (Reg.ING_LANE_CFG 63, 0x80000320), (Reg.ING_LANE_STATUS 63, 3)]
    l.linkEn 15 = true ∧ l.linkOk 15 = true ∧ (l.link 15).started = false ∧ l.linkLanes 15 = [63] ∧ l.laneOn 63 = true ∧
    l.laneMode 63 = 0 ∧ l.rdB (Reg.ING_LANE_STATUS 63) 1 = true ∧ (regs l [(Reg.TRG_TDC_CFG, 0xC0000000)]).rdB Reg.TRG_TDC_CFG 31 = true ∧
    l.trg.anchored = false ∧ 10 * 51 < 512 ∧ 768 ≤ 10 * 77 := by decide +kernel

/-- VerdictAndCombinerResults, AcceptedFirings: verdicts at the watermark and behind it; switches armed, due, and not; a fast and
a slow class with one event and each bit of the table; pulses; firings of each remainder. -/
theorem witness_combiner :
    let s := inCtx ctxRunning
    (s.stream 255).markIdx ≤ fieldNat (0 : BitVec 256) 0 64 ∧
    0 < ((s.setStream 255 { VStream.none with markIdx := 1 }).stream 255).markIdx ∧ s.answers (Reg.TRG_THR_SWITCH + 4) = true ∧
    s.rdB Reg.TRG_THR_STATUS 1 = false ∧ (s.wrB Reg.TRG_THR_STATUS 1 true).rdB Reg.TRG_THR_STATUS 1 = true ∧
    s.trg.thrArm * s.blockLen ≤ (s.stream 255).markIdx ∧ s.clsEn 63 = false ∧
    s.lineCycle < 1 ∧
    let e : SlotEvent := { slot := 7, time := 0, cycle := 0, payload := none, bad := false, coarse := false }
    let c (slow : Word) (lut : Word) : State :=
      ({ regs s [(Reg.cls 63 Reg.TRG_CLASS_CFG, 0x80000000), (Reg.cls 63 (Reg.TRG_CLASS_SLOT 7), 0x80000000 + slow),
        (Reg.cls 63 (Reg.TRG_CLASS_LUT 4), lut)]
        with timeline := 0 } : State).setTcls 63 { TClass.none with waiting := [e] }
    (c 0 1).clsEn 63 = true ∧ ((c 0 1).tcls 63).waiting = [e] ∧ ((c 0 1).tcls 63).recent = [] ∧ ((c 0 1).tcls 63).lastFire = none ∧
    (c 0 1).isSlow 63 = false ∧ (c 0 1).lutBit 63 (2 ^ 7) = true ∧ (c 0 0).lutBit 63 (2 ^ 7) = false ∧
    (c 0x30000000 1).isSlow 63 = true ∧
    ((c 0x30000000 1).setStream 0 { VStream.none with mark := some 0 }).reached 64 63 e.time = true ∧ e.cycle ≤ (c 0 1).lineCycle ∧
    ((s.setTout 15 { TOut.none with pulses := [3, 2] }).tout 15).pulses = [3, 2] ∧ (s.tout 15).high = false ∧
    fineLe (State.firstDue 3 [2]) (256 * ({ s with timeline := 1 } : State).timeline.toNat) = true ∧
    fineLe (State.firstDue 3 [2]) (256 * ({ s with timeline := 0 } : State).timeline.toNat) = false ∧
    (let o (n : Nat) := s.setTout 15 { TOut.none with high := true, stop := n }
     ((o 0).tout 15).high = true ∧ ((o 0).tout 15).stop ≤ (o 0).lineCycle ∧ (o 1).lineCycle < ((o 1).tout 15).stop) := by decide +kernel


/-- A capture event of class 63 over block 0, header only. -/
def event0 (fate : Nat) : CapEvent :=
  { cls := 63, first := 0, last := 255, number := 0, truncPre := false, truncPost := false, merged := false, slow := false, firings := 1,
    time := 0, decided := 0, groups := 0, payload := 0, fate := fate }

/-- CaptureResults: an open event that can close; a store with room, one that is too small; a copy under way of a refused event
and of one whose blocks can be read; read pointers at both ends of what was written. -/
theorem witness_capture :
    let s : State := { inCtx ctxRunning with img := smallImage, timeline := 0x1000000, ing := { Ingress.none with replay := some (0, 0) } }
    let a (f : Acq → Acq) : State := { regs s [(Reg.ACQ_STORE_SIZE, 0x100000), (Reg.ACQ_STORE_WPTR, 64)] with acq := f Acq.none }
    let o := a (fun x => { x with opened := [(63, event0 0)] })
    let q (fate : Nat) (copying : Bool) := a (fun x => { x with queue := [event0 fate], copying := copying, wblock := some 0 })
    o.acq.opened.find? (fun e => decide (e.1 = 63)) = some (63, event0 0) ∧ o.canClose (event0 0) = true ∧
    (q 0 false).acq.queue = [event0 0] ∧ (q 0 false).atRisk ((q 0 false).blockOf 0) = false ∧ (q 0 false).acq.stopped = false ∧
    (q 0 false).recordLen (event0 0) ≤ (q 0 false).areaSize eventArea ∧ (q 0 false).recordLen (event0 0) ≤ (q 0 false).areaFree eventArea ∧
    (q 0 false).recordLen (event0 0) ≤ (q 0 false).areaRest eventArea ∧ (q 0 false).blocksWritten (event0 0) = true ∧
    (let small := (q 0 false).wr Reg.ACQ_STORE_SIZE 64
     small.areaSize eventArea ≠ 0 ∧ small.areaSize eventArea < small.recordLen (event0 0)) ∧
    (q 1 true).acq.copying = true ∧ (q 1 true).acq.queue = [event0 1] ∧ (q 0 true).eventLost (event0 0) = false ∧
    ((q 0 true).captureRead ((q 0 true).linesFrom (event0 0) (q 0 true).acq.copyNext) (q 0 true).acq.copied).1 = q 0 true ∧
    ((q 0 true).captureRead ((q 0 true).linesFrom (event0 0) (q 0 true).acq.copyNext) (q 0 true).acq.copied).2.isSome = true ∧
    s.answers eventArea.rptr = true ∧ ((q 0 true).rd64 eventArea.rptr).toNat ≤ 0 ∧ 64 ≤ ((q 0 true).rd64 eventArea.wptr).toNat := by
  decide +kernel

/-- SurveyResults: engines that are enabled with an interval that is over; a survey area without room; a gate that finds its
block, and one that does not. -/
theorem witness_survey :
    let s := regs delivered [(Reg.ACQ_AVG_CFG, 0x80000001), (Reg.ACQ_RED_CFG, 0x80000000), (Reg.ACQ_PRIV 0, 0x80000000)]
    s.ctx = ctxRunning ∧ s.replaying = false ∧ s.rdB Reg.ACQ_AVG_CFG 31 = true ∧ s.rdF Reg.ACQ_AVG_CFG 0 16 ≠ 0 ∧
    s.through (s.acq.avgFrom + s.rdF Reg.ACQ_AVG_CFG 0 16 - 1) = true ∧ s.rdB Reg.ACQ_RED_CFG 31 = true ∧ s.privs = [0] ∧
    s.acq.redFrom + 2 ^ s.redLog ≤ 15 + 1 ∧ s.areaSize surveyArea = 0 ∧
    let g (es : List EbEntry) : State := { s with img := { smallImage with inputs := [InEntry.mk 0 0 0 0 0] }, ing := { Ingress.none with eb := es } }
    let e : EbEntry := { block := 0, k := 0, group := 0, data := 0, bytes := 0, bad := false, shed := false, overrun := false }
    (g []).img.inputs ≠ [] ∧ (g []).blockPresent (g []).gateBlock = false ∧ (g []).requested 6 .gate = false ∧
    (g [e]).blockPresent (g [e]).gateBlock = true ∧ ((g [e]).wr Reg.ARY_LAG 1).rd Reg.ARY_LAG ≠ 0 ∧
    ({ g [e] with hold := { Hold.reset with reqs := [{ cause := 6, src := .gate, cancel := false, cyc := 0 }] } } : State).requested 6 .gate = true := by
  decide +kernel

/-- An adaptive context in a state: descriptor bytes, policy bytes, and the rest of the adaptation state. -/
def adapting (ctx : Nat) (dsc pol : List (Nat × Byte)) (f : Adapt → Adapt) : State :=
  let bs (n : Nat) (xs : List (Nat × Byte)) : List Byte := xs.foldl (fun l x => l.set x.1 x.2) (List.replicate n 0)
  { inCtx ctx with img := smallImage, adapt := f { Adapt.none with desc := some (bs 256 dsc), policy := bs 128 pol } }

/-- TrainerResults: a block whose flits have not been injected, with three requests; a trainer that may step. -/
theorem witness_trainer :
    let p (n : Nat) : ParamReq := { host := true, id := n, value := 0 }
    let s := adapting ctxRunning [] [] (fun a => { a with params := [(0, [p 0, p 3, p 4])] })
    let t := adapting ctxRunning [] [] (fun a => { a with trainer := { a.trainer with paused := false } })
    s.adapts = true ∧ s.issues = true ∧ s.adapt.selDone ≠ some s.arrayBlock ∧ s.adapt.dsc 0x0C 2 ≤ s.arrayBlock ∧
    s.adapt.parDone ≠ some s.arrayBlock ∧ (s.blockParams s.arrayBlock).length = 3 ∧ (∀ p ∈ s.blockParams s.arrayBlock, p.id < 256) ∧
    t.adapts = true ∧ t.issues = true ∧ t.adapt.trainer.until' = none ∧ t.adapt.params = [] ∧ t.adapt.trainer.paused = false ∧
      t.adapt.trainer.copying = false ∧
    t.adapt.dsc 0x10 2 ≤ t.adapt.trainer.windows.length := by decide +kernel

/-- PolicyResults: reports of kinds 1, 2 and 3; intervals that are over, with a staging bank free and with none; a boundary of the
training periods. -/
theorem witness_policy :
    let k (n : Nat) : BitVec 256 := BitVec.ofNat 256 n
    let pol : List (Nat × Byte) := [(6, 3), (0x24, 1), (0x2C, 1), (0x3C, 1), (0x44, 1)]
    let s := adapting ctxRunning [] pol id
    s.adapts = true ∧ s.boot.legendDown = false ∧ fieldNat (k 2) 0 4 = 2 ∧ fieldNat (k 1) 0 4 = 1 ∧ polOn s.adapt.policy 1 = true ∧
    s.adapt.swapping = false ∧
    fLe (field (k 1) 160 32) (rnWord ((fp32Val (field (k 1) 128 32)).mul
      (((Q.ofInt 1).toVal).add (fp32Val (BitVec.ofNat 32 (leAt s.adapt.policy 0x1C 4))).neg))) = true ∧
    leAt s.adapt.policy 0x20 4 ≤ fieldNat (k 1) 192 16 ∧ leAt s.adapt.policy 0x18 4 ≤ s.adapt.steps ∧ leAt s.adapt.policy 0x28 4 = 0 ∧
    s.afterNewest (0 + leAt s.adapt.policy 0x24 4) = true ∧ (SMap.get [] s.adapt.params 1).length < 3 ∧
    (let w := adapting ctxRunning [] pol (fun a => { a with swapping := true })
     fieldNat (k 3) 0 4 = 3 ∧ w.adapt.swapping = true ∧ w.adapt.staged = false ∧
     w.arr.round.toNat < (BitVec.ofNat 64 (w.img.k * (0 + 1 - w.ing.first))).toNat ∧ w.rdB Reg.ARY_FLIP_STATUS 0 = false ∧
     (∀ l < 8, (w.adapt.dsc 7 1).testBit l = true → w.lacksShadow l = false)) ∧
    (let a := adapting ctxRunning [(7, 1)] pol (fun a => { a with swapAt := some 9, trainer := { a.trainer with reports := [k 2] } })
     a.adapt.dsc 7 1 ≠ 0 ∧ (1 : Word).toNat % 256 &&& a.adapt.dsc 7 1 = a.adapt.dsc 7 1 ∧ a.adapt.swapAt = some 9 ∧
     a.adapt.trainer.reports = [k 2]) ∧
    (let q := s.adapt.policy
     let t := (adapting ctxRunning [] pol (fun a => { a with thr := some (q, 0), rng := some (q, 0), period := some (1, false) }))
     let u : State := { regs t [(Reg.TRG_THR_STATUS, 4), (Reg.ING_REC_STATUS, 4), (0x0002_4000, 0x80000000)] with
       ing := { Ingress.none with rangeN := 1, ranges := [(0, { StatAcc.none with min := -5, max := 7, good := 1 })] },
       trg := { Trigger.none with streams := [(0, { VStream.none with markIdx := 4096 })] } }
     u.adapt.thr = some (q, 0) ∧ (0 + leAt q 0x2C 4) * u.blockLen ≤ (u.stream (u.adapt.dsc 8 2 % 256)).markIdx ∧
     u.rdB Reg.TRG_THR_STATUS 2 = true ∧ u.rdB Reg.TRG_THR_STATUS 1 = false ∧ u.trg.newestV = none ∧
       (t.wr Reg.TRG_THR_STATUS 0).rdB Reg.TRG_THR_STATUS 2 = false ∧
     u.adapt.rng = some (q, 0) ∧ leAt q 0x3C 4 ≤ u.ing.rangeN ∧ u.rdB Reg.ING_REC_STATUS 2 = true ∧ u.rdB Reg.ING_REC_STATUS 1 = false ∧
     u.newestSample = none ∧ u.channels = [(0, 0x80000000)] ∧ State.quantFmt (fieldNat (u.recWord 0 0 0) 0 4) = true ∧
     (deriveRecord (u.recWord 0 0 0) (-5) 7).getD 1 0 ≠ u.recWord 0 0 1 ∧ (t.wr Reg.ING_REC_STATUS 0).rdB Reg.ING_REC_STATUS 2 = false ∧
     u.adapt.period = some (1, false) ∧ polOn q 0 = true ∧ leAt q 0x44 4 ≠ 0 ∧ u.afterNewest 1 = true) := by
  decide +kernel

/-- AdaptationCommandResults: each command running in an adaptive context; labels in time and late; parameters of both kinds;
policy blocks locked, bad and good. -/
theorem witness_adaptation :
    let s := adapting ctxLoaded [] [] id
    let label := SubEntry.mk (entry 7 16 0 0)
    let param (id v : Nat) := SubEntry.mk (entry 8 0 0 (id * 2 ^ 64 + v * 2 ^ 96))
    let policy := SubEntry.mk (entry 9 0 0 5)
    s.adaptive = true ∧ (s.ctx = ctxLoaded ∨ s.ctx = ctxRunning) ∧ s.ueStop = false ∧ Runs (ring0 s label.raw) 0 0x07 0 label ∧
    label.len0.toNat % 16 = 0 ∧ label.len0.toNat = 16 ∧
    (let w : List Byte := (List.replicate 16 0).set 10 1
     w.length = 16 ∧ leAt w 10 1 ≠ 0 ∧ leAt w 11 5 = 0 ∧ s.afterNewest (s.blockOf (leAt w 0 8) + s.adapt.dsc 0x0C 2) = true ∧
     ({ s with ing := { s.ing with newest := some 0 } } : State).afterNewest (s.blockOf (leAt w 0 8) + s.adapt.dsc 0x0C 2) = false) ∧
    Runs (ring0 s (param 3 1).raw) 0 0x08 16 (param 3 1) ∧ (param 3 1).firstNonzero 0x31 0x34 = none ∧
    State.paramOk ((param 3 1).param 8 1) (BitVec.ofNat 32 ((param 3 1).param 12 4)) = true ∧
    State.paramOk ((param 3 2).param 8 1) (BitVec.ofNat 32 ((param 3 2).param 12 4)) = false ∧
    (SMap.get [] s.adapt.params 0).length < 3 ∧ Runs (ring0 s policy.raw) 0 0x09 8 policy ∧ polOn s.adapt.policy 7 = false ∧
    polOn (adapting ctxLoaded [] [(6, 0x80)] id).adapt.policy 7 = true ∧ policyOk [] = false ∧
    policyOk ([(0, 0x50), (1, 0x4F), (2, 0x4C), (3, 0x59), (4, 1), (0x14, 1), (0x15, 1), (0x16, 1), (0x24, 1), (0x2C, 1), (0x34, 1), (0x3C, 1)].foldl
      (fun l (x : Nat × Byte) => l.set x.1 x.2) (List.replicate 128 0)) = true := by
  simp only [Runs]; decide +kernel


/-- TimelineResults: with and without a context; a locked servo with a Sync whose offset is small, and one whose offset is large;
a delay request that is open; PPS in and out; a frequency input. -/
theorem witness_timeline :
    let s := inCtx 0
    s.answers Reg.TIM_SET_CTL = true ∧ s.contextRuns = false ∧ (inCtx ctxRunning).contextRuns = true ∧
    (let x (t1 : Int) : PtpSync := { seq := 0, t2 := 0, corr := 0, t1 := some t1, logInt := 0, void := false }
     let u := regs s [(Reg.TIM_PTP_CFG, 0x100), (Reg.TIM_STATUS, 2), (Reg.TIM_SERVO_CFG, 1), (Reg.TIM_LOCK_CFG, 0x02000001)]
     let v (t1 : Int) : State := { u with time := { u.time with sync := some (x t1), mf := some 0 } }
     (v 0).ocEn = true ∧ (v 0).ocPeer = false ∧ (v 0).time.mf = some 0 ∧ (x 0).void = false ∧
     ((v 0).wr Reg.TIM_SERVO_CFG 0).phaseSrc ≠ 1 ∧ (v 0).phaseSrc = 1 ∧ (v 0).servo = 2 ∧
     (v 0).rdF Reg.TIM_SERVO_CFG 2 2 = 0 ∧
     (State.stampDiff 0 (-4) - (0 + (v 0).asym (v 0).ocPort) - 0).natAbs ≤ 4 * (1024 * (v 0).rdF Reg.TIM_LOCK_CFG 0 16) ∧
     4 * (1024 * (v 0).rdF Reg.TIM_LOCK_CFG 0 16) < (State.stampDiff 0 (-5) - (0 + (v 0).asym (v 0).ocPort) - 0).natAbs ∧
     (v 0).time.outRun + 1 < (v 0).rdF Reg.TIM_LOCK_CFG 24 8) ∧
    (regs s [(Reg.TIM_PTP_CFG, 0x1000)]).tcMode = 2 ∧ (regs s [(Reg.TIM_PPS_CFG, 0xC0000000)]).rdB Reg.TIM_PPS_CFG 31 = true ∧
    (regs s [(Reg.TIM_PPS_CFG, 0xC0000000)]).rdB Reg.TIM_PPS_CFG 30 = true ∧
    ({ s with time := { s.time with ppsOut := true } } : State).time.ppsOut = true ∧
      (regs s [(Reg.TIM_SERVO_CFG, 4)]).rdF Reg.TIM_SERVO_CFG 2 2 = 1 ∧ (regs s [(Reg.TIM_SERVO_CFG, 2)]).phaseSrc = 2 ∧ s.phaseSrc ≠ 2 ∧
    64 * giga / 10 < ((s.ptpTime + tlDiff (BitVec.ofNat 64 (32 * giga)) s.timeline + 32 * giga) % (64 * giga) - 32 * giga : Int).natAbs ∧
    -(2 ^ 23) ≤ (-(2 ^ 23) : Int) ∧ (2 ^ 23 - 1 : Int) < 2 ^ 23 := by decide +kernel

/-- A frame of n bytes that begins with an EtherType at byte 12 and a PTP message type at byte 14. -/
def ethFrame (n : Nat) (typ : List Byte) : List Byte := List.replicate 12 5 ++ typ ++ List.replicate (n - 14) 0

/-- EthernetResults: a frame that a port's association takes, and one that it does not. -/
theorem witness_macsec :
    let a : MacSa := { key := List.replicate 32 0, an := 0, xpn := false, salt := [], ssci := 0, peer := 0, tx := 1, rx := 1 }
    let f := ethFrame 16 [8, 0]
    State.unprotect a (State.protect a [1, 2, 3, 4, 5, 6, 0, 1] f) = some (f, 1) ∧ State.unprotect a f = none := by decide +kernel

/-- EthernetResults: ports that are on; frames that are too long, of the greatest length, of PTP and not; queues with each kind of
message; a notice before, at and after its time. -/
theorem witness_ethernet :
    let on (w : Word) : State := regs (inCtx 0) [(Reg.TIM_PORT_CFG 0, 0xA0000000), (Reg.TIM_PORT_CFG 1, 0x80000000), (Reg.TIM_PTP_CFG, w)]
    let plain (w : Word) := regs (on w) [(Reg.TIM_PORT_CFG 0, 0x80000000)]
    (on 0).portOn 0 = true ∧ (on 0).portOn (1 - 0) = true ∧ (on 0).macsec 0 = true ∧ (on 0).macSa 0 = none ∧ (plain 0x2000).macsec 0 = false ∧
    (plain 0x2000).portOn 0 = true ∧ (plain 0x2000).rdB Reg.TIM_PTP_CFG 13 = true ∧ (plain 0x800).macsec 0 = false ∧ (on 0x100).tcMode ≠ 2 ∧
    (let l : State := { (on 0x100) with launch := [(0, [{ sched := 0, seq := 0, notice := [], coarse := false }])] }
     l.guarded 0 60 0 = true ∧ (l.launchQ 0).length = 1) ∧
    1522 < (ethFrame 1519 [8, 0]).length + 4 ∧ (ethFrame 1518 [8, 0]).length + 4 ≤ 1522 ∧ ptpOff (on 0x2000).udp (ethFrame 60 [8, 0]) = none ∧
    (on 0x2000).rdB Reg.TIM_PTP_CFG 13 = true ∧ (ethFrame 60 [8, 0]).take 6 ≠ (on 0x2000).portMac 0 ∧
    ptpOff (on 0x800).udp (ethFrame 60 [0x88, 0xF7]) = some 14 ∧ (on 0x800).tcMode = 1 ∧ (on 0x800).ocEn = false ∧
    (on 0x100).ocEn = true ∧ (on 0x100).ocPeer = false ∧ (on 0x100).ocPort = 0 ∧ (on 0x100).udp = false ∧
    (on 0).guarded 0 60 0 = false ∧
    (let m (f : List Byte) := beAt (f.drop 14) 0 1 % 16
     let req := ethFrame 60 [0x88, 0xF7, 1]
     let sync := ethFrame 60 [0x88, 0xF7, 0, 0, 0, 0, 0, 0, 2]
     let fup := ethFrame 60 [0x88, 0xF7, 8]
     ((0 : Nat) < 2 ∧ (2 : Nat) ≤ 3) ∧ m req ∈ [mDelayReq, mPdelayReq, mPdelayResp] ∧ signedCode 64 (beAt req (14 + 8) 8) ≠ corrMax ∧
     (0 : Int) + tlDiff 5 0 * 1024 ≤ corrMax ∧ m sync = mSync ∧ beAt (sync.drop 14) 6 1 / 2 % 2 = 1 ∧ m fup = mFollowUp ∧
     ([{ key := State.tcKey (fup.drop 14), delta := 0, made := 0 }] : List TcEntry).find? (fun y => decide (y.key = State.tcKey (fup.drop 14))) =
       some { key := State.tcKey (fup.drop 14), delta := 0, made := 0 }) ∧
    tlDiff 63 (BitVec.ofInt 64 64) < 0 ∧ 0 ≤ tlDiff 64 (BitVec.ofInt 64 64) ∧ tlDiff 64 (BitVec.ofInt 64 64) < 64000 ∧
    64000 ≤ tlDiff 64064 (BitVec.ofInt 64 64) := by decide +kernel

/-- LoadResults: LOAD running in each state of the context; images that are refused with STATE and with FORMAT. -/
theorem witness_load :
    let e := SubEntry.mk (entry 1 0 16 0)
    Runs (ring0 (inCtx ctxReady) e.raw) 0 0x01 12 e ∧ e.len1.toNat % 16 = 0 ∧ (inCtx ctxReady).ueStop = false ∧
    (ring0 (inCtx ctxReady) e.raw).ctx = ctxReady ∧ (inCtx ctxReady).aryState = aryIdle ∧ (inCtx ctxReady).rdB Reg.ARY_STATUS 7 = false ∧
    headerOk [] = false ∧ ((inCtx ctxReady).setAryState aryRunning).aryState ≠ aryIdle ∧
    (inCtx ctxHalted).ctx ∈ [ctxLoaded, ctxRunning, ctxHalted] ∧ (inCtx ctxOpening).ctx ∈ [ctxNone, ctxOpening, ctxEnding, ctxScrubbing] := by
  simp only [Runs]; decide +kernel

/-- DeviceMemoryResults: addresses of the last count word, of HBM and of DDR5; memory that can be reached, and that cannot; a
queue of each direction with flits and without, at a hub port, with room and full of commits. -/
theorem witness_device_memory :
    let s : State := { inCtx ctxLoaded with img := { Image.none with regions := [{ kind := 2, hostW := true, pillow := 0, off := 0, len := 1024, init := 0 }] } }
    countBase + 8 * 32767 < countEnd ∧ s.hdmBacked 0 = true ∧ s.hdmBacked ddrBase = true ∧
    s.hdmBacked (2 ^ 44 - 1) = false ∧ countEnd ≤ 2 ^ 44 - 1 ∧ 0 < countBase ∧ countEnd ≤ ddrBase ∧
    (inCtx ctxNone).memUnavailable = true ∧ s.memUnavailable = false ∧ s.isProtected = false ∧ s.hostWritable 0 1 = true ∧
    s.hostWritable (2 ^ 36) 1 = false ∧
    let q (inj : Bool) (h : List QFlit) : HostQ :=
      { inject := inj, peer := false, log2 := 6, ring := BitVec.ofNat 64 ddrBase, far := 0, loc := 5, next := 63, held := h, told := 0, owed := [] }
    let u (x : HostQ) : State := { s with hostq := [(9, x)], counts := [(5, 64)], img := { s.img with hubTable := [(64 * 31, 0xC009)] } }
    (u (q true [])).hq 9 = some (q true []) ∧ 63 + ([] : List QFlit).length < ((u (q true [])).countWord 5).toNat ∧
    ((u (q true [])).readBytes (ddrBase + 32 * 63) 32).1 = u (q true []) ∧ (u (q true [])).issues = true ∧
    (u (q true [])).hubEntry 31 = (3, 9) ∧ 63 < ((u (q false [])).countWord 5).toNat + 2 ^ 6 ∧
    ((u (q true [{ data := 1, last := true }])).hq 9).map HostQ.held = some [{ data := 1, last := true }] ∧
    (u (q true [])).hold.cancel = none ∧ (u (q true [])).hold.needs = [] ∧
    (let n : State := { u (q true []) with hold := { Hold.reset with needs := [(9, 63), (9, 64)] } }
     n.needMet (9, 64) = false ∧ ((n.setHq 9 (q true [{ data := 0, last := false }])).needMet (9, 63)) = true) ∧
    (u { q false [] with owed := [64] }).hq 9 = some { q false [] with owed := [64] } ∧
    let c : Commit := { wait := 0, action := 2, dest := 9, flit := flit0 }
    ([c].find? (fun c => decide (c.action = 2) && decide (c.dest = 9))) = some c := by decide +kernel

/-- SubscriberResults: the copy commands and the subscriber commands running; areas that are empty; entries that are free, join,
leave, hold records and are full. -/
theorem witness_subscribers :
    let s := inCtx ctxRunning
    let ev := SubEntry.mk (entry 4 0 0 0)
    let sv := SubEntry.mk (entry 5 0 0 0)
    let jn := SubEntry.mk (entry 0x0A 0 0 0)
    let lv := SubEntry.mk (entry 0x0B 0 0 1023)
    let d : List Byte := (List.replicate 64 0).set 0x12 6
    Runs (ring0 s ev.raw) 0 0x04 0 ev ∧ Runs (ring0 s sv.raw) 0 0x05 0 sv ∧ OpenContext (ring0 s ev.raw) ∧
    (s.rd64 eventArea.wptr).toNat ≤ (s.rd64 eventArea.rptr).toNat ∧
    Runs (ring0 s jn.raw) 0 0x0A 0 jn ∧ s.ctx ∈ [ctxReady, ctxLoaded, ctxRunning] ∧ State.subBad d = none ∧
    (List.range 1024).find? (fun n => decide ((s.sub n).state = 0)) = some 0 ∧ s.countUsed (leAt d 0x10 2) = false ∧
    ({ s with subs := [(0, { Sub.free with state := 1 })] } : State).countUsed (leAt d 0x10 2) = true ∧
    Runs (ring0 s lv.raw) 0 0x0B 2 lv ∧ lv.param 0 2 = 1023 ∧
    (let u (x : Sub) : State := { s with subs := [(1023, x)], counts := [(0, 1)] }
     ((u { Sub.free with state := 1 }).sub 1023).state = 1 ∧ ((u { Sub.free with state := 1 }).sub 1023).queue = [] ∧
     ((u { Sub.free with state := 1, queue := [[]] }).sub 1023).queue = [[]] ∧ (s.sub 0).state ≠ 1 ∧
     0 < ((u Sub.free).countWord 0).toNat + 2 ^ 0 ∧ ¬Sub.free.vector < 64 ∧
       (inCtx ctxScrubbing).ctx ∈ [ctxNone, ctxOpening, ctxEnding, ctxScrubbing] ∧ ((u Sub.free).countWord 0).toNat + 2 ^ 0 ≤ 2) := by
  simp only [Runs, OpenContext]; decide +kernel


/-- ContextKeyResults: the security commands running in each state they distinguish.  Premises about Config.sessionOpen and
Config.chainVerifies stand on free functions: for each blob and chain one of the clauses applies. -/
theorem witness_context_keys :
    let s := regs (inCtx ctxNone) []
    let op (p n : Nat) := SubEntry.mk (entry 0x40 n 0 p)
    let ready := (inCtx ctxNone).wrB Reg.SEC_CTX_STATUS 7 true
    Runs (ring0 s (op 0 0).raw) 0 0x40 1 (op 0 0) ∧ Runs (ring0 s (op 1 384).raw) 0 0x40 1 (op 1 384) ∧ s.ctx = ctxNone ∧
    (op 1 384).param 0 1 = 1 ∧ (op 1 384).len0.toNat = 384 ∧ ready.rdB Reg.ERR_STATUS 31 = false ∧ ready.uePending = false ∧
    ready.rdF Reg.GLB_BOOT_STATUS 8 4 = 0 ∧ ready.rdB Reg.SEC_CTX_STATUS 7 = true ∧
    (ready.wrB Reg.SEC_CTX_STATUS 7 false).rdB Reg.SEC_CTX_STATUS 7 = false ∧ ready.ideActive = false ∧
    (ready.wrB Reg.SEC_CTX_STATUS 6 true).ideActive = true ∧ (ready.wrB Reg.ERR_STATUS 31 true).rdB Reg.ERR_STATUS 31 = true ∧
    (ready.wrF Reg.GLB_BOOT_STATUS 8 4 8).rdF Reg.GLB_BOOT_STATUS 8 4 ≠ 0 ∧
    (let o : State := { (inCtx ctxOpening).wrB Reg.SEC_CTX_STATUS 8 true with sec := { SecSt.none with opening := some 15 } }
     o.sec.opening = some 15 ∧ o.ctx = ctxOpening ∧ o.rdB Reg.SEC_CTX_STATUS 8 = true) ∧
    (let att := SubEntry.mk (entry 0x41 0 1152 0)
     let rel := SubEntry.mk (entry 0x42 384 0 0)
     let exp := SubEntry.mk (entry 0x43 384 0 1)
     let crt := SubEntry.mk (entry 0x44 0 0 0)
     let u := inCtx ctxReady
     Runs (ring0 s att.raw) 0 0x41 0 att ∧ 1152 ≤ att.len1.toNat ∧ Runs (ring0 u rel.raw) 0 0x42 0 rel ∧ rel.len0.toNat = 384 ∧
     u.ctx ∈ [ctxReady, ctxLoaded, ctxRunning] ∧ u.ueStop = false ∧ Runs (ring0 u exp.raw) 0 0x43 1 exp ∧ exp.param 0 1 ≤ 1 ∧
     u.isProtected = false ∧ (u.wrB Reg.SEC_CTX_STATUS 3 true).isProtected = true ∧ Runs (ring0 s crt.raw) 0 0x44 0 crt ∧
     s.flash.cert.length ≤ crt.len0.toNat) := by
  simp only [Runs]; decide +kernel

/-- PrivilegeAndLinkResults: the privilege commands running, with and without a challenge, keys and privilege.  Whether a
signature verifies hangs on the boot identity, which is free: one of the two clauses applies. -/
theorem witness_privilege :
    let s := inCtx ctxNone
    let e (op len param : Nat) := SubEntry.mk (entry op len 0 param)
    Runs (ring0 s (e 0x45 32 0).raw) 0 0x45 0 (e 0x45 32 0) ∧ 32 ≤ (e 0x45 32 0).len0.toNat ∧
    Runs (ring0 s (e 0x46 384 (3 + 86400 * 2 ^ 32)).raw) 0 0x46 8 (e 0x46 384 (3 + 86400 * 2 ^ 32)) ∧
    (e 0x46 384 (3 + 86400 * 2 ^ 32)).param 0 1 ≤ 3 ∧ (e 0x46 384 (3 + 86400 * 2 ^ 32)).param 4 4 ≤ 86400 ∧
    (e 0x46 384 (3 + 86400 * 2 ^ 32)).firstNonzero 0x29 0x2C = none ∧ s.sec.challenge = none ∧
    ({ s.sec with challenge := some [] } : SecSt).challenge = some [] ∧ s.fuse.opkey 3 = none ∧ s.fuse.opkeys = [] ∧
    (∀ k, s.fuse.opkey 0 ≠ some (sha256 k)) ∧
    Runs (ring0 s (e 0x47 384 3).raw) 0 0x47 1 (e 0x47 384 3) ∧ s.privileged .f0 = false ∧
    (({ Fuses.blank with opkeys := [(3, [])] } : Fuses).opkey 3 ≠ none ∧ ({ Fuses.blank with opkeys := [(3, [])] } : Fuses).opkeys ≠ []) ∧
    Runs (ring0 s (e 0x48 32 1).raw) 0 0x48 24 (e 0x48 32 1) ∧ (e 0x48 32 1).firstNonzero 0x29 0x30 = none ∧
    s.rdB Reg.SEC_PRIV 0 = false ∧ (regs s [(Reg.SEC_PRIV, 1)]).rdB Reg.SEC_PRIV 0 = true ∧
    (let u : State := { (inCtx ctxReady).wrB Reg.SEC_CTX_STATUS 3 true with sec := { SecSt.none with cak := [(1, [7])] } }
     SMap.get [] u.sec.cak 1 ≠ [] ∧ SMap.get [] u.sec.cak 0 = [] ∧ u.isProtected = true ∧
     (u.wrB Reg.SEC_LINKS (State.ideBit .mem) true).rdB Reg.SEC_LINKS (State.ideBit .mem) = true ∧
     u.ctx ∈ [ctxOpening, ctxReady, ctxLoaded, ctxRunning, ctxHalted]) := by
  refine ⟨?_, ?_, ?_, ?_, ?_, ?_, ?_, ?_, ?_, ?_, fun k => by simp [Fuses.opkey, inCtx, s0, State.reset, Fuses.blank, State.setCtx,
  State.setPhase, State.wrF, State.wr], ?_⟩ <;>
    (try simp only [Runs]) <;> decide +kernel

/-- ErrorResults: a first error and a second, in each state of a context; a log with room; a first array fault and a later one;
an injection with and without privilege. -/
theorem witness_errors :
    let s := inCtx ctxRunning
    let e := SubEntry.mk (entry 0x63 0 0 (2 * 2 ^ 8 + (1023 + 98303 * 2 ^ 13) * 2 ^ 64))
    1 ≤ (1 : Byte).toNat ∧ (0x10 : Byte).toNat ≤ 0x10 ∧ s.ctx = ctxRunning ∧ s.uePending = false ∧ (s.uncorrectable 1 0).uePending = true ∧
    s.log.entries.length < 64 ∧ s.answers Reg.ERR_LOG_CTL = true ∧ s.contextRuns = true ∧ (inCtx ctxNone).contextRuns = false ∧
    s.doomed = false ∧ ({ s with hold := { Hold.reset with cancel := some 1 } } : State).doomed = true ∧
      (inCtx ctxOpening).ctx ∈ [ctxOpening, ctxReady, ctxLoaded] ∧ bit (1 : Word) 0 = true ∧ bit (0 : Word) 0 = false ∧
    s.rd Reg.ARY_FAULT = 0 ∧ (s.arrayFault 7 1023 7 7 15).rd Reg.ARY_FAULT ≠ 0 ∧ s.arr.cycle < 64 ∧
    Runs (ring0 s e.raw) 0 0x63 16 e ∧ e.param 0 1 = 0 ∧ e.param 1 1 = 2 ∧ e.firstNonzero 0x2A 0x30 = none ∧
    s.injectable (e.param 0 1) (e.param 8 8) = true ∧ s.injectable 1 0 = true ∧ s.injectable 2 ddrBase = true ∧
    s.rdB Reg.SEC_PRIV 0 = false ∧ (regs s [(Reg.SEC_PRIV, 1)]).rdB Reg.SEC_PRIV 0 = true := by
  simp only [Runs]; decide +kernel

/-- CalibrationResults: the calibration commands running with and without privilege and a context; no records, a bad record; a
bank with room. -/
theorem witness_calibration :
    let s := regs (inCtx ctxNone) [(Reg.SEC_PRIV, 1)]
    let e (op n p : Nat) := SubEntry.mk (entry op n 0 p)
    Runs (ring0 s (e 0x60 0 0).raw) 0 0x60 0 (e 0x60 0 0) ∧ Runs (ring0 s (e 0x61 4 0x57524C43).raw) 0 0x61 4 (e 0x61 4 0x57524C43) ∧
    (e 0x61 4 0x57524C43).param 0 4 = 0x57524C43 ∧ Runs (ring0 s (e 0x62 0 0).raw) 0 0x62 0 (e 0x62 0 0) ∧
    ((lastRecs s.cal.journal).filter (fun x => decide (x.typ ≤ 4))).flatMap CalRec.bytes = [] ∧ s.rdB Reg.SEC_PRIV 0 = true ∧ s.ctx = ctxNone ∧
    (inCtx ctxReady).ctx ≠ ctxNone ∧ (calRecs [] 1 0 []).toOption = some [] ∧
    (calRecs [5] 2 0 []).toOption = none ∧
    (let b (n : Nat) : CalBank := { CalStore.none.bank with recs := [{ seq := 0, typ := 1, key := 0, factory := false, payload := List.replicate n 0 }] }
     (b 0).torn = false ∧ (b 0).used + 16 ≤ 786432) := by
  simp only [Runs]; decide +kernel

/-- BootResults: each phase, after a COLD and another reset, with nothing staged, with an image staged with tries and without; no
valid slot.  A valid slot's key hashes to the ROM's, which is free. -/
theorem witness_boot :
    let ph (n : Nat) : State := s0.setPhase n
    let b (f : BootSt → BootSt) (s : State) : State := { s with boot := f s.boot }
    (b (fun x => { x with porLow := true }) s0).boot.porLow = true ∧ (b (fun x => { x with perstLow := true }) s0).boot.perstLow = true ∧
    s0.boot.porLow = false ∧ s0.boot.perstLow = false ∧ s0.boot.cold = true ∧ (ph 0).phase ≤ 1 ∧ (ph 1).phase ≤ 1 ∧ (ph 2).phase = 2 ∧
    (ph 3).phase = 3 ∧ stagedSlot (ph 3).flash.record.staged = none ∧ (ph 3).slotValid false = false ∧ (ph 3).slotValid true = false ∧
    stagedSlot 2 = some true ∧ (ph 4).phase = 4 ∧ (ph 5).phase = 5 ∧ (ph 6).phase = 6 ∧ (ph 7).phase = 7 ∧
    (ph 7).onTrial = false ∧ ((ph 7).wrB Reg.GLB_FW_STATUS 3 true).onTrial = true := by decide +kernel

/-- FirmwareResults: the firmware commands running, allowed and not, with and without a transition and a trial; the watchdog. -/
theorem witness_firmware :
    let s := regs (inCtx ctxNone) []
    let p := regs s [(Reg.SEC_PRIV, 1)]
    let e (op n q : Nat) := SubEntry.mk (entry op n 0 q)
    Runs (ring0 s (e 0x70 (2 ^ 20) 0).raw) 0 0x70 8 (e 0x70 (2 ^ 20) 0) ∧ (e 0x70 (2 ^ 20) 0).len0.toNat % 256 = 0 ∧
    (e 0x70 (2 ^ 20) 0).len0.toNat ≤ 2 ^ 20 ∧ (e 0x70 (2 ^ 20) 0).param 0 8 = 0 ∧ Runs (ring0 s (e 0x71 0 0).raw) 0 0x71 0 (e 0x71 0 0) ∧
    Runs (ring0 s (e 0x72 0 1).raw) 0 0x72 1 (e 0x72 0 1) ∧ Runs (ring0 s (e 0x73 0 0).raw) 0 0x73 0 (e 0x73 0 0) ∧
    p.fwAllowed .f1 = true ∧ p.transition = false ∧ (p.setTransition true).transition = true ∧
    s.fwAllowed .f0 = false ∧ s.slotValid true = false ∧ (p.wrB Reg.GLB_FW_STATUS 3 true).onTrial = true ∧ s.onTrial = false ∧
    s.phase = 7 ∧ s.answers Reg.HLT_WDOG = true ∧ bit (0x10000 : Word) 16 = true ∧
    (let u (xs : List DWord) : State := { s with timeline := 640000000000, boot := { s.boot with slot := some true, expiries := xs } }
     (u []).boot.slot ≠ none ∧ (u []).boot.legendDown = false ∧
     ((u [0]).boot.expiries.filter (fun t => decide (((u [0]).timeline - t).toNat < 640000000000))).length < 2 ∧
     2 ≤ ((u [1, 2]).boot.expiries.filter (fun t => decide (((u [1, 2]).timeline - t).toNat < 640000000000))).length) ∧
    s.boot.slot = none := by
  simp only [Runs]; decide +kernel

/-- StepRunsFrontCommand, FusesOnlyGrow: a queue with a command and one without; fuses that may follow others, with a row burned,
a key enrolled and MIN_SVN raised. -/
theorem witness_step :
    ({ s0 with pending := [.sysrefEdge 0 0] } : State).pending = [.sysrefEdge 0 0] ∧ s0.pending = [] ∧ Fuses.blank.le s0.fuse ∧
    let f : Fuses := { repair := [(63, 0x80)], opkeys := [(3, [1])], minSvn := 64 }
    f.burned 63 ∧ f.opkey 3 = some [1] ∧ f.le f := by
  refine ⟨rfl, rfl, ⟨fun r h => rfl, fun _ _ h => by simp [Fuses.opkey, Fuses.blank] at h, Nat.zero_le _⟩, ?_, rfl, ⟨fun _ _ =>
  rfl, fun _ _ h => h, Nat.le_refl _⟩⟩
  simp only [Fuses.burned]; decide +kernel

/-- SlowClasses: a class with a stream slot, one with a slot that names it, and one without; CommandsComplete: a command that burns
no fuse. -/
theorem witness_slow_classes :
    let s := (s0.wr (Reg.cls 1 (Reg.TRG_CLASS_SLOT 7)) 0xB00000FF).wr (Reg.cls 63 (Reg.TRG_CLASS_SLOT 0)) 0xC0000001
    s.isSlow 1 = true ∧ s.isSlow 63 = true ∧ s.isSlow 0 = false ∧ burnsFuses (.nopm m0) = false := by decide +kernel

end Sys2Proof.Tests
end

section
/-!
PROOF. The scalar instructions of a running array wrap and count no format event (R178).
-/

namespace Sys2Proof.Machine

open Sys2Proof.Claims

/-! What a result in flight leaves alone beside the picots. -/

@[simp] theorem fly_events (s : State) (loc : At) (slot lat : Nat) (r : Res) :
    (s.fly loc slot lat r).arr.events = s.arr.events := rfl

@[simp] theorem fly_regs (s : State) (loc : At) (slot lat : Nat) (r : Res) : (s.fly loc slot lat r).regs = s.regs := rfl

@[simp] theorem flyPair_events (s : State) (loc : At) (lat : Nat) (r : BitVec 4) (v : DWord) :
    (s.flyPair loc lat r v).arr.events = s.arr.events := rfl

@[simp] theorem flyPair_regs (s : State) (loc : At) (lat : Nat) (r : BitVec 4) (v : DWord) :
    (s.flyPair loc lat r v).regs = s.regs := rfl

/-! What a scalar instruction puts in flight. -/

/-- A running array puts a scalar instruction's result in flight. -/
theorem scalarOp_of_running {s : State} (hs : s.hold.stopped = false) (loc : At) (lat : Nat) (r : BitVec 4) (v : Word) :
    s.scalarOp loc lat r v = s.fly loc 1 lat (.gp r.toNat v) := by
  simp [State.scalarOp, State.flyGp, issues_of hs]

theorem flies_flyPair_low (s : State) (loc : At) (lat : Nat) (r : BitVec 4) (v : DWord) :
    Flies (s.flyPair loc lat r v) loc 1 lat (.gp r.toNat (v.extractLsb' 0 32)) :=
  flies_mono (flies_fly ..) (onlyFlies_fly ..)

theorem flies_flyPair_high (s : State) (loc : At) (lat : Nat) (r : BitVec 4) (v : DWord) :
    Flies (s.flyPair loc lat r v) loc 1 lat (.gp (r + 1).toNat (v.extractLsb' 32 32)) :=
  flies_fly ..

/-- ADDI on an even pair in a running array. -/
theorem exec_addi_pair {s : State} (hs : s.hold.stopped = false) (loc : At) (a : LI) (hp : a.pair = true) :
    exec (.addi loc a) s = .next (s.flyPair loc 1 a.gd ((s.lg loc).pair a.ga + a.imm.signExtend 64)) := by
  change execAddi loc a s = _
  simp [execAddi, hp, issues_of hs]

/-- ADDI on one register. -/
theorem exec_addi_single (s : State) (loc : At) (a : LI) (hp : a.pair = false) :
    exec (.addi loc a) s = .next (s.scalarOp loc 1 a.gd ((s.lg loc).reg a.ga + a.imm.signExtend 32)) := by
  change execAddi loc a s = _
  simp [execAddi, hp]

/-! Machine arithmetic as arithmetic modulo a power of two. -/

/-- Subtraction wraps: the borrow adds 2^32. -/
theorem word_toNat_sub (x y : Word) : (x - y).toNat = (2 ^ 32 + x.toNat - y.toNat) % 2 ^ 32 := by
  have hy : y.toNat < 2 ^ 32 := y.isLt
  rw [BitVec.toNat_sub]
  congr 1
  omega

theorem word_toNat_shiftLeft (x : Word) (k : Nat) : (x <<< k).toNat = (x.toNat * 2 ^ k) % 2 ^ 32 := by
  rw [BitVec.toNat_shiftLeft, Nat.shiftLeft_eq]

/-- A logical right shift divides, so its result needs no wrap. -/
theorem word_toNat_ushiftRight (x : Word) (k : Nat) : (x >>> k).toNat = (x.toNat / 2 ^ k) % 2 ^ 32 := by
  have hlt : x.toNat / 2 ^ k < 2 ^ 32 := (Nat.div_le_self ..).trans_lt x.isLt
  rw [BitVec.toNat_ushiftRight, Nat.shiftRight_eq_div_pow, Nat.mod_eq_of_lt hlt]

/-- An even pair holds its low word first (R445). -/
theorem pair_toNat (l : Logical) (r : BitVec 4) : (l.pair r).toNat = (l.reg r).toNat + 2 ^ 32 * (l.reg (r + 1)).toNat := by
  have hlow : (l.reg r).toNat < 2 ^ 32 := (l.reg r).isLt
  rw [Logical.pair, BitVec.toNat_append, ← Nat.shiftLeft_add_eq_or_of_lt hlow, Nat.shiftLeft_eq]
  ring

/-- The two words of a pair are its value. -/
theorem dword_toNat_halves (v : DWord) :
    (v.extractLsb' 0 32).toNat + 2 ^ 32 * (v.extractLsb' 32 32).toNat = v.toNat := by
  have hv : v.toNat < 2 ^ 64 := v.isLt
  simp only [BitVec.extractLsb'_toNat, Nat.shiftRight_eq_div_pow]
  omega

/-! The statement's form, once for every scalar instruction. -/

/-- An instruction completes into general register `gd` with `n` modulo 2^32, and changes neither the format-event
counters nor a register word. -/
def ScalarWraps (s : State) (loc : At) (i : Instr) (lat : Nat) (gd : BitVec 4) (n : Nat) : Prop :=
  ∃ t, exec i s = .next t ∧ t.arr.events = s.arr.events ∧ t.regs = s.regs ∧
    ∃ v : Word, Flies t loc 1 lat (.gp gd.toNat v) ∧ v.toNat = n % 2 ^ 32

theorem scalarWraps_of_exec {s : State} {loc : At} {i : Instr} {lat : Nat} {gd : BitVec 4} {v : Word} {n : Nat}
    (hs : s.hold.stopped = false) (he : exec i s = .next (s.scalarOp loc lat gd v)) (hv : v.toNat = n % 2 ^ 32) :
    ScalarWraps s loc i lat gd n := by
  rw [scalarOp_of_running hs] at he
  exact ⟨_, he, fly_events .., fly_regs .., v, flies_fly .., hv⟩

/-- Settles O6: each instruction puts one machine word in flight, whose value is that of R178 modulo 2^32; ADDI on a
pair puts the two halves of one 64-bit sum in flight. -/
theorem scalarArithmeticWraps : Obligations.ScalarArithmeticWraps := by
  intro s loc hs
  refine ⟨fun a => ⟨?add, ?sub, ?mul⟩, fun a => ⟨?shli, ?shri⟩, fun a hp => ?addi, fun a hp => ?addiPair⟩
  case add => exact scalarWraps_of_exec hs rfl (BitVec.toNat_add ..)
  case sub => exact scalarWraps_of_exec hs rfl (word_toNat_sub ..)
  case mul => exact scalarWraps_of_exec hs rfl (BitVec.toNat_mul ..)
  case shli => exact scalarWraps_of_exec hs rfl (word_toNat_shiftLeft ..)
  case shri => exact scalarWraps_of_exec hs rfl (word_toNat_ushiftRight ..)
  case addi => exact scalarWraps_of_exec hs (exec_addi_single s loc a hp) (BitVec.toNat_add ..)
  case addiPair =>
    refine ⟨_, exec_addi_pair hs loc a hp, flyPair_events .., flyPair_regs .., _, _, flies_flyPair_low .., flies_flyPair_high .., ?_⟩
    rw [dword_toNat_halves, BitVec.toNat_add, pair_toNat]

end Sys2Proof.Machine
end

section
/-!
PROOF. A BAD sample is never active and makes no unit fire (R218).
-/

namespace Sys2Proof.Machine

theorem prim_setPrim_self (s : State) (u : Nat) (p : Prim) : (s.setPrim u p).prim u = p := SMap.get_set_self ..

/-- No kind of unit is active at a BAD sample. -/
theorem primActive_of_bad (s : State) (u : Nat) (prev : List TSample) {x : TSample} (hx : x.bad = true) :
    s.primActive u prev x = false := by
  simp [State.primActive, hx]

/-- SLOPE is not active where x[n − D] is BAD. -/
theorem primActive_slope_of_bad {s : State} {u : Nat} {prev : List TSample} {x y : TSample} (hk : s.primKind u = 1)
    (hy : prev.find? (fun z => decide (z.index + s.primTmin u = x.index)) = some y) (hb : y.bad = true) :
    s.primActive u prev x = false := by
  simp [State.primActive, hk, hy, hb]

theorem totFires_of_bad (s : State) (u : Nat) (p : Prim) {x : TSample} (hx : x.bad = true) : s.totFires u p x = false := by
  simp [State.totFires, hx]

/-- A TOT unit that evaluates a BAD sample changes nothing but its own state: its run has ended, and it is not active. -/
theorem evalPrim_tot_of_bad {s : State} {u : Nat} {x : TSample} (hk : s.primKind u = 3) (hx : x.bad = true) :
    ∃ p, s.evalPrim u x = s.setPrim u p ∧ p.run = 0 ∧ p.active = false := by
  simp only [State.evalPrim, primActive_of_bad s u _ hx, totFires_of_bad s u _ hx, hk, Bool.and_false, Bool.false_and,
    ite_self, Bool.false_eq_true, if_false]
  exact ⟨_, rfl, rfl, rfl⟩

/-- An enabled unit that has begun takes the oldest sample at its input from there and evaluates it. -/
theorem stepPrim_of_cons {s : State} {u : Nat} {x : TSample} {rest : List TSample} (hctx : s.ctx = ctxRunning)
    (hen : s.primEn u = true) (hq : SMap.get [] s.trg.primQ u = x :: rest) (hb : (s.prim u).begin' = none) :
    s.stepPrim u = ({ s with trg := { s.trg with primQ := SMap.set [] s.trg.primQ u rest } } : State).evalPrim u x := by
  simp [State.stepPrim, hctx, hen, hq, hb]

/-- Settles O36: the sample's BAD mark is a factor of every kind's condition, as x[n − D]'s is of SLOPE's and the sample's of
a TOT run's firing, so that the unit that meets it only sets its own state. -/
theorem badSamplesNeverTrigger : Obligations.BadSamplesNeverTrigger := by
  intro s u prev x
  refine ⟨primActive_of_bad s u prev, fun y hk hy hb => primActive_slope_of_bad hk hy hb, fun rest hctx hen hk hq hx hb => ?_⟩
  obtain ⟨p, hp, hrun, hact⟩ := evalPrim_tot_of_bad
    (s := { s with trg := { s.trg with primQ := SMap.set [] s.trg.primQ u rest } }) hk hx
  refine ⟨s.stepPrim u, rfl, ?_⟩
  rw [stepPrim_of_cons hctx hen hq hb, hp, prim_setPrim_self]
  exact ⟨rfl, rfl, rfl, hrun, hact⟩

end Sys2Proof.Machine
end

section
/-!
PROOF. Which classes are slow, and what TRG_CLASS_CFG reports of it (R232).
-/

namespace Sys2Proof.Machine

/-- A slot that names a class names one below its own (R232). -/
theorem cls_slot_lt {s : State} {c : Nat} {x : SlotCfg} (hx : x ∈ s.slots c) (hk : x.kind = .cls) : x.idx < c := by
  simp only [State.slots, List.mem_filterMap] at hx
  obtain ⟨i, -, hi⟩ := hx
  -- Only SRC 4 names a class, and it is guarded by `n < c`.
  unfold State.slotCfg at hi
  grind

theorem slowIn_succ_iff (s : State) (fuel c : Nat) : s.slowIn (fuel + 1) c = true ↔
    ∃ x ∈ s.slots c, x.kind = .stream ∨ (x.kind = .cls ∧ s.slowIn fuel x.idx = true) := by
  simp only [State.slowIn, List.any_eq_true]
  refine exists_congr fun x => and_congr_right fun _ => ?_
  cases x.kind <;> simp

/-- Slots name lower classes, so fuel beyond a class's number changes nothing. -/
theorem slowIn_fuel_irrel (s : State) {m n c : Nat} (hm : c < m) (hn : c < n) : s.slowIn m c = s.slowIn n c := by
  induction m generalizing n c with
  | zero => omega
  | succ m ih =>
    obtain ⟨n, rfl⟩ := Nat.exists_eq_add_one_of_ne_zero (by omega : n ≠ 0)
    rw [Bool.eq_iff_iff, slowIn_succ_iff, slowIn_succ_iff]
    refine exists_congr fun x => and_congr_right fun hx => or_congr_right (and_congr_right fun hk => ?_)
    have hlt : x.idx < c := cls_slot_lt hx hk
    rw [ih (by omega : x.idx < m) (by omega : x.idx < n)]

theorem isSlow_iff (s : State) {c : Nat} (hc : c < 64) :
    s.isSlow c = true ↔ ∃ x ∈ s.slots c, x.kind = .stream ∨ (x.kind = .cls ∧ s.isSlow x.idx = true) := by
  refine (slowIn_succ_iff s 63 c).trans (exists_congr fun x => and_congr_right fun hx => or_congr_right (and_congr_right fun hk => ?_))
  have hlt : x.idx < c := cls_slot_lt hx hk
  rw [State.isSlow, slowIn_fuel_irrel s (by omega : x.idx < 63) (by omega : x.idx < 64)]

theorem regAt_classCfg : (regAt Reg.TRG_CLASS_CFG).isSome = true := by decide

/-- TRG_CLASS_CFG reads as its stored word but for SLOW, which is computed. -/
theorem readReg_classCfg (s : State) : s.readReg Reg.TRG_CLASS_CFG =
    (s.rd (s.wordKey Reg.TRG_CLASS_CFG) &&& 0xBFFF_FFFF) ||| (if s.isSlow (s.rdF Reg.TRG_CLASS_SEL 0 6) then 0x4000_0000 else 0) := by
  obtain ⟨r, hr⟩ := Option.isSome_iff_exists.mp regAt_classCfg
  rw [State.readReg, hr]
  rfl

/-- Settles O39: slots name lower classes, so the recursion of the definition has enough fuel to be the rule itself; the
register's stored bit is masked out and the rule's answer put in its place. -/
theorem slowClasses : Obligations.SlowClasses := by
  intro s
  refine ⟨fun c hc => isSlow_iff s hc, ?_⟩
  rw [readReg_classCfg]
  cases s.isSlow (s.rdF Reg.TRG_CLASS_SEL 0 6) <;> simp

end Sys2Proof.Machine
end

section
/-!
PROOF. Which firings of a class are accepted, and what the others leave as it was (R236).
-/

namespace Sys2Proof.Machine

/-! What presenting an event leaves alone, for any part `g` of the state. -/

section Leaves

variable {β : Type}

theorem foldl_leaves {σ α : Type} (g : σ → β) (f : σ → α → σ) (l : List α) (s : σ) (h : ∀ t, ∀ x ∈ l, g (f t x) = g t) :
    g (l.foldl f s) = g s :=
  List.foldlRecOn (motive := fun t => g t = g s) l f rfl fun t ht x hx => (h t x hx).trans ht

/-- `g` is a part of the state that neither the updates of class `c` nor its dead-time counters of cause `k` reach. -/
structure Apart (g : State → β) (c k : Nat) : Prop where
  cause (t : State) (n : Nat) : g (t.count64 (Reg.cls c (Reg.TRG_CLASS_DEAD k)) n) = g t
  total (t : State) (n : Nat) : g (t.count64 (Reg.cls c Reg.TRG_CLASS_DEAD_TOTAL) n) = g t
  update (t : State) (x : TClass) (hf : x.firings = (t.tcls c).firings) : g (t.setTcls c x) = g t

theorem charge_leaves {g : State → β} {c k : Nat} (h : Apart g c k) (s : State) (a b : Int) : g (s.charge c k a b) = g s := by
  have step (t : State) (p : Prop) [Decidable p] (key n : Nat) (x : TClass) (hn : g (t.count64 key n) = g t)
      (hf : x.firings = (t.tcls c).firings) : g (if p then (t.count64 key n).setTcls c x else t) = g t := by
    split
    · exact (h.update (t.count64 key n) x hf).trans hn
    · rfl
  unfold State.charge
  refine (step _ _ _ _ _ ?total ?_).trans (step _ _ _ _ _ ?cause ?_)
  case total => exact h.total ..
  case cause => exact h.cause ..
  all_goals rfl

theorem pushTo_leaves {g : State → β} {c : Nat} (h : Apart g c 4) (s : State) (e : SlotEvent) : g (s.pushTo c e) = g s := by
  simp only [State.pushTo]
  split_ifs
  · rfl
  · exact charge_leaves h ..
  · exact h.update _ _ rfl

/-- An event of a class reaches only the classes above it (R232). -/
theorem pushEvent_cls_leaves {g : State → β} {c : Nat} (h : ∀ d, c < d → Apart g d 4) (s : State) (e : SlotEvent) :
    g (s.pushEvent .cls c e) = g s := by
  unfold State.pushEvent
  split
  · rfl
  refine foldl_leaves g _ _ s fun t d _ => ?_
  split
  · refine foldl_leaves g _ _ t fun t' x hx => ?_
    simp only [List.mem_filter, Bool.and_eq_true, decide_eq_true_eq] at hx
    obtain ⟨hslot, hkind, hidx⟩ := hx
    exact pushTo_leaves (h d (hidx ▸ cls_slot_lt hslot hkind)) t' _
  · rfl

end Leaves

/-! The count of firings and of accepted ones. -/

/-- What R236 counts of a class: its firings since context start, and the register that counts the accepted ones. -/
def State.tally (s : State) (c : Nat) : Nat × Word := ((s.tcls c).firings, s.rd (Reg.cls c Reg.TRG_CLASS_ACCEPTED))

theorem tcls_setTcls (s : State) (c d : Nat) (x : TClass) : (s.setTcls d x).tcls c = if c = d then x else s.tcls c :=
  SMap.get_set ..

theorem tally_setTcls (s : State) (c d : Nat) (x : TClass) (hf : x.firings = (s.tcls d).firings) :
    (s.setTcls d x).tally c = s.tally c := by
  have h : ((s.setTcls d x).tcls c).firings = (s.tcls c).firings := by
    rw [tcls_setTcls]
    split
    · subst c; exact hf
    · rfl
  exact Prod.ext h rfl

theorem tally_wr {k c : Nat} (h : k ≠ Reg.cls c Reg.TRG_CLASS_ACCEPTED) (s : State) (v : Word) : (s.wr k v).tally c = s.tally c :=
  Prod.ext rfl (State.rd_wr_ne s v h.symm)

theorem tally_count64 {k c : Nat} (h : k ≠ Reg.cls c Reg.TRG_CLASS_ACCEPTED) (h4 : k + 4 ≠ Reg.cls c Reg.TRG_CLASS_ACCEPTED)
    (s : State) (n : Nat) : (s.count64 k n).tally c = s.tally c :=
  (tally_wr h4 ..).trans (tally_wr h ..)

/-- Every register that is not behind a selector lies below the banks. -/
theorem tally_wr_of_lt {k : Nat} (h : k < 0x0200_0000) (s : State) (c : Nat) (v : Word) : (s.wr k v).tally c = s.tally c :=
  tally_wr (by unfold Reg.cls; omega) s v

/-- A class's dead time is not counted where the accepted firings of any class are. -/
theorem apart_tally (c d : Nat) {k : Nat} (hk : k ≤ 4) : Apart (fun s => s.tally c) d k where
  cause t n := by
    refine tally_count64 ?_ ?_ t n <;> unfold Reg.cls Reg.TRG_CLASS_DEAD Reg.TRG_CLASS_ACCEPTED <;> omega
  total t n := by
    refine tally_count64 ?_ ?_ t n <;> unfold Reg.cls Reg.TRG_CLASS_DEAD_TOTAL Reg.TRG_CLASS_ACCEPTED <;> omega
  update t x := tally_setTcls t c d x

/-! What an accepted firing counts: nothing but itself. -/

theorem tally_noteFiring (s : State) (c d : Nat) (n : Int) : (s.noteFiring d n).tally c = s.tally c := by
  unfold State.noteFiring
  split <;> rfl

theorem tally_countOutput {o : Nat} (ho : o < 16) (s : State) (c lo n : Nat) :
    (s.countF (Reg.TRG_OUT_STAT o) lo n).tally c = s.tally c :=
  tally_wr_of_lt (by unfold Reg.TRG_OUT_STAT; omega) ..

theorem tally_startPulse {o : Nat} (ho : o < 16) (s : State) (c : Nat) : (s.startPulse o).tally c = s.tally c := by
  simp only [State.startPulse]
  split
  · exact tally_countOutput ho ..
  · rfl

theorem tally_driveOutput {o : Nat} (ho : o < 16) (s : State) (c : Nat) (t : Int) : (s.driveOutput o t).1.tally c = s.tally c := by
  simp only [State.driveOutput]
  split_ifs
  · exact tally_startPulse ho ..
  · exact (tally_startPulse ho ..).trans (tally_countOutput ho ..)
  · exact tally_countOutput ho ..
  · rfl

theorem tally_driveOutputs (s : State) (c d : Nat) (t : Int) : (s.driveOutputs d t).1.tally c = s.tally c := by
  unfold State.driveOutputs
  split
  · rfl
  · refine foldl_leaves (fun r : State × Bool => r.1.tally c) _ _ (s, false) fun r o ho => ?_
    exact tally_driveOutput (List.mem_range.mp (List.mem_filter.mp ho).1) ..

theorem tally_closeEvent (s : State) (c d : Nat) : (s.closeEvent d).tally c = s.tally c := by
  unfold State.closeEvent
  split
  · rfl
  · exact (tally_wr_of_lt (by decide) ..).trans (tally_wr_of_lt (by decide) ..)

theorem tally_openEvent (s : State) (c : Nat) (e : CapEvent) : (s.openEvent e).1.tally c = s.tally c := by
  unfold State.openEvent
  split
  · exact (charge_leaves (apart_tally c e.cls (by decide)) ..).trans (tally_wr_of_lt (by decide) ..)
  · rfl

theorem tally_captureRequest (s : State) (c : Nat) (f : Firing) : (s.captureRequest f).1.tally c = s.tally c := by
  have hclose (e : CapEvent) : ((s.closeEvent f.cls).openEvent e).1.tally c = s.tally c :=
    (tally_openEvent ..).trans (tally_closeEvent ..)
  unfold State.captureRequest
  extract_lets
  split
  · rfl
  split
  · exact tally_openEvent ..
  · extract_lets
    split_ifs
    · exact tally_wr_of_lt (by decide) ..
    · exact tally_closeEvent ..
    · exact hclose _
    · exact hclose _

theorem tally_produce (s : State) (c : Nat) (takes : Sub → Bool) (r : List Byte) : (s.produce takes r).tally c = s.tally c := by
  refine foldl_leaves (fun t : State => t.tally c) _ _ s fun t n _ => ?_
  dsimp only
  split <;> rfl

theorem tally_enqueueLaunch {p : Nat} (hp : p < 2) (s : State) (c : Nat) (l : Launch) : (s.enqueueLaunch p l).tally c = s.tally c := by
  unfold State.enqueueLaunch
  split_ifs
  · exact tally_wr_of_lt (by unfold Reg.TIM_LAUNCH_DROPPED; omega) ..
  · exact tally_wr_of_lt (by unfold Reg.TIM_LAUNCH_QFULL; omega) ..
  · have hk : Reg.TIM_LAUNCH_STAT p < 0x0200_0000 := by unfold Reg.TIM_LAUNCH_STAT; omega
    exact (tally_wr_of_lt hk ..).trans (tally_wr_of_lt hk ..)

theorem tally_notify (s : State) (c : Nat) (f : Firing) (seq : Nat) (late : Bool) (event : BitVec 64) :
    (s.notify f seq late event).tally c = s.tally c := by
  refine (foldl_leaves (fun t : State => t.tally c) _ _ _ fun t p hp => ?_).trans ?_
  · have hp2 : p < 2 := by
      simp only [List.mem_cons, List.not_mem_nil, or_false] at hp
      omega
    split
    · exact tally_enqueueLaunch hp2 ..
    · rfl
  · split
    · exact tally_produce ..
    · rfl

/-- Outputs, capture and notice of an accepted firing count it once, whatever they do. -/
theorem tally_accept (s : State) (c : Nat) (f : Firing) :
    (s.accept f).tally c = (s.count (Reg.cls f.cls Reg.TRG_CLASS_ACCEPTED)).tally c := by
  unfold State.accept
  extract_lets cfg s1 seq _ s2 o r
  have ho : o.1.tally c = s1.tally c := (tally_driveOutputs ..).trans (tally_noteFiring ..)
  have hr : r.1.tally c = s1.tally c := by
    unfold r
    split
    · exact (tally_captureRequest ..).trans ho
    · exact ho
  split_ifs
  · exact (tally_notify ..).trans hr
  · exact (tally_notify ..).trans hr
  · exact hr

/-! What a firing that is not accepted leaves alone. -/

/-- What only accepted firings of a class drive, and the class's dead time: outputs and pins, launch queues and subscribers
(which take notices), captures, TRG_CLASS_DEAD_TOTAL. -/
def State.driven (s : State) (c : Nat) : SMap TOut × List Out × SMap (List Launch) × SMap Sub × Acq × DWord :=
  (s.trg.outs, s.out, s.launch, s.subs, s.acq, s.rd64 (Reg.cls c Reg.TRG_CLASS_DEAD_TOTAL))

theorem driven_wr {k c : Nat} (h : k ≠ Reg.cls c Reg.TRG_CLASS_DEAD_TOTAL) (h4 : k ≠ Reg.cls c Reg.TRG_CLASS_DEAD_TOTAL + 4)
    (s : State) (v : Word) : (s.wr k v).driven c = s.driven c := by
  simp [State.driven, State.rd64, State.rd_wr_ne s v h.symm, State.rd_wr_ne s v h4.symm]

/-- The words of one class stand apart from those of another. -/
theorem apart_driven {c d : Nat} (h : d ≠ c) : Apart (fun s => s.driven c) d 4 where
  cause t n := by
    refine (driven_wr ?_ ?_ ..).trans (driven_wr ?_ ?_ ..) <;>
      unfold Reg.cls Reg.TRG_CLASS_DEAD Reg.TRG_CLASS_DEAD_TOTAL <;> omega
  total t n := by
    refine (driven_wr ?_ ?_ ..).trans (driven_wr ?_ ?_ ..) <;>
      unfold Reg.cls Reg.TRG_CLASS_DEAD_TOTAL <;> omega
  update _ _ _ := rfl

/-! A firing. -/

/-- A class has fired and, as a source, presented the firing to the classes above it. -/
def State.presented (s : State) (f : Firing) (mark : Int) : State :=
  ((s.setTcls f.cls { s.tcls f.cls with lastFire := some mark, firings := (s.tcls f.cls).firings + 1 }).count
    (Reg.cls f.cls Reg.TRG_CLASS_FIRED)).pushEvent .cls f.cls
      { slot := 0, time := f.time, cycle := f.cycle, payload := f.payload, bad := f.bad, coarse := f.coarse }

/-- The prescale P of a class (R236). -/
def State.prescale (s : State) (c : Nat) : Nat :=
  let w := fieldNat (s.clsRd c Reg.TRG_CLASS_PRESCALE) 0 24
  if w = 0 then 1 else w

theorem fireClass_eq (s : State) (f : Firing) (mark : Int) : s.fireClass f mark =
    if (s.tcls f.cls).firings % s.prescale f.cls = 0 then (s.presented f mark).accept f else s.presented f mark := by
  have h (w : Nat) : max 1 w = if w = 0 then 1 else w := by split <;> omega
  rw [State.prescale, ← h]
  rfl

theorem presented_tally (s : State) (f : Firing) (mark : Int) : (s.presented f mark).tally f.cls =
    ((s.tcls f.cls).firings + 1, s.rd (Reg.cls f.cls Reg.TRG_CLASS_ACCEPTED)) := by
  refine (pushEvent_cls_leaves (fun d _ => apart_tally f.cls d (by decide)) ..).trans ?_
  refine (tally_wr ?_ ..).trans ?_
  · unfold Reg.cls Reg.TRG_CLASS_FIRED Reg.TRG_CLASS_ACCEPTED
    omega
  · exact Prod.ext (congrArg TClass.firings (SMap.get_set_self ..)) rfl

theorem presented_driven (s : State) (f : Firing) (mark : Int) : (s.presented f mark).driven f.cls = s.driven f.cls := by
  refine (pushEvent_cls_leaves (fun d hd => apart_driven (by omega : d ≠ f.cls)) ..).trans ?_
  refine (driven_wr ?_ ?_ ..).trans rfl <;> unfold Reg.cls Reg.TRG_CLASS_FIRED Reg.TRG_CLASS_DEAD_TOTAL <;> omega

theorem tally_count_accepted (s : State) (c : Nat) :
    (s.count (Reg.cls c Reg.TRG_CLASS_ACCEPTED)).tally c = ((s.tally c).1, satInc (s.tally c).2) :=
  Prod.ext rfl (State.count_rd_self ..)

theorem fireClass_tally_of_accepted {s : State} {f : Firing} (h : (s.tcls f.cls).firings % s.prescale f.cls = 0) (mark : Int) :
    (s.fireClass f mark).tally f.cls =
      ((s.tcls f.cls).firings + 1, satInc (s.rd (Reg.cls f.cls Reg.TRG_CLASS_ACCEPTED))) := by
  rw [fireClass_eq, if_pos h, tally_accept, tally_count_accepted, presented_tally]

/-! The start of a context. -/

theorem foldl_trg {α : Type} (f : State → α → State) (l : List α) (s : State) (h : ∀ t x, (f t x).trg = t.trg) :
    (l.foldl f s).trg = s.trg :=
  foldl_leaves State.trg f l s fun t x _ => h t x

theorem copyCalibration_trg (s : State) : s.copyCalibration.trg = s.trg := by
  refine foldl_trg _ _ _ fun t c => ?_
  split
  · exact foldl_trg _ _ _ fun _ _ => rfl
  · rfl

theorem leaveBoot_trg (s : State) : s.leaveBoot.trg = s.trg := foldl_trg _ _ _ fun _ _ => rfl

theorem requestParam_trg (s : State) (host : Bool) (b id : Nat) (v : Word) : (s.requestParam host b id v).1.trg = s.trg := by
  unfold State.requestParam
  extract_lets
  split_ifs <;> rfl

theorem requestPause_trg (s : State) (b : Nat) (on : Bool) : (s.requestPause b on).1.trg = s.trg := requestParam_trg ..

theorem pauseSoon_trg (s : State) (on : Bool) : (s.pauseSoon on).trg = s.trg := by
  unfold State.pauseSoon
  extract_lets
  split
  · exact requestPause_trg ..
  · rfl

theorem acted_trg (s : State) (b : Nat) (ok : Bool) : (s.acted b ok).trg = s.trg := by
  cases ok <;> rfl

theorem nextThr_trg (s : State) (b : Nat) : (s.nextThr b).trg = s.trg := rfl

theorem nextRange_trg (s : State) (mid : Bool) : (s.nextRange mid).trg = s.trg := rfl

theorem startPolicy_trg (s : State) : s.startPolicy.trg = s.trg := by
  unfold State.startPolicy
  extract_lets p on off x pause t _ s1 s2
  have h1 : s1.trg = s.trg := by
    unfold s1
    rw [acted_trg]
    dsimp only
    exact pauseSoon_trg ..
  have h2 : s2.trg = s.trg := by
    unfold s2
    split
    · exact (nextThr_trg ..).trans h1
    · exact h1
  split
  · exact (nextRange_trg ..).trans h2
  · exact h2

theorem foldRows_trg (s : State) (bank : Nat) : (s.foldRows bank).trg = s.trg := rfl

theorem startHub_classes (s : State) (first : Nat) : (s.startHub first).trg.classes = [] := rfl

theorem clearForStart_trg (s : State) (first : Nat) (replay : Bool) : (s.clearForStart first replay).trg = s.trg := rfl

theorem sizeRing_trg (s : State) : s.sizeRing.trg = s.trg := rfl

theorem startContext_classes (s : State) (first : Nat) (replay : Bool) : (s.startContext first replay).trg.classes = [] := by
  have hstart (t : State) : ((t.startHub first).copyCalibration.leaveBoot.clearForStart first replay).sizeRing.trg.classes = [] := by
    rw [sizeRing_trg, clearForStart_trg, leaveBoot_trg, copyCalibration_trg, startHub_classes]
  simp only [State.startContext]
  split
  · rw [foldRows_trg, State.setAryState_trg, State.setCtx_trg, State.wrB_trg, hstart]
  · rw [startPolicy_trg, foldRows_trg, State.setAryState_trg, State.setCtx_trg, State.wrB_trg, hstart]

/-- No class has fired when a context starts. -/
theorem startContext_firings (s : State) (first : Nat) (replay : Bool) (c : Nat) :
    ((s.startContext first replay).tcls c).firings = 0 := by
  rw [State.tcls, startContext_classes]
  rfl

/-- Settles O40: an accepted firing counts itself once and drives nothing that counts it again; one that is not accepted ends
when it has been presented to the classes above, whose registers stand apart from its own. -/
theorem acceptedFirings : Obligations.AcceptedFirings := by
  refine ⟨fun s f mark _ => ?_, startContext_firings⟩
  by_cases h : (s.tcls f.cls).firings % s.prescale f.cls = 0
  · obtain ⟨hf, ha⟩ := Prod.ext_iff.mp (fireClass_tally_of_accepted h mark)
    exact ⟨hf, fun _ => ha, fun hn => absurd h hn⟩
  · have ht : s.fireClass f mark = s.presented f mark := by rw [fireClass_eq, if_neg h]
    obtain ⟨hf, ha⟩ := Prod.ext_iff.mp (presented_tally s f mark)
    have hd := presented_driven s f mark
    rw [← ht] at hf ha hd
    simp only [State.driven, Prod.mk.injEq] at hd
    exact ⟨hf, fun hn => absurd hn h, fun _ => ⟨ha, hd⟩⟩

end Sys2Proof.Machine
end

section
/-!
PROOF. What every step keeps: the queue of commands, the stepping and the burned fuses (R144, R380, R436); how a step runs; the
state after reset.
-/

namespace Sys2Proof.Machine
open Sys2Proof.Claims

/-- The five commands that burn fuses only add to what is burned; every other command leaves the fuses as they were. -/
theorem grows_exec (c : Instr) (s : State) : GrowsO s (exec c s) := by
  by_cases h : burnsFuses c = true
  · cases c with
    | registerWrite m a w v => exact grows_execRegisterWrite m a w v s
    | wideOrUnalignedAccess m off w wr v => exact grows_execWideOrUnalignedAccess m off w wr v s
    | repairBurn m v => exact grows_execRepairBurn m v s
    | opkeyEnrol r m k d => exact grows_execOpkeyEnrol r m k d s
    | fwConfirm r m => exact grows_execFwConfirm r m s
    | _ => exact absurd h (by simp [burnsFuses])
  · exact .of_keeps (keeps_exec c s (by simpa using h))

/-- No command ends in a fault or a refusal. -/
theorem exec_next (c : Instr) (s : State) : ∃ t, exec c s = .next t := by
  cases c <;> exact ⟨_, rfl⟩

theorem step_of_pending {s : State} {c : Instr} {rest : List Instr} (h : s.pending = c :: rest) :
    step s = exec c { s with pending := rest } := by
  rw [step, h]

theorem step_of_idle {s : State} (h : s.pending = []) : step s = .next s.tick := by
  rw [step, h]

/-- Settles O57: each clause is one branch of `step`. -/
theorem stepRunsFrontCommand : Obligations.StepRunsFrontCommand :=
  ⟨fun _ _ => rfl, fun _ _ _ h => step_of_pending h, fun _ h => step_of_idle h⟩

/-- Settles O58: a command that burns fuses grows them, any other keeps them, and both leave queue and stepping alone. -/
theorem commandsComplete : Obligations.CommandsComplete := by
  intro c s
  obtain ⟨t, ht⟩ := exec_next c s
  obtain ⟨hp, hb, -, -⟩ := grows_exec c s t ht
  refine ⟨t, ht, hp, hb, fun hc => ?_⟩
  exact (State.keep_parts (keeps_exec c s hc t ht)).2.2.2

/-- Settles O59: a step is a tick, which touches no fuse, or a command, which only adds to what is burned; fuses that may
follow `f` may be followed by what follows them. -/
theorem fusesOnlyGrow : Obligations.FusesOnlyGrow := by
  intro f s t hf hst
  cases hp : s.pending with
  | nil =>
    rw [step_of_idle hp] at hst
    cases hst
    obtain ⟨-, -, -, hfuse⟩ := State.keep_parts (keep_State_tick s)
    rwa [hfuse]
  | cons c rest =>
    rw [step_of_pending hp] at hst
    obtain ⟨-, -, -, hgrow⟩ := grows_exec c _ t hst
    exact Fuses.le_trans hf hgrow

/-- Settles O60: after reset no register word is listed in the store, so each reads its reset value, and every other store is
empty. -/
theorem resetValues : Obligations.ResetValues := by
  refine ⟨fun _ => rfl, ?phase, ?ctx, ?ary, ?servo, rfl, ?clk, ?cfg, ?thr, rfl, rfl, rfl, rfl, fun _ => rfl, fun _ => rfl, fun _ => rfl,
    Fuses.le_refl _⟩
  all_goals decide +kernel

end Sys2Proof.Machine
end

section
/-!
PROOF. The M-slot instructions that compute a register element by element (R162 to R172), and the scalar instructions (R178).
-/

namespace Sys2Proof.Machine
open Sys2Proof.Claims

/-! An instruction that puts a register in flight, and what its elements read. -/

section Fills
variable {s : State} {h : MHead} {i : Instr} {lat : Nat} {vd : BitVec 5} {o : VOut}

theorem fillsWith_of_vectorOp (hi : Issues s h) (he : exec i s = .next (s.vectorOp h lat vd o)) :
    FillsWith s h i lat vd o.val o.bad := by
  obtain ⟨honly, hl, ht⟩ := vectorOp_flies s h lat vd o hi
  exact ⟨_, he, honly, hl, ht⟩

theorem fills_of_vectorOp {w n : Nat} {f : Nat → Nat} (hi : Issues s h) (he : exec i s = .next (s.vectorOp h lat vd o))
    (hf : ∀ e < n, elem w o.val e = f e % 2 ^ w) : Fills s h i lat vd w n f o.bad := by
  obtain ⟨honly, hl, ht⟩ := vectorOp_flies s h lat vd o hi
  exact ⟨_, he, honly, ⟨_, hl, hf⟩, ht⟩

/-- A loop over elements fills the register with what it computes for each. -/
theorem fills_of_collect {w n : Nat} {f : Nat → Nat} {g : Nat → Nat × Ev} {ev : Ev} {bad : Bool} (hi : Issues s h)
    (he : exec i s = .next (s.vectorOp h lat vd { val := packReg w (collect g n).1, ev := ev, bad := bad })) (hw : w * n ≤ 2048)
    (hf : ∀ e < n, (g e).1 % 2 ^ w = f e % 2 ^ w) : Fills s h i lat vd w n f bad :=
  fills_of_vectorOp hi he fun e h => (elem_collect w g n e h hw).trans (hf e h)

/-- The same where the codes are a list. -/
theorem fills_of_map {w n : Nat} {f : Nat → Nat} {ev : Ev} {bad : Bool} (hi : Issues s h)
    (he : exec i s = .next (s.vectorOp h lat vd { val := packReg w ((List.range n).map f), ev := ev, bad := bad }))
    (hw : w * n ≤ 2048) : Fills s h i lat vd w n f bad :=
  fills_of_vectorOp hi he fun e h => by
    rw [elem_packReg w _ e (by simpa using h) (by simpa using hw)]
    simp

/-- The same with one code. -/
theorem fills_one {w c : Nat} {f : Nat → Nat} {ev : Ev} {bad : Bool} (hi : Issues s h)
    (he : exec i s = .next (s.vectorOp h lat vd { val := packReg w [c], ev := ev, bad := bad })) (hc : c = f 0) (hw : w ≤ 2048) :
    Fills s h i lat vd w 1 f bad :=
  fills_of_map (f := f) (ev := ev) hi (he.trans (by rw [hc]; rfl)) (by omega)

end Fills

/-- The elements of a format fit a register. -/
theorem width_mul_perReg_le (f : Fmt) : f.width * Fmt.perReg f ≤ 2048 := Nat.mul_div_le ..

theorem width_le_128 : ∀ f : Fmt, f.width ≤ 128 := by decide

/-! FP32 vector arithmetic (R162). -/

theorem fun1_code (y : Sum Nat Val × Ev) (r : Rnd) :
    (match y.1 with
      | .inl code => (code, y.2)
      | .inr v => let z := convert Fmt.fp32 r v; (z.1, y.2.add z.2)).1 = fp32Code r y.1 := by
  obtain ⟨code | v, ev⟩ := y <;> rfl

/-- A function of R162 fills the register with the code that its rule fixes, or with its value rounded once. -/
theorem fills_fun1 {s : State} {h : MHead} {i : Instr} {lat : Nat} (a : MV) (f : Val → Sum Nat Val × Ev) (hi : Issues s h)
    (he : exec i s = .next (s.vectorOp h lat a.vd (Vec.fun1 (s.mctx h.loc) a f))) :
    Fills s h i lat a.vd 32 64
      (fun e => fp32Code ((s.mctx h.loc).rnd a.rnd a.ck a.gi e) (f (fmtValue Fmt.fp32 (elem 32 ((s.mctx h.loc).p.vreg a.va) e))).1)
      ((s.mctx h.loc).p.tagsOf a.va 8) :=
  fills_of_collect hi he (by decide) fun e _ => congrArg (· % 2 ^ 32) (fun1_code ..)

/-- An FP32 operation fills the register with its exact values, each rounded once. -/
theorem fills_lanes32 {s : State} {h : MHead} {i : Instr} {lat : Nat} (a b : MV) (op : Nat → Val) (bad : Bool) (hi : Issues s h)
    (he : exec i s = .next (s.vectorOp h lat a.vd (Vec.lanes32 (s.mctx h.loc) b op bad))) :
    Fills s h i lat a.vd 32 64 (fun e => (convert Fmt.fp32 ((s.mctx h.loc).rnd b.rnd b.ck b.gi e) (op e)).1) bad :=
  fills_of_collect hi he (by decide) fun _ _ => rfl

/-- Settles O1: an FP32 operation is a loop over the lanes, each an exact value rounded once; FMIN and FMAX round nothing, so
their rounding is RN whatever the instruction says. -/
theorem floatVectorResults : Obligations.FloatVectorResults := by
  intro s h a hi
  refine ⟨?fadd, ?fsub, ?fmul, ?fma, ?fmin, ?fmax, ?rcp, ?rsq, ?exp2, ?log2⟩
  case fadd => exact fills_lanes32 a a _ _ hi rfl
  case fsub => exact fills_lanes32 a a _ _ hi rfl
  case fmul => exact fills_lanes32 a a _ _ hi rfl
  case fma => exact fills_lanes32 a a _ _ hi rfl
  case fmin => exact fills_lanes32 a { a with rnd := 0 } _ _ hi rfl
  case fmax => exact fills_lanes32 a { a with rnd := 0 } _ _ hi rfl
  case rcp => exact fills_fun1 a rcpVal hi rfl
  case rsq => exact fills_fun1 a rsqVal hi rfl
  case exp2 => exact fills_fun1 a exp2Val hi rfl
  case log2 => exact fills_fun1 a log2FVal hi rfl

/-! Integer and bitwise arithmetic (R57, R60, R163). -/

theorem qmin_le_qmax : ∀ f : Fmt, f.qmin ≤ f.qmax := by decide

/-- Saturation gives the code of the nearest value that the format has. -/
theorem satInt_code (f : Fmt) (x : Int) : (Vec.satInt f x).1 = codeOf f.width (clamp f x) := by
  have hq : f.qmin ≤ f.qmax := qmin_le_qmax f
  unfold Vec.satInt
  split_ifs with hhi hlo
  · rw [clamp, min_eq_left (by omega), max_eq_right hq]
  · rw [clamp, min_eq_right (by omega), max_eq_left (by omega)]
  · rw [clamp, min_eq_right (by omega), max_eq_right (by omega)]

/-- An integer operation fills the register with its saturated results. -/
theorem fills_ints {s : State} {h : MHead} {i : Instr} {lat : Nat} (a : MV) (op : Int → Int → Int) (hi : Issues s h)
    (he : exec i s = .next (s.vectorOp h lat a.vd (Vec.ints (s.mctx h.loc) a op))) :
    let p := s.picot h.loc.pic
    let x := fun v e => Vec.intVal a.fmt (elem (Fmt.width a.fmt) (p.vreg v) e)
    Fills s h i lat a.vd (Fmt.width a.fmt) (Fmt.perReg a.fmt)
      (fun e => codeOf (Fmt.width a.fmt) (clamp a.fmt (op (x a.va e) (x a.vb e)))) (p.tagsOf a.va 8 || p.tagsOf a.vb 8) :=
  fills_of_collect hi he (width_mul_perReg_le a.fmt) fun _ _ => congrArg (· % _) (satInt_code ..)

/-- Settles O2: integer arithmetic saturates element by element; bitwise instructions, shifts and CMP pack what their rule gives,
of which a register keeps the element's width. -/
theorem integerAndBitwiseResults : Obligations.IntegerAndBitwiseResults := by
  refine ⟨fun s h a hi => ⟨?iadd, ?isub, ?imul, ?imin, ?imax⟩,
    fun s h a hi => ⟨?and, ?or, ?xor, ?vsel, ?shl, ?shr, ?sar, ?cmp⟩⟩
  case iadd => exact fills_ints a (· + ·) hi rfl
  case isub => exact fills_ints a (· - ·) hi rfl
  case imul => exact fills_ints a (· * ·) hi rfl
  case imin => exact fills_ints a min hi rfl
  case imax => exact fills_ints a max hi rfl
  case and => exact fillsWith_of_vectorOp (o := Vec.andv (s.mctx h.loc) a) hi rfl
  case or => exact fillsWith_of_vectorOp (o := Vec.orv (s.mctx h.loc) a) hi rfl
  case xor => exact fillsWith_of_vectorOp (o := Vec.xorv (s.mctx h.loc) a) hi rfl
  case vsel => exact fillsWith_of_vectorOp (o := Vec.vsel (s.mctx h.loc) a) hi rfl
  case shl => exact fills_of_collect hi rfl (width_mul_perReg_le a.fmt) fun _ _ => Nat.mod_mod ..
  case shr => exact fills_of_collect hi rfl (width_mul_perReg_le a.fmt) fun _ _ => rfl
  case sar => exact fills_of_collect hi rfl (width_mul_perReg_le a.fmt) fun _ _ => rfl
  case cmp => exact fills_of_collect hi rfl (width_mul_perReg_le a.fmt) fun _ _ => rfl

/-! Conversions and quantization (R164 to R168). -/

/-- Settles O3: each instruction is a loop over its elements; CSUM packs one saturated sum. -/
theorem conversionResults : Obligations.ConversionResults := by
  intro s h a hi
  refine ⟨fun hw => ?cvt, fun hw => ?qnt, ?dqt, ?scale, fun hw => ?bqnt, ?csum⟩
  case cvt => exact fills_of_collect hi rfl (by omega) fun _ _ => rfl
  case qnt => exact fills_of_collect hi rfl (Nat.mul_le_mul_right 64 hw) fun _ _ => rfl
  case dqt => exact fills_of_collect hi rfl (by decide) fun _ _ => rfl
  case scale => exact fills_of_collect hi rfl (by decide) fun _ _ => rfl
  case bqnt =>
    refine fills_of_collect hi rfl (by omega) fun e _ => congrArg (· % _) ?_
    dsimp only
    split <;> rfl
  case csum => exact fills_one hi rfl (satInt_code ..) (by decide)

/-! Scalar and status instructions (R178, R183, R445). -/

theorem gpLands_of_scalarOp {s : State} {loc : At} {i : Instr} {lat : Nat} {gd : BitVec 4} {v : Word} (hs : s.hold.stopped = false)
    (he : exec i s = .next (s.scalarOp loc lat gd v)) : GpLands s loc i lat gd v := by
  rw [scalarOp_of_running hs] at he
  exact ⟨_, he, onlyFlies_fly .., flies_fly ..⟩

theorem onlyFlies_flyPair (s : State) (loc : At) (lat : Nat) (r : BitVec 4) (v : DWord) : OnlyFlies s (s.flyPair loc lat r v) loc.pic :=
  onlyFlies_trans (onlyFlies_fly ..) (onlyFlies_fly ..)

theorem pairLands_of_flyPair {s : State} {loc : At} {i : Instr} {gd : BitVec 4} {lat : Nat} {v : DWord}
    (he : exec i s = .next (s.flyPair loc lat gd v)) : PairLands s loc i gd lat v :=
  ⟨_, he, onlyFlies_flyPair .., flies_flyPair_low .., flies_flyPair_high ..⟩

/-- A word put at a lane of a register is what that lane reads. -/
theorem lane_shiftLeft (v : Word) (k : BitVec 6) : lane ((v.setWidth 2048) <<< (32 * k.toNat)) k.toNat = v := by
  apply BitVec.eq_of_getLsbD_eq
  intro j hj
  have hk : k.toNat < 64 := k.isLt
  have hlt : 32 * k.toNat + j < 2048 := by omega
  simp [lane, hj, hlt]

/-- CMPG's eight conditions, said of the values that the registers hold. -/
theorem cmpgHolds_eq (cond : BitVec 3) (x y : Word) : cmpgHolds cond x y =
    (match cond.toNat with
      | 0 => decide (x = y)
      | 1 => decide (x ≠ y)
      | 2 => decide (x.toInt < y.toInt)
      | 3 => decide (x.toInt ≤ y.toInt)
      | 4 => decide (y.toInt < x.toInt)
      | 5 => decide (y.toInt ≤ x.toInt)
      | 6 => decide (x.toNat < y.toNat)
      | _ => decide (y.toNat ≤ x.toNat)) := by
  unfold cmpgHolds
  match cond.toNat with
  | 0 => exact beq_eq_decide x y
  | 1 => exact (congrArg not (beq_eq_decide x y)).trans decide_not.symm
  | 2 | 3 | 4 | 5 | 6 | n + 7 => rfl

/-- Settles O5: a running array puts each instruction's register in flight, a pair as two registers, GTOV's word as a lane, whose
segment's tag it clears. -/
theorem scalarResults : Obligations.ScalarResults := by
  intro s loc hs
  have hi : s.issues = true := issues_of hs
  have gp {i : Instr} {lat : Nat} {gd : BitVec 4} {v : Word} (he : exec i s = .next (s.scalarOp loc lat gd v)) :
      GpLands s loc i lat gd v := gpLands_of_scalarOp hs he
  refine ⟨fun gd => ?rdtime, fun gd => ?rdround, fun _ _ _ => gp rfl, fun _ _ => gp rfl, fun _ _ => gp rfl, fun _ _ => gp rfl,
    fun _ _ => gp rfl, fun a hp => gp (exec_addi_single s loc a hp), fun a hp => pairLands_of_flyPair (exec_addi_pair hs loc a hp),
    fun _ => gp rfl, fun _ => gp rfl, fun _ => gp rfl, fun _ => gp rfl, fun _ => gp rfl, fun _ => gp rfl, fun _ => gp rfl,
    fun _ => gp rfl, fun _ => gp rfl, fun a => ?gtov, fun a => ?cmpg⟩
  case rdtime => exact pairLands_of_flyPair (congrArg Host.Outcome.next (if_pos hi))
  case rdround => exact pairLands_of_flyPair (congrArg Host.Outcome.next (if_pos hi))
  case gtov =>
    exact ⟨_, _, congrArg Host.Outcome.next (if_pos hi), onlyFlies_trans (onlyFlies_fly ..) (onlyFlies_fly ..),
      flies_mono (flies_fly ..) (onlyFlies_fly ..), lane_shiftLeft .., flies_fly ..⟩
  case cmpg =>
    have hland : Lands s loc (.cmpg loc a) 1 1 (.prd a.pbit.toNat (cmpgHolds a.cond ((s.lg loc).reg a.ga) ((s.lg loc).reg a.gb))) :=
      ⟨_, congrArg Host.Outcome.next (if_pos hi), onlyFlies_fly .., flies_fly ..⟩
    rw [cmpgHolds_eq] at hland
    exact hland

end Sys2Proof.Machine
end

section
/-!
PROOF. The exact-sum and matrix instructions, and VLD (R150, R158 to R161, R169, R172).
-/

namespace Sys2Proof.Machine
open Sys2Proof.Claims

/-! Reading SRAM words that hold no error (R111). -/

theorem eccDecode_sram_zero : eccDecode 64 (fieldNat (0 : BitVec 272) 0 256) (fieldNat (0 : BitVec 272) 256 16) = .clean := by
  decide +kernel

/-- Clean words log nothing, and all of them may be used. -/
theorem sramCheck_of_clean {s : State} {p : Fin 1024} {ws : List Nat} (hc : CleanWords s p ws) : s.sramCheck p ws = (s, true) := by
  induction ws with
  | nil => rfl
  | cons w ws ih =>
    have hw : SMap.get 0 (s.picot p).sramErr w = 0 := hc w (List.mem_cons_self ..)
    rw [State.sramCheck, ih fun x hx => hc x (List.mem_cons_of_mem _ hx), hw, eccDecode_sram_zero]

/-- An instruction that reads clean words lands. -/
theorem sramOp_of_clean {s : State} {h : MHead} {ws : List Nat} (hi : Issues s h) (hc : CleanWords s h.loc.pic ws)
    (land : State → State) : s.sramOp h ws land = land s := by
  simp [State.sramOp, issues_of hi.1, sramCheck_of_clean hc, hi.2]

/-! What a matrix instruction puts in flight. -/

theorem issuesGate {s : State} {h : MHead} (hi : Issues s h) : (s.issues && s.predicate h) = true := by
  rw [issues_of hi.1, hi.2]
  rfl

theorem lands_fly {s : State} {loc : At} {i : Instr} {slot lat : Nat} {r : Res} (he : exec i s = .next (s.fly loc slot lat r)) :
    Lands s loc i slot lat r :=
  ⟨_, he, onlyFlies_fly .., flies_fly ..⟩

/-- A result in flight with the events that its making counted. -/
theorem lands_fly_countEvents {s : State} {loc : At} {i : Instr} {slot lat : Nat} {r : Res} {ev : Ev}
    (he : exec i s = .next ((s.fly loc slot lat r).countEvents loc.pic ev)) : Lands s loc i slot lat r :=
  ⟨_, he, onlyFlies_trans (onlyFlies_fly ..) (onlyFlies_countEvents ..), flies_mono (flies_fly ..) (onlyFlies_countEvents ..)⟩

/-- A register in flight with its eight tags. -/
theorem fills_of_flyReg {s : State} {h : MHead} {i : Instr} {lat : Nat} {vd : BitVec 5} {o : VOut} {w n : Nat} {f : Nat → Nat}
    (he : exec i s = .next (s.flyReg h.loc lat vd o)) (hf : ∀ e < n, elem w o.val e = f e % 2 ^ w) :
    Fills s h i lat vd w n f o.bad := by
  have htags := onlyFlies_fly (s.fly h.loc 0 lat (.lanes vd.toNat (BitVec.allOnes 64) o.val)) h.loc 0 lat (.tags vd.toNat 0xFF o.bad)
  exact ⟨_, he, onlyFlies_trans (onlyFlies_fly ..) htags, ⟨_, flies_mono (flies_fly ..) htags, hf⟩, flies_fly ..⟩

/-! The sums of MMA (R159). -/

theorem foldl_add_fst {α : Type} (f : α → Int × Ev) (l : List α) (a : Int × Ev) :
    (l.foldl (fun acc k => (acc.1 + (f k).1, acc.2.add (f k).2)) a).1 = a.1 + (l.map fun k => (f k).1).sum := by
  induction l generalizing a with
  | nil => simp
  | cons x l ih => rw [List.foldl_cons, ih, List.map_cons, List.sum_cons, add_assoc]

/-- Without block scales the sum of a row is that of its terms. -/
theorem rowSum_unscaled (c : MCtx) {a : MM} (hs : a.scaled = false) (j : Nat) : (Mat.rowSum c a j).1 =
    ((List.range (tileDepth c.p.active.fmt)).map (fun k =>
      (term (c.p.nlogOf a.bank.toNat) ((fmtValue c.p.active.fmt (c.p.active.code j k)).mul (Mat.columnVal c a k))).1)).sum := by
  rw [Mat.rowSum, if_neg (by simp [hs])]
  exact (foldl_add_fst (fun k => term (c.p.nlogOf a.bank.toNat) (Mat.product c a j k)) _ _).trans (zero_add _)

/-- MMA puts its 32 row sums in flight into its bank. -/
theorem mma_lands {s : State} {h : MHead} (hi : Issues s h) (a : MM) (hp : pairs a.afmt (s.picot h.loc.pic).active.fmt = true) :
    Lands s h.loc (.mma h a) 0 (if Fmt.width a.afmt = 16 then 7 else 4)
      (.terms a.bank.toNat 0 (!a.acc) (((List.range 32).map (Mat.rowSum (s.mctx h.loc) a)).map Prod.fst)
        (Mat.columnTag (s.mctx h.loc) a)) :=
  lands_fly_countEvents (congrArg Host.Outcome.next ((if_pos (issuesGate hi)).trans (if_pos hp)))

/-! The outputs of ACCQ (R161). -/

/-- A code of a list packed from segment `seg` of a register on. -/
theorem extract_packNat_shifted {w seg j : Nat} {cs : List Nat} (hj : j < cs.length) (hw : 256 * seg + cs.length * w ≤ 2048) :
    ((BitVec.ofNat 2048 (packNat w cs * 2 ^ (256 * seg))).extractLsb' (256 * seg + w * j) w).toNat = cs[j] % 2 ^ w := by
  have hlt : packNat w cs * 2 ^ (256 * seg) < 2 ^ 2048 := calc
    packNat w cs * 2 ^ (256 * seg) < 2 ^ (w * cs.length) * 2 ^ (256 * seg) :=
      Nat.mul_lt_mul_of_pos_right (packNat_lt w cs) (Nat.two_pow_pos _)
    _ = 2 ^ (256 * seg + cs.length * w) := by rw [← Nat.pow_add, Nat.mul_comm w, Nat.add_comm]
    _ ≤ _ := Nat.pow_le_pow_right (by decide) hw
  rw [BitVec.extractLsb'_toNat, BitVec.toNat_ofNat, Nat.mod_eq_of_lt hlt, Nat.shiftRight_eq_div_pow, Nat.pow_add,
    ← Nat.div_div_eq_div_mul, Nat.mul_div_cancel _ (Nat.two_pow_pos _)]
  exact packNat_get w cs j hj

/-- The width of ACCQ's output format. -/
def accqWidth (s : State) (h : MHead) (a : MQ) : Nat := Fmt.width ((s.const h.loc (a.ck.toNat + 6)).extractLsb' 0 4)

/-- ACCQ's 32 outputs with their events. -/
def accqOutputs (s : State) (h : MHead) (a : MQ) : List Nat × Ev :=
  collect (Mat.output (s.mctx h.loc) a (s.sramRow h.loc.pic a.rrow.toNat)) 32

/-- ACCQ's outputs in a register, from its segment on. -/
def accqRegister (s : State) (h : MHead) (a : MQ) : BitVec 2048 :=
  BitVec.ofNat 2048 (packNat (accqWidth s h a) (accqOutputs s h a).1 * 2 ^ (256 * a.seg.toNat))

theorem accqRegister_output {s : State} {h : MHead} {a : MQ} (hw : 256 * a.seg.toNat + 32 * accqWidth s h a ≤ 2048) {j : Nat}
    (hj : j < 32) : ((accqRegister s h a).extractLsb' (256 * a.seg.toNat + accqWidth s h a * j) (accqWidth s h a)).toNat =
      (Mat.output (s.mctx h.loc) a (s.sramRow h.loc.pic a.rrow.toNat) j).1 % 2 ^ accqWidth s h a := by
  have hlen : (accqOutputs s h a).1.length = 32 := by simp [accqOutputs, collect_fst]
  rw [accqRegister, extract_packNat_shifted (by omega) (by rwa [hlen])]
  simp [accqOutputs, collect_fst]

theorem exec_accq_of_clean {s : State} {h : MHead} {a : MQ} (hi : Issues s h) (hc : CleanWords s h.loc.pic (rowWords a.rrow.toNat)) :
    let n := (32 * accqWidth s h a + 255) / 256
    let lat := s.classLatency 0 9 7
    exec (.accq h a) s = .next (((s.fly h.loc 0 lat (.lanes a.vd.toNat (BitVec.ofNat 64 ((2 ^ (8 * n) - 1) * 2 ^ (8 * a.seg.toNat)))
        (accqRegister s h a))).fly h.loc 0 lat
      (.tags a.vd.toNat (BitVec.ofNat 8 ((2 ^ n - 1) * 2 ^ a.seg.toNat)) ((s.mctx h.loc).p.bankTag a.bank.toNat))).countEvents
        h.loc.pic (accqOutputs s h a).2) :=
  congrArg Host.Outcome.next (sramOp_of_clean hi hc _)

/-- Settles O4: each instruction puts its one result, its register, or ACCQ's segments and tags in flight; words that hold no
error are read as they are. -/
theorem exactSumAndMatrixResults : Obligations.ExactSumAndMatrixResults := by
  refine ⟨fun s h a hi => ⟨?xcvt, ?xadd, ?xrnd, ?vrsum, ?vrmax, ?vrng⟩, fun s h hi => ⟨rfl, fun a hc => ?wld, fun a hc => ?wsc, ?wswap,
    fun a hp hs => ?mma, fun a hc hw => ?accq, fun a => ?accx, fun a => ?acca, fun a => ?accz, fun a hc => ?vld⟩⟩
  case xcvt => exact fills_of_collect hi rfl (by decide) fun _ _ => rfl
  case xadd => exact fills_of_collect hi rfl (by decide) fun _ _ => rfl
  case xrnd => exact fills_of_collect hi rfl (Nat.mul_le_mul_right 16 (width_le_128 a.fmt)) fun _ _ => rfl
  case vrsum =>
    refine fills_one hi rfl ?_ (by decide)
    rw [List.map_map]
    rfl
  case vrmax => exact fills_one hi rfl rfl ((width_le_128 a.fmt).trans (by decide))
  case vrng => exact fills_of_map (ev := {}) hi rfl (by decide)
  case wld => exact lands_fly (congrArg Host.Outcome.next (sramOp_of_clean hi hc _))
  case wsc => exact lands_fly (congrArg Host.Outcome.next (sramOp_of_clean hi hc _))
  case wswap => exact lands_fly (congrArg Host.Outcome.next (if_pos (issuesGate hi)))
  case mma =>
    refine ⟨_, mma_lands hi a hp, by simp, fun j hj => ?_⟩
    rw [← rowSum_unscaled (s.mctx h.loc) hs j]
    simp [hj]
  case accq =>
    refine ⟨_, accqRegister s h a, exec_accq_of_clean hi hc, ?only, ?lanes, ?tags, fun j hj => accqRegister_output hw hj⟩
    case only => exact onlyFlies_trans (onlyFlies_trans (onlyFlies_fly ..) (onlyFlies_fly ..)) (onlyFlies_countEvents ..)
    case lanes => exact flies_mono (flies_mono (flies_fly ..) (onlyFlies_fly ..)) (onlyFlies_countEvents ..)
    case tags => exact flies_mono (flies_fly ..) (onlyFlies_countEvents ..)
  case accx => exact fills_of_map (ev := {}) hi rfl (by decide)
  case acca => exact lands_fly (congrArg Host.Outcome.next (if_pos (issuesGate hi)))
  case accz => exact lands_fly (congrArg Host.Outcome.next (if_pos (issuesGate hi)))
  case vld =>
    have hland : exec (.vld h a) s = .next (s.flyReg h.loc 3 a.vd
        { val := packReg 256 (((List.range 8).map (fun i => a.word.toNat + i)).map (fun w => (s.sramRead h.loc.pic w).toNat)),
          bad := false }) :=
      congrArg Host.Outcome.next (sramOp_of_clean hi hc _)
    refine fills_of_flyReg hland fun e he => ?_
    rw [elem_packReg 256 _ e (by simpa using he) (by simp)]
    simp

end Sys2Proof.Machine
end

section
/-!
PROOF. Flits and tokens on the links: SEND, HATOM and the atomics, and what arrives at an input (R117 to R124, R173, R177, R342).
-/

namespace Sys2Proof.Machine
open Sys2Proof.Claims

/-! Driving an output that no other source drives (R124). -/

theorem not_flitDriven {s : State} {p q : Fin 1024} {d : Dir} {wait : Nat} (hf : FreeOutput s p q d wait) :
    s.arr.beats.any (State.flitDriven q (dirOpp d) (if crosses p d then wait + 5 else wait)) = false := by
  simp only [List.any_eq_false, State.flitDriven, Bool.and_eq_true, Bool.or_eq_true, decide_eq_true_eq]
  intro b hb ⟨⟨⟨hpic, hinp⟩, hwait⟩, hflit⟩
  exact hf b hb ⟨hpic, hinp, hwait, hflit⟩

/-- A free output carries the flit, five cycles later across a bridge (R121). -/
theorem driveFlit_of_free {s t : State} {p q : Fin 1024} {d : Dir} {wait : Nat} (hq : neighbour p d = some q)
    (hf : FreeOutput s p q d wait) (ht : t.arr.beats = s.arr.beats) (f : Flit) (lg : Nat) :
    t.driveFlit p d wait f lg = { t with arr := { t.arr with
      beats := s.arr.beats ++ [Beat.ofFlit q (dirOpp d) (if crosses p d then wait + 5 else wait) f] } } := by
  simp only [State.driveFlit, hq, ht, not_flitDriven hf, Bool.false_eq_true, if_false]
  rfl

theorem drives_driveFlit {s : State} {p q : Fin 1024} {d : Dir} {wait : Nat} (hq : neighbour p d = some q)
    (hf : FreeOutput s p q d wait) (f : Flit) (lg : Nat) : Drives s (s.driveFlit p d wait f lg) p q d wait f :=
  driveFlit_of_free hq hf rfl f lg

/-- The S output of row 0 goes to the hub port (R125). -/
theorem driveFlit_hub {s : State} {p : Fin 1024} {wait : Nat} (hq : neighbour p .s = none)
    (hf : ∀ h ∈ s.arr.hub, ¬(h.port = portOf p ∧ h.wait = wait)) (f : Flit) (lg : Nat) :
    s.driveFlit p .s wait f lg = { s with arr := { s.arr with
      hub := s.arr.hub ++ [{ port := portOf p, wait := wait, flit := f, check := 0, clash := false }] } } := by
  have hfree : s.arr.hub.any (State.hubDriven (portOf p) wait) = false := by
    simpa [State.hubDriven, List.any_eq_false] using hf
  simp only [State.driveFlit, hq, hfree, Bool.false_eq_true, if_false, if_true]

/-! SEND (R173). -/

section Send
variable {s : State} {loc : At} {a : LS}

/-- The L-port reaches a bank that the lane port has not (R109). -/
theorem lportAccess_of_free {word : Nat} (h : word % 32 ∉ (s.picot loc.pic).lanePort) :
    s.lportAccess loc word = (s.setPicot loc.pic { s.picot loc.pic with lport := some (word % 32) }, true) := by
  simp [State.lportAccess, h]

/-- A data queue with a head gives it up. -/
theorem popFlit_of_cons {q : BitVec 4} {f : Flit} {fs : List Flit} (hq : ((s.picot loc.pic).queue q.toNat).items = f :: fs) :
    s.popFlit loc.pic q.toFin = (some f, s.setPicot loc.pic ((s.picot loc.pic).setQueue q.toNat
      { (s.picot loc.pic).queue q.toNat with items := fs })) := by
  have hv : (q.toFin : Nat) = q.toNat := rfl
  simp only [State.popFlit, hv, hq]

variable (hs : s.hold.stopped = false)
include hs

theorem exec_send_segment (ha : a.src = 0) : exec (.send loc a) s = .next (s.driveFlit loc.pic a.dir 2
    { data := segment ((s.picot loc.pic).vreg a.v) a.seg.toNat, kind := 0, bad := (s.picot loc.pic).segTag a.v a.seg.toNat, last := a.last }
    loc.lg) := by
  change execSend loc a s = _
  simp [execSend, issues_of hs, ha]

theorem exec_send_sram (ha : a.src = 1) (hw : a.word.toNat % 32 ∉ (s.picot loc.pic).lanePort)
    (hc : CleanWords s loc.pic [a.word.toNat]) :
    exec (.send loc a) s =
      .next ((s.setPicot loc.pic { s.picot loc.pic with lport := some (a.word.toNat % 32) }).driveFlit loc.pic a.dir 4
        { data := s.sramRead loc.pic a.word.toNat, kind := 0, bad := (s.lg loc).badl, last := a.last } loc.lg) := by
  have hc' : CleanWords (s.setPicot loc.pic { s.picot loc.pic with lport := some (a.word.toNat % 32) }) loc.pic [a.word.toNat] := by
    intro w hm
    rw [picot_setPicot_self]
    exact hc w hm
  change execSend loc a s = _
  simp [execSend, issues_of hs, ha, lportAccess_of_free hw, sramCheck_of_clean hc']

theorem exec_send_queue (ha : a.src = 2) {f : Flit} {fs : List Flit} (hq : ((s.picot loc.pic).queue a.dq.toNat).items = f :: fs) :
    exec (.send loc a) s = .next ((s.setPicot loc.pic ((s.picot loc.pic).setQueue a.dq.toNat
      { (s.picot loc.pic).queue a.dq.toNat with items := fs })).driveFlit loc.pic a.dir 2 f loc.lg) := by
  change execSend loc a s = _
  simp [execSend, issues_of hs, ha, popFlit_of_cons hq]

end Send

theorem queue_setQueue_self (x : Picot) (q : Nat) (y : Queue) : (x.setQueue q y).queue q = y := SMap.get_set_self ..

/-! Atomics at the hub (R177, R342). -/

theorem clearHold_frame (s : State) (cause : Nat) (src : HoldSrc) : s.clearHold cause src = { s with hold := (s.clearHold cause src).hold } := by
  unfold State.clearHold
  split <;> rfl

theorem cxlMet_frame (s : State) : s.cxlMet = { s with hold := s.cxlMet.hold } := by
  unfold State.cxlMet
  split
  · exact clearHold_frame ..
  · rfl

@[simp] theorem cxlMet_out (s : State) : s.cxlMet.out = s.out := by rw [cxlMet_frame]
@[simp] theorem cxlMet_arr (s : State) : s.cxlMet.arr = s.arr := by rw [cxlMet_frame]
@[simp] theorem cxlMet_rd (s : State) (k : Nat) : s.cxlMet.rd k = s.rd k := by rw [cxlMet_frame]; rfl
@[simp] theorem setAtomic_out (s : State) (a : Atomic) (old : Word) : (s.setAtomic a old).out = s.out := rfl
@[simp] theorem setAtomic_rd (s : State) (a : Atomic) (old : Word) (k : Nat) : (s.setAtomic a old).rd k = s.rd k := rfl
@[simp] theorem setAtomic_atomics (s : State) (a : Atomic) (old : Word) : (s.setAtomic a old).arr.atomics =
    s.arr.atomics.map (fun b => if b = a then { b with result := some old } else b) := rfl

theorem exec_hatomExecute {s : State} {col : Fin 32} {a : Atomic} (h : s.nextAtomic col = some a) (old : Option Word) :
    exec (.hatomExecute col old) s = .next (s.runAtomic a old) := by
  change execHatomExecute col old s = _
  rw [execHatomExecute, h]

/-- Settles O8: an output that nothing else drives carries the flit; the hub writes an ADD's sum and keeps the old value, or all
ones, for the return. -/
theorem sendAndAtomicResults : Obligations.SendAndAtomicResults := by
  intro s loc hs
  have hi : s.issues = true := issues_of hs
  refine ⟨fun a ha q hq hf => ?segment, fun a ha q hq hf hw hc => ?sram, fun a f fs ha hitems q hq hf => ?queue, fun a q hq hf => ?hatom,
    fun a hq hf => ?hatomHub, fun col a old ha hop => ?add, fun col a ha => ?failed, fun col old => ?ret⟩
  case segment => exact ⟨_, exec_send_segment hs ha, drives_driveFlit hq hf ..⟩
  case sram =>
    refine ⟨_, exec_send_sram hs ha hw hc, ?_⟩
    rw [driveFlit_of_free (t := s.setPicot ..) hq hf rfl]
  case queue =>
    refine ⟨_, exec_send_queue hs ha hitems, ?_⟩
    rw [driveFlit_of_free (t := s.setPicot ..) hq hf rfl]
    refine ⟨?_, rfl⟩
    change ((State.picot (s.setPicot ..) _).queue _).items = fs
    rw [picot_setPicot_self, queue_setQueue_self]
  case hatom => exact ⟨_, congrArg Host.Outcome.next (if_pos hi), drives_driveFlit hq hf ..⟩
  case hatomHub =>
    refine ⟨_, congrArg Host.Outcome.next (if_pos hi), ?_⟩
    rw [driveFlit_hub hq hf]
    exact ⟨rfl, _, rfl, rfl, rfl, rfl⟩
  case add =>
    refine ⟨_, exec_hatomExecute ha _, ?_⟩
    simp only [State.runAtomic, State.atomicNew, hop]
    simp [State.emit]
  case failed =>
    refine ⟨_, exec_hatomExecute ha _, ?_⟩
    simp [State.runAtomic]
  case ret => exact ⟨rfl, _, rfl, rfl, rfl, rfl, rfl⟩

/-! What arrives at an input (R118 to R120, R123). -/

theorem flitOf_of_valid {data : BitVec 256} {side : BitVec 8} (hv : side.getLsbD 0 = true) :
    flitOf data side = some { data := data, kind := side.extractLsb' 1 2, bad := side.getLsbD 3, last := side.getLsbD 4 } :=
  if_pos hv

theorem flitOf_of_invalid {data : BitVec 256} {side : BitVec 8} (hv : side.getLsbD 0 = false) : flitOf data side = none := by
  rw [flitOf, hv]
  rfl

theorem exec_flitArrival {s : State} (hs : s.hold.stopped = false) {p : Fin 1024} {inp : Dir} {data : BitVec 256} {side : BitVec 8}
    (hv : side.getLsbD 0 = true) (check : BitVec 16) :
    exec (.flitArrival p inp data side check) s = .next (s.flitArrives p inp
      { data := data, kind := side.extractLsb' 1 2, bad := side.getLsbD 3, last := side.getLsbD 4 } (check ^^^ flitCheck side data)) := by
  change execFlitArrival p inp data side check s = _
  simp only [execFlitArrival, issues_of hs, if_true, flitOf_of_valid hv]

theorem exec_tokenArrival {s : State} (hs : s.hold.stopped = false) (p : Fin 1024) (inp : Dir) {tok : BitVec 16} (ht : tok ≠ 0) (par : Bool) :
    exec (.tokenArrival p inp tok par) s = .next (s.tokenArrives p inp tok (par != tokenParity tok)) :=
  congrArg Host.Outcome.next (if_pos (by simpa [issues_of hs] using ht))

section Arrives
variable {s : State} {p : Fin 1024} {inp : Dir}

/-- ACTION 1 ejects a good flit. -/
theorem flitArrives_eject (hb : (s.picot p).boot = false) (ha : (State.flitSlot (s.linkSlot p) (dirNum inp)).1 = 1) (f : Flit) :
    s.flitArrives p inp f 0#16 = s.enterFlit p inp (BitVec.ofNat 4 (State.flitSlot (s.linkSlot p) (dirNum inp)).2.2).toFin f := by
  simp [State.flitArrives, ha, hb]

/-- ACTION 2 passes a good flit on. -/
theorem flitArrives_pass (ha : (State.flitSlot (s.linkSlot p) (dirNum inp)).1 = 2) (f : Flit) :
    s.flitArrives p inp f 0#16 = s.driveFlit p (dirOfNat (State.flitSlot (s.linkSlot p) (dirNum inp)).2.1) 1 f (s.faultLg p) := by
  simp [State.flitArrives, ha]

theorem flitArrives_bad {check : BitVec 16} (hc : check ≠ 0) (f : Flit) : s.flitArrives p inp f check =
    (s.count Reg.ARY_LINKCHK_COUNT).arrayFault 4 p (s.faultLg p) (dirNum inp) 0 :=
  if_pos hc

/-- ACTION 1 ejects a valid token. -/
theorem tokenArrives_eject (hb : (s.picot p).boot = false) (ha : (State.tokenSlot (s.linkSlot p) (dirNum inp)).1 = 1) {tok : BitVec 16}
    (hv : tokenInvalid tok = false) :
    s.tokenArrives p inp tok false = s.enterToken p inp (BitVec.ofNat 3 (State.tokenSlot (s.linkSlot p) (dirNum inp)).2.2).toFin tok := by
  simp [State.tokenArrives, ha, hb, hv]

end Arrives

theorem onlyPicot_setPicot (s : State) (p : Fin 1024) (x : Picot) : OnlyPicot s (s.setPicot p x) p :=
  ⟨rfl, fun q hq => by rw [picot_setPicot, if_neg hq]⟩

/-- Settles O9: the ACTION of the link-slot entry chooses what is done with a flit or a token whose check is right. -/
theorem arrivalResults : Obligations.ArrivalResults := by
  intro s p inp hs hb e fs ts
  refine ⟨fun data side hv ha => ?eject, fun data side q hv ha hq hf => ?pass, fun data side check hv hc => ?bad, fun data side check hv => ?none,
    fun tok ht hv ha => ?token, fun par => ?noToken⟩
  case eject =>
    rw [exec_flitArrival hs hv, BitVec.xor_self, flitArrives_eject hb ha]
    exact ⟨_, _, rfl, onlyPicot_setPicot .., picot_setPicot_self .., rfl, rfl, rfl⟩
  case pass =>
    rw [exec_flitArrival hs hv, BitVec.xor_self, flitArrives_pass ha]
    exact ⟨_, rfl, drives_driveFlit hq hf ..⟩
  case bad =>
    have hx : check ^^^ flitCheck side data ≠ 0 := fun h => hc (BitVec.xor_eq_zero_iff.mp h)
    rw [exec_flitArrival hs hv, flitArrives_bad hx]
  case none =>
    change execFlitArrival p inp data side check s = _
    simp [execFlitArrival, flitOf_of_invalid hv]
  case token =>
    rw [exec_tokenArrival hs p inp ht, bne_self_eq_false, tokenArrives_eject hb ha hv]
    exact ⟨_, _, rfl, onlyPicot_setPicot .., picot_setPicot_self .., rfl, rfl⟩
  case noToken => exact congrArg Host.Outcome.next (if_neg (by simp))

end Sys2Proof.Machine
end

section
/-!
PROOF. The C slot: loop counters, predicates and the next bundle (R153, R179, R180).
-/

namespace Sys2Proof.Machine
open Sys2Proof.Claims

/-! Changes of a picot that leave a pricking's bindings and code as they were. -/

/-- `u` differs from `s` neither in the pricking of `loc`, nor in the code of its picot, nor in other picots. -/
structure Aside (s u : State) (loc : At) : Prop where
  lg : u.lg loc = s.lg loc
  bundles (k : Nat) : u.nBundles loc.pic k = s.nBundles loc.pic k
  others (q : Nat) (h : q ≠ loc.pic.val) : u.picot q = s.picot q

theorem nBundles_congr {s u : State} {p k : Nat} (hk : u.keyGen = s.keyGen) (hs : (u.picot p).slots = (s.picot p).slots) :
    u.nBundles p k = s.nBundles p k := by
  simp [State.nBundles, State.bodyNat, State.slotFlit, State.decipher, Picot.slot, hk, hs]

theorem Aside.refl (s : State) (loc : At) : Aside s s loc := ⟨rfl, fun _ => rfl, fun _ _ => rfl⟩

theorem aside_setPicot {s : State} {loc : At} {x : Picot} (hl : x.logicals = (s.picot loc.pic).logicals)
    (hs : x.slots = (s.picot loc.pic).slots) : Aside s (s.setPicot loc.pic x) loc where
  lg := by rw [State.lg, picot_setPicot_self, Picot.logical, hl]; rfl
  bundles _ := nBundles_congr rfl (by rw [picot_setPicot_self, hs])
  others q hq := by rw [picot_setPicot, if_neg hq]

theorem aside_fly (s : State) (loc : At) (slot lat : Nat) (r : Res) : Aside s (s.fly loc slot lat r) loc :=
  aside_setPicot rfl rfl

theorem aside_trace (s : State) (loc : At) (event detail pc : Nat) : Aside s (s.trace loc event detail pc) loc := by
  unfold State.trace
  extract_lets
  split
  · exact aside_setPicot rfl rfl
  · exact .refl s loc

theorem Aside.trans {s t u : State} {loc : At} (a : Aside s t loc) (b : Aside t u loc) : Aside s u loc :=
  ⟨b.lg.trans a.lg, fun k => (b.bundles k).trans (a.bundles k), fun q hq => (b.others q hq).trans (a.others q hq)⟩

theorem flight_trace (s : State) (loc : At) (event detail pc : Nat) :
    ((s.trace loc event detail pc).picot loc.pic).flight = (s.picot loc.pic).flight := by
  unfold State.trace
  extract_lets
  split
  · rw [picot_setPicot_self]
  · rfl

/-! A pricking put back with other contents. -/

@[simp] theorem lg_setLg (s : State) (loc : At) (l : Logical) : (s.setLg loc l).lg loc = l := by
  rw [State.lg, State.setLg, picot_setPicot_self]
  exact SMap.get_set_self ..

theorem picot_setLg_ne (s : State) (loc : At) (l : Logical) {q : Nat} (h : q ≠ loc.pic.val) : (s.setLg loc l).picot q = s.picot q := by
  rw [State.setLg, picot_setPicot, if_neg h]

@[simp] theorem flight_setLg (s : State) (loc : At) (l : Logical) : ((s.setLg loc l).picot loc.pic).flight = (s.picot loc.pic).flight := by
  rw [State.setLg, picot_setPicot_self]
  rfl

theorem nBundles_setLg (s : State) (loc : At) (l : Logical) (k : Nat) : (s.setLg loc l).nBundles loc.pic k = s.nBundles loc.pic k :=
  nBundles_congr rfl (by rw [State.setLg, picot_setPicot_self]; rfl)

theorem onlyPicot_setLg (s : State) (loc : At) (l : Logical) : OnlyPicot s (s.setLg loc l) loc.pic := onlyPicot_setPicot ..

/-! The next bundle (R153). -/

/-- A bundle within the pricking's last is the next one, and the pricking goes on. -/
theorem goTo_eq {u : State} {loc : At} {pc : Nat} {k : Fin 8} (hslot : (u.lg loc).slot = some k) (hend : (u.lg loc).ended = false)
    (hpc : pc < min (u.nBundles loc.pic k) 2048) : u.goTo loc pc = u.setLg loc { u.lg loc with pc := pc } := by
  have hn : pc < u.nBundles loc.pic k := lt_of_lt_of_le hpc (min_le_left ..)
  have h2048 : pc < 2048 := lt_of_lt_of_le hpc (min_le_right ..)
  simp only [State.goTo, hslot, hend, Nat.mod_eq_of_lt h2048, decide_eq_false (Nat.not_le.mpr hn),
    decide_eq_false (Nat.not_le.mpr h2048), Bool.or_self]

/-- Outside any loop a bundle without an end mark is followed by the one after it. -/
theorem advance_eq {u : State} {h : CHead} (hfin : h.fin = false) (hloops : (u.lg h.loc).loops = []) :
    u.advance h = u.goTo h.loc ((u.lg h.loc).pc + 1) := by
  simp [State.advance, hfin, State.loopEnd, hloops]

/-- A branch outside any loop makes its target the next bundle. -/
theorem branch_eq {s : State} {h : CHead} (hfin : h.fin = false) (hloops : (s.lg h.loc).loops = []) (target : Nat) :
    s.branch h target = ((s.trace h.loc 1 0 (s.lg h.loc).pc).setLg h.loc (s.lg h.loc)).goTo h.loc target := by
  have hl : (s.trace h.loc 1 0 (s.lg h.loc).pc).lg h.loc = s.lg h.loc := (aside_trace ..).lg
  have he : { s.lg h.loc with loops := [] } = s.lg h.loc := by rw [← hloops]
  simp only [State.branch, hfin, Bool.false_eq_true, if_false, hl, hloops, List.filter_nil, he]

section Straight
variable {s : State} {h : CHead}

/-- A state that is `s` but for results in flight and the like goes on with the next bundle. -/
theorem advance_of_aside (hst : Straight s h) {u : State} (ha : Aside s u h.loc) :
    u.advance h = u.setLg h.loc { s.lg h.loc with pc := (s.lg h.loc).pc + 1 } := by
  obtain ⟨-, hfin, hloops, hend, k, hslot, hpc⟩ := hst
  rw [advance_eq hfin (by rw [ha.lg, hloops]), goTo_eq (k := k) (by rw [ha.lg, hslot]) (by rw [ha.lg, hend]) (by rwa [ha.lg, ha.bundles]),
    ha.lg]

theorem goesTo_setLg {u : State} (ha : Aside s u h.loc) (hend : (s.lg h.loc).ended = false) (pc : Nat) :
    GoesTo s (u.setLg h.loc { s.lg h.loc with pc := pc }) h.loc pc :=
  ⟨by rw [lg_setLg], by rw [lg_setLg, hend], fun q hq => by rw [picot_setLg_ne _ _ _ hq, ha.others q hq]⟩

theorem goesTo_advance (hst : Straight s h) {u : State} (ha : Aside s u h.loc) : GoesTo s (u.advance h) h.loc ((s.lg h.loc).pc + 1) := by
  rw [advance_of_aside hst ha]
  exact goesTo_setLg ha hst.2.2.2.1 _

/-- An instruction with one result goes on with the next bundle, its result in flight. -/
theorem controlOp_fly (hst : Straight s h) {i : Instr} (r : Res) (he : exec i s = .next (s.controlOp h (fun t => t.fly h.loc 2 1 r))) :
    ∃ t, exec i s = .next t ∧ GoesTo s t h.loc ((s.lg h.loc).pc + 1) ∧ Flies t h.loc 2 1 r := by
  have hg : s.controlOp h (fun t => t.fly h.loc 2 1 r) = (s.fly h.loc 2 1 r).advance h := if_pos (issues_of hst.1)
  refine ⟨_, he, ?_⟩
  rw [hg]
  refine ⟨goesTo_advance hst (aside_fly ..), ?_⟩
  rw [advance_of_aside hst (aside_fly ..), Flies, flight_setLg]
  exact flies_fly ..

/-- A branch to a bundle of the pricking. -/
theorem goesTo_branch (hst : Straight s h) {target : BitVec 11} {k : Fin 8} (hslot : (s.lg h.loc).slot = some k)
    (ht : target.toNat < s.nBundles h.loc.pic k) : GoesTo s (s.branch h target.toNat) h.loc target.toNat := by
  obtain ⟨-, hfin, hloops, hend, -⟩ := hst
  have ha : Aside s (s.trace h.loc 1 0 (s.lg h.loc).pc) h.loc := aside_trace ..
  have h2048 : target.toNat < 2048 := target.isLt
  rw [branch_eq hfin hloops, goTo_eq (k := k) (by rw [lg_setLg, hslot]) (by rw [lg_setLg, hend])
    (by rw [nBundles_setLg, ha.bundles]; omega), lg_setLg]
  refine ⟨by rw [lg_setLg], by rw [lg_setLg, hend], fun q hq => ?_⟩
  rw [picot_setLg_ne _ _ _ hq, picot_setLg_ne _ _ _ hq, ha.others q hq]

end Straight

/-! LOOP and WAITLC (R179, R180). -/

section Loop
variable {s : State} {h : CHead} {lc : Fin 8} {len : BitVec 11}

/-- LOOP has put its counter into trip mode. -/
def State.tripMode (s : State) (loc : At) (lc : Fin 8) : State :=
  s.setPicot loc.pic ((s.picot loc.pic).setLoopCtr lc { (s.picot loc.pic).loopCtr lc with timer := false })

theorem aside_tripMode (s : State) (loc : At) (lc : Fin 8) : Aside s (s.tripMode loc lc) loc := aside_setPicot rfl rfl

theorem exec_loop_zero (hst : Straight s h) (hc : ((s.picot h.loc.pic).loopCtr lc).count = 0) : exec (.loop h lc len) s =
    .next (((s.tripMode h.loc lc).trace h.loc 0 lc (s.lg h.loc).pc).goTo h.loc ((s.lg h.loc).pc + len.toNat + 1)) := by
  change execLoop h lc len s = _
  simp only [execLoop, State.tripMode, issues_of hst.1, hst.2.1, hc, if_true, Bool.false_eq_true, if_false]

theorem exec_loop_open (hst : Straight s h) (hc : ((s.picot h.loc.pic).loopCtr lc).count ≠ 0) : exec (.loop h lc len) s =
    .next (((s.tripMode h.loc lc).setLg h.loc { s.lg h.loc with
      loops := [{ lc := lc, start := (s.lg h.loc).pc + 1, stop := (s.lg h.loc).pc + len.toNat }] }).goTo h.loc ((s.lg h.loc).pc + 1)) := by
  change execLoop h lc len s = _
  have hl : (s.tripMode h.loc lc).lg h.loc = s.lg h.loc := (aside_tripMode ..).lg
  simp only [State.tripMode] at hl
  simp only [execLoop, State.tripMode, issues_of hst.1, hst.2.1, hc, hst.2.2.1, hl, if_true, Bool.false_eq_true, if_false, List.filter_nil]

end Loop

/-- Settles O10: what an instruction puts in flight leaves the pricking's bindings and code alone, so the next bundle is R153's:
the one after, the target of a branch, or the one behind a body that is skipped. -/
theorem controlResults : Obligations.ControlResults := by
  intro s h hst l x
  have hi : s.issues = true := issues_of hst.1
  obtain ⟨hrun, hfin, hloops, hend, k0, hslot0, hpc0⟩ := hst
  have hst : Straight s h := ⟨hrun, hfin, hloops, hend, k0, hslot0, hpc0⟩
  refine ⟨?nopc, fun lc trip => controlOp_fly hst _ rfl, fun lc trip => controlOp_fly hst _ rfl, fun lc gs => controlOp_fly hst _ rfl,
    fun pbit gs b => controlOp_fly hst _ rfl, controlOp_fly hst _ rfl, fun lc hc => ?issues, fun lc hc => ?waits, fun lc len hc => ?opens,
    fun lc len k hslot hc hpc => ?skips, fun target k hslot ht => ⟨?jmp, fun pbit neg hp => ?brp⟩, fun pbit neg target hp => ?notTaken,
    fun lc hw hc => ?resume, fun lc ht => ?expiry⟩
  case nopc =>
    refine ⟨_, congrArg Host.Outcome.next (if_pos hi), goesTo_advance hst (.refl ..), ?_⟩
    rw [id, advance_of_aside hst (.refl ..), flight_setLg]
  case issues =>
    refine ⟨_, congrArg Host.Outcome.next ((if_pos hi).trans (if_pos hc)), ?_⟩
    have hpc : (s.lg h.loc).pc + 1 < min ((s.setLg h.loc { s.lg h.loc with waiting := none, waited := 0 }).nBundles h.loc.pic k0) 2048 := by
      rwa [nBundles_setLg]
    rw [advance_eq hfin (by rw [lg_setLg, hloops]), goTo_eq (k := k0) (by rw [lg_setLg, hslot0]) (by rw [lg_setLg, hend]) (by rwa [lg_setLg]),
      lg_setLg]
    refine ⟨⟨by rw [lg_setLg], by rw [lg_setLg, hend], fun q hq => ?_⟩, by rw [lg_setLg]⟩
    rw [picot_setLg_ne _ _ _ hq, picot_setLg_ne _ _ _ hq]
  case waits => exact ⟨_, congrArg Host.Outcome.next ((if_pos hi).trans (if_neg hc)), onlyPicot_setLg .., lg_setLg ..⟩
  case opens =>
    refine ⟨_, exec_loop_open hst hc, ?_⟩
    rw [goTo_eq (k := k0) (by rw [lg_setLg, hslot0]) (by rw [lg_setLg, hend]) (by rwa [nBundles_setLg, (aside_tripMode ..).bundles]), lg_setLg]
    exact ⟨by rw [lg_setLg], by rw [lg_setLg]⟩
  case skips =>
    refine ⟨_, exec_loop_zero hst hc, ?_⟩
    have ha : Aside s ((s.tripMode h.loc lc).trace h.loc 0 lc (s.lg h.loc).pc) h.loc := (aside_tripMode ..).trans (aside_trace ..)
    rw [goTo_eq (k := k) (by rw [ha.lg, hslot]) (by rw [ha.lg, hend]) (by rwa [ha.bundles])]
    exact ⟨by rw [lg_setLg], by rw [lg_setLg, ha.lg, hend]⟩
  case jmp => exact ⟨_, congrArg Host.Outcome.next (if_pos hi), goesTo_branch hst hslot ht⟩
  case brp => exact ⟨_, congrArg Host.Outcome.next ((if_pos hi).trans (if_pos hp)), goesTo_branch hst hslot ht⟩
  case notTaken =>
    exact ⟨_, congrArg Host.Outcome.next ((if_pos hi).trans (if_neg (by rw [hp]; decide))), goesTo_advance hst (.refl ..)⟩
  case resume =>
    refine ⟨s.setLg h.loc { l with waiting := none, waited := 0 }, ?_, onlyPicot_setLg .., lg_setLg ..⟩
    change execWaitlcResume h.loc s = _
    simp only [execWaitlcResume, show (s.lg h.loc).waiting = some lc from hw, show ((s.picot h.loc.pic).loopCtr lc).count = 0 from hc, if_true]
    rfl
  case expiry => exact ⟨_, congrArg Host.Outcome.next (if_pos (by rw [hi, ht]; rfl)), onlyPicot_setPicot .., picot_setPicot_self ..⟩

end Sys2Proof.Machine
end

section
/-!
PROOF. Updates that touch registers alone, and which of them; fields of a word that is given by its number.
-/

namespace Sys2Proof.Machine
open Sys2Proof.Claims

section OnlyRegs
variable {s t u : State} {ks : List Nat}

theorem onlyRegs_refl (s : State) (ks : List Nat) : OnlyRegs s s ks := ⟨rfl, fun _ _ => rfl⟩

theorem onlyRegs_trans (a : OnlyRegs s t ks) (b : OnlyRegs t u ks) : OnlyRegs s u ks := by
  obtain ⟨a1, a2⟩ := a
  obtain ⟨b1, b2⟩ := b
  refine ⟨?_, fun k hk => (b2 k hk).trans (a2 k hk)⟩
  rw [b1, a1]

theorem onlyRegs_mono {ls : List Nat} (a : OnlyRegs s t ks) (h : ks ⊆ ls) : OnlyRegs s t ls :=
  ⟨a.1, fun k hk => a.2 k fun hm => hk (h hm)⟩

theorem onlyRegs_wr {k : Nat} (s : State) (hk : k ∈ ks) (v : Word) : OnlyRegs s (s.wr k v) ks :=
  ⟨rfl, fun _ hj => State.rd_wr_ne s v fun e => hj (e ▸ hk)⟩

theorem onlyRegs_wrF {k : Nat} (s : State) (hk : k ∈ ks) (lo n v : Nat) : OnlyRegs s (s.wrF k lo n v) ks := onlyRegs_wr s hk _

theorem onlyRegs_wrB {k : Nat} (s : State) (hk : k ∈ ks) (i : Nat) (b : Bool) : OnlyRegs s (s.wrB k i b) ks := onlyRegs_wr s hk _

theorem onlyRegs_count {k : Nat} (s : State) (hk : k ∈ ks) (n : Nat) : OnlyRegs s (s.count k n) ks := onlyRegs_wr s hk _

theorem onlyRegs_countF {k : Nat} (s : State) (hk : k ∈ ks) (lo n m : Nat) : OnlyRegs s (s.countF k lo n m) ks := onlyRegs_wr s hk _

theorem onlyRegs_wr64 {k : Nat} (s : State) (hk : k ∈ ks) (hk4 : k + 4 ∈ ks) (v : DWord) : OnlyRegs s (s.wr64 k v) ks :=
  onlyRegs_trans (onlyRegs_wr s hk _) (onlyRegs_wr _ hk4 _)

theorem onlyRegs_count64 {k : Nat} (s : State) (hk : k ∈ ks) (hk4 : k + 4 ∈ ks) (n : Nat) : OnlyRegs s (s.count64 k n) ks :=
  onlyRegs_wr64 s hk hk4 _

theorem onlyRegs_ite {c : Prop} [Decidable c] (ha : OnlyRegs s t ks) (hb : OnlyRegs s u ks) : OnlyRegs s (if c then t else u) ks := by
  split <;> assumption

/-- A part of the state that is no register stays as it is. -/
theorem onlyRegs_part {β : Type} (a : OnlyRegs s t ks) (g : State → β) (hg : ∀ r, g { s with regs := r } = g s) : g t = g s := by
  rw [a.1, hg]

end OnlyRegs

/-- A field of a word given by its number. -/
theorem fieldNat_ofNat {w lo n : Nat} (x : Nat) (h : lo + n ≤ w) : fieldNat (BitVec.ofNat w x) lo n = x / 2 ^ lo % 2 ^ n := by
  rw [fieldNat, BitVec.extractLsb'_toNat, BitVec.toNat_ofNat, Nat.shiftRight_eq_div_pow]
  obtain ⟨d, rfl⟩ := Nat.exists_eq_add_of_le h
  rw [show 2 ^ (lo + n + d) = 2 ^ lo * 2 ^ (n + d) by rw [← Nat.pow_add, Nat.add_assoc], Nat.mod_mul_right_div_self, Nat.pow_add,
    Nat.mod_mul_right_mod]

@[simp] theorem bit_putField_self (w : Word) {i : Nat} (h : i < 32) (b : Bool) : bit (putField w i 1 b.toNat) i = b := by
  cases b <;> simp [bit, putField_getLsbD _ _ _ _ _ h]

theorem bit_putField_ne (w : Word) {lo n v i : Nat} (hi : i < 32) (h : i < lo ∨ lo + n ≤ i) : bit (putField w lo n v) i = bit w i := by
  rw [bit, putField_getLsbD _ _ _ _ _ hi, if_neg (by omega)]

namespace State

theorem rdB_wrB_self (s : State) (k : Nat) {i : Nat} (h : i < 32) (b : Bool) : (s.wrB k i b).rdB k i = b := by
  rw [rdB, wrB, wrF, rd_wr_self, bit_putField_self _ h]

/-- Another bit of a register, or a bit of another register, reads as before. -/
theorem rdB_wrB_ne (s : State) {k j i l : Nat} (b : Bool) (hl : l < 32) (h : j = k → l ≠ i) : (s.wrB k i b).rdB j l = s.rdB j l := by
  rw [rdB, rdB, wrB, wrF]
  by_cases e : j = k
  · subst e
    rw [rd_wr_self, bit_putField_ne _ hl (by have := h rfl; omega)]
  · rw [rd_wr_ne _ _ e]

theorem rdB_wrF_ne (s : State) {k j lo n v l : Nat} (hl : l < 32) (h : j = k → l < lo ∨ lo + n ≤ l) :
    (s.wrF k lo n v).rdB j l = s.rdB j l := by
  rw [rdB, rdB, wrF]
  by_cases e : j = k
  · subst e
    rw [rd_wr_self, bit_putField_ne _ hl (h rfl)]
  · rw [rd_wr_ne _ _ e]

theorem rdF_wrB_ne (s : State) {k j i lo n : Nat} (b : Bool) (hn : lo + n ≤ 32) (h : j = k → lo + n ≤ i ∨ i < lo) :
    (s.wrB k i b).rdF j lo n = s.rdF j lo n := by
  by_cases e : j = k
  · subst e
    exact rdF_wrF_ne s _ _ _ _ _ _ hn (h rfl)
  · exact rdF_of_ne s _ _ _ _ _ e

theorem rdF_congr {s t : State} {k : Nat} (h : t.rd k = s.rd k) (lo n : Nat) : t.rdF k lo n = s.rdF k lo n := by rw [rdF, rdF, h]

theorem rdB_congr {s t : State} {k : Nat} (h : t.rd k = s.rd k) (i : Nat) : t.rdB k i = s.rdB k i := by rw [rdB, rdB, h]

end State

end Sys2Proof.Machine
end

section
/-!
PROOF. The hold: nothing issues in it, what raises and clears it, retries of the bridges, deadlocks (R122, R149, R152, R201 to R207).
-/

namespace Sys2Proof.Machine
open Sys2Proof.Claims

/-! Instructions that do not issue (R149, R152). -/

/-- Settles O12: every instruction is gated by the hold, an M-slot one by its predicate too; those that read SRAM read it first. -/
theorem nothingIssuesInAHold : Obligations.NothingIssuesInAHold := by
  refine ⟨fun s i hs hst => ?held, fun s i h hm hp hw => ?predicated, fun s i h hm hp hs hw => ?reads, fun s p ws hc => sramCheck_of_clean hc⟩
  case held =>
    have hi : ¬ (s.issues = true) := by simp [State.issues, hs]
    have hm (h : MHead) : ¬ ((s.issues && s.predicate h) = true) := by simp [State.issues, hs]
    cases i with
    | nopm | nopl => rfl
    | fadd | fsub | fmul | fma | fmin | fmax | rcp | rsq | exp2 | log2 | iadd | isub | imul | imin | imax | andVector | orVector | xorVector
    | shl | shr | sar | cmp | vsel | cvt | qnt | dqt | scale | bqnt | csum | xcvt | xadd | xrnd | vrsum | vrmax | vrng | wswap | mma | accx
    | acca | accz => exact congrArg Host.Outcome.next (if_neg (hm _))
    | wld | wsc | accq | vld | ldw | stw | send | recv | qput | mreq | hatom | rdtime | rdsens | qlen | rdround | movi | ldc | add | sub
    | mul | andScalar | orScalar | xorScalar | shli | shri | vtog | gtov | cmpg | nopc | lcset | lctim | lctok | lcgp | loop | waitlc | jmp
    | brp | tsendi | tsendg | tput | tpop | tprd | pset | steer | bclr => exact congrArg Host.Outcome.next (if_neg hi)
    | addi loc a =>
      change execAddi loc a s = _
      simp [execAddi, State.scalarOp, hi]
    | _ => exact absurd hst Bool.false_ne_true
  case predicated =>
    cases i with
    | nopm => rfl
    | fadd | fsub | fmul | fma | fmin | fmax | rcp | rsq | exp2 | log2 | iadd | isub | imul | imin | imax | andVector | orVector | xorVector
    | shl | shr | sar | cmp | vsel | cvt | qnt | dqt | scale | bqnt | csum | xcvt | xadd | xrnd | vrsum | vrmax | vrng | wswap | mma | accx
    | acca | accz =>
      cases hm
      exact congrArg Host.Outcome.next (if_neg (by simp [hp]))
    | wld | wsc | accq | vld => cases hw
    | _ => cases hm
  case reads =>
    have hread (ws : List Nat) (land : State → State) : s.sramOp h ws land = (s.sramCheck h.loc.pic ws).1 := by
      simp [State.sramOp, issues_of hs, hp]
    cases i with
    | wld | wsc | accq | vld =>
      cases hm
      exact congrArg Host.Outcome.next (hread ..)
    | nopm | fadd | fsub | fmul | fma | fmin | fmax | rcp | rsq | exp2 | log2 | iadd | isub | imul | imin | imax | andVector | orVector
    | xorVector | shl | shr | sar | cmp | vsel | cvt | qnt | dqt | scale | bqnt | csum | xcvt | xadd | xrnd | vrsum | vrmax | vrng | wswap
    | mma | accx | acca | accz => exact absurd rfl hw
    | _ => cases hm

/-! Requests and their clearing (R201 to R203). -/

section Request
variable {s : State} {cause : Nat} {src : HoldSrc}

/-- The hold with one more request in its list. -/
def State.heldBy (s : State) (cause : Nat) (src : HoldSrc) (cancel : Bool) : Hold :=
  let h := s.hold
  let h1 : Hold := { h with reqs := h.reqs ++ [{ cause := cause, src := src, cancel := cancel, cyc := s.cycleIndex }], goIn := none }
  let h2 : Hold :=
    if h.stopped then h1
    else
      { h1 with
        stopIn := match h.stopIn with | some n => some n | none => some 8
        cancel := if cancel then some (match h.cancel with | some n => n | none => match h.stopIn with | some n => n | none => 8)
                  else h.cancel }
  { h2 with seen := if cause ∈ h.seen then h.seen else cause :: h.seen }

/-- The registers in which a new request of a picot's queue counts. -/
def requestCounters (cause : Nat) : HoldSrc → List Nat
  | .picotDq p _ | .picotTq p _ => [Reg.ARY_HOLD_COUNT cause, Reg.PCT_HOLDREQ p]
  | _ => [Reg.ARY_HOLD_COUNT cause]

/-- A new request changes the hold, and counts. -/
theorem onlyRegs_requestHold (h : s.requested cause src = false) (cancel : Bool) :
    OnlyRegs { s with hold := s.heldBy cause src cancel } (s.requestHold cause src cancel) (requestCounters cause src) := by
  have hseen (ks : List Nat) (hk : Reg.ARY_HOLD_COUNT cause ∈ ks) : OnlyRegs { s with hold := s.heldBy cause src cancel }
      (if cause ∈ s.hold.seen then { s with hold := s.heldBy cause src cancel }
        else State.count { s with hold := s.heldBy cause src cancel } (Reg.ARY_HOLD_COUNT cause)) ks :=
    onlyRegs_ite (onlyRegs_refl ..) (onlyRegs_count _ hk _)
  unfold State.requestHold
  rw [if_neg (by simp [h])]
  cases src with
  | picotDq p q => exact onlyRegs_trans (hseen _ (by simp [requestCounters])) (onlyRegs_count _ (by simp [requestCounters]) _)
  | picotTq p q => exact onlyRegs_trans (hseen _ (by simp [requestCounters])) (onlyRegs_count _ (by simp [requestCounters]) _)
  | _ => exact hseen _ (by simp [requestCounters])

theorem requestHold_hold (h : s.requested cause src = false) (cancel : Bool) :
    (s.requestHold cause src cancel).hold = s.heldBy cause src cancel :=
  onlyRegs_part (onlyRegs_requestHold h cancel) State.hold fun _ => rfl

/-- A new request stands in the list; the hold and its counters alone change. -/
theorem raises_requestHold (h : s.requested cause src = false) (cancel : Bool) : Raises s (s.requestHold cause src cancel) cause src cancel := by
  refine ⟨?_, ?_⟩
  · rw [requestHold_hold h]
    exact (onlyRegs_requestHold h cancel).1
  · rw [requestHold_hold h]
    cases hs : s.hold.stopped <;> simp [State.heldBy, hs]

/-- The first request of a running array stops it 8 cycles later; a cancelling one gives those cycles back (R202, R203). -/
theorem requestHold_stop (h : s.requested cause src = false) (cancel : Bool) (hs : s.hold.stopped = false) (hn : s.hold.stopIn = none) :
    (s.requestHold cause src cancel).hold.stopIn = some 8 ∧ (s.requestHold cause src cancel).hold.cancel =
      if cancel then some (s.hold.cancel.getD 8) else s.hold.cancel := by
  rw [requestHold_hold h]
  simp only [State.heldBy, hs, hn, Bool.false_eq_true, if_false, true_and]
  cases s.hold.cancel <;> rfl

/-- A cause that the hold has not seen is seen and counted. -/
theorem requestHold_seen (h : s.requested cause src = false) (cancel : Bool) (hc : cause < 8) (hseen : cause ∉ s.hold.seen) :
    cause ∈ (s.requestHold cause src cancel).hold.seen ∧
    (s.requestHold cause src cancel).rd (Reg.ARY_HOLD_COUNT cause) = satInc (s.rd (Reg.ARY_HOLD_COUNT cause)) := by
  refine ⟨by rw [requestHold_hold h]; simp [State.heldBy, hseen], ?_⟩
  have hne (p : Nat) : Reg.ARY_HOLD_COUNT cause ≠ Reg.PCT_HOLDREQ p := by
    unfold Reg.ARY_HOLD_COUNT Reg.PCT_HOLDREQ
    omega
  unfold State.requestHold
  simp only [h, hseen, Bool.false_eq_true, if_false]
  cases src <;> simp only [State.count_rd_ne _ _ (hne _), State.count_rd_self] <;> rfl

/-- Clearing touches the hold alone. -/
theorem mem_clearHold (hr : s.requested cause src = true) (h7 : cause ≠ 7) (r : HoldReq) :
    r ∈ (s.clearHold cause src).hold.reqs ↔ r ∈ s.hold.reqs ∧ ¬(r.cause = cause ∧ r.src = src) := by
  simp only [State.clearHold, hr, bne_iff_ne.mpr h7, Bool.and_self, if_true, List.mem_filter, Bool.not_eq_true', Bool.and_eq_false_iff,
    decide_eq_false_iff_not, not_and_or]

/-- With the last request gone the array resumes 8 cycles later. -/
theorem clearHold_go (hr : s.requested cause src = true) (h7 : cause ≠ 7) (hnil : (s.clearHold cause src).hold.reqs = []) :
    (s.clearHold cause src).hold.goIn = some 8 := by
  simp only [State.clearHold, hr, bne_iff_ne.mpr h7, Bool.and_self, if_true] at hnil ⊢
  rw [if_pos hnil]

theorem clearHold_stopped : (s.clearHold cause src).hold.stopped = s.hold.stopped := by
  unfold State.clearHold
  split <;> rfl

end Request

/-- Settles O14: the request or its clearing is one update of the hold; the first request sets the stop, the last clearing the resume. -/
theorem holdResults : Obligations.HoldResults := by
  refine ⟨fun s cause src hr => ⟨fun hc => ?deferred, fun hc => ?cancelling, fun hseen hc => ?seen⟩, fun s cause src hr h7 => ?clear⟩
  case deferred =>
    have hd : State.deferredCause cause.val = true := by
      simp only [List.mem_cons, List.not_mem_nil, or_false] at hc
      rcases hc with h | h | h | h | h | h <;> rw [h] <;> rfl
    refine ⟨_, congrArg Host.Outcome.next (if_pos hd), raises_requestHold hr false, fun hs hn => ?_⟩
    simpa using requestHold_stop hr false hs hn
  case cancelling =>
    have hd : State.cancellingCause cause.val = true := by
      simp only [List.mem_cons, List.not_mem_nil, or_false] at hc
      rcases hc with h | h <;> rw [h] <;> rfl
    refine ⟨_, congrArg Host.Outcome.next (if_pos hd), raises_requestHold hr true, fun hs hn hcn => ?_⟩
    simpa [hcn] using requestHold_stop hr true hs hn
  case seen =>
    have hd : State.cancellingCause cause.val = true := by
      simp only [List.mem_cons, List.not_mem_nil, or_false] at hc
      rcases hc with h | h <;> rw [h] <;> rfl
    exact ⟨_, congrArg Host.Outcome.next (if_pos hd), requestHold_seen hr true cause.isLt hseen⟩
  case clear => exact ⟨_, rfl, clearHold_frame .., mem_clearHold hr h7, clearHold_go hr h7, clearHold_stopped⟩

/-! Bridges and deadlocks (R122, R206, R207). -/

theorem raises_of_count {s : State} {k cause : Nat} {src : HoldSrc} (h : s.requested cause src = false) (cancel : Bool) :
    Raises s ((s.count k).requestHold cause src cancel) cause src cancel := by
  obtain ⟨hframe, hreqs, hgo, hstop⟩ := raises_requestHold (s := s.count k) h cancel
  exact ⟨hframe, hreqs, hgo, hstop⟩

/-- The request that a deadlock names is one of its cause. -/
theorem deadlockReq_mem {s : State} {cause : Nat} {r : HoldReq} (h : s.deadlockReq cause = some r) : r ∈ s.hold.reqs ∧ r.cause = cause := by
  have hfold (l : List HoldReq) (b : Option HoldReq) (hb : ∀ x, b = some x → x ∈ s.hold.reqs ∧ x.cause = cause)
      (hl : ∀ x ∈ l, x ∈ s.hold.reqs ∧ x.cause = cause) : ∀ x, l.foldl (fun b r => match b with
        | none => some r
        | some x => if State.srcPicot r.src < State.srcPicot x.src then some r else some x) b = some x →
      x ∈ s.hold.reqs ∧ x.cause = cause := by
    refine List.foldlRecOn (motive := fun b => ∀ x, b = some x → x ∈ s.hold.reqs ∧ x.cause = cause) l _ hb fun b ih y hy x hx => ?_
    cases b with
    | none => exact Option.some.inj hx ▸ hl y hy
    | some z =>
      dsimp only at hx
      split at hx
      · exact Option.some.inj hx ▸ hl y hy
      · exact ih x hx
  exact hfold _ none (by simp) (fun x hx => by simpa using hx) r h

/-- The fields of ARY_DEADLOCK, each in its place (R206). -/
theorem deadlock_fields {cause row col hub port slot lg : Nat} (hc : cause < 16) (hrow : row < 32) (hcol : col < 32) (hhub : hub < 2)
    (hport : port < 32) (hslot : slot < 64) (hlg : lg < 8) :
    let w : Word := BitVec.ofNat 32 (cause * 2 ^ 28 + row * 2 ^ 23 + col * 2 ^ 18 + hub * 2 ^ 17 + port * 2 ^ 12 + slot * 2 ^ 6 + lg * 2 ^ 3)
    fieldNat w 28 4 = cause ∧ fieldNat w 23 5 = row ∧ fieldNat w 18 5 = col ∧ fieldNat w 6 6 = slot ∧ fieldNat w 3 3 = lg := by
  refine ⟨?_, ?_, ?_, ?_, ?_⟩ <;> rw [fieldNat_ofNat _ (by decide)] <;> omega

theorem deadlockWord_cause {s : State} {cause : Nat} (hc : cause < 16) (hcyc : s.arr.cycle < 64) (src : HoldSrc) :
    fieldNat (s.deadlockWord cause src) 28 4 = cause := by
  unfold State.deadlockWord
  extract_lets slot at' owner
  have hslot : slot < 64 := by
    unfold slot
    split
    · exact Nat.mod_lt _ (by decide)
    · exact hcyc
  have howner (p : Nat) : owner p < 8 := by
    unfold owner
    split
    · exact Fin.isLt _
    · decide
  have hword {row col hub port lg : Nat} (hrow : row < 32) (hcol : col < 32) (hhub : hub < 2) (hport : port < 32) (hlg : lg < 8) :
      fieldNat (at' row col hub port lg) 28 4 = cause := (deadlock_fields hc hrow hcol hhub hport hslot hlg).1
  cases src with
  | picotDq p q => exact hword (by omega) (by omega) (by decide) (by omega) (howner p)
  | picotTq p q => exact hword (by omega) (by omega) (by decide) (by omega) (howner p)
  | hbm k => exact hword (by omega) (by decide) (by decide) (by decide) (by decide)
  | bridge b => exact hword (by omega) (by decide) (by decide) (by decide) (by decide)
  | _ => exact hword (by decide) (by decide) (by decide) (by decide) (by decide)

theorem declareDeadlock_first {s : State} (h : s.rd Reg.ARY_DEADLOCK = 0) (w : Word) :
    s.declareDeadlock w = (s.wr Reg.ARY_DEADLOCK w).uncorrectable 0x09 (w.setWidth 64) := by
  simp only [State.declareDeadlock, h, if_true, State.rd_wr_self]

theorem declareDeadlock_later {s : State} (h : s.rd Reg.ARY_DEADLOCK ≠ 0) (w : Word) :
    s.declareDeadlock w = s.uncorrectable 0x09 ((s.rd Reg.ARY_DEADLOCK).setWidth 64) := by
  simp only [State.declareDeadlock, if_neg h]

/-- Settles O15: a retry is a cancelling request with a count; ARY_DEADLOCK takes the first word, whose fields fit their places. -/
theorem bridgeAndDeadlockResults : Obligations.BridgeAndDeadlockResults := by
  refine ⟨fun s b => ⟨fun hr => ?retry, fun hr => ?complete, rfl⟩, fun s => ⟨fun cause r hc hcyc hd => ?limit, fun loc lc hw ht hat => ?waitlc,
    fun w hz => declareDeadlock_first hz w, fun w hz => declareDeadlock_later hz w⟩⟩
  case retry =>
    refine ⟨_, rfl, raises_of_count hr true, ?_⟩
    have hne : Reg.ERR_BRIDGE_RETRY b ∉ requestCounters 3 (.bridge b) := by
      simp only [requestCounters, Reg.ERR_BRIDGE_RETRY, Reg.ARY_HOLD_COUNT, List.mem_singleton]
      omega
    exact ((onlyRegs_requestHold (s := s.count (Reg.ERR_BRIDGE_RETRY b)) hr true).2 _ hne).trans (State.count_rd_self ..)
  case complete => exact ⟨_, rfl, clearHold_frame .., mem_clearHold hr (by decide)⟩
  case limit =>
    have hl : State.limitedCause cause.val = true := by
      simp only [List.mem_cons, List.not_mem_nil, or_false] at hc
      rcases hc with h | h | h | h <;> rw [h] <;> rfl
    refine ⟨?_, deadlockWord_cause (by omega) hcyc _, deadlockReq_mem hd⟩
    change execHoldLimitDeadlock cause s = _
    simp only [execHoldLimitDeadlock, hl, if_true, hd]
  case waitlc =>
    have hexec : exec (.waitlcDeadlock loc) s = .next (s.declareDeadlock (BitVec.ofNat 32 (8 * 2 ^ 28 + loc.pic.val / 32 * 2 ^ 23 +
        loc.pic.val % 32 * 2 ^ 18 + 0 * 2 ^ 17 + lc.val * 2 ^ 12 + (s.lg loc).waitAt * 2 ^ 6 + loc.lg.val * 2 ^ 3))) := by
      change execWaitlcDeadlock loc s = _
      simp only [execWaitlcDeadlock, hw, ht, Bool.false_eq_true, if_false, Nat.zero_mul, Nat.add_zero]
    obtain ⟨hcause, hrow, hcol, hslot, hlg⟩ := deadlock_fields (cause := 8) (row := loc.pic.val / 32) (col := loc.pic.val % 32) (hub := 0)
      (port := lc.val) (by decide) (by omega) (by omega) (by decide) (by omega) hat loc.lg.isLt
    exact ⟨_, hexec, hcause, hrow, hcol, hslot, hlg⟩

end Sys2Proof.Machine
end

section
/-!
PROOF. What raising a vector and completing a command leave as it was (R330, R334, R345).
-/

namespace Sys2Proof.Machine
open Sys2Proof.Claims

namespace State

theorem raise_frame (s : State) (v : BitVec 6) : s.raise v = { s with regs := (s.raise v).regs, out := (s.raise v).out } := by
  unfold raise
  split <;> rfl

theorem irq_frame (s : State) (src : Nat) : s.irq src = { s with regs := (s.irq src).regs, out := (s.irq src).out } := by
  unfold irq
  dsimp only
  split
  · exact raise_frame ..
  · rfl

theorem ringIrq_frame (s : State) (r : Nat) :
    s.ringIrq r = { s with rings := (s.ringIrq r).rings, regs := (s.ringIrq r).regs, out := (s.ringIrq r).out } := by
  unfold ringIrq
  rw [raise_frame]
  rfl

theorem writeCompletion_frame (s : State) (r : Nat) (c : Completion) : s.writeCompletion r c =
    { s with rings := (s.writeCompletion r c).rings, regs := (s.writeCompletion r c).regs, out := (s.writeCompletion r c).out } := by
  unfold writeCompletion
  dsimp only
  split
  · rw [ringIrq_frame]
    rfl
  · rfl

/-- Completing touches the rings, their registers and what is driven outward. -/
theorem complete_frame (s : State) (r : Nat) (status : Byte) (res0 res1 : DWord) (detail : Word) : s.complete r status res0 res1 detail =
    { s with rings := (s.complete r status res0 res1 detail).rings, regs := (s.complete r status res0 res1 detail).regs,
             out := (s.complete r status res0 res1 detail).out } := by
  unfold complete
  split
  · rfl
  · dsimp only
    split
    · rfl
    · rw [writeCompletion_frame]
      rfl

/-- A part of the state that is neither ring, register nor output stays as it is when a command completes. -/
theorem complete_part {β : Type} (g : State → β) (hg : ∀ s x y z, g { s with rings := x, regs := y, out := z } = g s) (s : State) (r : Nat)
    (status : Byte) (res0 res1 : DWord) (detail : Word) : g (s.complete r status res0 res1 detail) = g s := by
  rw [complete_frame]
  exact hg ..

theorem writeCompletion_rd (s : State) (r : Nat) (c : Completion) {k : Nat} (h : k < 0x0240_0000) :
    (s.writeCompletion r c).rd k = s.rd k := by
  unfold writeCompletion
  dsimp only
  split
  · exact raise_rd _ _ h
  · rfl

/-- The state in which a ring's running command has ended and its completion is due. -/
def endRunning (s : State) (r : Nat) : State :=
  (s.setRing r { s.ring r with running := none }).wrB (Reg.HQ_RING_STAT r) 0 true

/-- The completion of an entry. -/
def completionOf (e : SubEntry) (status : Byte) (res0 res1 : DWord) (detail : Word) : Completion :=
  { cid := e.cid, noIrq := e.flags.getLsbD 0, status := status, res0 := res0, res1 := res1, detail := detail }

theorem complete_of_none {s : State} {r : Nat} (h : s.running r = none) (status : Byte) (res0 res1 : DWord) (detail : Word) :
    s.complete r status res0 res1 detail = s := by
  rw [complete, h]

theorem complete_of_full {s : State} {r : Nat} {e : SubEntry} (h : s.running r = some e) (hf : s.cqFull r = true) (status : Byte)
    (res0 res1 : DWord) (detail : Word) : s.complete r status res0 res1 detail =
      (s.endRunning r).setRing r { (s.endRunning r).ring r with held := some (completionOf e status res0 res1 detail) } := by
  rw [complete, h]
  exact if_pos hf

theorem complete_of_room {s : State} {r : Nat} {e : SubEntry} (h : s.running r = some e) (hf : s.cqFull r = false) (status : Byte)
    (res0 res1 : DWord) (detail : Word) : s.complete r status res0 res1 detail =
      (s.endRunning r).writeCompletion r (completionOf e status res0 res1 detail) := by
  rw [complete, h]
  exact if_neg (by rw [hf]; decide)

theorem endRunning_rd (s : State) {r k : Nat} (hr : k ≠ Reg.HQ_RING_STAT r) : (s.endRunning r).rd k = s.rd k :=
  wrB_rd_ne (s.setRing r _) _ _ hr

/-- Of the registers of BAR0 completing writes the ring's status alone. -/
theorem complete_rd (s : State) (r : Nat) (status : Byte) (res0 res1 : DWord) (detail : Word) {k : Nat} (h : k < 0x0240_0000)
    (hr : k ≠ Reg.HQ_RING_STAT r) : (s.complete r status res0 res1 detail).rd k = s.rd k := by
  cases he : s.running r with
  | none => rw [complete_of_none he]
  | some e =>
    cases hf : s.cqFull r
    · rw [complete_of_room he hf, writeCompletion_rd _ _ _ h, endRunning_rd s hr]
    · rw [complete_of_full he hf]
      exact endRunning_rd s hr

theorem ring_setRing (s : State) (r q : Nat) (x : Ring) : (s.setRing r x).ring q = if q = r then x else s.ring q := SMap.get_set ..

@[simp] theorem ring_setRing_self (s : State) (r : Nat) (x : Ring) : (s.setRing r x).ring r = x := SMap.get_set_self ..

theorem running_congr {s t : State} (h : t.rings = s.rings) (r : Nat) : t.running r = s.running r := by
  simp only [running, ring, h]

/-- Writing a completion leaves every ring's running command. -/
theorem writeCompletion_running (s : State) (r : Nat) (c : Completion) (q : Nat) : (s.writeCompletion r c).running q = s.running q := by
  have hset (u : State) (x : Ring) (hx : x.running = (u.ring r).running) : (u.setRing r x).running q = u.running q := by
    rw [running, running, ring_setRing]
    split
    · subst q; rw [hx]
    · rfl
  have hirq (u : State) : (u.ringIrq r).running q = u.running q :=
    (running_congr (raise_rings ..) q).trans (hset u _ rfl)
  unfold writeCompletion
  dsimp only
  split
  · rw [hirq]
    exact hset (s.emit _) _ rfl
  · exact hset (s.emit _) _ rfl

theorem endRunning_running (s : State) (r q : Nat) : (s.endRunning r).running q = if q = r then none else s.running q := by
  change (s.setRing r _).running q = _
  rw [running, ring_setRing]
  split <;> rfl

/-- A ring whose command completes runs none; other rings go on. -/
theorem complete_running (s : State) (r q : Nat) (status : Byte) (res0 res1 : DWord) (detail : Word) :
    (s.complete r status res0 res1 detail).running q = if q = r then none else s.running q := by
  cases he : s.running r with
  | none =>
    rw [complete_of_none he]
    split
    · subst q; exact he
    · rfl
  | some e =>
    cases hf : s.cqFull r
    · rw [complete_of_room he hf, writeCompletion_running, endRunning_running]
    · rw [complete_of_full he hf, running, ring_setRing, ← endRunning_running]
      split
      · subst q; rfl
      · rfl

end State

/-! A ring command that runs (R332 to R334). -/

section OnRing
variable {s : State} {r : Fin 16} {op : Byte} {used : Nat} {e : SubEntry}

theorem onRing_of_runs (h : Runs s r op used e) (f : SubEntry → State) : s.onRing r op used f = f e := by
  obtain ⟨hrun, hop, hturn, hbyte, htake⟩ := h
  simp [State.onRing, hrun, hop, hturn, hbyte, htake]

end OnRing

theorem privileged_f1 (s : State) : s.privileged .f1 = s.rdB Reg.SEC_PRIV 0 := rfl

/-- A command of function 1 with privilege is carried out. -/
theorem needsPriv_of_priv {s : State} {m : Master} (hm : m = .f1) (hp : s.rdB Reg.SEC_PRIV 0 = true) (r rule : Nat) (f : State) :
    s.needsPriv r m rule f = f := by
  subst hm
  simp [State.needsPriv, privileged_f1, hp]

/-- Any other is refused. -/
theorem needsPriv_of_not {s : State} {m : Master} (h : m ≠ .f1 ∨ s.rdB Reg.SEC_PRIV 0 = false) (r rule : Nat) (f : State) :
    s.needsPriv r m rule f = s.completeRefused r rule := by
  refine if_neg fun hc => ?_
  simp only [Bool.and_eq_true, decide_eq_true_eq] at hc
  obtain ⟨rfl, hp⟩ := hc
  rw [privileged_f1] at hp
  simp [hp] at h

end Sys2Proof.Machine
end

section
/-!
PROOF. Errors (R187, R389 to R396, R399, R401, R412): what stopping a context touches, what an error entry is, and what an error
leaves behind.
-/

namespace Sys2Proof.Machine
open Sys2Proof.Claims

namespace State

/-! What stopping a context touches (R239, R246, R396). -/

theorem holdStop_frame (s : State) : s.holdStop = { s with hold := s.holdStop.hold, regs := s.holdStop.regs } := by
  unfold holdStop
  dsimp only
  split <;> rfl

theorem holdStop_rd (s : State) {k : Nat} (h : k ≠ Reg.ARY_HOLD_COUNT 7) : s.holdStop.rd k = s.rd k := by
  unfold holdStop
  dsimp only
  split
  · rfl
  · exact count_rd_ne _ _ h

theorem queueStatus_rd (s : State) {k : Nat} (h : k ≠ Reg.ACQ_QUEUE) : s.queueStatus.rd k = s.rd k := by
  unfold queueStatus
  dsimp only
  rw [wrF_rd_ne _ _ _ _ h, wrF_rd_ne _ _ _ _ h]

theorem queueStatus_frame (s : State) : s.queueStatus = { s with regs := s.queueStatus.regs } := rfl

theorem closeEvent_frame (s : State) (c : Nat) : s.closeEvent c = { s with acq := (s.closeEvent c).acq, regs := (s.closeEvent c).regs } := by
  unfold closeEvent
  split
  · rfl
  · rw [queueStatus_frame]

theorem closeEvent_rd (s : State) (c : Nat) {k : Nat} (h : k ≠ Reg.ACQ_QUEUE) : (s.closeEvent c).rd k = s.rd k := by
  unfold closeEvent
  split
  · rfl
  · exact queueStatus_rd _ h

theorem closeCaptures_frame (s : State) : s.closeCaptures = { s with acq := s.closeCaptures.acq, regs := s.closeCaptures.regs } := by
  unfold closeCaptures
  generalize s.acq.opened.map Prod.fst = l
  induction l generalizing s with
  | nil => rfl
  | cons c l ih =>
    rw [List.foldl_cons, ih (s.closeEvent c), closeEvent_frame]

theorem closeCaptures_rd (s : State) {k : Nat} (h : k ≠ Reg.ACQ_QUEUE) : s.closeCaptures.rd k = s.rd k := by
  unfold closeCaptures
  generalize s.acq.opened.map Prod.fst = l
  induction l generalizing s with
  | nil => rfl
  | cons c l ih => rw [List.foldl_cons, ih, closeEvent_rd s c h]

theorem drivePins_frame (l : List Nat) (s : State) :
    l.foldl (fun t o => t.drivePin o false) s = { s with out := (l.foldl (fun t o => t.drivePin o false) s).out } := by
  induction l generalizing s with
  | nil => rfl
  | cons o l ih => rw [List.foldl_cons, ih (s.drivePin o false)]; rfl

theorem idleOutputs_frame (s : State) : s.idleOutputs = { s with trg := { s.trg with outs := [] }, out := s.idleOutputs.out } := by
  unfold idleOutputs
  dsimp only
  rw [drivePins_frame]

/-- The registers that stopping a context writes. -/
def haltRegs : List Nat := [Reg.ARY_HOLD_COUNT 7, Reg.ARY_STATUS, Reg.ACQ_QUEUE, Reg.SEC_CTX_STATUS]

theorem haltContext_frame (s : State) : s.haltContext =
    { s with hold := s.haltContext.hold, regs := s.haltContext.regs, acq := s.haltContext.acq, trg := { s.trg with outs := [] },
             out := s.haltContext.out, ing := s.haltContext.ing } := by
  obtain ⟨u, hu⟩ : ∃ u, s.holdStop.setAryState aryStopped = u := ⟨_, rfl⟩
  obtain ⟨a, r, hc⟩ : ∃ a r, u.closeCaptures = { u with acq := a, regs := r } := ⟨_, _, closeCaptures_frame u⟩
  obtain ⟨o, hi⟩ : ∃ o, u.closeCaptures.idleOutputs = { u.closeCaptures with trg := { u.closeCaptures.trg with outs := [] }, out := o } :=
    ⟨_, idleOutputs_frame u.closeCaptures⟩
  obtain ⟨h, r', hs⟩ : ∃ h r, s.holdStop = { s with hold := h, regs := r } := ⟨_, _, holdStop_frame s⟩
  have he : s.haltContext = (u.closeCaptures.idleOutputs.freezeRing).setCtx ctxHalted := by rw [← hu]; rfl
  rw [he, hi, hc, ← hu, hs]
  rfl

theorem idleOutputs_rd (s : State) (k : Nat) : s.idleOutputs.rd k = s.rd k := by
  rw [idleOutputs_frame]
  rfl

theorem freezeRing_rd (s : State) (k : Nat) : s.freezeRing.rd k = s.rd k := rfl

theorem setCtx_rd (s : State) (n : Nat) {k : Nat} (h : k ≠ Reg.SEC_CTX_STATUS) : (s.setCtx n).rd k = s.rd k := wrF_rd_ne _ _ _ _ h

theorem haltContext_rd (s : State) {k : Nat} (h : k ∉ haltRegs) : s.haltContext.rd k = s.rd k := by
  simp only [haltRegs, List.mem_cons, List.not_mem_nil, or_false, not_or] at h
  obtain ⟨hcount, hary, hacq, hctx⟩ := h
  unfold haltContext
  rw [setCtx_rd _ _ hctx, freezeRing_rd, idleOutputs_rd, closeCaptures_rd _ hacq, setAryState, wrF_rd_ne _ _ _ _ hary, holdStop_rd _ hcount]

theorem haltContext_ctx (s : State) : s.haltContext.ctx = ctxHalted := setCtx_ctx _ _ (by decide)

theorem haltContext_aryState (s : State) : s.haltContext.aryState = aryStopped := by
  have h : s.haltContext.rd Reg.ARY_STATUS = (s.holdStop.setAryState aryStopped).rd Reg.ARY_STATUS := by
    unfold haltContext
    rw [setCtx_rd _ _ (by decide), freezeRing_rd, idleOutputs_rd, closeCaptures_rd _ (by decide)]
  rw [aryState, rdF_congr h]
  exact setAryState_aryState _ _ (by decide)

theorem haltContext_outs (s : State) : s.haltContext.trg.outs = [] := by
  rw [haltContext_frame]

/-! Aborting the rings, and what an error does to the context (R396). -/

theorem abortRings_frame (s : State) (keep : List Nat) : s.abortRings keep =
    { s with rings := (s.abortRings keep).rings, regs := (s.abortRings keep).regs, out := (s.abortRings keep).out } := by
  unfold abortRings
  generalize List.range 16 = l
  induction l generalizing s with
  | nil => rfl
  | cons r l ih =>
    rw [List.foldl_cons]
    split
    · exact ih s
    · rw [ih (s.complete r stAborted), complete_frame]

theorem abortRings_rd (s : State) (keep : List Nat) {k : Nat} (h : k < 0x0240_0000) (hr : ∀ r < 16, k ≠ Reg.HQ_RING_STAT r) :
    (s.abortRings keep).rd k = s.rd k := by
  unfold abortRings
  have hl : ∀ r ∈ List.range 16, r < 16 := fun r hr => List.mem_range.mp hr
  generalize List.range 16 = l at hl
  induction l generalizing s with
  | nil => rfl
  | cons r l ih =>
    rw [List.foldl_cons, ih _ fun q hq => hl q (List.mem_cons_of_mem _ hq)]
    split
    · rfl
    · exact complete_rd _ _ _ _ _ _ h (hr r (hl r List.mem_cons_self))

theorem stopForError_of_running {s : State} (h : s.ctx = ctxRunning) : s.stopForError = s.haltContext := if_pos h

theorem stopForError_of_open {s : State} (h : s.ctx ∈ [ctxOpening, ctxReady, ctxLoaded]) :
    s.stopForError = { s.abortRings [] with ueStop := true } := by
  simp only [List.mem_cons, List.not_mem_nil, or_false] at h
  unfold stopForError
  rw [if_neg (by rcases h with h | h | h <;> rw [h] <;> decide), if_pos h]

theorem stopForError_of_other {s : State} (h : s.ctx ≠ ctxRunning) (h' : s.ctx ∉ [ctxOpening, ctxReady, ctxLoaded]) :
    s.stopForError = s := by
  simp only [List.mem_cons, List.not_mem_nil, or_false] at h'
  unfold stopForError
  rw [if_neg h, if_neg h']

theorem abortRings_ctx (s : State) (keep : List Nat) : (s.abortRings keep).ctx = s.ctx :=
  rdF_congr (abortRings_rd s keep (k := Reg.SEC_CTX_STATUS) (by decide) (by unfold Reg.HQ_RING_STAT Reg.SEC_CTX_STATUS; omega)) 0 3

/-- Registers read alike in states that hold the same words. -/
theorem rd_congr {s t : State} (h : t.regs = s.regs) (k : Nat) : t.rd k = s.rd k := by rw [rd, rd, h]

theorem rd_ueStop (s : State) (b : Bool) (k : Nat) : ({ s with ueStop := b } : State).rd k = s.rd k := rfl

theorem ctx_ueStop (s : State) (b : Bool) : ({ s with ueStop := b } : State).ctx = s.ctx := rfl

/-- Once an error has stopped it, a context does not run. -/
theorem stopForError_not_running (s : State) : s.stopForError.ctx ≠ ctxRunning := by
  by_cases hr : s.ctx = ctxRunning
  · rw [stopForError_of_running hr, haltContext_ctx]; decide
  · by_cases ho : s.ctx ∈ [ctxOpening, ctxReady, ctxLoaded]
    · rw [stopForError_of_open ho]
      rwa [ctx_ueStop, abortRings_ctx]
    · rwa [stopForError_of_other hr ho]

/-- The parts of the state that an error does not touch. -/
theorem stopForError_frame (s : State) : s.stopForError =
    { s with hold := s.stopForError.hold, regs := s.stopForError.regs, acq := s.stopForError.acq, trg := s.stopForError.trg,
             out := s.stopForError.out, ing := s.stopForError.ing, rings := s.stopForError.rings, ueStop := s.stopForError.ueStop } := by
  by_cases hr : s.ctx = ctxRunning
  · obtain ⟨h, r, a, g, o, i, e⟩ : ∃ h r a g o i, s.haltContext = { s with hold := h, regs := r, acq := a, trg := g, out := o, ing := i } :=
      ⟨_, _, _, _, _, _, haltContext_frame s⟩
    rw [stopForError_of_running hr, e]
  · by_cases ho : s.ctx ∈ [ctxOpening, ctxReady, ctxLoaded]
    · obtain ⟨a, r, o, e⟩ : ∃ a r o, s.abortRings [] = { s with rings := a, regs := r, out := o } := ⟨_, _, _, abortRings_frame s []⟩
      rw [stopForError_of_open ho, e]
    · rw [stopForError_of_other hr ho]

theorem stopForError_rd (s : State) {k : Nat} (h : k < 0x0240_0000) (hk : k ∉ haltRegs) (hr : ∀ r < 16, k ≠ Reg.HQ_RING_STAT r) :
    s.stopForError.rd k = s.rd k := by
  by_cases hrun : s.ctx = ctxRunning
  · rw [stopForError_of_running hrun, haltContext_rd s hk]
  · by_cases ho : s.ctx ∈ [ctxOpening, ctxReady, ctxLoaded]
    · rw [stopForError_of_open ho]
      rw [rd_ueStop, abortRings_rd s [] h hr]
    · rw [stopForError_of_other hrun ho]

/-! CONTAIN (R399). -/

theorem enterContain_frame {s : State} (h : s.ctx ≠ ctxRunning) : s.enterContain =
    { s with acq := s.stopCapture.acq, regs := s.enterContain.regs, out := s.enterContain.out } := by
  unfold enterContain
  dsimp only
  rw [if_neg h]
  obtain ⟨u, hu⟩ : ∃ u, s.stopCapture.wrB Reg.ERR_STATUS 31 true = u := ⟨_, rfl⟩
  obtain ⟨r, o, e⟩ : ∃ r o, u.irq 0 = { u with regs := r, out := o } := ⟨_, _, irq_frame u 0⟩
  rw [hu, e, ← hu]
  split <;> rfl

theorem enterContain_rd {s : State} (h : s.ctx ≠ ctxRunning) {k : Nat} (hk : k < 0x0240_0000) :
    s.enterContain.rd k = (s.wrB Reg.ERR_STATUS 31 true).rd k := by
  unfold enterContain
  dsimp only
  rw [if_neg h]
  have e : (s.stopCapture.wrB Reg.ERR_STATUS 31 true).rd k = (s.wrB Reg.ERR_STATUS 31 true).rd k := rfl
  split
  · exact e
  · rw [irq_rd _ _ hk, e]

/-! The error log (R392 to R395). -/

/-- The entry that an error makes. -/
def newEntry (s : State) (src : Byte) (cls : Nat) (loc : DWord) (withheld lost contain : Bool) : ErrEntry :=
  { seq := s.log.nextSeq, source := src, cls := cls, nested := s.log.oldestPending.isSome, contain := contain, coalesced := false,
    withheld := withheld, lost := lost, pending := decide (clsUncorrectable ≤ cls),
    firstSeq := match s.log.oldestPending with | some o => o.seq | none => s.log.nextSeq,
    count := 1, time := s.timeline, loc := loc }

section Entry
variable (s : State) (src : Byte) (cls : Nat) (loc : DWord) (withheld lost contain : Bool)

theorem logOverflow_frame : s.logOverflow = { s with regs := s.logOverflow.regs, out := s.logOverflow.out } := by
  unfold logOverflow
  rw [irq_frame]
  rfl

theorem addEntry_frame : s.addEntry src cls loc withheld lost contain =
    { s with log := (s.addEntry src cls loc withheld lost contain).log, regs := (s.addEntry src cls loc withheld lost contain).regs,
             out := (s.addEntry src cls loc withheld lost contain).out } := by
  unfold addEntry
  dsimp only
  split
  · rfl
  · split <;> (rw [logOverflow_frame])

theorem addEntry_nextSeq : (s.addEntry src cls loc withheld lost contain).log.nextSeq = s.log.nextSeq + 1 := by
  unfold addEntry
  dsimp only
  split
  · rfl
  · split <;> (rw [logOverflow_frame])

theorem addEntry_of_room (h : s.log.entries.length < 64) : s.addEntry src cls loc withheld lost contain =
    { s with log := { entries := s.log.entries ++ [s.newEntry src cls loc withheld lost contain], nextSeq := s.log.nextSeq + 1 } } :=
  if_pos h

theorem logOverflow_rd {k : Nat} (hk : k < 0x0240_0000) (h1 : k ≠ Reg.ERR_LOG_OVERFLOW) (h2 : k ≠ Reg.ERR_STATUS) :
    s.logOverflow.rd k = s.rd k := by
  unfold logOverflow
  rw [irq_rd _ _ hk, wrB_rd_ne _ _ _ h2, count_rd_ne _ _ h1]

theorem addEntry_rd {k : Nat} (hk : k < 0x0240_0000) (h1 : k ≠ Reg.ERR_LOG_OVERFLOW) (h2 : k ≠ Reg.ERR_STATUS) :
    (s.addEntry src cls loc withheld lost contain).rd k = s.rd k := by
  unfold addEntry
  dsimp only
  split
  · rfl
  · split
    · exact logOverflow_rd _ hk h1 h2
    · exact logOverflow_rd _ hk h1 h2

/-- Of ERR_STATUS a new entry sets the overflow bit at most. -/
theorem addEntry_errStatus (i : Nat) (hi : i ≠ 29) (hi' : i < 32) :
    (s.addEntry src cls loc withheld lost contain).rdB Reg.ERR_STATUS i = s.rdB Reg.ERR_STATUS i := by
  have hover (u : State) (hu : u.regs = s.regs) : u.logOverflow.rdB Reg.ERR_STATUS i = s.rdB Reg.ERR_STATUS i := by
    unfold logOverflow
    rw [rdB_congr (irq_rd _ 0 (k := Reg.ERR_STATUS) (by decide)), rdB_wrB_ne _ _ hi' fun _ => hi]
    refine rdB_congr ?_ _
    rw [count_rd_ne _ _ (by decide)]
    simp only [rd, hu]
  unfold addEntry
  dsimp only
  split
  · rfl
  · split
    · exact hover _ rfl
    · exact hover _ rfl

end Entry

/-- The state in which an error has entered the log and is counted, and its interrupt is raised. -/
def errorEntered (s : State) (src : Byte) (cls : Nat) (loc : DWord) (withheld lost contain : Bool) : State :=
  (((s.addEntry src cls loc withheld lost contain).count Reg.ERR_UE_TOTAL).wrB Reg.ERR_STATUS 28 true).irq 0

section Entered
variable (s : State) (src : Byte) (cls : Nat) (loc : DWord) (withheld lost contain : Bool)

theorem errorEntered_frame : s.errorEntered src cls loc withheld lost contain =
    { s with log := (s.addEntry src cls loc withheld lost contain).log, regs := (s.errorEntered src cls loc withheld lost contain).regs,
             out := (s.errorEntered src cls loc withheld lost contain).out } := by
  obtain ⟨g, r, o, e⟩ : ∃ g r o, s.addEntry src cls loc withheld lost contain = { s with log := g, regs := r, out := o } :=
    ⟨_, _, _, addEntry_frame s src cls loc withheld lost contain⟩
  obtain ⟨u, hu⟩ : ∃ u, ((s.addEntry src cls loc withheld lost contain).count Reg.ERR_UE_TOTAL).wrB Reg.ERR_STATUS 28 true = u := ⟨_, rfl⟩
  obtain ⟨r', o', e'⟩ : ∃ r o, u.irq 0 = { u with regs := r, out := o } := ⟨_, _, irq_frame u 0⟩
  unfold errorEntered
  rw [hu, e', ← hu, e]
  rfl

theorem errorEntered_rd {k : Nat} (hk : k < 0x0240_0000) (h1 : k ≠ Reg.ERR_LOG_OVERFLOW) (h2 : k ≠ Reg.ERR_STATUS) (h3 : k ≠ Reg.ERR_UE_TOTAL) :
    (s.errorEntered src cls loc withheld lost contain).rd k = s.rd k := by
  unfold errorEntered
  rw [irq_rd _ _ hk, wrB_rd_ne _ _ _ h2, count_rd_ne _ _ h3, addEntry_rd _ _ _ _ _ _ _ hk h1 h2]

theorem errorEntered_total :
    (s.errorEntered src cls loc withheld lost contain).rd Reg.ERR_UE_TOTAL = satInc (s.rd Reg.ERR_UE_TOTAL) := by
  unfold errorEntered
  rw [irq_rd _ _ (by decide), wrB_rd_ne _ _ _ (by decide), count_rd_self,
    addEntry_rd _ _ _ _ _ _ _ (by decide) (by decide) (by decide)]

theorem errorEntered_status : (s.errorEntered src cls loc withheld lost contain).rdB Reg.ERR_STATUS 28 = true := by
  unfold errorEntered
  rw [rdB_congr (irq_rd _ 0 (k := Reg.ERR_STATUS) (by decide)), rdB_wrB_self _ _ (by decide)]

theorem errorEntered_contained : (s.errorEntered src cls loc withheld lost contain).rdB Reg.ERR_STATUS 31 = s.rdB Reg.ERR_STATUS 31 := by
  unfold errorEntered
  rw [rdB_congr (irq_rd _ 0 (k := Reg.ERR_STATUS) (by decide)), rdB_wrB_ne _ _ (by decide) fun _ => by decide,
    rdB_congr (count_rd_ne _ _ (by decide)), addEntry_errStatus _ _ _ _ _ _ _ 31 (by decide) (by decide)]

theorem errorEntered_ctx : (s.errorEntered src cls loc withheld lost contain).ctx = s.ctx :=
  rdF_congr (errorEntered_rd s src cls loc withheld lost contain (k := Reg.SEC_CTX_STATUS) (by decide) (by decide) (by decide) (by decide)) 0 3

end Entered

/-- Registers that the stop of a context leaves alone. -/
theorem stopForError_err (s : State) {k : Nat} (h : k < 0x0002_0000) : s.stopForError.rd k = s.rd k := by
  refine stopForError_rd s (by omega) ?_ fun r hr => ?_
  · simp only [haltRegs, List.mem_cons, List.not_mem_nil, or_false, Reg.ARY_HOLD_COUNT, Reg.ARY_STATUS, Reg.ACQ_QUEUE, Reg.SEC_CTX_STATUS]
    omega
  · unfold Reg.HQ_RING_STAT; omega

theorem uncorrectable_eq (s : State) (src : Byte) (loc : DWord) (withheld lost : Bool) : s.uncorrectable src loc withheld lost =
    if s.log.oldestPending.isSome then
      (s.errorEntered src clsUncorrectable loc withheld lost s.log.oldestPending.isSome).stopForError.enterContain
    else (s.errorEntered src clsUncorrectable loc withheld lost s.log.oldestPending.isSome).stopForError := rfl

theorem fatal_eq (s : State) (src : Byte) (loc : DWord) :
    s.fatal src loc = (s.errorEntered src clsFatal loc false false true).stopForError.enterContain := rfl

theorem enterContain_contained {s : State} (h : s.ctx ≠ ctxRunning) : s.enterContain.contained = true := by
  rw [contained, rdB_congr (enterContain_rd h (by decide)), rdB_wrB_self _ _ (by decide)]

theorem enterContain_stopped {s : State} (h : s.ctx ≠ ctxRunning) : s.enterContain.acq.stopped = true := by
  rw [enterContain_frame h]
  rfl

end State

/-- An error that has entered the log and stopped its context. -/
theorem logged_stopForError (s : State) (src : Byte) (cls : Nat) (loc : DWord) (withheld lost contain : Bool) (hc : clsUncorrectable ≤ cls) :
    Logged s (s.errorEntered src cls loc withheld lost contain).stopForError src cls loc := by
  obtain ⟨u, hu⟩ : ∃ u, s.errorEntered src cls loc withheld lost contain = u := ⟨_, rfl⟩
  have hlog : u.stopForError.log = (s.addEntry src cls loc withheld lost contain).log := by
    rw [State.stopForError_frame, ← hu, State.errorEntered_frame]
  have hctx : u.ctx = s.ctx := hu ▸ State.errorEntered_ctx ..
  rw [hu]
  refine ⟨?_, ?_, ?_, fun hroom => ⟨s.newEntry src cls loc withheld lost contain, ?_, rfl, rfl, rfl, rfl, decide_eq_true hc, rfl⟩,
    fun hr => ?_, fun ho => ?_⟩
  · rw [hlog, State.addEntry_nextSeq]
  · rw [State.stopForError_err _ (by decide), ← hu, State.errorEntered_total]
  · rw [State.rdB_congr (State.stopForError_err _ (by decide)), ← hu, State.errorEntered_status]
  · rw [hlog, State.addEntry_of_room _ _ _ _ _ _ _ hroom]
  · rw [← hctx] at hr
    rw [State.stopForError_of_running hr]
    exact ⟨State.haltContext_ctx u, State.haltContext_aryState u, State.haltContext_outs u⟩
  · rw [← hctx] at ho
    rw [State.stopForError_of_open ho]
    exact ⟨by rw [State.ctx_ueStop, State.abortRings_ctx, hctx], rfl⟩

/-- CONTAIN takes nothing from an error that was taken. -/
theorem logged_enterContain {s t : State} {src : Byte} {cls : Nat} {loc : DWord} (h : Logged s t src cls loc) (hr : t.ctx ≠ ctxRunning) :
    Logged s t.enterContain src cls loc := by
  obtain ⟨hseq, htotal, hstatus, hentry, hrun, hopen⟩ := h
  have hrd {k : Nat} (hk : k < 0x0240_0000) (hne : k ≠ Reg.ERR_STATUS) : t.enterContain.rd k = t.rd k :=
    (State.enterContain_rd hr hk).trans (State.wrB_rd_ne _ _ _ hne)
  have hlog : t.enterContain.log = t.log := by rw [State.enterContain_frame hr]
  have hctx : t.enterContain.ctx = t.ctx := State.rdF_congr (hrd (by decide) (by decide)) 0 3
  have hary : t.enterContain.aryState = t.aryState := State.rdF_congr (hrd (by decide) (by decide)) 0 3
  have houts : t.enterContain.trg = t.trg := by rw [State.enterContain_frame hr]
  have hue : t.enterContain.ueStop = t.ueStop := by rw [State.enterContain_frame hr]
  refine ⟨hlog ▸ hseq, (hrd (by decide) (by decide)).trans htotal, ?_, hlog ▸ hentry, ?_, ?_⟩
  · rw [State.rdB_congr (State.enterContain_rd hr (by decide)), State.rdB_wrB_ne _ _ (by decide) fun _ => by decide]
    exact hstatus
  · rwa [hctx, hary, houts]
  · rwa [hctx, hue]

/-- An UNCORRECTABLE error (R394, R396): with another pending it takes the device to CONTAIN (R399). -/
theorem logged_uncorrectable (s : State) (src : Byte) (loc : DWord) (withheld lost : Bool) :
    Logged s (s.uncorrectable src loc withheld lost) src clsUncorrectable loc ∧
    (s.uePending = true → (s.uncorrectable src loc withheld lost).contained = true ∧ (s.uncorrectable src loc withheld lost).acq.stopped = true) ∧
    (s.uePending = false → (s.uncorrectable src loc withheld lost).contained = s.contained) := by
  have hl := logged_stopForError s src clsUncorrectable loc withheld lost s.log.oldestPending.isSome (Nat.le_refl _)
  rw [State.uncorrectable_eq, State.uePending]
  cases hp : s.log.oldestPending.isSome <;> rw [hp] at hl
  · rw [if_neg Bool.false_ne_true]
    refine ⟨hl, fun h => absurd h Bool.false_ne_true, fun _ => ?_⟩
    exact (State.rdB_congr (State.stopForError_err _ (by decide)) 31).trans (State.errorEntered_contained ..)
  · have hr := State.stopForError_not_running (s.errorEntered src clsUncorrectable loc withheld lost true)
    rw [if_pos rfl]
    exact ⟨logged_enterContain hl hr, fun _ => ⟨State.enterContain_contained hr, State.enterContain_stopped hr⟩,
      fun h => absurd h (by decide)⟩

/-- A FATAL error takes the device to CONTAIN (R399). -/
theorem logged_fatal (s : State) (src : Byte) (loc : DWord) :
    Logged s (s.fatal src loc) src clsFatal loc ∧ (s.fatal src loc).contained = true ∧ (s.fatal src loc).acq.stopped = true := by
  have hr := State.stopForError_not_running (s.errorEntered src clsFatal loc false false true)
  rw [State.fatal_eq]
  exact ⟨logged_enterContain (logged_stopForError s src clsFatal loc _ _ _ (by decide)) hr, State.enterContain_contained hr,
    State.enterContain_stopped hr⟩

end Sys2Proof.Machine
end

section
/-!
PROOF. O53: what an error leaves behind.
-/

namespace Sys2Proof.Machine
open Sys2Proof.Claims

namespace State

/-- The parts of the state that an UNCORRECTABLE error touches. -/
theorem uncorrectable_frame (s : State) (src : Byte) (loc : DWord) (withheld lost : Bool) :
    let t := s.uncorrectable src loc withheld lost
    t = { s with hold := t.hold, regs := t.regs, acq := t.acq, trg := t.trg, out := t.out, ing := t.ing, rings := t.rings,
                 ueStop := t.ueStop, log := t.log } := by
  obtain ⟨c, hc⟩ : ∃ c, s.log.oldestPending.isSome = c := ⟨_, rfl⟩
  obtain ⟨g, r, o, e⟩ : ∃ g r o, s.errorEntered src clsUncorrectable loc withheld lost c = { s with log := g, regs := r, out := o } :=
    ⟨_, _, _, errorEntered_frame ..⟩
  obtain ⟨u, hu⟩ : ∃ u, s.errorEntered src clsUncorrectable loc withheld lost c = u := ⟨_, rfl⟩
  obtain ⟨h, r', a, t, o', i, rs, b, e'⟩ : ∃ h r a t o i rs b, u.stopForError =
      { u with hold := h, regs := r, acq := a, trg := t, out := o, ing := i, rings := rs, ueStop := b } :=
    ⟨_, _, _, _, _, _, _, _, stopForError_frame u⟩
  obtain ⟨v, hv⟩ : ∃ v, u.stopForError = v := ⟨_, rfl⟩
  have hr : v.ctx ≠ ctxRunning := hv ▸ stopForError_not_running u
  obtain ⟨a', r'', o'', e''⟩ : ∃ a r o, v.enterContain = { v with acq := a, regs := r, out := o } := ⟨_, _, _, enterContain_frame hr⟩
  dsimp only
  rw [uncorrectable_eq, hc, hu, hv, e'', ← hv, e', ← hu, e]
  cases c <;> rfl

end State

theorem logged_of_parts {s s' t : State} {src : Byte} {cls : Nat} {loc : DWord} (h : Logged s' t src cls loc) (hlog : s'.log = s.log)
    (hregs : s'.regs = s.regs) (htime : s'.timeline = s.timeline) : Logged s t src cls loc := by
  have hctx : s'.ctx = s.ctx := State.rdF_congr (State.rd_congr hregs _) 0 3
  rw [Logged, hlog, htime, hctx, State.rd_congr hregs] at h
  exact h

/-- R389, R390: while a context runs a CXL link that goes down is an UNCORRECTABLE error. -/
theorem exec_cxlLinkDown_running {s : State} (h : s.contextRuns = true) :
    ∃ t, exec .cxlLinkDown s = .next t ∧ Logged s t 0x0A clsUncorrectable 0 ∧ t.boot.linkUp = false := by
  obtain ⟨u, hu⟩ : ∃ u : State, u = { s with boot := { s.boot with linkUp := false } } := ⟨_, rfl⟩
  have he : s.linkDown = u.uncorrectable 0x0A 0 := by rw [hu, State.linkDown, h]; rfl
  refine ⟨u.uncorrectable 0x0A 0, congrArg Host.Outcome.next he, ?_, ?_⟩
  · exact logged_of_parts (logged_uncorrectable u 0x0A 0 false false).1 (by rw [hu]) (by rw [hu]) (by rw [hu])
  · rw [State.uncorrectable_frame, hu]

/-- At other times it is an INFO entry. -/
theorem exec_cxlLinkDown_idle {s : State} (h : s.contextRuns = false) :
    ∃ t, exec .cxlLinkDown s = .next t ∧ t.boot.linkUp = false ∧ t.ctx = s.ctx ∧ t.log.nextSeq = s.log.nextSeq + 1 ∧
      (s.log.entries.length < 64 → ∃ x, t.log.entries = s.log.entries ++ [x] ∧ x.source = 0x0A ∧ x.cls = clsInfo ∧ x.loc = 0) := by
  obtain ⟨u, hu⟩ : ∃ u : State, u = { s with boot := { s.boot with linkUp := false } } := ⟨_, rfl⟩
  have hlog : u.log = s.log := by rw [hu]
  have hregs : u.regs = s.regs := by rw [hu]
  have he : s.linkDown = u.addEntry 0x0A clsInfo 0 false false false := by rw [hu, State.linkDown, h]; rfl
  refine ⟨u.addEntry 0x0A clsInfo 0 false false false, congrArg Host.Outcome.next he, ?_, ?_, ?_, fun hroom =>
    ⟨u.newEntry 0x0A clsInfo 0 false false false, ?_, rfl, rfl, rfl⟩⟩
  · rw [State.addEntry_frame, hu]
  · refine State.rdF_congr ((State.addEntry_rd (k := Reg.SEC_CTX_STATUS) u 0x0A clsInfo 0 false false false (by decide) (by decide)
      (by decide)).trans (State.rd_congr hregs _)) 0 3
  · rw [State.addEntry_nextSeq, hlog]
  · rw [← hlog] at hroom
    rw [State.addEntry_of_room _ _ _ _ _ _ _ hroom, hlog]

/-! An array fault (R187). -/

/-- The word of ARY_FAULT in the cycle itself. -/
def faultWord (s : State) (kind : Nat) (pic : Fin 1024) (lg unit origin : Nat) : Word :=
  BitVec.ofNat 32 (kind * 2 ^ 28 + (pic.val / 32) * 2 ^ 21 + (pic.val % 32) * 2 ^ 16 + lg * 2 ^ 13 + unit * 2 ^ 10 + origin * 2 ^ 6 + s.arr.cycle)

/-- The state in which the first array fault is held and the fault is counted. -/
def faultHeld (s : State) (w : Word) : State :=
  (if s.rd Reg.ARY_FAULT = 0 then s.wr Reg.ARY_FAULT w else s).count Reg.ARY_FAULT_COUNT

theorem arrayFault_eq {s : State} (h : s.doomed = false) (kind : Nat) (pic : Fin 1024) (lg unit origin : Nat) :
    s.arrayFault kind pic lg unit origin =
      (faultHeld s (faultWord s kind pic lg unit origin)).uncorrectable 0x08 ((faultWord s kind pic lg unit origin).setWidth 64) := by
  unfold State.arrayFault
  rw [h]
  rfl

theorem arrayFault_of_doomed {s : State} (h : s.doomed = true) (kind : Nat) (pic : Fin 1024) (lg unit origin : Nat) :
    s.arrayFault kind pic lg unit origin = s := if_pos h

theorem faultHeld_rd (s : State) (w : Word) {k : Nat} (h1 : k ≠ Reg.ARY_FAULT) (h2 : k ≠ Reg.ARY_FAULT_COUNT) :
    (faultHeld s w).rd k = s.rd k := by
  unfold faultHeld
  rw [State.count_rd_ne _ _ h2]
  split
  · exact State.rd_wr_ne _ _ h1
  · rfl

theorem faultHeld_count (s : State) (w : Word) : (faultHeld s w).rd Reg.ARY_FAULT_COUNT = satInc (s.rd Reg.ARY_FAULT_COUNT) := by
  unfold faultHeld
  rw [State.count_rd_self]
  split
  · rw [State.rd_wr_ne _ _ (by decide)]
  · rfl

theorem faultHeld_fault (s : State) (w : Word) : (faultHeld s w).rd Reg.ARY_FAULT = if s.rd Reg.ARY_FAULT = 0 then w else s.rd Reg.ARY_FAULT := by
  unfold faultHeld
  rw [State.count_rd_ne _ _ (by decide)]
  split
  · exact State.rd_wr_self ..
  · rfl

/-- An error leaves the registers of the array's faults. -/
theorem uncorrectable_rd (s : State) (src : Byte) (loc : DWord) (withheld lost : Bool) {k : Nat} (hk : k < 0x0240_0000)
    (hh : k ∉ State.haltRegs) (hr : ∀ r < 16, k ≠ Reg.HQ_RING_STAT r) (h1 : k ≠ Reg.ERR_LOG_OVERFLOW) (h2 : k ≠ Reg.ERR_STATUS)
    (h3 : k ≠ Reg.ERR_UE_TOTAL) : (s.uncorrectable src loc withheld lost).rd k = s.rd k := by
  rw [State.uncorrectable_eq]
  obtain ⟨u, hu⟩ : ∃ u, s.errorEntered src clsUncorrectable loc withheld lost s.log.oldestPending.isSome = u := ⟨_, rfl⟩
  have he : u.stopForError.rd k = s.rd k := by
    rw [State.stopForError_rd u hk hh hr, ← hu, State.errorEntered_rd _ _ _ _ _ _ _ hk h1 h2 h3]
  rw [hu]
  split
  · rw [State.enterContain_rd (State.stopForError_not_running u) hk, State.wrB_rd_ne _ _ _ h2, he]
  · exact he

theorem ringStat_ne {k : Nat} (h : k < 0x000A_0000) : ∀ r < 16, k ≠ Reg.HQ_RING_STAT r := by
  unfold Reg.HQ_RING_STAT
  omega

/-- The fields of ARY_FAULT's word. -/
theorem faultWord_fields (s : State) {kind lg unit origin : Nat} (pic : Fin 1024) (hk : kind < 8) (hl : lg < 8) (hu : unit < 8)
    (ho : origin < 16) (hc : s.arr.cycle < 64) : let w := faultWord s kind pic lg unit origin
    fieldNat w 28 3 = kind ∧ fieldNat w 16 10 = pic.val ∧ fieldNat w 13 3 = lg ∧ fieldNat w 10 3 = unit ∧ fieldNat w 6 4 = origin ∧
      fieldNat w 0 6 = s.arr.cycle := by
  have hp := pic.isLt
  dsimp only
  unfold faultWord
  refine ⟨?_, ?_, ?_, ?_, ?_, ?_⟩ <;> rw [fieldNat_ofNat] <;> omega

/-- R412: a command that injects an error touches the codeword alone. -/
theorem inject_frame (s : State) (target symbols loc : Nat) :
    s.inject target symbols loc = { s with arr := (s.inject target symbols loc).arr, mem := (s.inject target symbols loc).mem } := by
  unfold State.inject
  split <;> rfl

theorem inject_sram (s : State) (symbols loc : Nat) : let p := loc % 1024
    let a := loc / 2 ^ 13 % 2 ^ 17
    SMap.get 0 ((s.inject 0 symbols loc).picot p).sramErr a = SMap.get 0 (s.picot p).sramErr a ^^^ (if symbols = 2 then 0x11 else 0x1) := by
  dsimp only
  unfold State.inject
  rw [if_pos rfl, picot_setPicot_self]
  exact SMap.get_set_self ..

/-- Settles O53: each error enters the log by `logged_uncorrectable` or `logged_fatal`. -/
theorem errorResults : Obligations.ErrorResults := by
  unfold Obligations.ErrorResults
  intro s
  refine ⟨fun src loc h1 h2 => ?_, fun src loc h1 h2 => ?_, ⟨_, rfl, logged_fatal s 0x10 0x1F⟩, fun m v ha => ?_, exec_cxlLinkDown_running,
    exec_cxlLinkDown_idle, fun hd kind pic lg unit origin => ?_, fun hd kind pic lg unit origin => arrayFault_of_doomed hd kind pic lg unit origin,
    fun r m e hrun ht hsym hzero hin => ⟨fun hm hp => ?_, fun hno => ?_⟩⟩
  · exact ⟨s.uncorrectable src loc, congrArg Host.Outcome.next (if_pos ⟨h1, h2⟩), logged_uncorrectable s src loc false false⟩
  · exact ⟨s.fatal src loc, congrArg Host.Outcome.next (if_pos ⟨h1, h2⟩), logged_fatal s src loc⟩
  · refine ⟨if bit v 0 then s.popLog else s, congrArg Host.Outcome.next (if_pos ha), ?_⟩
    split <;> exact ⟨rfl, rfl, rfl⟩
  · have hreg {k : Nat} (hk : k = Reg.ARY_FAULT ∨ k = Reg.ARY_FAULT_COUNT) : (s.arrayFault kind pic lg unit origin).rd k =
        (faultHeld s (faultWord s kind pic lg unit origin)).rd k := by
      rw [arrayFault_eq hd]
      rcases hk with rfl | rfl <;>
        exact uncorrectable_rd _ _ _ _ _ (by decide) (by decide) (ringStat_ne (by decide)) (by decide) (by decide) (by decide)
    have hctx : (faultHeld s (faultWord s kind pic lg unit origin)).ctx = s.ctx :=
      State.rdF_congr (faultHeld_rd s _ (k := Reg.SEC_CTX_STATUS) (by decide) (by decide)) 0 3
    have hl := (logged_uncorrectable (faultHeld s (faultWord s kind pic lg unit origin)) 0x08
      ((faultWord s kind pic lg unit origin).setWidth 64) false false).1
    rw [← arrayFault_eq hd] at hl
    obtain ⟨-, -, hstatus, -, hhalt, -⟩ := hl
    rw [hctx] at hhalt
    refine ⟨?_, hstatus, fun hne => ?_, fun h0 hk hlg hu ho hc => ?_, fun hr => ⟨(hhalt hr).1, (hhalt hr).2.1⟩⟩
    · rw [hreg (.inr rfl), faultHeld_count]
    · rw [hreg (.inl rfl), faultHeld_fault, if_neg hne]
    · simp only [State.rdF, hreg (.inl rfl), faultHeld_fault, if_pos h0]
      exact faultWord_fields s pic hk hlg hu ho hc
  · refine ⟨s.inject (e.param 0 1) (e.param 1 1) (e.param 8 8), ?_, ?_, inject_frame .., fun h0 => ?_⟩
    · change Host.Outcome.next (s.onRing r 0x63 16 _) = _
      rw [onRing_of_runs hrun, if_neg (by omega), if_neg (by omega), hzero]
      dsimp only
      rw [hin, needsPriv_of_priv hm hp]
      rfl
    · exact State.running_congr (by rw [inject_frame]) r
    · rw [h0]
      exact inject_sram s _ _
  · change Host.Outcome.next (s.onRing r 0x63 16 _) = _
    rw [onRing_of_runs hrun, if_neg (by omega), if_neg (by omega), hzero]
    dsimp only
    rw [hin, needsPriv_of_not hno]
    rfl

end Sys2Proof.Machine
end

section
/-!
PROOF. O27 and O28: completions, the order of serial commands, and the rings at work.
-/

namespace Sys2Proof.Machine
open Sys2Proof.Claims

namespace State

/-- Raising a vector drives nothing but an MSI-X write, and that at most once (R345). -/
theorem raise_out (s : State) (v : BitVec 6) : ∃ more, (s.raise v).out = s.out ++ more ∧ ∀ o ∈ more, ∃ v a d, o = .msix v a d := by
  unfold raise
  split
  · exact ⟨[], (List.append_nil _).symm, fun _ h => absurd h List.not_mem_nil⟩
  · exact ⟨_, rfl, fun o h => ⟨_, _, _, List.mem_singleton.mp h⟩⟩

theorem raise_of_unmasked {s : State} {v : BitVec 6} (h : s.vecMasked v = false) : s.raise v = s.sendVector v :=
  if_neg (by rw [h]; decide)

theorem raise_of_masked {s : State} {v : BitVec 6} (h : s.vecMasked v = true) :
    s.raise v = s.wrB (Reg.msixPba v.toNat) (v.toNat % 32) true := if_pos h

/-- The ring after a completion has been written (R330, R331): the parts that the host sees. -/
theorem ringIrq_ring (s : State) (r q : Nat) : (s.ringIrq r).ring q = if q = r then { s.ring r with waiting := 0 } else s.ring q := by
  rw [ring, ringIrq, raise_rings]
  exact ring_setRing s r q _

theorem writeCompletion_ring_ne (s : State) (c : Completion) {r q : Nat} (h : q ≠ r) : (s.writeCompletion r c).ring q = s.ring q := by
  unfold writeCompletion
  dsimp only
  split
  · rw [ringIrq_ring, if_neg h, ring_setRing, if_neg h]; rfl
  · rw [ring_setRing, if_neg h]; rfl

theorem writeCompletion_ring (s : State) (r : Nat) (c : Completion) : let tail := ((s.ring r).cqTail + 1) % s.cqSize r
    ((s.writeCompletion r c).ring r).cqTail = tail ∧
    ((s.writeCompletion r c).ring r).phase = if tail = 0 then !(s.ring r).phase else (s.ring r).phase := by
  unfold writeCompletion
  dsimp only
  split
  · rw [ringIrq_ring, if_pos rfl, ring_setRing_self]
    exact ⟨rfl, rfl⟩
  · rw [ring_setRing_self]
    exact ⟨rfl, rfl⟩

theorem writeCompletion_out (s : State) (r : Nat) (c : Completion) :
    ∃ more, (s.writeCompletion r c).out =
        s.out ++ .hostWrite (s.rd64 (Reg.HQ_CQ_BASE r) + BitVec.ofNat 64 (32 * (s.ring r).cqTail)) (s.completionBytes r c) :: more ∧
      ∀ o ∈ more, ∃ v a d, o = .msix v a d := by
  unfold writeCompletion
  dsimp only
  split
  · obtain ⟨more, hout, hmore⟩ := raise_out (((s.emit (.hostWrite (s.rd64 (Reg.HQ_CQ_BASE r) + BitVec.ofNat 64 (32 * (s.ring r).cqTail))
      (s.completionBytes r c))).setRing r _).setRing r _) _
    refine ⟨more, hout.trans ?_, hmore⟩
    simp [setRing]
  · exact ⟨[], rfl, fun _ h => absurd h List.not_mem_nil⟩

theorem endRunning_ring (s : State) (r q : Nat) :
    (s.endRunning r).ring q = if q = r then { s.ring r with running := none } else s.ring q := ring_setRing s r q _

theorem endRunning_rdF (s : State) (r k : Nat) {lo n : Nat} (hn : lo + n ≤ 32) (h : k = Reg.HQ_RING_STAT r → 1 ≤ lo) :
    (s.endRunning r).rdF k lo n = s.rdF k lo n := by
  by_cases e : k = Reg.HQ_RING_STAT r
  · subst e
    exact rdF_wrF_ne (s.setRing r _) _ _ _ _ _ _ hn (.inr (h rfl))
  · exact rdF_congr (endRunning_rd s e) lo n

theorem endRunning_cqSize (s : State) (r : Nat) : (s.endRunning r).cqSize r = s.cqSize r := by
  rw [cqSize, cqSize, endRunning_rdF s r _ (by decide) (by unfold Reg.HQ_RING_CFG Reg.HQ_RING_STAT; omega)]

theorem endRunning_rd64 (s : State) (r : Nat) : (s.endRunning r).rd64 (Reg.HQ_CQ_BASE r) = s.rd64 (Reg.HQ_CQ_BASE r) := by
  rw [rd64, rd64, endRunning_rd s (by unfold Reg.HQ_CQ_BASE Reg.HQ_RING_STAT; omega),
    endRunning_rd s (by unfold Reg.HQ_CQ_BASE Reg.HQ_RING_STAT; omega)]

theorem endRunning_bytes (s : State) (r : Nat) (c : Completion) : (s.endRunning r).completionBytes r c = s.completionBytes r c := by
  rw [completionBytes, completionBytes, endRunning_ring, if_pos rfl, endRunning_rdF s r _ (by decide) fun _ => by decide]

/-- Completing leaves the other rings as they are. -/
theorem complete_ring_ne (s : State) (st : Byte) (res0 res1 : DWord) (detail : Word) {r q : Nat} (h : q ≠ r) :
    (s.complete r st res0 res1 detail).ring q = s.ring q := by
  cases he : s.running r with
  | none => rw [complete_of_none he]
  | some e =>
    cases hf : s.cqFull r
    · rw [complete_of_room he hf, writeCompletion_ring_ne _ _ h, endRunning_ring, if_neg h]
    · rw [complete_of_full he hf, ring_setRing, if_neg h, endRunning_ring, if_neg h]

/-- The completion that waits for space is held, and fetching waits with it (R330). -/
theorem complete_full {s : State} {r : Nat} {e : SubEntry} (h : s.running r = some e) (hf : s.cqFull r = true) (st : Byte)
    (res0 res1 : DWord) (detail : Word) : let t := s.complete r st res0 res1 detail
    (t.ring r).held = some (completionOf e st res0 res1 detail) ∧ t.out = s.out ∧ t.fetchWaits r = true := by
  have hheld : ((s.complete r st res0 res1 detail).ring r).held = some (completionOf e st res0 res1 detail) := by
    rw [complete_of_full h hf, ring_setRing_self]
  refine ⟨hheld, ?_, ?_⟩
  · rw [complete_of_full h hf]; rfl
  · rw [fetchWaits, hheld]; rfl

/-- With space the completion is written at the tail, which moves on (R330, R331). -/
theorem complete_room {s : State} {r : Nat} {e : SubEntry} (h : s.running r = some e) (hf : s.cqFull r = false) (st : Byte)
    (res0 res1 : DWord) (detail : Word) : let t := s.complete r st res0 res1 detail
    (∃ more, t.out = s.out ++ .hostWrite (s.rd64 (Reg.HQ_CQ_BASE r) + BitVec.ofNat 64 (32 * (s.ring r).cqTail))
        (s.completionBytes r (completionOf e st res0 res1 detail)) :: more ∧ ∀ o ∈ more, ∃ v a d, o = .msix v a d) ∧
    (t.ring r).cqTail = ((s.ring r).cqTail + 1) % s.cqSize r ∧
    (t.ring r).phase = (if ((s.ring r).cqTail + 1) % s.cqSize r = 0 then !(s.ring r).phase else (s.ring r).phase) := by
  have hring : (s.endRunning r).ring r = { s.ring r with running := none } := by rw [endRunning_ring, if_pos rfl]
  have hout := writeCompletion_out (s.endRunning r) r (completionOf e st res0 res1 detail)
  have htail := writeCompletion_ring (s.endRunning r) r (completionOf e st res0 res1 detail)
  rw [endRunning_rd64, endRunning_bytes, hring] at hout
  rw [endRunning_cqSize, hring] at htail
  rw [complete_of_room h hf]
  exact ⟨hout, htail⟩

end State

/-! The turn of a serial command (R332, R381). -/

/-- A serial command waits for another that was fetched before it. -/
def Precedes (s : State) (k r : Nat) : Prop :=
  ∃ d, s.running k = some d ∧ State.serialOp d.opcode = true ∧ (s.ring k).turn < (s.ring r).turn ∧ s.sec.opening ≠ some k ∧ k ∉ s.sec.stops

theorem isTurn_iff {s : State} {r : Nat} {e : SubEntry} (h : s.running r = some e) :
    s.isTurn r = true ↔ State.serialOp e.opcode = true → ∀ k < 16, k ≠ r → ¬Precedes s k r := by
  have hbody (k : Nat) : (decide (k = r) || decide (s.sec.opening = some k) || decide (k ∈ s.sec.stops) ||
      match s.running k with
      | some d => !State.serialOp d.opcode || decide ((s.ring r).turn ≤ (s.ring k).turn)
      | none => true) = true ↔ (k ≠ r → ¬Precedes s k r) := by
    unfold Precedes
    cases s.running k with
    | none => simp
    | some d =>
      simp only [Bool.or_eq_true, decide_eq_true_eq, Bool.not_eq_true']
      constructor
      · rintro h hne ⟨d', hd, hs, ht, ho, hk⟩
        cases hd
        rcases h with ((h | h) | h) | h | h
        · exact hne h
        · exact ho h
        · exact hk h
        · rw [hs] at h; cases h
        · omega
      · intro h
        by_cases h1 : k = r
        · exact .inl (.inl (.inl h1))
        by_cases h2 : s.sec.opening = some k
        · exact .inl (.inl (.inr h2))
        by_cases h3 : k ∈ s.sec.stops
        · exact .inl (.inr h3)
        refine .inr ?_
        by_contra hc
        simp only [not_or, Bool.not_eq_false, Nat.not_le] at hc
        exact h h1 ⟨d, rfl, hc.1, hc.2, h2, h3⟩
  rw [State.isTurn, h]
  dsimp only
  rw [Bool.or_eq_true, List.all_eq_true, Bool.not_eq_true']
  constructor
  · rintro (h0 | hall) hser
    · rw [hser] at h0; cases h0
    · exact fun k hk => (hbody k).mp (hall k (List.mem_range.mpr hk))
  · intro hall
    cases hser : State.serialOp e.opcode
    · exact .inl rfl
    · exact .inr fun k hk => (hbody k).mpr (hall hser k (List.mem_range.mp hk))

/-- What stands between a ring and its command (R332 to R334, R429). -/
theorem onRing_cases {s : State} {r : Fin 16} {op : Byte} {e : SubEntry} (h : s.running r = some e) (ho : e.opcode = op) (used : Nat)
    (f : SubEntry → State) :
    (s.isTurn r = false → s.onRing r op used f = s) ∧
    (∀ i, s.isTurn r = true → e.badByte used = some i → s.onRing r op used f = s.complete r stBadParam 0 0 (BitVec.ofNat 32 i)) ∧
    (s.isTurn r = true → e.badByte used = none → s.phaseTakes op = false → s.onRing r op used f = s.completeState r) ∧
    (s.isTurn r = true → e.badByte used = none → s.phaseTakes op = true → s.onRing r op used f = f e) := by
  unfold State.onRing
  rw [h]
  refine ⟨fun ht => ?_, fun i ht hb => ?_, fun ht hb hp => ?_, fun ht hb hp => ?_⟩
  · exact if_pos (.inr ht)
  all_goals
    refine (if_neg (by rw [ht]; simp [ho])).trans ?_
    rw [hb]
  · rfl
  · exact if_neg (by rw [hp]; decide)
  · exact if_pos hp

/-- Settles O27: completions by their two cases, and the turns by `isTurn_iff`. -/
theorem completionResults : Obligations.CompletionResults := by
  unfold Obligations.CompletionResults
  refine ⟨fun s r e st res0 res1 detail h => ⟨?_, fun k hk => ?_, fun hf => ?_, fun hf => ?_, rfl⟩,
    fun s r op used f e h ho => onRing_cases h ho used f, fun s r k e d h hd => ⟨fun hns => ?_, fun hs hds hne hlt ho hst => ?_, fun hall => ?_⟩⟩
  · rw [State.complete_running, if_pos rfl]
  · exact State.complete_ring_ne s st res0 res1 detail (Fin.val_ne_of_ne hk)
  · exact State.complete_full h hf st res0 res1 detail
  · exact State.complete_room h hf st res0 res1 detail
  · exact (isTurn_iff h).mpr fun hser => absurd (of_decide_eq_true hser) hns
  · rw [Bool.eq_false_iff]
    intro ht
    exact (isTurn_iff h).mp ht (decide_eq_true hs) k k.isLt (Fin.val_ne_of_ne hne) ⟨d, hd, decide_eq_true hds, hlt, ho, hst⟩
  · refine (isTurn_iff h).mpr fun hser q hq hne => ?_
    rintro ⟨x, hx, hxs, hlt, -, -⟩
    have := hall ⟨q, hq⟩ (fun e => hne (congrArg Fin.val e)) x hx (of_decide_eq_true hxs)
    exact absurd hlt (Nat.not_lt.mpr this)

/-! The rings at work (R330 to R333, R346). -/

/-- The write masks of HQ_RING_CFG: EN and every other field are RW. -/
theorem regAt_ringCfg (r : Fin 16) : (regAt (Reg.HQ_RING_CFG r)).map (fun x => (x.1.rwMask x.2, x.1.w1cMask x.2)) = some (0x80FF3FFF, 0) := by
  revert r
  decide

theorem wordKey_ringCfg (s : State) (r : Fin 16) : s.wordKey (Reg.HQ_RING_CFG r) = Reg.HQ_RING_CFG r := by
  have hr := r.isLt
  unfold State.wordKey Reg.HQ_RING_CFG
  rw [if_neg (by omega), if_neg (by omega), if_neg (by omega), if_neg (by omega)]

/-- A word is merged under the masks of its row (R8, R327). -/
theorem mergeWord_of_masks {off : Nat} {rw w1c : Word} (hm : (regAt off).map (fun x => (x.1.rwMask x.2, x.1.w1cMask x.2)) = some (rw, w1c))
    (s : State) (v : Word) : s.mergeWord off v = s.wr (s.wordKey off) (mergeWrite rw w1c (s.rd (s.wordKey off)) v) := by
  unfold State.mergeWord
  cases hx : regAt off with
  | none => rw [hx] at hm; cases hm
  | some x =>
    rw [hx] at hm
    simp only [Option.map_some, Option.some.injEq, Prod.mk.injEq] at hm
    obtain ⟨hrw, hw1c⟩ := hm
    dsimp only
    rw [hrw, hw1c]

theorem mergeWord_ringCfg (s : State) (r : Fin 16) (v : Word) :
    s.mergeWord (Reg.HQ_RING_CFG r) v = s.wr (Reg.HQ_RING_CFG r) (mergeWrite 0x80FF3FFF 0 (s.rd (Reg.HQ_RING_CFG r)) v) := by
  rw [mergeWord_of_masks (regAt_ringCfg r), wordKey_ringCfg]

/-- EN reads as it is written. -/
theorem mergeWord_ringCfg_en (s : State) (r : Fin 16) (v : Word) :
    (s.mergeWord (Reg.HQ_RING_CFG r) v).rdB (Reg.HQ_RING_CFG r) 31 = bit v 31 := by
  have hen (old : Word) : bit (mergeWrite 0x80FF3FFF 0 old v) 31 = bit v 31 := by
    unfold mergeWrite bit
    simp
  rw [mergeWord_ringCfg, State.rdB, State.rd_wr_self, hen]

/-- No register of a table lies behind the ring's status word but its own view (R330). -/
theorem readReg_ringStat (s : State) (r : Fin 16) : s.readReg (Reg.HQ_RING_STAT r) =
    (s.rd (Reg.HQ_RING_STAT r) &&& 0xFFFF_FFF7) ||| (if s.fetchWaits r then 8 else 0) := by
  have hat : (regAt (Reg.HQ_RING_STAT r)).isSome = true := by revert r; decide
  have hlow : s.viewLow (Reg.HQ_RING_STAT r) = none := by fin_cases r <;> rfl
  have hhigh : s.viewHigh (Reg.HQ_RING_STAT r) =
      some ((s.rd (Reg.HQ_RING_STAT r) &&& 0xFFFF_FFF7) ||| (if s.fetchWaits r then 8 else 0)) := by fin_cases r <;> rfl
  obtain ⟨x, hx⟩ := Option.isSome_iff_exists.mp hat
  have hr := r.isLt
  unfold State.readReg
  rw [hx]
  dsimp only
  rw [if_neg (by unfold Reg.HQ_RING_STAT; omega), hlow, hhigh]
  rfl

theorem readReg_ringStat_full (s : State) (r : Fin 16) : bit (s.readReg (Reg.HQ_RING_STAT r)) 3 = s.fetchWaits r := by
  rw [readReg_ringStat]
  unfold bit
  cases s.fetchWaits r <;> simp

theorem fetchWaits_mayFetch {s : State} {r : Nat} (h : s.fetchWaits r = true) : s.mayFetch r = false := by
  unfold State.fetchWaits at h
  unfold State.mayFetch
  cases hh : (s.ring r).held <;> cases hf : s.cqFull r <;> simp_all

theorem exec_atReg {s : State} {m : Master} {off : Nat} (h : s.answers off = true) (f : State → State) : s.atReg m off f = f s := if_pos h

/-- The doorbells (R330). -/
theorem sqTailWrite_results (s : State) (r : Fin 16) (m : Master) (v : Word) (ha : s.answers (Reg.HQ_SQ_TAIL r) = true) :
    (fieldNat v 0 12 < s.sqSize r →
      ∃ t, exec (.sqTailWrite m r v) s = .next t ∧ OnlyRegs s t [Reg.HQ_SQ_TAIL r] ∧
        t.rdF (Reg.HQ_SQ_TAIL r) 0 12 = fieldNat v 0 12) ∧
    (s.sqSize r ≤ fieldNat v 0 12 →
      ∃ t, exec (.sqTailWrite m r v) s = .next t ∧ OnlyRegs s t [Reg.HQ_RING_STAT r] ∧ t.rdB (Reg.HQ_RING_STAT r) 1 = true) := by
  have he : exec (.sqTailWrite m r v) s = .next (s.writeTail r v) := congrArg Host.Outcome.next (exec_atReg ha _)
  refine ⟨fun hlt => ⟨_, he, ?_⟩, fun hle => ⟨_, he, ?_⟩⟩
  · rw [State.writeTail, if_neg (Nat.not_le.mpr hlt)]
    refine ⟨onlyRegs_wrF _ List.mem_cons_self _ _ _, ?_⟩
    rw [State.rdF_wrF_self _ _ _ _ _ (by decide), Nat.mod_eq_of_lt (by unfold fieldNat; exact BitVec.isLt _)]
  · rw [State.writeTail, if_pos hle]
    exact ⟨onlyRegs_wrB _ List.mem_cons_self _ _, State.rdB_wrB_self _ _ (by decide) _⟩

theorem cqHeadWrite_results {s : State} {r : Fin 16} (m : Master) (v : Word) (ha : s.answers (Reg.HQ_CQ_HEAD r) = true)
    (hh : (s.ring r).held = none) :
    ∃ t, exec (.cqHeadWrite m r v) s = .next t ∧ OnlyRegs s t [Reg.HQ_CQ_HEAD r] ∧ t.rdF (Reg.HQ_CQ_HEAD r) 0 12 = fieldNat v 0 12 := by
  have he : s.writeHead r v = s.wrF (Reg.HQ_CQ_HEAD r) 0 12 (fieldNat v 0 12) := by
    have hw : ((s.wrF (Reg.HQ_CQ_HEAD r) 0 12 (fieldNat v 0 12)).ring r).held = none := hh
    rw [State.writeHead, State.releaseHeld, hw]
  refine ⟨_, (congrArg Host.Outcome.next (exec_atReg ha _)).trans (congrArg Host.Outcome.next he), onlyRegs_wrF _ List.mem_cons_self _ _ _, ?_⟩
  rw [State.rdF_wrF_self _ _ _ _ _ (by decide), Nat.mod_eq_of_lt (by unfold fieldNat; exact BitVec.isLt _)]

/-- Enabling a ring (R331). -/
theorem ringEnable_results {s : State} {r : Fin 16} (m : Master) (v : Word) (ha : s.answers (Reg.HQ_RING_CFG r) = true)
    (hoff : s.rdB (Reg.HQ_RING_CFG r) 31 = false) (hon : bit v 31 = true) (hsize : State.ringSizesOk v = true) :
    ∃ t, exec (.ringEnable m r v) s = .next t ∧ t.rdB (Reg.HQ_RING_CFG r) 31 = true ∧ t.rdF (Reg.HQ_RING_STAT r) 20 12 = 0 ∧
      (t.ring r).cqTail = 0 ∧ (t.ring r).phase = true ∧ t.running r = s.running r := by
  have hring (u : State) : ((u.mergeWord (Reg.HQ_RING_CFG r) v).wrF (Reg.HQ_RING_STAT r) 20 12 0).rdF (Reg.HQ_RING_STAT r) 20 12 = 0 :=
    State.rdF_wrF_self _ _ _ _ _ (by decide)
  have he : s.writeRingCfg m r v = ((s.mergeWord (Reg.HQ_RING_CFG r) v).wrF (Reg.HQ_RING_STAT r) 20 12 0).setRing r
      { s.ring r with cqTail := 0, phase := true, waiting := 0, held := none, dead := false } := by
    unfold State.writeRingCfg
    dsimp only
    rw [hoff, hon, hsize]
    rfl
  refine ⟨_, (congrArg Host.Outcome.next (exec_atReg ha _)).trans (congrArg Host.Outcome.next he), ?_, hring s, ?_, ?_, ?_⟩
  · refine (State.rdB_congr (State.wrF_rd_ne (s.mergeWord (Reg.HQ_RING_CFG r) v) 20 12 0 ?_) 31).trans ((mergeWord_ringCfg_en s r v).trans hon)
    unfold Reg.HQ_RING_CFG Reg.HQ_RING_STAT
    omega
  · rw [State.ring_setRing_self]
  · rw [State.ring_setRing_self]
  · rw [State.running, State.ring_setRing_self]
    rfl

/-- Disabling it (R333). -/
theorem ringDisable_results {s : State} {r : Fin 16} (m : Master) (v : Word) (ha : s.answers (Reg.HQ_RING_CFG r) = true)
    (hon : s.rdB (Reg.HQ_RING_CFG r) 31 = true) (hoff : bit v 31 = false) :
    ∃ t, exec (.ringDisable m r v) s = .next t ∧ t.rdB (Reg.HQ_RING_CFG r) 31 = false ∧ t.running r = s.running r ∧ t.mayFetch r = false := by
  have he : s.writeRingCfg m r v = (s.mergeWord (Reg.HQ_RING_CFG r) v).setRing r { s.ring r with dead := false } := by
    unfold State.writeRingCfg
    dsimp only
    rw [hon, hoff]
    rfl
  have hen : ((s.mergeWord (Reg.HQ_RING_CFG r) v).setRing r { s.ring r with dead := false }).rdB (Reg.HQ_RING_CFG r) 31 = false :=
    (mergeWord_ringCfg_en s r v).trans hoff
  refine ⟨_, (congrArg Host.Outcome.next (exec_atReg ha _)).trans (congrArg Host.Outcome.next he), hen, ?_, ?_⟩
  · rw [State.running, State.ring_setRing_self]
    rfl
  · rw [State.mayFetch, hen]
    rfl

/-- The state in which a fetched entry runs. -/
def fetched (s : State) (r : Nat) (entry : BitVec 512) : State :=
  ((s.wrF (Reg.HQ_RING_STAT r) 20 12 ((s.rdF (Reg.HQ_RING_STAT r) 20 12 + 1) % s.sqSize r)).wrB (Reg.HQ_RING_STAT r) 0 false).setRing r
    { s.ring r with running := some entry, turn := (s.rings.map (fun e => e.2.turn)).foldl max 0 + 1 }

theorem fetched_running (s : State) (r : Nat) (entry : BitVec 512) : (fetched s r entry).running r = some (SubEntry.mk entry) := by
  rw [fetched, State.running, State.ring_setRing_self]
  rfl

theorem rd_setRing (s : State) (r : Nat) (x : Ring) (k : Nat) : (s.setRing r x).rd k = s.rd k := rfl

theorem fetched_head (s : State) (r : Nat) (entry : BitVec 512) : (fetched s r entry).rdF (Reg.HQ_RING_STAT r) 20 12 =
    (s.rdF (Reg.HQ_RING_STAT r) 20 12 + 1) % s.sqSize r % 4096 := by
  unfold fetched
  rw [State.rdF_congr (rd_setRing ..), State.rdF_wrB_ne _ _ (by decide) fun _ => .inr (by decide), State.rdF_wrF_self _ _ _ _ _ (by decide)]
  norm_num

theorem exec_submissionFetch {s : State} {r : Fin 16} (h : s.mayFetch r = true) (entry : BitVec 512) : exec (.submissionFetch r entry) s =
    .next (if opAssigned (SubEntry.mk entry).opcode then fetched s r entry else (fetched s r entry).complete r stInvalidOpcode) :=
  congrArg Host.Outcome.next (if_neg (by rw [h]; decide))

/-- A fetch that fails stops the ring (R333). -/
theorem fetchError_results {s : State} {r : Fin 16} (h : s.mayFetch r = true) :
    ∃ t, exec (.fetchError r) s = .next t ∧ t.rdB (Reg.HQ_RING_STAT r) 2 = true ∧ t.mayFetch r = false := by
  refine ⟨(s.wrB (Reg.HQ_RING_STAT r) 2 true).setRing r { s.ring r with dead := true }, congrArg Host.Outcome.next (if_pos h), ?_, ?_⟩
  · exact State.rdB_wrB_self s _ (by decide) true
  · have hd : (((s.wrB (Reg.HQ_RING_STAT r) 2 true).setRing r { s.ring r with dead := true }).ring r).dead = true := by
      rw [State.ring_setRing_self]
    rw [State.mayFetch, hd]
    simp

/-- The coalescing timer (R346). -/
theorem coalesce_results {s : State} {r : Fin 16} (hw : 0 < (s.ring r).waiting) (ht : s.rdF (Reg.HQ_RING_STAT r) 8 8 ≠ 0) :
    let v : BitVec 6 := field (s.rd (Reg.HQ_RING_CFG r)) 8 6
    ∃ t, exec (.coalesceTimerExpiry r) s = .next t ∧ (t.ring r).waiting = 0 ∧
      (s.vecMasked v = false → t.out = s.out ++ [.msix v (s.rd64 (Reg.msix v.toNat 0)) (s.rd (Reg.msix v.toNat 2))]) ∧
      (s.vecMasked v = true → t.out = s.out ∧ t.rdB (Reg.msixPba v.toNat) (v.toNat % 32) = true) := by
  let u := s.setRing r { s.ring r with waiting := 0 }
  refine ⟨s.ringIrq r, congrArg Host.Outcome.next (if_pos ⟨hw, ht⟩), ?_, fun hm => ?_, fun hm => ?_⟩
  · rw [State.ringIrq_ring, if_pos rfl]
  · exact congrArg State.out (State.raise_of_unmasked (s := u) hm)
  · have e : s.ringIrq r = _ := State.raise_of_masked (s := u) hm
    rw [e]
    exact ⟨rfl, State.rdB_wrB_self _ _ (Nat.mod_lt _ (by decide)) _⟩

/-- Settles O28: the doorbells, the configuration word, fetching and the timer, each by its lemma. -/
theorem ringResults : Obligations.RingResults := by
  unfold Obligations.RingResults
  intro s r
  refine ⟨fun m v ha => (sqTailWrite_results s r m v ha).1, fun m v ha => (sqTailWrite_results s r m v ha).2,
    fun m v ha hh => cqHeadWrite_results m v ha hh, fun m v ha h0 h1 hs => ringEnable_results m v ha h0 h1 hs,
    fun m v ha h1 h0 => ringDisable_results m v ha h1 h0, fun entry hm ho => ?_, fun entry hm ho => ?_, fetchError_results,
    fun hw ht => coalesce_results hw ht, readReg_ringStat_full s r, fetchWaits_mayFetch, fun e hrun => ?_⟩
  · rw [exec_submissionFetch hm, if_pos ho]
    exact ⟨_, rfl, fetched_running s r entry, fetched_head s r entry, rfl⟩
  · rw [exec_submissionFetch hm, if_neg (by rw [ho]; decide)]
    exact ⟨_, rfl, fetched_running s r entry⟩
  · exact ⟨congrArg Host.Outcome.next (onRing_of_runs hrun _), rfl⟩

end Sys2Proof.Machine
end

section
/-!
PROOF. O22 and O23: register accesses, their violations, the latch and the MSI-X table (R319, R324 to R329, R345).
-/

namespace Sys2Proof.Machine
open Sys2Proof.Claims

namespace State

/-! Violations (R325, R329). -/

theorem onlyRegs_violation (s : State) (kind : Nat) (m : Master) (off : Nat) :
    OnlyRegs s (s.violation kind m off) [Reg.ERR_ACCESS, Reg.ERR_ACCESS_INFO] := by
  unfold violation
  dsimp only
  split
  · exact onlyRegs_count s List.mem_cons_self 1
  · exact onlyRegs_trans (onlyRegs_count s List.mem_cons_self 1) (onlyRegs_wr _ (List.mem_cons_of_mem _ List.mem_cons_self) _)

theorem violation_count (s : State) (kind : Nat) (m : Master) (off : Nat) :
    (s.violation kind m off).rd Reg.ERR_ACCESS = satInc (s.rd Reg.ERR_ACCESS) := by
  unfold violation
  dsimp only
  split
  · exact count_rd_self ..
  · rw [rd_wr_ne _ _ (by decide), count_rd_self]

theorem violation_held {s : State} (h : s.rdB Reg.ERR_ACCESS_INFO 31 = true) (kind : Nat) (m : Master) (off : Nat) :
    (s.violation kind m off).rd Reg.ERR_ACCESS_INFO = s.rd Reg.ERR_ACCESS_INFO := by
  unfold violation
  dsimp only
  rw [if_pos h, count_rd_ne _ _ (by decide)]

theorem violation_captured {s : State} (h : s.rdB Reg.ERR_ACCESS_INFO 31 = false) {kind : Nat} (hk : kind < 8) (m : Master) (off : BitVec 25) :
    let w := (s.violation kind m off.toNat).rd Reg.ERR_ACCESS_INFO
    fieldNat w 28 4 = 8 + kind ∧ fieldNat w 26 2 = masterNum m ∧ fieldNat w 0 25 = off.toNat := by
  have hm : masterNum m < 4 := by cases m <;> decide
  have ho := off.isLt
  unfold violation
  dsimp only
  rw [if_neg (by rw [h]; decide), rd_wr_self]
  refine ⟨?_, ?_, ?_⟩ <;> rw [fieldNat_ofNat _ (by decide)] <;> omega

end State

/-- What a violation of kind `k` reports. -/
def Counted (s : State) (m : Master) (off : BitVec 25) (k : Nat) (t : State) : Prop :=
  t.rd Reg.ERR_ACCESS = satInc (s.rd Reg.ERR_ACCESS) ∧
  (s.rdB Reg.ERR_ACCESS_INFO 31 = false → fieldNat (t.rd Reg.ERR_ACCESS_INFO) 28 4 = 8 + k ∧
    fieldNat (t.rd Reg.ERR_ACCESS_INFO) 26 2 = masterNum m ∧ fieldNat (t.rd Reg.ERR_ACCESS_INFO) 0 25 = off.toNat) ∧
  (s.rdB Reg.ERR_ACCESS_INFO 31 = true → t.rd Reg.ERR_ACCESS_INFO = s.rd Reg.ERR_ACCESS_INFO)

theorem counted_violation (s : State) (m : Master) (off : BitVec 25) {k : Nat} (hk : k < 8) :
    Counted s m off k (s.violation k m off.toNat) :=
  ⟨State.violation_count s k m off.toNat, fun h => State.violation_captured h hk m off, fun h => State.violation_held h k m off.toNat⟩

theorem abortKind_lt {off k : Nat} {w : Width} (h : abortKind off w = some k) : k < 8 := by
  unfold abortKind at h
  split at h
  · cases h; decide
  · split at h
    · cases h; decide
    · cases h

theorem writeAccess_abort {s : State} {off k : Nat} {w : Width} (h : abortKind off w = some k) (m : Master) (v : DWord) :
    s.writeAccess m off w v = (s.violation k m off).emit (.abort m) := by
  unfold State.writeAccess
  rw [h]

theorem readAccess_abort {s : State} {off k : Nat} {w : Width} (h : abortKind off w = some k) (m : Master) :
    s.readAccess m off w = (s.violation k m off).emit (.abort m) := by
  rw [State.readAccess, h]

theorem abortKind_b32 {off : Nat} (h : off % 4 = 0) : abortKind off .b32 = none := by
  unfold abortKind widthBytes
  simp [h]

theorem writeAccess_b32 {off : Nat} (h : off % 4 = 0) (s : State) (m : Master) (v : DWord) :
    s.writeAccess m off .b32 v = s.writeReg m off (v.extractLsb' 0 32) := by
  rw [State.writeAccess, abortKind_b32 h]
  rfl

/-- An aborted access is reported and drives its abort, and that is all. -/
theorem aborted (s : State) (m : Master) (off : BitVec 25) {k : Nat} (hk : k < 8) : let t := (s.violation k m off.toNat).emit (.abort m)
    t = { s with regs := t.regs, out := s.out ++ [.abort m] } ∧ Counted s m off k t ∧
      ∀ j, j ∉ [Reg.ERR_ACCESS, Reg.ERR_ACCESS_INFO] → t.rd j = s.rd j := by
  obtain ⟨hs, hrd⟩ := State.onlyRegs_violation s k m off.toNat
  refine ⟨?_, counted_violation s m off hk, hrd⟩
  unfold State.emit
  rw [hs]

/-- An access without effect is reported, and that is all. -/
theorem reported (s : State) (m : Master) (off : BitVec 25) {k : Nat} (hk : k < 8) : let t := s.violation k m off.toNat
    t = { s with regs := t.regs } ∧ Counted s m off k t ∧ ∀ j, j ∉ [Reg.ERR_ACCESS, Reg.ERR_ACCESS_INFO] → t.rd j = s.rd j :=
  ⟨(State.onlyRegs_violation s k m off.toNat).1, counted_violation s m off hk, (State.onlyRegs_violation s k m off.toNat).2⟩

/-- Which accesses abort (R325). -/
theorem abortKind_results (off : Nat) :
    abortKind off .wider = some 1 ∧ (pairLow off = false → abortKind off .b64 = some 1) ∧
    (off % 8 ≠ 0 → abortKind off .b64 ≠ none) ∧ (off % 4 ≠ 0 → abortKind off .b64 = some 1) ∧
    (off % 4 ≠ 0 → abortKind off .b32 = some 2) ∧
    (off % 2 ≠ 0 → abortKind off .b16 = some 2) ∧ abortKind off .b8 = none ∧ (off % 4 = 0 → abortKind off .b32 = none) ∧
    (pairLow off = true → off % 8 = 0 → abortKind off .b64 = none) := by
  have hwide (h : pairLow off = false) : abortKind off .b64 = some 1 := by simp [abortKind, h, kWide]
  refine ⟨by simp [abortKind, kWide], hwide, fun h => ?_, fun h => hwide ?_, fun h => ?_, fun h => ?_, ?_, abortKind_b32, fun hp h => ?_⟩
  · cases hp : pairLow off
    · rw [hwide hp]; exact fun e => by cases e
    · simp [abortKind, widthBytes, hp, h]
  · unfold pairLow
    split <;> simp [h]
  · simp [abortKind, widthBytes, h, kUnaligned]
  · simp only [abortKind, widthBytes]
    simp [h, kUnaligned]
  · simp [abortKind, widthBytes, Nat.mod_one]
  · simp [abortKind, widthBytes, hp, h]

/-- Settles O23: every access that breaks a rule is one violation, `aborted` or `reported`. -/
theorem accessViolations : Obligations.AccessViolations := by
  unfold Obligations.AccessViolations
  refine ⟨fun s m off v => ⟨fun w wr k h => ?_, fun w k h => ?_, fun w hw h hat => ?_, fun row h hat hp hno h4 => ?_, fun hat h4 => ?_⟩,
    abortKind_results⟩
  · refine ⟨(s.violation k m off.toNat).emit (.abort m), ?_, aborted s m off (abortKind_lt h)⟩
    change Host.Outcome.next (if wr then s.writeAccess m off.toNat w v else s.readAccess m off.toNat w) = _
    rw [writeAccess_abort h, readAccess_abort h, ite_self]
  · refine ⟨(s.violation k m off.toNat).emit (.abort m), ?_, aborted s m off (abortKind_lt h)⟩
    change Host.Outcome.next (s.writeAccess m off.toNat w v) = _
    rw [writeAccess_abort h]
  · refine ⟨s.violation kNarrow m off.toNat, ?_, reported s m off (k := 0) (by decide)⟩
    obtain ⟨x, hx⟩ := Option.isSome_iff_exists.mp hat
    simp only [List.mem_cons, List.not_mem_nil, or_false] at hw
    have he : s.writeAccess m off.toNat w v = s.violation kNarrow m off.toNat := by
      rcases hw with rfl | rfl <;>
      · unfold State.writeAccess
        rw [h]
        dsimp only
        rw [hx]
    exact congrArg Host.Outcome.next he
  · refine ⟨s.violation kPriv m off.toNat, ?_, reported s m off (k := 3) (by decide)⟩
    change Host.Outcome.next (s.writeAccess m off.toNat .b32 v) = _
    rw [writeAccess_b32 h4, State.writeReg, hat]
    dsimp only
    rw [hp, hno]
    rfl
  · refine ⟨s.violation kUnmapped m off.toNat, ?_, reported s m off (k := 5) (by decide)⟩
    change Host.Outcome.next (s.writeAccess m off.toNat .b32 v) = _
    rw [writeAccess_b32 h4, State.writeReg, hat]

/-! Writes and reads of a register without a rule of its own (R8, R324 to R327). -/

theorem writeReg_of_row {s : State} {m : Master} {off : Nat} {row : RegRow} {h : Nat} (hat : regAt off = some (row, h))
    (hp : row.priv = true → s.privileged m = true) (ha : s.answers off = true) (v : Word) : s.writeReg m off v = s.writeWord m off v := by
  have hno : (row.priv && !s.privileged m) = false := by
    cases hpriv : row.priv
    · rfl
    · rw [hp hpriv]; rfl
  rw [State.writeReg, hat]
  dsimp only
  rw [hno, ha]
  rfl

theorem mergeWord_of_row {off : Nat} {row : RegRow} {h : Nat} (hat : regAt off = some (row, h)) (s : State) (v : Word) :
    s.mergeWord off v = s.wr (s.wordKey off) (mergeWrite (row.rwMask h) (row.w1cMask h) (s.rd (s.wordKey off)) v) := by
  rw [State.mergeWord, hat]

theorem abortKind_pair {off : Nat} {row : RegRow} (hat : regAt off = some (row, 0)) (hp : row.pair = true) (h8 : off % 8 = 0) :
    pairLow off = true ∧ abortKind off .b64 = none := by
  have hlow : pairLow off = true := by
    rw [pairLow, hat]
    simp [hp, show off % 4 = 0 by omega]
  exact ⟨hlow, (abortKind_results off).2.2.2.2.2.2.2.2 hlow h8⟩

theorem registerWrite_results {s : State} {m : Master} {off : BitVec 25} {row : RegRow} {h : Nat} (v : BitVec 64)
    (hat : regAt off.toNat = some (row, h)) (hp : row.priv = true → s.privileged m = true) (ha : s.answers off.toNat = true)
    (h4 : off.toNat % 4 = 0) (hl : s.writeLow m off.toNat (v.extractLsb' 0 32) = none) (hh : s.writeHigh m off.toNat (v.extractLsb' 0 32) = none) :
    ∃ t, exec (.registerWrite m ⟨false, off⟩ .b32 v) s = .next t ∧ OnlyRegs s t [s.wordKey off.toNat] ∧
      t.rd (s.wordKey off.toNat) = mergeWrite (row.rwMask h) (row.w1cMask h) (s.rd (s.wordKey off.toNat)) (v.extractLsb' 0 32) := by
  refine ⟨s.mergeWord off.toNat (v.extractLsb' 0 32), ?_, ?_⟩
  · change Host.Outcome.next (s.writeAccess m off.toNat .b32 v) = _
    rw [writeAccess_b32 h4, writeReg_of_row hat hp ha, State.writeWord, hl, hh]
    rfl
  · rw [mergeWord_of_row hat]
    exact ⟨onlyRegs_wr _ List.mem_cons_self _, State.rd_wr_self ..⟩

theorem pairWrite_eq {s : State} {m : Master} {off : BitVec 25} {row : RegRow} (v : BitVec 64) (hat : regAt off.toNat = some (row, 0))
    (hp : row.pair = true) (h8 : off.toNat % 8 = 0) : exec (.registerWrite m ⟨false, off⟩ .b64 v) s =
      .next ((s.writeReg m off.toNat (v.extractLsb' 0 32)).writeHighWord s m (off.toNat + 4) (v.extractLsb' 32 32)) := by
  change Host.Outcome.next (s.writeAccess m off.toNat .b64 v) = _
  rw [State.writeAccess, (abortKind_pair hat hp h8).2]
  rfl

/-- The high word of a counted access adds no count (R325). -/
theorem writeHighWord_counted {s t : State} (h : t.rd Reg.ERR_ACCESS ≠ s.rd Reg.ERR_ACCESS) (m : Master) (off : Nat) (v : Word) :
    let u := t.writeHighWord s m off v
    OnlyRegs (t.writeReg m off v) u [Reg.ERR_ACCESS, Reg.ERR_ACCESS_INFO] ∧ u.rd Reg.ERR_ACCESS = t.rd Reg.ERR_ACCESS ∧
      u.rd Reg.ERR_ACCESS_INFO = t.rd Reg.ERR_ACCESS_INFO := by
  unfold State.writeHighWord
  dsimp only
  rw [if_neg h]
  refine ⟨onlyRegs_trans (onlyRegs_wr _ List.mem_cons_self _) (onlyRegs_wr _ (List.mem_cons_of_mem _ List.mem_cons_self) _), ?_, ?_⟩
  · rw [State.rd_wr_ne _ _ (by decide), State.rd_wr_self]
  · exact State.rd_wr_self ..

theorem latch_setLatch (s : State) (m : Master) (l : Latch) : (s.setLatch m l).latch m = l := SMap.get_set_self ..

theorem latch_emit (s : State) (o : Out) (m : Master) : (s.emit o).latch m = s.latch m := rfl

/-- A read that latches (R326). -/
theorem lowWordRead_results (s : State) (m : Master) {off : BitVec 25} {row : RegRow} (hat : regAt off.toNat = some (row, 0))
    (hp : row.pair = true) (h8 : off.toNat % 8 = 0) (hpriv : row.priv = false) :
    (∃ t, exec (.lowWordRead m ⟨false, off⟩ .b32) s = .next t ∧ t = { s with latches := t.latches, out := t.out } ∧
      t.out = s.out ++ [.readData m (bytesOf 4 (s.readLatched m off.toNat))] ∧
      t.latch m = { low := some off.toNat, word := s.readable m (off.toNat + 4) }) ∧
    (∃ t, exec (.lowWordRead m ⟨false, off⟩ .b64) s = .next t ∧ t = { s with latches := t.latches, out := t.out } ∧
      t.out = s.out ++ [.readData m (bytesOf 4 (s.readable m off.toNat) ++ bytesOf 4 (s.readable m (off.toNat + 4)))]) := by
  obtain ⟨hlow, hnone⟩ := abortKind_pair hat hp h8
  have hcount : s.countRead m (off.toNat - off.toNat % 4) = s := by
    rw [show off.toNat - off.toNat % 4 = off.toNat by omega, State.countRead, hat]
    dsimp only
    rw [hpriv]
    rfl
  have h32 : s.readAccess m off.toNat .b32 = (s.setLatch m { low := some off.toNat, word := s.readable m (off.toNat + 4) }).emit
      (.readData m (bytesOf 4 (s.readLatched m off.toNat))) := by
    rw [State.readAccess, abortKind_b32 (by omega)]
    dsimp only
    rw [hcount, hlow]
    rfl
  have h64 : s.readAccess m off.toNat .b64 = (s.setLatch m { low := some off.toNat, word := s.readable m (off.toNat + 4) }).emit
      (.readData m (bytesOf 4 (s.readable m off.toNat) ++ bytesOf 4 (s.readable m (off.toNat + 4)))) := by
    rw [State.readAccess, hnone]
    dsimp only
    rw [hcount]
  exact ⟨⟨_, congrArg Host.Outcome.next h32, rfl, rfl, by rw [latch_emit, latch_setLatch]⟩, ⟨_, congrArg Host.Outcome.next h64, rfl, rfl⟩⟩

/-! The MSI-X table (R319, R345). -/

theorem msix_ne_pba {n i k : Nat} (hn : n < 64) (hi : i < 4) : Reg.msix n i ≠ Reg.msixPba k := by
  unfold Reg.msix Reg.msixPba Reg.bar2
  omega

/-- What a word of the table holds of a write: addresses are words, and of the control word the mask bit alone. -/
def msixWord (i : Nat) (w : Word) : Word := if i = 0 then w &&& 0xFFFF_FFFC else if i = 3 then w &&& 1 else w

theorem ofNat6_toNat (n : Fin 64) : (BitVec.ofNat 6 n.val).toNat = n.val := by
  rw [BitVec.toNat_ofNat]
  exact Nat.mod_eq_of_lt n.isLt

theorem writeBar2Word_msix (s : State) (n : Fin 64) (i : Fin 4) (w : Word) : s.writeBar2Word (0x1_0000 + 16 * n.val + 4 * i.val) w =
    if s.rdB (Reg.msixPba n) (n.val % 32) && !(s.wr (Reg.msix n i) (msixWord i w)).vecMasked (BitVec.ofNat 6 n.val) then
      ((s.wr (Reg.msix n i) (msixWord i w)).wrB (Reg.msixPba n) (n.val % 32) false).sendVector (BitVec.ofNat 6 n.val)
    else s.wr (Reg.msix n i) (msixWord i w) := by
  have hn := n.isLt
  have hi := i.isLt
  have hvec : BitVec.ofNat 6 ((0x1_0000 + 16 * n.val + 4 * i.val) / 16) = BitVec.ofNat 6 n.val := by
    apply BitVec.eq_of_toNat_eq
    rw [BitVec.toNat_ofNat, BitVec.toNat_ofNat]
    omega
  have hword : (0x1_0000 + 16 * n.val + 4 * i.val) / 4 % 4 = i.val := by omega
  unfold State.writeBar2Word
  rw [if_pos (by omega), hvec, hword]
  dsimp only
  rw [ofNat6_toNat]
  rfl

/-- A vector that is sent. -/
theorem sendVector_out (s : State) (n : Fin 64) : (s.sendVector (BitVec.ofNat 6 n.val)).out =
    s.out ++ [.msix (BitVec.ofNat 6 n.val) (s.rd64 (Reg.msix n 0)) (s.rd (Reg.msix n 2))] := by
  unfold State.sendVector
  rw [ofNat6_toNat]
  rfl

theorem vecMasked_eq (s : State) (n : Fin 64) : s.vecMasked (BitVec.ofNat 6 n.val) = s.rdB (Reg.msix n 3) 0 := by
  rw [State.vecMasked, ofNat6_toNat]

/-- What a write of a word of the table leaves (R345): nothing else changes, and a vector that waits and is not masked is sent. -/
def MsixWritten (s : State) (n : Fin 64) (i : Fin 4) (w : Word) (t : State) : Prop :=
  t = { s with regs := t.regs, out := t.out } ∧ (∀ k, k ∉ [Reg.msix n i, Reg.msixPba n] → t.rd k = s.rd k) ∧
  t.rd (Reg.msix n i) = msixWord i w ∧
  (s.rdB (Reg.msixPba n) (n.val % 32) = true → t.rdB (Reg.msix n 3) 0 = false → t.rdB (Reg.msixPba n) (n.val % 32) = false ∧
    t.out = s.out ++ [.msix (BitVec.ofNat 6 n.val) (t.rd64 (Reg.msix n 0)) (t.rd (Reg.msix n 2))]) ∧
  (s.rdB (Reg.msixPba n) (n.val % 32) = false ∨ t.rdB (Reg.msix n 3) 0 = true → t.rd (Reg.msixPba n) = s.rd (Reg.msixPba n) ∧ t.out = s.out)

theorem msixWritten_quiet {s : State} {n : Fin 64} {i : Fin 4} {w : Word}
    (h : s.rdB (Reg.msixPba n) (n.val % 32) = false ∨ (s.wr (Reg.msix n i) (msixWord i w)).rdB (Reg.msix n 3) 0 = true) :
    MsixWritten s n i w (s.wr (Reg.msix n i) (msixWord i w)) := by
  refine ⟨rfl, fun k hk => State.rd_wr_ne _ _ fun e => hk (e ▸ List.mem_cons_self), State.rd_wr_self .., fun hw hm => ?_, fun _ =>
    ⟨State.rd_wr_ne _ _ (msix_ne_pba n.isLt i.isLt).symm, rfl⟩⟩
  rcases h with h | h
  · rw [h] at hw; cases hw
  · rw [h] at hm; cases hm

theorem msixWritten_sent {s : State} {n : Fin 64} {i : Fin 4} {w : Word} (hw : s.rdB (Reg.msixPba n) (n.val % 32) = true)
    (hm : (s.wr (Reg.msix n i) (msixWord i w)).rdB (Reg.msix n 3) 0 = false) :
    MsixWritten s n i w (((s.wr (Reg.msix n i) (msixWord i w)).wrB (Reg.msixPba n) (n.val % 32) false).sendVector (BitVec.ofNat 6 n.val)) := by
  obtain ⟨t, ht⟩ : ∃ t, s.wr (Reg.msix n i) (msixWord i w) = t := ⟨_, rfl⟩
  obtain ⟨u, hu⟩ : ∃ u, t.wrB (Reg.msixPba n) (n.val % 32) false = u := ⟨_, rfl⟩
  have hframe : u = { s with regs := u.regs } := by rw [← hu, ← ht]; rfl
  have htable {j : Nat} (hj : j < 4) : u.rd (Reg.msix n j) = t.rd (Reg.msix n j) := by
    rw [← hu, State.wrB_rd_ne _ _ _ (msix_ne_pba n.isLt hj)]
  have hmask : u.rdB (Reg.msix n 3) 0 = false := by
    rw [ht] at hm
    rw [State.rdB_congr (htable (by decide)), hm]
  rw [ht, hu]
  refine ⟨?_, fun k hk => ?_, ?_, fun _ _ => ⟨?_, ?_⟩, fun h => ?_⟩
  · rw [State.sendVector, hframe]; rfl
  · simp only [List.mem_cons, List.not_mem_nil, or_false, not_or] at hk
    change u.rd k = _
    rw [← hu, State.wrB_rd_ne _ _ _ hk.2, ← ht, State.rd_wr_ne _ _ hk.1]
  · change u.rd _ = _
    rw [htable i.isLt, ← ht, State.rd_wr_self]
  · change u.rdB _ _ = _
    rw [← hu, State.rdB_wrB_self _ _ (Nat.mod_lt _ (by decide))]
  · rw [sendVector_out, hframe]
    rfl
  · change _ ∨ u.rdB _ _ = _ at h
    rw [hw, hmask] at h
    simp at h

/-- A word of the MSI-X table is written (R319, R345). -/
theorem msixWritten_exec (s : State) (n : Fin 64) (i : Fin 4) (v : BitVec 64) :
    ∃ t, exec (.registerWrite .f0 ⟨true, BitVec.ofNat 25 (0x1_0000 + 16 * n.val + 4 * i.val)⟩ .b32 v) s = .next t ∧
      MsixWritten s n i (v.extractLsb' 0 32) t := by
  have hn := n.isLt
  have hi := i.isLt
  have hoff : (BitVec.ofNat 25 (0x1_0000 + 16 * n.val + 4 * i.val)).toNat = 0x1_0000 + 16 * n.val + 4 * i.val := by
    rw [BitVec.toNat_ofNat]; omega
  have he : exec (.registerWrite .f0 ⟨true, BitVec.ofNat 25 (0x1_0000 + 16 * n.val + 4 * i.val)⟩ .b32 v) s =
      .next (s.writeBar2Word (0x1_0000 + 16 * n.val + 4 * i.val) (v.extractLsb' 0 32)) := by
    change Host.Outcome.next (s.writeBar2 _ .b32 v) = _
    rw [hoff, State.writeBar2, if_pos (by omega)]
    rfl
  rw [he, writeBar2Word_msix, vecMasked_eq]
  refine ⟨_, rfl, ?_⟩
  split
  next h =>
    simp only [Bool.and_eq_true, Bool.not_eq_true'] at h
    exact msixWritten_sent h.1 h.2
  next h =>
    refine msixWritten_quiet ?_
    cases hw : s.rdB (Reg.msixPba n) (n.val % 32)
    · exact .inl rfl
    · rw [hw] at h
      simpa using h

/-- A word of the table is read. -/
theorem msixRead (s : State) (n : Fin 64) (i : Fin 4) :
    exec (.lowWordRead .f0 ⟨true, BitVec.ofNat 25 (0x1_0000 + 16 * n.val + 4 * i.val)⟩ .b32) s =
      .next (s.emit (.readData .f0 (bytesOf 4 (s.rd (Reg.msix n i))))) := by
  have hn := n.isLt
  have hi := i.isLt
  have hoff : (BitVec.ofNat 25 (0x1_0000 + 16 * n.val + 4 * i.val)).toNat = 0x1_0000 + 16 * n.val + 4 * i.val := by
    rw [BitVec.toNat_ofNat]; omega
  change Host.Outcome.next (s.readBar2 _ .b32) = _
  rw [hoff, State.readBar2, if_neg (by omega)]
  refine congrArg (fun bs => Host.Outcome.next (s.emit (.readData .f0 bs))) ?_
  refine List.map_congr_left fun j hj => ?_
  have hj4 : j < 4 := List.mem_range.mp hj
  have hrem : (0x1_0000 + 16 * n.val + 4 * i.val + j) % 4 = j := by omega
  rw [hrem, Nat.add_sub_cancel]
  rfl

/-- Raising a vector (R345). -/
theorem raise_results (s : State) (v : BitVec 6) :
    (s.rdB (Reg.msix v.toNat 3) 0 = false →
      s.raise v = { s with out := s.out ++ [.msix v (s.rd64 (Reg.msix v.toNat 0)) (s.rd (Reg.msix v.toNat 2))] }) ∧
    (s.rdB (Reg.msix v.toNat 3) 0 = true → OnlyRegs s (s.raise v) [Reg.msixPba v.toNat] ∧
      (s.raise v).rdB (Reg.msixPba v.toNat) (v.toNat % 32) = true) := by
  refine ⟨fun h => State.raise_of_unmasked h, fun h => ?_⟩
  rw [State.raise_of_masked h]
  exact ⟨onlyRegs_wrB _ List.mem_cons_self _ _, State.rdB_wrB_self _ _ (Nat.mod_lt _ (by decide)) _⟩

/-- Settles O22: the plain write, the pair, the latch, and the MSI-X table. -/
theorem registerAccessResults : Obligations.RegisterAccessResults := by
  unfold Obligations.RegisterAccessResults
  refine ⟨fun s m off v row h hat hp ha => ⟨fun h4 hl hh => registerWrite_results v hat hp ha h4 hl hh, fun h8 hpair h0 => ?_⟩,
    fun s m off row hat hp h8 hpriv => ?_, fun s n i v => ⟨msixWritten_exec s n i v, msixRead s n i⟩,
    fun s m off w v hm => ⟨?_, ?_⟩, raise_results⟩
  · subst h0
    rw [pairWrite_eq v hat hpair h8]
    refine ⟨fun e => congrArg Host.Outcome.next (if_pos e), fun e => ⟨_, rfl, writeHighWord_counted e m _ _⟩⟩
  · obtain ⟨h32, h64⟩ := lowWordRead_results s m hat hp h8 hpriv
    refine ⟨h32, fun u hu => if_pos ⟨Nat.le_add_left 4 _, hu⟩, h64, fun ha => ?_⟩
    rw [State.readable, hat]
    dsimp only
    rw [hpriv, ha]
    rfl
  · exact congrArg Host.Outcome.next (if_neg hm)
  · exact congrArg Host.Outcome.next (if_neg hm)

end Sys2Proof.Machine
end

section
/-!
PROOF. O24: thermal samples, the throttle steps and the fixed trips (R20, R34, R402 to R404).
-/

namespace Sys2Proof.Machine
open Sys2Proof.Claims

/-! The stop of the array under a request from outside the array (R202, R203). -/

theorem requested_iff {s : State} {cause : Nat} {src : HoldSrc} :
    s.requested cause src = true ↔ ∃ r ∈ s.hold.reqs, r.cause = cause ∧ r.src = src := by
  simp [State.requested]

theorem requested_requestHold (s : State) (cause : Nat) (src : HoldSrc) (cancel : Bool) :
    (s.requestHold cause src cancel).requested cause src = true := by
  cases h : s.requested cause src
  · rw [requested_iff, requestHold_hold h]
    refine ⟨{ cause := cause, src := src, cancel := cancel, cyc := s.cycleIndex }, ?_, rfl, rfl⟩
    unfold State.heldBy
    dsimp only
    split <;> exact List.mem_append_right _ List.mem_cons_self
  · rw [State.requestHold, if_pos h, h]

theorem setPicot_hold (s : State) (p : Nat) (x : Picot) : (s.setPicot p x).hold = s.hold := rfl

theorem trace_hold (s : State) (loc : At) (event detail pc : Nat) : (s.trace loc event detail pc).hold = s.hold := by
  unfold State.trace
  dsimp only
  split
  · exact setPicot_hold ..
  · rfl

theorem traceHold_hold (s : State) (event : Nat) : (s.traceHold event).hold = s.hold := by
  unfold State.traceHold State.eachPicot
  exact foldl_leaves State.hold _ _ s fun t p _ => trace_hold ..

theorem rewindAdapt_hold (s : State) (x : Snap) (flipped : Bool) : (s.rewindAdapt x flipped).hold = s.hold := by
  unfold State.rewindAdapt
  dsimp only
  split
  · rfl
  · split <;> rfl

/-- A request from outside the array outlasts the return to the hold point. -/
theorem rewindReqs_requested {s : State} {cause : Nat} (x : Snap) (h : s.requested cause .legend = true) :
    (s.rewindReqs x).requested cause .legend = true := by
  obtain ⟨r, hr, hcause, hsrc⟩ := requested_iff.mp h
  have hmem : r ∈ s.hold.reqs.filter (fun r =>
      match r.src with
      | .picotDq _ _ => decide (r.cyc ≤ x.core.round.toNat * 64 + x.core.cycle)
      | .picotTq _ _ => decide (r.cyc ≤ x.core.round.toNat * 64 + x.core.cycle)
      | _ => true) := List.mem_filter.mpr ⟨hr, by rw [hsrc]⟩
  rw [requested_iff]
  unfold State.rewindReqs
  dsimp only
  rw [if_neg fun hc => List.ne_nil_of_mem hmem hc.1]
  exact ⟨r, hmem, hcause, hsrc⟩

theorem ebStatus_hold (s : State) : s.ebStatus.hold = s.hold := rfl

theorem restore_requested {s : State} {cause : Nat} (x : Snap) (n : Nat) (h : s.requested cause .legend = true) :
    (s.restore x n).requested cause .legend = true := by
  unfold State.restore
  refine rewindReqs_requested x ?_
  unfold State.requested
  rw [rewindAdapt_hold, ebStatus_hold]
  exact h

theorem enterStop_requested {s : State} {cause : Nat} (h : s.requested cause .legend = true) :
    s.enterStop.requested cause .legend = true ∧ s.enterStop.hold.stopped = true := by
  unfold State.enterStop
  dsimp only
  rw [State.requested, traceHold_hold]
  refine ⟨?_, rfl⟩
  change State.requested _ cause .legend = true
  split
  · exact h
  · exact restore_requested _ _ h
  · exact h

theorem stopNow_requested (s : State) (cause : Nat) :
    (s.stopNow cause .legend).requested cause .legend = true ∧ (s.stopNow cause .legend).hold.stopped = true :=
  enterStop_requested (requested_requestHold ..)

/-! The steps (R20, R34, R403). -/

/-- The request by which a step change holds the array. -/
def stepHold (s : State) : State := if s.hold.stopped then s.requestHold 5 .legend false else s.stopNow 5 .legend

theorem stepHold_held (s : State) : (stepHold s).requested 5 .legend = true ∧ (stepHold s).hold.stopped = true := by
  unfold stepHold
  split
  next h =>
    refine ⟨requested_requestHold .., ?_⟩
    cases hr : s.requested 5 .legend
    · rw [requestHold_hold hr, State.heldBy]
      dsimp only
      rw [if_pos h]
      exact h
    · rw [State.requestHold, if_pos hr, h]
  next => exact stopNow_requested s 5

/-- The registers that a step change writes as it begins. -/
def stepRegs (s : State) (n : Nat) : State := ((s.wrF Reg.GLB_CLK_STATUS 0 4 (n + 4)).wrB Reg.HLT_STATUS 1 true).wrB Reg.HLT_STATUS 0 false

theorem stepRegs_clk (s : State) (n : Nat) : (stepRegs s n).rd Reg.GLB_CLK_STATUS = putField (s.rd Reg.GLB_CLK_STATUS) 0 4 (n + 4) := by
  unfold stepRegs
  rw [State.wrB_rd_ne _ _ _ (by decide), State.wrB_rd_ne _ _ _ (by decide), State.wrF_rd, if_pos rfl]

theorem putField_clk (w : Word) {n : Nat} (h : n < 4) : fieldNat (putField w 0 4 (n + 4)) 0 2 = n ∧ bit (putField w 0 4 (n + 4)) 2 = true := by
  have h4 : fieldNat (putField w 0 4 (n + 4)) 0 4 = n + 4 := by
    rw [fieldNat_putField_self _ _ _ _ (by decide), Nat.mod_eq_of_lt (by omega)]
  refine ⟨?_, ?_⟩
  · have h2 : fieldNat (putField w 0 4 (n + 4)) 0 2 = fieldNat (putField w 0 4 (n + 4)) 0 4 % 4 := by
      simp only [fieldNat, BitVec.extractLsb'_toNat, Nat.shiftRight_zero]
      omega
    rw [h2, h4]
    omega
  · have hb : (n + 4).testBit 2 = true := by
      interval_cases n <;> rfl
    unfold bit
    rw [putField_getLsbD _ _ _ _ _ (by decide), if_pos (by decide)]
    exact hb

/-- A step change begins at a reference edge (R20). -/
theorem stepChangeBegin_results {s : State} {n : Nat} (ht : s.boot.target = some n) (hn : n < 4) (hne : n ≠ s.stepCode)
    (hch : s.changing = false) (hedge : s.now % 180 = 0) :
    ∃ t, exec .stepChangeBegin s = .next t ∧ t.hold.stopped = true ∧ t.changing = true ∧ t.stepCode = n ∧
      t.boot.target = none ∧ t.requested 5 .legend = true ∧ t.boot.relock = some (t.now + 36000) := by
  obtain ⟨hreq, hstop⟩ := stepHold_held s
  obtain ⟨u, hu⟩ : ∃ u : State, { stepHold s with boot := { (stepHold s).boot with
      target := none, edge := none, relock := some ((stepHold s).now + 36000), hot := 0, cool := 0 } } = u := ⟨_, rfl⟩
  have he : s.beginStep = (stepRegs u n).irq 1 := by
    unfold State.beginStep
    rw [ht]
    dsimp only
    rw [if_neg (by rw [hch]; simpa using hedge), if_neg hne, ← hu]
    rfl
  have hclk : ((stepRegs u n).irq 1).rd Reg.GLB_CLK_STATUS = putField (u.rd Reg.GLB_CLK_STATUS) 0 4 (n + 4) :=
    (State.irq_rd _ _ (by decide)).trans (stepRegs_clk u n)
  obtain ⟨r, o, hframe⟩ : ∃ r o, (stepRegs u n).irq 1 = { stepRegs u n with regs := r, out := o } := ⟨_, _, State.irq_frame _ 1⟩
  have hregs : stepRegs u n = { u with regs := (stepRegs u n).regs } := rfl
  have hhold : ((stepRegs u n).irq 1).hold = (stepHold s).hold := by rw [hframe, hregs, ← hu]
  have hboot : ((stepRegs u n).irq 1).boot = u.boot := by rw [hframe, hregs]
  have hnow : ((stepRegs u n).irq 1).now = (stepHold s).now := by rw [hframe, hregs, ← hu]
  refine ⟨(stepRegs u n).irq 1, congrArg Host.Outcome.next he, ?_, ?_, ?_, ?_, ?_, ?_⟩
  · rw [hhold, hstop]
  · rw [State.changing, State.rdB, hclk, (putField_clk _ hn).2]
  · rw [State.stepCode, State.rdF, hclk, (putField_clk _ hn).1]
  · rw [hboot, ← hu]
  · rw [State.requested, hhold]
    exact hreq
  · rw [hboot, hnow, ← hu]

/-- The state in which a step change has ended, before its request clears. -/
def stepEnded (s : State) : State :=
  ({ s with boot := { s.boot with relock := none } }.wrF Reg.GLB_CLK_STATUS 2 2 2).countF Reg.GLB_CLK_STATUS 16 16

theorem stepEnded_hold (s : State) : (stepEnded s).hold = s.hold := rfl

theorem stepEnded_rd (s : State) {k : Nat} (h : k ≠ Reg.GLB_CLK_STATUS) : (stepEnded s).rd k = s.rd k := by
  unfold stepEnded State.countF
  rw [State.wrF_rd_ne _ _ _ _ h, State.wrF_rd_ne _ _ _ _ h]
  rfl

theorem stepEnded_fields (s : State) : (stepEnded s).changing = false ∧ (stepEnded s).stepCode = s.stepCode ∧
    (stepEnded s).rdF Reg.GLB_CLK_STATUS 16 16 = min (s.rdF Reg.GLB_CLK_STATUS 16 16 + 1) 65535 := by
  let u : State := { s with boot := { s.boot with relock := none } }
  let v : State := u.wrF Reg.GLB_CLK_STATUS 2 2 2
  have h16 : v.rdF Reg.GLB_CLK_STATUS 16 16 = s.rdF Reg.GLB_CLK_STATUS 16 16 := State.rdF_wrF_ne u _ _ _ _ _ _ (by decide) (.inr (by decide))
  refine ⟨?_, ?_, ?_⟩
  · have h : (stepEnded s).rdB Reg.GLB_CLK_STATUS 2 = v.rdB Reg.GLB_CLK_STATUS 2 :=
      State.rdB_wrF_ne v (by decide) fun _ => .inl (by decide)
    rw [State.changing, h, State.rdB, State.wrF_rd, if_pos rfl]
    unfold bit
    rw [putField_getLsbD _ _ _ _ _ (by decide), if_pos (by decide)]
    rfl
  · exact (State.rdF_wrF_ne v _ _ _ _ _ _ (by decide) (.inl (by decide))).trans
      (State.rdF_wrF_ne u _ _ _ _ _ _ (by decide) (.inl (by decide)))
  · refine (State.rdF_wrF_self v Reg.GLB_CLK_STATUS 16 16 (min (v.rdF Reg.GLB_CLK_STATUS 16 16 + 1) (2 ^ 16 - 1)) (by decide)).trans ?_
    rw [h16]
    omega

/-- Every island has relocked (R20, R34). -/
theorem islandRelock_results {s : State} (hch : s.changing = true) (hwait : s.boot.waiting = none) (hst : s.img.streams = [])
    (hcap : s.fastest ≤ s.stepCode) (hreq : s.requested 5 .legend = true) :
    ∃ t, exec .islandRelockComplete s = .next t ∧ t.changing = false ∧ t.stepCode = s.stepCode ∧
      t.requested 5 .legend = false ∧
      t.rdF Reg.GLB_CLK_STATUS 16 16 = min (s.rdF Reg.GLB_CLK_STATUS 16 16 + 1) 65535 ∧ (t.hold.reqs = [] → t.hold.goIn = some 8) := by
  obtain ⟨hfch, hfstep, hfcount⟩ := stepEnded_fields s
  obtain ⟨w, hw⟩ : ∃ w, (stepEnded s).clearHold 5 .legend = w := ⟨_, rfl⟩
  have hframe : w = { stepEnded s with hold := w.hold } := by rw [← hw]; exact clearHold_frame ..
  have hrd (k : Nat) : w.rd k = (stepEnded s).rd k := by rw [hframe]; rfl
  have hnocap : w.followCap = w := by
    refine if_neg ?_
    rw [State.stepCode, State.fastest, State.rdF_congr (hrd _), State.rdF_congr (hrd _)]
    refine Nat.not_lt.mpr ?_
    rw [show (stepEnded s).rdF Reg.GLB_CLK_STATUS 0 2 = s.stepCode from hfstep, State.rdF_congr (stepEnded_rd s (by decide))]
    exact hcap
  have hend : s.endStep = w := by
    unfold State.endStep
    rw [if_pos hch]
    exact (congrArg State.followCap hw).trans hnocap
  have hstreams : w.img.streams = [] := by rw [hframe]; exact hst
  have hrel : s.relocked = { w with boot := { w.boot with waiting := none } } := by
    unfold State.relocked
    rw [hch, hwait, hend, State.restateLatencies, hstreams]
    rfl
  have hreqs : (stepEnded s).requested 5 .legend = true := hreq
  refine ⟨_, congrArg Host.Outcome.next hrel, ?_, ?_, ?_, ?_, fun hnil => ?_⟩
  · exact (State.rdB_congr (hrd _) 2).trans hfch
  · exact (State.rdF_congr (hrd _) 0 2).trans hfstep
  · rw [Bool.eq_false_iff]
    intro hc
    obtain ⟨r, hr, hcause, hsrc⟩ := requested_iff.mp hc
    change r ∈ w.hold.reqs at hr
    rw [← hw, mem_clearHold hreqs (by decide)] at hr
    exact hr.2 ⟨hcause, hsrc⟩
  · exact (State.rdF_congr (hrd _) 16 16).trans hfcount
  · change w.hold.goIn = _
    rw [← hw]
    exact clearHold_go hreqs (by decide) (by rw [hw]; exact hnil)

/-! Samples and expiries (R402, R403). -/

theorem thermalSample_results {s : State} (hl : s.legendUp = true) (tl th p : BitVec 16) : ∃ t, exec (.thermalSample tl th p) s = .next t ∧
    t = { s with regs := t.regs, boot := t.boot } ∧ (∀ k, k ∉ [Reg.HLT_TEMP, Reg.HLT_POWER] → t.rd k = s.rd k) ∧
    t.rd Reg.HLT_TEMP = th ++ tl ∧ t.rdF Reg.HLT_POWER 0 16 = p.toNat ∧
    (State.isHot tl (s.rd Reg.HLT_THERM_CFG) = true → t.boot.hot = s.boot.hot + 1) ∧
    (State.isHot tl (s.rd Reg.HLT_THERM_CFG) = false → State.isHot th (s.rd Reg.HLT_HBM_CFG) = false →
      p.toNat < fieldNat (s.rd Reg.HLT_POWER_CFG) 16 16 → t.boot.hot = 0) := by
  let u := s.wr Reg.HLT_TEMP (th ++ tl)
  let w := BitVec.ofNat 32 (max p.toNat (u.rdF Reg.HLT_POWER 16 16) * 2 ^ 16 + p.toNat)
  have hp := p.isLt
  have hrd (k : Nat) : (s.thermal tl th p).rd k = (u.wr Reg.HLT_POWER w).rd k := rfl
  refine ⟨s.thermal tl th p, congrArg Host.Outcome.next (if_pos hl), rfl, fun k hk => ?_, ?_, ?_, fun hh => ?_, fun h1 h2 h3 => ?_⟩
  · simp only [List.mem_cons, List.not_mem_nil, or_false, not_or] at hk
    rw [hrd, State.rd_wr_ne _ _ hk.2, State.rd_wr_ne _ _ hk.1]
  · rw [hrd, State.rd_wr_ne _ _ (by decide), State.rd_wr_self]
  · rw [State.rdF, hrd, State.rd_wr_self, fieldNat_ofNat _ (by decide)]
    omega
  · simp [State.thermal, hh]
  · refine if_neg ?_
    rw [h1, h2, decide_eq_false (Nat.not_le.mpr h3)]
    decide

theorem regAt_stepCap : (regAt Reg.HLT_STEP_CAP).map (fun x => (x.1.rwMask x.2, x.1.w1cMask x.2)) = some (3, 0) := by
  decide

theorem stepCapWrite_results {s : State} (m : Master) (v : Word) (ha : s.answers Reg.HLT_STEP_CAP = true) :
    ∃ t, exec (.stepCapWrite m v) s = .next t ∧ t.fastest = fieldNat v 0 2 ∧ t.rdB Reg.HLT_STATUS 0 = false ∧
      t.boot.target = if s.stepCode < fieldNat v 0 2 then some (s.stepCode + 1) else s.boot.target := by
  obtain ⟨u, hu⟩ : ∃ u, (s.mergeWord Reg.HLT_STEP_CAP v).wrB Reg.HLT_STATUS 0 false = u := ⟨_, rfl⟩
  have hmerge : s.mergeWord Reg.HLT_STEP_CAP v = s.wr Reg.HLT_STEP_CAP (mergeWrite 3 0 (s.rd Reg.HLT_STEP_CAP) v) :=
    mergeWord_of_masks regAt_stepCap s v
  have hfast : u.fastest = fieldNat v 0 2 := by
    rw [State.fastest, State.rdF, ← hu, State.wrB_rd_ne _ _ _ (by decide), hmerge, State.rd_wr_self]
    unfold mergeWrite fieldNat
    congr 1
    ext i hi
    have h2 : i < 2 := hi
    interval_cases i <;> simp
  have hstep : u.stepCode = s.stepCode := by
    rw [State.stepCode, State.rdF, ← hu, State.wrB_rd_ne _ _ _ (by decide), hmerge, State.rd_wr_ne _ _ (by decide)]
    rfl
  have hboot : u.boot = s.boot := by rw [← hu, hmerge]; rfl
  have hbit : u.rdB Reg.HLT_STATUS 0 = false := by rw [← hu, State.rdB_wrB_self _ _ (by decide)]
  have he : exec (.stepCapWrite m v) s = .next u.followCap := by
    refine congrArg Host.Outcome.next ((exec_atReg ha _).trans ?_)
    exact congrArg State.followCap hu
  refine ⟨u.followCap, he, ?_⟩
  rw [State.followCap, hfast, hstep]
  split
  · exact ⟨hfast, hbit, rfl⟩
  · exact ⟨hfast, hbit, by rw [hboot]⟩

/-- The fixed trips (R404). -/
theorem thermalTrip_results (s : State) (tl th : BitVec 16) :
    (tl.toInt < 1760 → th.toInt < 1600 → exec (.thermalTripCheck tl th) s = .next s) ∧
    (1760 ≤ tl.toInt → tl.toInt < 2000 → th.toInt < 1600 →
      exec (.thermalTripCheck tl th) s = .next (s.fatal 0x0E (tl.setWidth 64))) ∧
    (tl.toInt < 1760 → 1600 ≤ th.toInt → th.toInt < 2000 →
      exec (.thermalTripCheck tl th) s = .next (s.fatal 0x0E (th.setWidth 64 ||| 0x10000))) ∧
    (2000 ≤ tl.toInt → th.toInt < 1600 →
      let u := s.fatal 0x0E (tl.setWidth 64)
      u.boot.thermtrip = false →
      ∃ t, exec (.thermalTripCheck tl th) s = .next t ∧ t.boot.thermtrip = true ∧ t.out = u.out ++ [.thermtrip]) := by
  have he : exec (.thermalTripCheck tl th) s = .next (s.tripCheck tl th) := rfl
  rw [he]
  refine ⟨fun h1 h2 => ?_, fun h1 h2 h3 => ?_, fun h1 h2 h3 => ?_, fun h1 h2 hno => ?_⟩
  all_goals unfold State.tripCheck; dsimp only
  · rw [if_neg (show ¬1760 ≤ tl.toInt by omega), if_neg (show ¬1600 ≤ th.toInt by omega), if_neg (by omega)]
  · rw [if_pos h1, if_neg (show ¬1600 ≤ th.toInt by omega), if_neg (by omega)]
  · rw [if_neg (show ¬1760 ≤ tl.toInt by omega), if_pos h2, if_neg (by omega)]
  · rw [if_pos (show 1760 ≤ tl.toInt by omega), if_neg (show ¬1600 ≤ th.toInt by omega), if_pos ⟨.inl h1, by rw [hno]; rfl⟩]
    exact ⟨_, rfl, rfl, rfl⟩

/-- Settles O24: samples and expiries by the branches of their rules, the change of a step by its two ends. -/
theorem throttleResults : Obligations.ThrottleResults := by
  unfold Obligations.ThrottleResults
  refine ⟨fun s hl => ⟨fun tl th p => thermalSample_results hl tl th p, fun h1 h2 => ?_, fun h1 h2 h3 => ?_, fun h1 h2 h3 => ?_,
    fun m v ha => stepCapWrite_results m v ha, fun n ht hn hne hch he => stepChangeBegin_results ht hn hne hch he, fun he => ?_,
    islandRelock_results⟩, thermalTrip_results⟩
  · exact congrArg Host.Outcome.next (if_pos (by simp [hl, h1, h2]))
  · refine congrArg Host.Outcome.next ((if_pos (by simp [hl, h1])).trans ?_)
    rw [if_neg h2, if_neg (Nat.not_lt.mpr h3)]
    rfl
  · refine ⟨s.wrB Reg.HLT_STATUS 0 true, congrArg Host.Outcome.next ((if_pos (by simp [hl, h1])).trans ?_),
      onlyRegs_wrB _ List.mem_cons_self _ _, State.rdB_wrB_self _ _ (by decide) _⟩
    rw [if_neg h2, if_pos h3]
  · have hb : s.beginStep = s := by
      unfold State.beginStep
      split
      · rfl
      · exact if_pos (by simpa using .inr he)
    exact congrArg Host.Outcome.next hb

end Sys2Proof.Machine
end

section
/-!
PROOF. O54: the calibration store and the ageing monitors (R405 to R412).
-/

namespace Sys2Proof.Machine
open Sys2Proof.Claims

namespace State

theorem calStatus_frame (s : State) : s.calStatus = { s with regs := s.calStatus.regs } := rfl

theorem appendCal_frame (s : State) (rs : List (Nat × Nat × List Byte)) : s.appendCal rs =
    { s with cal := rs.foldl (fun c x => c.append x.1 x.2.1 x.2.2) s.cal, regs := (s.appendCal rs).regs } := by
  unfold appendCal
  rw [calStatus_frame]

theorem eolStatus_frame (s : State) : s.eolStatus = { s with regs := s.eolStatus.regs } := by
  unfold eolStatus
  split <;> rfl

end State

/-! The journal of a bank in use (R406, R408). -/

section Append
variable {c : CalStore}

/-- The record that an append writes. -/
def appended (c : CalStore) (typ key : Nat) (p : List Byte) : CalRec := { seq := c.seq, typ := typ, key := key, factory := false, payload := p }

theorem bank_setBank (c : CalStore) (b : CalBank) : (c.setBank b).bank = b ∧ (c.setBank b).inUse = c.inUse ∧ (c.setBank b).seq = c.seq := by
  unfold CalStore.setBank
  split
  next h => exact ⟨if_pos h, rfl, rfl⟩
  next h => exact ⟨if_neg h, rfl, rfl⟩

theorem bank_withSeq (c : CalStore) (n : Nat) : ({ c with seq := n } : CalStore).bank = c.bank := rfl

theorem append_room (hu : c.inUse ≠ none) (ht : c.bank.torn = false) {typ key : Nat} {p : List Byte}
    (h : c.bank.used + (appended c typ key p).size ≤ 786432) : c.append typ key p =
      { c.setBank { c.bank with recs := c.bank.recs ++ [appended c typ key p] } with seq := c.seq + 1 } := by
  have hn : c.inUse.isNone = false := by cases hx : c.inUse <;> simp_all
  have hfull : (c.bank.torn || decide (786432 < c.bank.used + (appended c typ key p).size)) = false := by
    rw [ht, decide_eq_false (Nat.not_lt.mpr h)]; rfl
  unfold CalStore.append
  rw [hn]
  change (let c1 := if (c.bank.torn || decide (786432 < c.bank.used + (appended c typ key p).size)) = true then c.compact else c
    ({ c1.setBank { c1.bank with recs := c1.bank.recs ++ [appended c typ key p] } with seq := c1.seq + 1 } : CalStore)) = _
  rw [hfull]
  rfl

theorem append_full (hu : c.inUse ≠ none) {typ key : Nat} {p : List Byte}
    (h : 786432 < c.bank.used + (appended c typ key p).size) : c.append typ key p =
      { c.compact.setBank { c.compact.bank with recs := c.compact.bank.recs ++ [appended c typ key p] } with seq := c.compact.seq + 1 } := by
  have hn : c.inUse.isNone = false := by cases hx : c.inUse <;> simp_all
  have hfull : (c.bank.torn || decide (786432 < c.bank.used + (appended c typ key p).size)) = true := by
    rw [decide_eq_true h, Bool.or_true]
  unfold CalStore.append
  rw [hn]
  change (let c1 := if (c.bank.torn || decide (786432 < c.bank.used + (appended c typ key p).size)) = true then c.compact else c
    ({ c1.setBank { c1.bank with recs := c1.bank.recs ++ [appended c typ key p] } with seq := c1.seq + 1 } : CalStore)) = _
  rw [hfull]
  rfl

/-- Compaction moves the records in force to the other bank, under the next GENERATION. -/
theorem compact_results (hu : c.inUse ≠ none) : c.compact.inUse = c.inUse.map (fun b => !b) ∧ c.compact.bank.gen = c.bank.gen + 1 ∧
    c.compact.bank.recs = inForceRecs c.bank.recs ∧ c.compact.seq = c.seq := by
  cases hx : c.inUse with
  | none => exact absurd hx hu
  | some b => cases b <;> simp [CalStore.compact, CalStore.bank, hx]

theorem append_results (hu : c.inUse ≠ none) (ht : c.bank.torn = false) (typ key : Nat) (p : List Byte) :
    (c.append typ key p).seq = c.seq + 1 ∧
    (c.bank.used + (appended c typ key p).size ≤ 786432 →
      (c.append typ key p).bank = { c.bank with recs := c.bank.recs ++ [appended c typ key p] } ∧ (c.append typ key p).inUse = c.inUse) ∧
    (786432 < c.bank.used + (appended c typ key p).size →
      (c.append typ key p).inUse = c.inUse.map (fun b => !b) ∧ (c.append typ key p).bank.gen = c.bank.gen + 1 ∧
      (c.append typ key p).bank.recs = inForceRecs c.bank.recs ++ [appended c typ key p]) := by
  obtain ⟨huse, hgen, hrecs, hseq⟩ := compact_results hu
  refine ⟨?_, fun h => ?_, fun h => ?_⟩
  · rcases Nat.lt_or_ge 786432 (c.bank.used + (appended c typ key p).size) with h | h
    · rw [append_full hu h, ← hseq]
    · rw [append_room hu ht h]
  · rw [append_room hu ht h, bank_withSeq]
    exact ⟨(bank_setBank ..).1, (bank_setBank ..).2.1⟩
  · obtain ⟨hb, hbuse, -⟩ := bank_setBank c.compact { c.compact.bank with recs := c.compact.bank.recs ++ [appended c typ key p] }
    rw [append_full hu h]
    refine ⟨hbuse.trans huse, ?_, ?_⟩
    · rw [bank_withSeq, hb, hgen]
    · rw [bank_withSeq, hb, hrecs]

end Append

/-! The commands (R412). -/

section Commands
variable {s : State} {r : Fin 16} {e : SubEntry}

theorem calRead_results (hrun : Runs s r 0x60 0 e) :
    let rs := (lastRecs s.cal.journal).filter (fun x => decide (x.typ ≤ 4))
    let all := rs.flatMap CalRec.bytes
    (all.length ≤ e.len0.toNat → Succeeds s (.calRead r none) r (s.emit (.hostWrite e.addr0 all)) (BitVec.ofNat 64 all.length)
      (BitVec.ofNat 64 rs.length)) ∧
    (e.len0.toNat < all.length → exec (.calRead r none) s = .next (s.completeBad r 0x10)) := by
  dsimp only
  refine ⟨fun h => ⟨?_, rfl⟩, fun h => ?_⟩
  · exact congrArg Host.Outcome.next ((onRing_of_runs hrun _).trans (if_neg (Nat.not_lt.mpr h)))
  · exact congrArg Host.Outcome.next ((onRing_of_runs hrun _).trans (if_pos h))

/-- CAL_WRITE reaches its privileged part. -/
theorem calWrite_eq (hrun : Runs s r 0x61 4 e) (hm : e.param 0 4 = 0x57524C43) (m : Master) (bs : List Byte) :
    exec (.calWrite r m bs none) s = .next (s.needsPriv r m 412 (if s.ctx ≠ ctxNone then s.completeState r
      else match calRecs (bs.take e.len0.toNat) (bs.length + 1) 0 [] with
        | .error off => s.completeBad r off
        | .ok rs => (s.appendCal rs).complete r stOk (BitVec.ofNat 64 rs.length))) :=
  congrArg Host.Outcome.next ((onRing_of_runs hrun _).trans (if_neg fun h => h hm))

theorem appendCal_running (s : State) (rs : List (Nat × Nat × List Byte)) (r : Nat) : (s.appendCal rs).running r = s.running r := by
  refine State.running_congr ?_ r
  rw [State.appendCal_frame]

theorem appendCal_cal (s : State) (rs : List (Nat × Nat × List Byte)) :
    (s.appendCal rs).cal = rs.foldl (fun c x => c.append x.1 x.2.1 x.2.2) s.cal := by
  rw [State.appendCal_frame]

theorem calWrite_results (hrun : Runs s r 0x61 4 e) (hmagic : e.param 0 4 = 0x57524C43) (m : Master) (bs : List Byte) :
    (m = .f1 → s.rdB Reg.SEC_PRIV 0 = true → s.ctx = ctxNone →
      (∀ rs, calRecs (bs.take e.len0.toNat) (bs.length + 1) 0 [] = .ok rs →
        ∃ u, Succeeds s (.calWrite r m bs none) r u (BitVec.ofNat 64 rs.length) 0 ∧
          u.cal = rs.foldl (fun c x => c.append x.1 x.2.1 x.2.2) s.cal) ∧
      (∀ off, calRecs (bs.take e.len0.toNat) (bs.length + 1) 0 [] = .error off →
        exec (.calWrite r m bs none) s = .next (s.completeBad r off))) ∧
    (m = .f1 → s.rdB Reg.SEC_PRIV 0 = true → s.ctx ≠ ctxNone → exec (.calWrite r m bs none) s = .next (s.completeState r)) ∧
    (m ≠ .f1 ∨ s.rdB Reg.SEC_PRIV 0 = false → exec (.calWrite r m bs none) s = .next (s.completeRefused r 412)) := by
  rw [calWrite_eq hrun hmagic]
  refine ⟨fun hm hp hc => ⟨fun rs h => ⟨s.appendCal rs, ⟨?_, appendCal_running ..⟩, appendCal_cal ..⟩, fun off h => ?_⟩, fun hm hp hc => ?_,
    fun hno => ?_⟩
  · rw [calWrite_eq hrun hmagic, needsPriv_of_priv hm hp, if_neg fun hn => hn hc, h]
  · rw [needsPriv_of_priv hm hp, if_neg fun hn => hn hc, h]
  · rw [needsPriv_of_priv hm hp, if_pos hc]
  · rw [needsPriv_of_not hno]

theorem calSave_eq (hrun : Runs s r 0x62 0 e) (m : Master) : exec (.calSave r m) s = .next (s.needsPriv r m 412
    (if s.ctx ≠ ctxNone then s.completeState r
      else (s.adaptEqs.appendCal s.adaptEqs.calInUse).complete r stOk (BitVec.ofNat 64 s.adaptEqs.calInUse.length))) :=
  congrArg Host.Outcome.next (onRing_of_runs hrun _)

theorem free256_snd (s : State) : s.free256.2 = s.free.2.free.2.free.2.free.2 := by
  unfold State.free256
  dsimp only

theorem free256_parts (s : State) : s.free256.2.cal = s.cal ∧ s.free256.2.rings = s.rings := by
  rw [free256_snd]
  simp only [State.free_snd_cal, State.free_snd_rings, and_self]

theorem adaptEq_parts (s : State) (n : Nat) : (s.adaptEq n).cal = s.cal ∧ (s.adaptEq n).rings = s.rings := free256_parts s

theorem adaptEqs_parts (s : State) : s.adaptEqs.cal = s.cal ∧ s.adaptEqs.rings = s.rings := by
  unfold State.adaptEqs
  refine ⟨foldl_leaves State.cal _ _ s fun t n _ => ?_, foldl_leaves State.rings _ _ s fun t n _ => ?_⟩
  · split
    · exact (adaptEq_parts t n).1
    · rfl
  · split
    · exact (adaptEq_parts t n).2
    · rfl

theorem calSave_results (hrun : Runs s r 0x62 0 e) (m : Master) :
    (m = .f1 → s.rdB Reg.SEC_PRIV 0 = true → s.ctx = ctxNone →
      let vs := s.adaptEqs.calInUse
      ∃ u, Succeeds s (.calSave r m) r u (BitVec.ofNat 64 vs.length) 0 ∧ u.cal = vs.foldl (fun c x => c.append x.1 x.2.1 x.2.2) s.cal) ∧
    (m = .f1 → s.rdB Reg.SEC_PRIV 0 = true → s.ctx ≠ ctxNone → exec (.calSave r m) s = .next (s.completeState r)) ∧
    (m ≠ .f1 ∨ s.rdB Reg.SEC_PRIV 0 = false → exec (.calSave r m) s = .next (s.completeRefused r 412)) := by
  obtain ⟨hcal, hrings⟩ := adaptEqs_parts s
  rw [calSave_eq hrun]
  refine ⟨fun hm hp hc => ⟨s.adaptEqs.appendCal s.adaptEqs.calInUse, ⟨?_, ?_⟩, ?_⟩, fun hm hp hc => ?_, fun hno => ?_⟩
  · rw [calSave_eq hrun, needsPriv_of_priv hm hp, if_neg fun hn => hn hc]
  · rw [appendCal_running, State.running_congr hrings]
  · rw [appendCal_cal, hcal]
  · rw [needsPriv_of_priv hm hp, if_pos hc]
  · rw [needsPriv_of_not hno]

end Commands

/-- A daily sample (R410, R411). -/
theorem ageing_results (s : State) (kind index : Nat) (y : Int) :
    let k := kind * 65536 + index
    let new := (SMap.get Monitor.none s.health k).sample kind y
    let t := s.ageing kind index y
    SMap.get Monitor.none t.health k = new ∧ (∀ j, j ≠ k → SMap.get Monitor.none t.health j = SMap.get Monitor.none s.health j) ∧
      t.cal = s.cal.append 0x10 k new.payload := by
  dsimp only
  obtain ⟨k, hk⟩ : ∃ k, kind * 65536 + index = k := ⟨_, rfl⟩
  obtain ⟨new, hnew⟩ : ∃ new, (SMap.get Monitor.none s.health k).sample kind y = new := ⟨_, rfl⟩
  obtain ⟨u, hu⟩ : ∃ u, (({ s with health := SMap.set Monitor.none s.health k new } : State).appendCal [(0x10, k, new.payload)]).eolStatus = u :=
    ⟨_, rfl⟩
  have hparts : u.health = SMap.set Monitor.none s.health k new ∧ u.cal = s.cal.append 0x10 k new.payload := by
    rw [← hu, State.eolStatus_frame, State.appendCal_frame]
    exact ⟨rfl, rfl⟩
  have ht : (s.ageing kind index y).health = u.health ∧ (s.ageing kind index y).cal = u.cal := by
    unfold State.ageing
    dsimp only
    rw [hk, hnew, hu]
    split
    · rw [State.irq_frame]
      exact ⟨rfl, rfl⟩
    · exact ⟨rfl, rfl⟩
  rw [hk, hnew, ht.1, ht.2, hparts.1, hparts.2]
  exact ⟨SMap.get_set_self .., fun j hj => SMap.get_set_ne _ _ _ hj, rfl⟩

/-- Settles O54: the commands by their branches, the journal by `append_results`, the monitors by `ageing_results`. -/
theorem calibrationResults : Obligations.CalibrationResults := by
  unfold Obligations.CalibrationResults
  intro s r e m bs
  exact ⟨calRead_results, fun hrun hmagic => calWrite_results hrun hmagic m bs, fun hrun => calSave_results hrun m,
    fun c typ key p hu ht => append_results hu ht typ key p, fun kind index y => ⟨_, rfl, ageing_results s kind.val index.toNat y⟩⟩

end Sys2Proof.Machine
end

section
/-!
PROOF. O29: the life of a context (R335, R350, R353, R354, R374 to R377).
-/

namespace Sys2Proof.SMap

/-- A store from which `p` picks keys to keep. -/
theorem get_filter_key {α : Type} (d : α) (p : Nat → Bool) (m : SMap α) (k : Nat) :
    SMap.get d (m.filter (fun e => p e.1)) k = if p k then SMap.get d m k else d := by
  induction m with
  | nil => simp
  | cons e m ih =>
    obtain ⟨j, v⟩ := e
    by_cases hj : p j
    · rw [List.filter_cons_of_pos (by simpa using hj), get_cons, get_cons, ih]
      by_cases hk : k = j
      · subst hk; simp [hj]
      · simp [hk]
    · rw [List.filter_cons_of_neg (by simpa using hj), get_cons, ih]
      by_cases hk : k = j
      · subst hk; simp [hj]
      · simp [hk]

end Sys2Proof.SMap

namespace Sys2Proof.Machine
open Sys2Proof.Claims

namespace State

/-! Registers that a reset or the end of a context clears. -/

theorem dropRegs_rd (s : State) (p : Nat → Bool) (k : Nat) : (s.dropRegs p).rd k = if p (Reg.canon k) then resetWord k else s.rd k := by
  refine (SMap.get_filter_key (resetWord k) (fun j => !p (Reg.canon j)) s.regs k).trans ?_
  cases p (Reg.canon k) <;> rfl

theorem canon_of_lt {k : Nat} (h : k < 0x0200_0000) : Reg.canon k = k := if_pos h

theorem dropRegs_frame (s : State) (p : Nat → Bool) : s.dropRegs p = { s with regs := (s.dropRegs p).regs } := rfl

/-! The servo's limit follows the context (R293, R308). -/

theorem relimit_frame (s : State) : s.relimit = { s with regs := s.relimit.regs } := by
  unfold relimit setAdj
  dsimp only
  split <;> rfl

theorem relimit_rd (s : State) {k : Nat} (h1 : k ≠ Reg.TIM_RATE) (h2 : k ≠ Reg.TIM_STATUS) : s.relimit.rd k = s.rd k := by
  unfold relimit setAdj
  dsimp only
  split <;> rw [wrB_rd_ne _ _ _ h2, rd_wr_ne _ _ h1]

end State

/-! Commands that need a context in some states (R332, R349, R351). -/

theorem needsContext_of_open {s : State} (h : OpenContext s) (r : Nat) (f : State) : s.needsContext r f = f := by
  refine if_neg fun hc => ?_
  simp only [OpenContext, List.mem_cons, List.not_mem_nil, or_false] at h
  rcases h with h | h | h | h <;> rw [h] at hc <;> revert hc <;> decide

theorem needsState_of_ok {s : State} (h : OpenContext s) {ok : Bool} (hok : ok = true) (r : Nat) (f : State) : s.needsState r ok f = f := by
  rw [State.needsState, needsContext_of_open h, if_pos hok]

theorem needsState_of_not {s : State} (h : OpenContext s) {ok : Bool} (hok : ok = false) (r : Nat) (f : State) :
    s.needsState r ok f = s.completeState r := by
  rw [State.needsState, needsContext_of_open h, if_neg (by rw [hok]; decide)]

/-! START (R335). -/

section Start
variable {s : State} {r : Fin 16} {e : SubEntry}

theorem exec_start (hrun : Runs s r 0x02 9 e) (hmode : e.param 8 1 = 0) :
    exec (.start r) s = .next (s.needsState r (decide (s.ctx = ctxLoaded)) (s.start r (e.param 0 8) false)) := by
  refine congrArg Host.Outcome.next ((onRing_of_runs hrun _).trans ?_)
  rw [hmode]
  exact if_neg (by decide)

theorem openContext_of_loaded (h : s.ctx = ctxLoaded) : OpenContext s := by
  rw [OpenContext, h]; decide

theorem start_accepted (hrun : Runs s r 0x02 9 e) (hmode : e.param 8 1 = 0) (hctx : s.ctx = ctxLoaded) (hacc : s.ingAccepted = true) :
    exec (.start r) s = .next (
      if (decide (e.param 0 8 ≠ 0) && (match s.newestBlock with | some n => decide (e.param 0 8 ≤ n) | none => false)) = true then
        s.completeBad r 0x28
      else (s.startContext (if e.param 0 8 = 0 then s.nextBlock else e.param 0 8) false).complete r stOk
        (BitVec.ofNat 64 (if e.param 0 8 = 0 then s.nextBlock else e.param 0 8))) := by
  rw [exec_start hrun hmode, needsState_of_ok (openContext_of_loaded hctx) (decide_eq_true hctx), State.start, hacc]
  simp only [Bool.not_true, Bool.false_and, Bool.or_self, Bool.false_eq_true, if_false, Bool.not_false, and_true, Bool.true_and] <;>
    rfl

end Start

section Start
variable {s : State} {r : Fin 16} {e : SubEntry}

theorem start_next (hrun : Runs s r 0x02 9 e) (hmode : e.param 8 1 = 0) (h0 : e.param 0 8 = 0) (hctx : s.ctx = ctxLoaded)
    (hacc : s.ingAccepted = true) :
    exec (.start r) s = .next ((s.startContext s.nextBlock false).complete r stOk (BitVec.ofNat 64 s.nextBlock)) := by
  rw [start_accepted hrun hmode hctx hacc, if_neg (by simp [h0]), if_pos h0]

theorem start_at (hrun : Runs s r 0x02 9 e) (hmode : e.param 8 1 = 0) (h0 : e.param 0 8 ≠ 0) (hctx : s.ctx = ctxLoaded)
    (hacc : s.ingAccepted = true) :
    let fb := e.param 0 8
    (s.newestBlock = none ∨ (∃ n, s.newestBlock = some n ∧ n < fb) →
      exec (.start r) s = .next ((s.startContext fb false).complete r stOk (BitVec.ofNat 64 fb))) ∧
    (∀ n, s.newestBlock = some n → fb ≤ n → exec (.start r) s = .next (s.completeBad r 0x28)) := by
  dsimp only
  rw [start_accepted hrun hmode hctx hacc, if_neg h0]
  refine ⟨fun h => ?_, fun n hn hle => ?_⟩
  · rcases h with h | ⟨n, hn, hlt⟩
    · rw [if_neg (by rw [h]; simp)]
    · rw [if_neg (by rw [hn]; simp; omega)]
  · rw [if_pos (by rw [hn]; simp [h0, hle])]

theorem start_refused (hrun : Runs s r 0x02 9 e) (hmode : e.param 8 1 = 0)
    (h : s.ctx ∈ [ctxReady, ctxRunning, ctxHalted] ∨ (s.ctx = ctxLoaded ∧ s.ingAccepted = false)) :
    exec (.start r) s = .next (s.completeState r) := by
  rw [exec_start hrun hmode]
  rcases h with h | ⟨hctx, hacc⟩
  · have hopen : OpenContext s := by
      simp only [OpenContext, List.mem_cons, List.not_mem_nil, or_false] at h ⊢
      rcases h with h | h | h <;> simp [h]
    have hne : decide (s.ctx = ctxLoaded) = false := by
      simp only [List.mem_cons, List.not_mem_nil, or_false] at h
      rcases h with h | h | h <;> rw [h] <;> decide
    rw [needsState_of_not hopen hne]
  · rw [needsState_of_ok (openContext_of_loaded hctx) (decide_eq_true hctx), State.start, hacc]
    rfl

theorem ingAccepted_iff (s : State) : s.ingAccepted = true ↔ s.linksDivide = true ∧ s.blockLen = 2 ^ s.img.blockLog2 ∧
    102 * (10 * 2 ^ 38 * s.img.roundLen * s.img.k) ≤
      100 * (State.cyclesPerRef s.img.rated * 2 ^ s.img.blockLog2 * (s.rd64 Reg.ING_SAMPLE_PERIOD).toNat) := by
  rw [State.ingAccepted, Bool.and_eq_true, Bool.and_eq_true, decide_eq_true_eq, decide_eq_true_eq, and_assoc]

end Start

/-! What a start leaves (R335). -/

/-- The parts of the state that a start gives their first values, or keeps. -/
def startParts (s : State) : Nat × Fuses × Nat × Image := (s.ing.first, s.fuse, s.keyGen, s.img)

theorem copyCalibration_parts (s : State) : startParts s.copyCalibration = startParts s := by
  unfold State.copyCalibration
  dsimp only
  refine (foldl_leaves startParts _ _ _ fun t c _ => ?_).trans rfl
  split
  · exact foldl_leaves startParts _ _ _ fun _ _ _ => rfl
  · rfl

theorem leaveBoot_parts (s : State) : startParts s.leaveBoot = startParts s := foldl_leaves startParts _ _ _ fun _ _ _ => rfl

/-- The state of a start whose front end, registers and round are set, before the rows are folded. -/
def startCleared (s : State) (first : Nat) (replay : Bool) : State :=
  (((({ s with regs := maskRegs startKeeps s.regs } : State).startHub first).copyCalibration).leaveBoot).clearForStart first replay

theorem startCleared_parts (s : State) (first : Nat) (replay : Bool) : startParts (startCleared s first replay) = (first, s.fuse, s.keyGen, s.img) := by
  have h (t : State) : startParts (t.clearForStart first replay) = startParts t := rfl
  rw [startCleared, h, leaveBoot_parts, copyCalibration_parts]
  rfl

theorem clearForStart_arr (s : State) (first : Nat) (replay : Bool) : (s.clearForStart first replay).arr.round = 0 ∧
    (s.clearForStart first replay).arr.cycle = 0 ∧ (s.clearForStart first replay).arr.events = [] := ⟨rfl, rfl, rfl⟩

/-- The registers of a running context. -/
def startRegs (s : State) (replay : Bool) : State := ((s.sizeRing.wrB Reg.ING_EB_MODE 1 replay).setCtx ctxRunning).setAryState aryRunning

theorem startRegs_ctx (s : State) (replay : Bool) : (startRegs s replay).ctx = ctxRunning := by
  unfold startRegs
  rw [State.ctx, State.setAryState, State.rdF_of_ne _ _ _ _ _ _ (by decide)]
  exact State.setCtx_ctx _ _ (by decide)

theorem copyCalibration_adapt (s : State) : s.copyCalibration.adapt = s.adapt := by
  refine foldl_leaves State.adapt _ _ _ fun t c _ => ?_
  split
  · exact foldl_leaves State.adapt _ _ _ fun _ _ _ => rfl
  · rfl

theorem startContext_eq {s : State} (h : s.adapt.policy = []) (first : Nat) (replay : Bool) : s.startContext first replay =
    (startRegs (startCleared s first replay) replay).foldRows ((startRegs (startCleared s first replay) replay).recBank first) := by
  have hpol (t : State) (b : Nat) : (t.foldRows b).adapt = t.adapt := rfl
  have hregs (t : State) : (startRegs t replay).adapt = t.adapt := by simp [startRegs, State.sizeRing]
  have hclear (t : State) : (t.clearForStart first replay).adapt.policy = t.adapt.policy := rfl
  have hhub (t : State) : (t.startHub first).adapt = t.adapt := rfl
  have hmask (m : SMap Word) : ({ s with regs := m } : State).adapt = s.adapt := rfl
  have hboot (t : State) : t.leaveBoot.adapt = t.adapt := foldl_leaves State.adapt _ _ _ fun _ _ _ => rfl
  have hnil : ((startRegs (startCleared s first replay) replay).foldRows
      ((startRegs (startCleared s first replay) replay).recBank first)).adapt.policy = [] := by
    rw [hpol, hregs, startCleared, hclear, hboot, copyCalibration_adapt, hhub, hmask]
    exact h
  unfold State.startContext
  extract_lets s1 s2 s3 s4
  have h3 : startRegs (startCleared s first replay) replay = s3 := rfl
  rw [h3] at hnil ⊢
  exact if_pos hnil

theorem foldRows_round (s : State) (b : Nat) : (s.foldRows b).arr.round = s.arr.round := rfl

theorem foldRows_cycle (s : State) (b : Nat) : (s.foldRows b).arr.cycle = s.arr.cycle := rfl

theorem foldRows_events (s : State) (b : Nat) : (s.foldRows b).arr.events = s.arr.events := rfl

theorem startContext_results {s : State} (h : s.adapt.policy = []) (first : Nat) : let t := s.startContext first false
    t.ctx = ctxRunning ∧ t.aryState = aryRunning ∧ t.arr.round = 0 ∧ t.arr.cycle = 0 ∧ t.arr.events = [] ∧
    t.ing.first = first ∧ t.fuse = s.fuse ∧ t.keyGen = s.keyGen ∧ t.img = s.img := by
  dsimp only
  rw [startContext_eq h]
  obtain ⟨u, hu⟩ : ∃ u, startCleared s first false = u := ⟨_, rfl⟩
  have hparts := startCleared_parts s first false
  have harr : u.arr.round = 0 ∧ u.arr.cycle = 0 ∧ u.arr.events = [] := by rw [← hu]; exact clearForStart_arr ..
  rw [hu] at hparts ⊢
  simp only [startParts, Prod.mk.injEq] at hparts
  obtain ⟨hround, hcycle, hevents⟩ := harr
  obtain ⟨hfirst, hfuse, hkey, himg⟩ := hparts
  obtain ⟨v, hv⟩ : ∃ v, startRegs u false = v := ⟨_, rfl⟩
  have hregs : v.arr = u.arr ∧ v.ing = u.ing ∧ v.fuse = u.fuse ∧ v.keyGen = u.keyGen ∧ v.img = u.img := by
    rw [← hv]; simp [startRegs, State.sizeRing]
  have hctx : v.ctx = ctxRunning := hv ▸ startRegs_ctx u false
  have hary : v.aryState = aryRunning := hv ▸ State.setAryState_aryState _ _ (by decide)
  obtain ⟨harr', hing', hfuse', hkey', himg'⟩ := hregs
  rw [hv]
  refine ⟨hctx, hary, ?_, ?_, ?_, ?_, hfuse'.trans hfuse, hkey'.trans hkey, himg'.trans himg⟩
  · rw [foldRows_round, harr', hround]
  · rw [foldRows_cycle, harr', hcycle]
  · rw [foldRows_events, harr', hevents]
  · exact (congrArg Ingress.first hing').trans hfirst

/-! STOP (R350). -/

theorem beginEnding_results (s : State) : s.beginEnding.ctx = ctxEnding ∧ s.beginEnding.aryState = aryStopped := by
  have h (t : State) : ((t.setAryState aryStopped).setCtx ctxEnding).aryState = aryStopped := by
    rw [State.aryState, State.setCtx, State.rdF_of_ne _ _ _ _ _ _ (by decide)]
    exact State.setAryState_aryState _ _ (by decide)
  unfold State.beginEnding
  exact ⟨State.setCtx_ctx _ _ (by decide), h _⟩

theorem openStates_ne {n : Nat} (h : n ∈ [ctxOpening, ctxReady, ctxLoaded, ctxRunning, ctxHalted]) :
    n ≠ ctxNone ∧ n ≠ ctxEnding ∧ n ≠ ctxScrubbing := by
  simp only [List.mem_cons, List.not_mem_nil, or_false] at h
  rcases h with h | h | h | h | h <;> rw [h] <;> decide

theorem stop_results {s : State} {r : Fin 16} {e : SubEntry} (hrun : Runs s r 0x03 0 e)
    (h : s.ctx ∈ [ctxOpening, ctxReady, ctxLoaded, ctxRunning, ctxHalted]) :
    ∃ t, exec (.stop r) s = .next t ∧ t.ctx = ctxEnding ∧ t.aryState = aryStopped := by
  obtain ⟨hnone, hend, hscrub⟩ := openStates_ne h
  have he : s.stopRing r = ({ s with sec := { s.sec with stops := s.sec.stops ++ [r.val] } } : State).beginEnding :=
    (if_neg hnone).trans (if_neg fun hc => hc.elim hend hscrub)
  exact ⟨_, congrArg Host.Outcome.next ((onRing_of_runs hrun _).trans he), beginEnding_results _⟩

theorem stopQuiet_of_open {s : State} (h : s.ctx ∈ [ctxOpening, ctxReady, ctxLoaded, ctxRunning, ctxHalted]) : s.stopQuiet = s.beginEnding := by
  obtain ⟨hnone, hend, hscrub⟩ := openStates_ne h
  exact if_neg fun hc => hc.elim hnone (·.elim hend hscrub)

theorem ctxStopRegister_results {s : State} {m : Master} {v : Word} (hm : m = .f0 ∨ m = .f1) (hv : bit v 0 = true)
    (ha : s.answers Reg.SEC_CTX_STOP = true) (h : s.ctx ∈ [ctxOpening, ctxReady, ctxLoaded, ctxRunning, ctxHalted]) :
    ∃ t, exec (.ctxStopRegister m v) s = .next t ∧ t.ctx = ctxEnding ∧ t.aryState = aryStopped := by
  refine ⟨s.beginEnding, ?_, beginEnding_results s⟩
  refine congrArg Host.Outcome.next ((exec_atReg ha _).trans ?_)
  rw [if_pos hm, if_pos hv, stopQuiet_of_open h]

/-! The end of a context (R353, R354, R374). -/

/-- The state in which the keys, the array and the stores of a context are gone. -/
def cleared (s : State) : State := ((s.destroyKeys).arrayClear).clearContext

/-- The state in which its scrub has begun. -/
def scrubbing (s : State) : State := (cleared s).beginScrub

theorem endContextReset_frame (s : State) : s.endContextReset = { s with
    subs := s.endContextReset.subs, sec := { s.sec with ctxRst := s.endContextReset.sec.ctxRst }, regs := s.endContextReset.regs } := by
  unfold State.endContextReset
  split <;> rfl

theorem endContextReset_ctx (s : State) : s.endContextReset.ctx = s.ctx := by
  unfold State.endContextReset
  split
  next =>
    dsimp only
    rw [State.ctx, State.rdF_wrB_ne _ _ (by decide) fun _ => .inl (by decide), State.rdF_wrB_ne _ _ (by decide) fun h => absurd h (by decide)]
    exact State.rdF_congr (State.dropRegs_rd _ _ _) 0 3
  next => rfl

theorem scrubbing_parts (s : State) : let t := scrubbing s
    t.keyGen = 0 ∧ t.img = Image.none ∧ t.hold = Hold.reset ∧ t.hostq = [] ∧ t.counts = [] ∧ t.adapt = Adapt.none ∧ t.sec.keys = [] ∧
    t.sec.owner = [] ∧ t.sec.session = 0 ∧ t.sec.scrub ≠ 0 ∧ t.arr.beats = [] ∧ t.arr.round = 0 :=
  ⟨rfl, rfl, rfl, rfl, rfl, rfl, rfl, rfl, rfl, Nat.succ_ne_zero _, rfl, rfl⟩

theorem endingComplete_results {s : State} (h : s.ctx = ctxEnding) : ∃ t, exec .endingComplete s = .next t ∧ t.ctx = ctxScrubbing ∧
    t.keyGen = 0 ∧ t.img = Image.none ∧ t.hold = Hold.reset ∧ t.hostq = [] ∧ t.counts = [] ∧ t.adapt = Adapt.none ∧ t.sec.keys = [] ∧
    t.sec.owner = [] ∧ t.sec.session = 0 ∧ t.sec.scrub ≠ 0 ∧ t.arr.beats = [] ∧ t.arr.round = 0 := by
  obtain ⟨u, hu⟩ : ∃ u, s.endEnding = (scrubbing u).endContextReset := ⟨_, if_neg fun hn => hn h⟩
  obtain ⟨v, hv⟩ : ∃ v, scrubbing u = v := ⟨_, rfl⟩
  have hparts := scrubbing_parts u
  have hctx : v.ctx = ctxScrubbing := by rw [← hv]; exact State.setCtx_ctx _ _ (by decide)
  rw [hv] at hu hparts
  refine ⟨v.endContextReset, congrArg Host.Outcome.next hu, (endContextReset_ctx v).trans hctx, ?_⟩
  rw [endContextReset_frame]
  exact hparts

/-! The end of the scrub (R353, R374 to R377, R388). -/

/-- The lines that a scrub clears. -/
def scrubs (s : State) (l : Nat) : Bool := isHbm l || decide ((256 * l - ddrBase) / 2 ^ 30 ∈ s.mem.dirty)

/-- The state in which a scrub is complete, before the STOPs that wait complete. -/
def scrubRegs (s : State) : State :=
  let s1 : State := { s with mem := { s.mem with
    lines := s.mem.lines.filter (fun e => !scrubs s e.1), lost := s.mem.lost.filter (fun l => !scrubs s l) } }
  let s2 := ((s1.wr Reg.SEC_SCRUB_STATUS 0x6000_0000).wr Reg.SEC_SCRUB_TIME
    (BitVec.ofNat 32 (min ((s.now - s.sec.endFrom.toNat) / 18000) (2 ^ 32 - 1))))
  (s2.dropScrubKey.wrB Reg.SEC_CTX_STATUS 3 false).setCtx ctxNone

/-- The same with the servo's limit of a device without a context. -/
def scrubbed (s : State) : State :=
  { (scrubRegs s).relimit with sec := { (scrubRegs s).relimit.sec with stops := [] } }

theorem scrubComplete_eq {s : State} (h : s.ctx = ctxScrubbing) : exec .scrubComplete s =
    .next (s.sec.stops.foldl (fun t r => t.completeOp 0x03 r stOk s.sec.events) (scrubbed s)) :=
  congrArg Host.Outcome.next (if_neg fun hn => hn h)

theorem scrubbed_frame (s : State) : scrubbed s = { s with
    regs := (scrubbed s).regs,
    mem := { s.mem with lines := s.mem.lines.filter (fun e => !scrubs s e.1), lost := s.mem.lost.filter (fun l => !scrubs s l) },
    sec := { s.sec with scrub := 0, stops := [] } } := by
  obtain ⟨u, hu⟩ : ∃ u, scrubRegs s = u := ⟨_, rfl⟩
  obtain ⟨r, hr⟩ : ∃ r, u.relimit = { u with regs := r } := ⟨_, State.relimit_frame u⟩
  unfold scrubbed
  rw [hu, hr, ← hu]
  rfl

theorem scrubbed_rd (s : State) : ∃ w, (scrubbed s).rd Reg.SEC_CTX_STATUS = putField (putField w 3 1 0) 0 3 ctxNone := by
  have hrel (t : State) : t.relimit.rd Reg.SEC_CTX_STATUS = t.rd Reg.SEC_CTX_STATUS := State.relimit_rd t (by decide) (by decide)
  have hset (t : State) : ((t.wrB Reg.SEC_CTX_STATUS 3 false).setCtx ctxNone).rd Reg.SEC_CTX_STATUS =
      putField (putField (t.rd Reg.SEC_CTX_STATUS) 3 1 0) 0 3 ctxNone := by
    rw [State.setCtx, State.wrF_rd, if_pos rfl, State.wrB, State.wrF_rd, if_pos rfl]
    rfl
  exact ⟨_, (hrel _).trans (hset _)⟩

theorem scrubbed_ctx (s : State) : (scrubbed s).ctx = ctxNone ∧ (scrubbed s).isProtected = false := by
  obtain ⟨w, hw⟩ := scrubbed_rd s
  refine ⟨?_, ?_⟩
  · rw [State.ctx, State.rdF, hw, fieldNat_putField_self _ _ _ _ (by decide)]
    rfl
  · rw [State.isProtected, State.rdB, hw]
    unfold bit
    rw [putField_getLsbD _ _ _ _ _ (by decide), if_neg (by decide), putField_getLsbD _ _ _ _ _ (by decide), if_pos (by decide)]
    rfl

theorem scrubbed_line {s : State} {l : Nat} (h : scrubs s l = true) : (scrubbed s).line l = Line.blank ∧ l ∉ (scrubbed s).mem.lost := by
  rw [State.line, scrubbed_frame]
  refine ⟨?_, ?_⟩
  · refine (SMap.get_filter_key Line.blank (fun j => !scrubs s j) s.mem.lines l).trans ?_
    rw [h]
    rfl
  · simp [h]

/-- Settles O29: START by its branches, STOP by `beginEnding_results`, the end of the context and its scrub by their states. -/
theorem contextLifeResults : Obligations.ContextLifeResults := by
  unfold Obligations.ContextLifeResults
  refine ⟨fun s => ⟨fun r e hrun hmode h0 hctx hacc => ⟨start_next hrun hmode h0 hctx hacc, fun hpol => startContext_results hpol _⟩,
    fun r e hrun hmode h0 hctx hacc => start_at hrun hmode h0 hctx hacc, fun r e hrun hmode h => start_refused hrun hmode h, ingAccepted_iff s,
    fun r e hrun h => stop_results hrun h, fun r e hrun hctx => ⟨?_, rfl⟩, fun m v hm hv ha h => ctxStopRegister_results hm hv ha h⟩,
    fun s => ⟨endingComplete_results, fun h hstops => ?_, fun r h hstops => ?_, fun h => ?_, fun h => ?_⟩⟩
  · exact congrArg Host.Outcome.next ((onRing_of_runs hrun _).trans (if_pos hctx))
  · refine ⟨scrubbed s, ?_, (scrubbed_ctx s).1, (scrubbed_ctx s).2, ?_, fun l hl => scrubbed_line ?_⟩
    · rw [scrubComplete_eq h, hstops]
      rfl
    · rw [scrubbed_frame]
    · simpa [scrubs] using hl
  · refine ⟨scrubbed s, ?_, (scrubbed_ctx s).1, ?_⟩
    · rw [scrubComplete_eq h, hstops]
      rfl
    · exact State.running_congr (by rw [scrubbed_frame]) r
  · exact congrArg Host.Outcome.next (if_pos h)
  · exact congrArg Host.Outcome.next (if_pos h)

end Sys2Proof.Machine
end

section
/-!
PROOF. O30: REPLAY and the fetch of its blocks (R93, R333, R337).
-/

namespace Sys2Proof.Machine
open Sys2Proof.Claims

namespace State

/-! Counting the samples of a replayed block touches registers and the statistics alone. -/

/-- The state apart from registers and the front end, with the entries that the ring reader or the replay queue has supplied. -/
def besideStats (s : State) : State × List EbEntry := ({ s with ing := Ingress.none, regs := [] }, s.ing.feed)

theorem countEv_besideStats (s : State) (e : Ev) : (s.countEv e).besideStats = s.besideStats := by
  refine foldl_leaves besideStats _ _ s fun t p _ => ?_
  split <;> rfl

theorem toStats_besideStats (s : State) (chan n : Nat) (x : Sample) (q : Quantized) (sat : Nat) (ovr : Bool) :
    (s.toStats chan n x q sat ovr).besideStats = s.besideStats := by
  unfold toStats
  split <;> rfl

theorem countSlot_besideStats (s : State) (b : Nat) (bytes : List Byte) : (s.countSlot b bytes).besideStats = s.besideStats :=
  foldl_leaves besideStats _ _ s fun _ _ _ => (toStats_besideStats ..).trans (countEv_besideStats ..)

/-- States that agree beside the front end and the registers. -/
theorem eq_of_besideStats {s t : State} (h : t.besideStats = s.besideStats) :
    t = { s with ing := t.ing, regs := t.regs } ∧ t.ing.feed = s.ing.feed := by
  obtain ⟨hs, hf⟩ := Prod.ext_iff.mp h
  exact ⟨congrArg (fun u : State => { u with ing := t.ing, regs := t.regs }) hs, hf⟩

end State

section Replay
variable {s : State} {r : Fin 16} {e : SubEntry}

/-- A buffer whose every block carries the index that its place asks for. -/
theorem replayBad_none {first n : Nat} {data : List Byte}
    (h : ∀ i < n, leAt ((data.drop (i * s.ringBlock)).take s.ringBlock) 0 8 = first + i) :
    s.replayBad first ((List.range n).map (fun i => (data.drop (i * s.ringBlock)).take s.ringBlock)) = none := by
  rw [State.replayBad, List.findSome?_eq_none_iff]
  rintro ⟨x, i⟩ hx
  obtain ⟨hi, hxi⟩ := List.mem_zipIdx' hx
  rw [List.length_map, List.length_range] at hi
  rw [List.getElem_map, List.getElem_range] at hxi
  rw [hxi]
  exact if_pos (h i hi)

theorem replay_results {data : List Byte} {lost : Option Nat} (hrun : Runs s r 0x06 12 e) (hctx : s.ctx = ctxRunning)
    (hrep : s.replaying = true) (hring : s.replay.ring = none) (hnext : s.replay.next = some (e.param 0 8))
    (hlen : e.len0.toNat = e.param 8 4 * s.ringBlock) (hn : e.param 8 4 ≠ 0)
    (hblocks : ∀ i < e.param 8 4, leAt ((data.drop (i * s.ringBlock)).take s.ringBlock) 0 8 = e.param 0 8 + i) :
    exec (.replay r ⟨data, lost⟩ none) s = .next { s with replay := {
      ring := some r, blocks := (List.range (e.param 8 4)).map (fun i => (data.drop (i * s.ringBlock)).take s.ringBlock),
      next := some (e.param 0 8 + e.param 8 4), taken := 0, lost := lost } } := by
  have hopen : OpenContext s := by rw [OpenContext, hctx]; decide
  have hok : (decide (s.ctx = ctxRunning) && s.replaying && s.replay.ring.isNone) = true := by simp [hctx, hrep, hring]
  refine congrArg Host.Outcome.next ((onRing_of_runs hrun _).trans ((needsState_of_ok hopen hok _ _).trans ?_))
  dsimp only
  unfold State.startReplay
  dsimp only
  rw [if_neg fun hne => hne hnext, if_neg fun hne => hne hlen, replayBad_none hblocks]
  exact if_neg hn

/-- The state in which the replay queue has given one block to the front end. -/
def replayTaken (s : State) (b : List Byte) (rest : List (List Byte)) : State :=
  let n := leAt b 0 8
  let s1 : State := { s with
    ing := { s.ing with
      replay := some (BitVec.ofNat 64 (leAt b 8 8), n * s.blockLen),
      stamps := SMap.insert s.ing.stamps n s.timeline.toNat, replayed := some n },
    replay := { s.replay with blocks := rest, taken := s.replay.taken + 1, lost := s.replay.lost.map (· - 1) } }
  ({ s1 with ing := { s1.ing with feed := s1.ing.feed ++ s1.blockEntries n 0 (s1.quantSlot n b), fed := (n + 1, 0) } } : State).notePresent n
    |>.countSlot n b

theorem replayTaken_frame (s : State) (b : List Byte) (rest : List (List Byte)) :
    let t := replayTaken s b rest
    t = { s with ing := t.ing, replay := t.replay, regs := t.regs } ∧
    t.replay = { s.replay with blocks := rest, taken := s.replay.taken + 1, lost := s.replay.lost.map (· - 1) } ∧
    ∃ es, t.ing.feed = s.ing.feed ++ es := by
  obtain ⟨u, hu⟩ : ∃ u : State, replayTaken s b rest = u.countSlot (leAt b 0 8) b ∧ u = { s with ing := u.ing, replay := u.replay } ∧
      u.replay = { s.replay with blocks := rest, taken := s.replay.taken + 1, lost := s.replay.lost.map (· - 1) } ∧
      ∃ es, u.ing.feed = s.ing.feed ++ es := ⟨_, rfl, rfl, rfl, _, rfl⟩
  obtain ⟨hteq, hframe, hreplay, hfeed⟩ := hu
  obtain ⟨hcount, hkeep⟩ := State.eq_of_besideStats (State.countSlot_besideStats u (leAt b 0 8) b)
  dsimp only
  rw [hteq, hkeep]
  generalize u.countSlot (leAt b 0 8) b = t at *
  refine ⟨?_, ?_, hfeed⟩
  · rw [hcount, hframe]
  · rw [hcount, hreplay]

theorem replayBlock_eq {b : List Byte} {rest : List (List Byte)} (hring : s.replay.ring = some r.val) (hblocks : s.replay.blocks = b :: rest)
    (hrep : s.replaying = true) (hgate : s.blockPresent s.gateBlock = false) : s.replayBlock =
      if rest.isEmpty then ({ replayTaken s b rest with replay := { (replayTaken s b rest).replay with ring := none } } : State).completeOp 0x06 r stOk
        (BitVec.ofNat 64 (replayTaken s b rest).replay.taken)
      else replayTaken s b rest := by
  unfold State.replayBlock
  rw [hring, hblocks]
  exact if_neg (by rw [hrep, hgate]; decide)

theorem replayBlock_none (h : s.blockPresent s.gateBlock = true ∨ s.replay.blocks = []) : s.replayBlock = s ∧ s.replayFails = s := by
  unfold State.replayBlock State.replayFails
  rcases h with h | h
  · rw [h, Bool.or_true]
    refine ⟨?_, ?_⟩ <;> (split <;> rfl)
  · rw [h]
    cases s.replay.ring <;> exact ⟨rfl, rfl⟩

theorem replayFails_eq {b : List Byte} {rest : List (List Byte)} (hring : s.replay.ring = some r.val) (hblocks : s.replay.blocks = b :: rest)
    (hrep : s.replaying = true) (hgate : s.blockPresent s.gateBlock = false) : s.replayFails =
      ({ s with replay := { s.replay with ring := none, blocks := [], next := some (leAt b 0 8), lost := none } } : State).completeDma r 0 := by
  unfold State.replayFails
  rw [hring, hblocks]
  exact if_neg (by rw [hrep, hgate]; decide)

end Replay

/-- Settles O30: the buffer by `replay_results`, the fetch of a block by `replayBlock_eq` and `replayFails_eq`. -/
theorem replayResults : Obligations.ReplayResults := by
  unfold Obligations.ReplayResults
  intro s r e data lost
  refine ⟨fun hrun hctx hrep hring hnext hlen hn hblocks => replay_results hrun hctx hrep hring hnext hlen hn hblocks,
    fun b c rest hring hblocks hrep hlost hgate => ?_, fun b hring hblocks hrep hlost hgate => ?_,
    fun b rest hring hblocks hrep hlost hgate => ?_, fun h => ?_⟩
  · have he : exec .replayBlockFetch s = .next (replayTaken s b (c :: rest)) :=
      congrArg Host.Outcome.next ((if_neg hlost).trans (replayBlock_eq hring hblocks hrep hgate))
    exact ⟨_, he, replayTaken_frame s b (c :: rest)⟩
  · obtain ⟨hframe, hreplay, -⟩ := replayTaken_frame s b []
    have he : exec .replayBlockFetch s = .next s.replayBlock := congrArg Host.Outcome.next (if_neg hlost)
    refine ⟨{ replayTaken s b [] with replay := { (replayTaken s b []).replay with ring := none } }, ?_, rfl, ?_⟩
    · rw [he, replayBlock_eq hring hblocks hrep hgate, hreplay]
      rfl
    · refine State.running_congr ?_ r
      rw [hframe]
  · exact ⟨_, congrArg Host.Outcome.next ((if_pos hlost).trans (replayFails_eq hring hblocks hrep hgate)), rfl⟩
  · obtain ⟨htake, hfail⟩ := replayBlock_none h
    change Host.Outcome.next (if s.replay.lost = some 0 then s.replayFails else s.replayBlock) = _
    rw [htake, hfail, ite_self]

end Sys2Proof.Machine
end

section
/-!
PROOF. O26: WARM, CONTEXT and ARRAY resets (R354, R421 to R427).
-/

namespace Sys2Proof.Machine
open Sys2Proof.Claims

namespace State

/-- The launch queues are stores beside the registers. -/
theorem cancelLaunch_frame (s : State) (p : Nat) : ∃ r l, (s.count (Reg.TIM_LAUNCH_CANCELLED p) (s.launchQ p).length).setLaunchQ p [] =
    { s with regs := r, launch := l } := by
  unfold setLaunchQ count wr
  exact ⟨_, _, rfl⟩

theorem cancelLaunches_frame (s : State) : ∃ r l, s.cancelLaunches = { s with regs := r, launch := l } := by
  obtain ⟨r, l, h⟩ := cancelLaunch_frame s 0
  obtain ⟨r', l', h'⟩ := cancelLaunch_frame { s with regs := r, launch := l } 1
  refine ⟨r', l', ?_⟩
  unfold cancelLaunches
  rw [List.foldl_cons, List.foldl_cons, List.foldl_nil, h, h']

theorem dropOutputs_frame (s t : State) : s.dropOutputs t = { t with out := (s.dropOutputs t).out } := by
  unfold dropOutputs
  generalize List.range 16 = l
  induction l generalizing t with
  | nil => rfl
  | cons o l ih =>
    rw [List.foldl_cons]
    split
    · rw [ih (t.emit (.trig o false))]; rfl
    · exact ih t

/-! The registers that a WARM reset leaves (R421, R424). -/

/-- The registers of a reset's cause and of the boot phase. -/
def resetRegs (s : State) (cause : Nat) : State :=
  (((s.countF Reg.GLB_RESET_STATUS 24 8).wrF Reg.GLB_RESET_STATUS 0 8 (16 + cause)).setPhase 0).wrB Reg.GLB_FW_STATUS 3 false

/-- The registers of a context that is gone or being scrubbed. -/
def ctxRegs (u : State) (ends : Bool) : State :=
  (((((u.wrF Reg.GLB_CLK_STATUS 0 4 0xB).wrF Reg.SEC_LINKS 0 3 0).wrB Reg.SEC_CTX_STATUS 6 false).wrB Reg.SEC_CTX_STATUS 10 false).setCtx
    (if ends then ctxScrubbing else ctxNone)).relimit

theorem resetRegs_frame (s : State) (cause : Nat) : s.resetRegs cause = { s with regs := (s.resetRegs cause).regs } := rfl

theorem resetRegs_rd (s : State) (cause : Nat) {k : Nat} (h1 : k ≠ Reg.GLB_RESET_STATUS) (h2 : k ≠ Reg.GLB_BOOT_STATUS)
    (h3 : k ≠ Reg.GLB_FW_STATUS) : (s.resetRegs cause).rd k = s.rd k := by
  unfold resetRegs countF setPhase
  rw [wrB_rd_ne _ _ _ h3, wrF_rd_ne _ _ _ _ h2, wrF_rd_ne _ _ _ _ h1, wrF_rd_ne _ _ _ _ h1]

theorem resetRegs_phase (s : State) (cause : Nat) : (s.resetRegs cause).phase = 0 := by
  unfold resetRegs
  rw [phase, rdF_congr (wrB_rd_ne _ _ _ (by decide)), setPhase, rdF_wrF_self _ _ _ _ _ (by decide), Nat.zero_mod]

theorem resetRegs_cause (s : State) {cause : Nat} (h : cause < 8) : (s.resetRegs cause).rdF Reg.GLB_RESET_STATUS 0 8 = 16 + cause := by
  unfold resetRegs
  rw [rdF_congr (wrB_rd_ne _ _ _ (by decide)), setPhase, rdF_of_ne _ _ _ _ _ _ (by decide), rdF_wrF_self _ _ _ _ _ (by decide)]
  omega

theorem ctxRegs_frame (u : State) (ends : Bool) : ctxRegs u ends = { u with regs := (ctxRegs u ends).regs } := by
  unfold ctxRegs
  rw [relimit_frame]
  rfl

theorem ctxRegs_rd (u : State) (ends : Bool) : (ctxRegs u ends).rd Reg.ERR_STATUS = u.rd Reg.ERR_STATUS := by
  unfold ctxRegs
  rw [relimit_rd _ (by decide) (by decide), setCtx, wrF_rd_ne _ _ _ _ (by decide), wrB_rd_ne _ _ _ (by decide), wrB_rd_ne _ _ _ (by decide),
    wrF_rd_ne _ _ _ _ (by decide), wrF_rd_ne _ _ _ _ (by decide)]

theorem ctxRegs_ctx (u : State) (ends : Bool) : (ctxRegs u ends).ctx = if ends then ctxScrubbing else ctxNone := by
  unfold ctxRegs
  rw [ctx, rdF_congr (relimit_rd _ (by decide) (by decide))]
  exact setCtx_ctx _ _ (by split <;> decide)

/-- The stores that a WARM reset empties beside those of a context. -/
def warmStores (u : State) (cause now : Nat) : State :=
  { u with
    latches := [], rings := [], subs := [], ing := Ingress.none, trg := Trigger.none, acq := Acq.none,
    replay := { ring := none, blocks := [], next := none, taken := 0 },
    mem := { u.mem with queue := [] },
    sec := { u.sec with opening := none, stops := [], ctxRst := false, scrub := 0 },
    boot := { u.boot with
      slot := none, perstLow := decide (cause = 3), cold := false, linkUp := false, waiting := none, began := now,
      hot := 0, cool := 0, target := none, edge := none, relock := none, legendDown := false, expiries := [] } }

/-- What a WARM reset clears. -/
def warmCleared (s : State) (cause : Nat) : State :=
  ((cleared s.cancelLaunches).dropRegs (fun o => isRingWord o || isSubWord o || isHubWord o || isMsixWord o)).endPending.warmStores cause s.now

theorem warmReset_eq {s : State} (h1 : s.boot.porLow = false) (h2 : s.boot.perstLow = false) (cause : Nat) :
    s.warmReset cause = s.dropOutputs (((s.warmCleared cause).ctxRegs (decide (s.ctx ≠ ctxNone))).resetRegs cause) := by
  unfold warmReset
  rw [h1, h2]
  rfl

end State

theorem warmCleared_parts (s : State) (cause : Nat) : let t := s.warmCleared cause
    t.keyGen = 0 ∧ t.img = Image.none ∧ t.hold = Hold.reset ∧ t.rings = [] ∧ t.subs = [] ∧ t.latches = [] ∧ t.hostq = [] ∧ t.counts = [] ∧
    t.log.entries = s.log.entries.map (fun e => { e with pending := false }) ∧ t.boot.slot = none ∧
    t.fuse = s.fuse ∧ t.flash = s.flash ∧ t.health = s.health ∧ t.mem.lines = s.mem.lines := by
  obtain ⟨r, l, h⟩ := State.cancelLaunches_frame s
  unfold State.warmCleared
  rw [h]
  exact ⟨rfl, rfl, rfl, rfl, rfl, rfl, rfl, rfl, rfl, rfl, rfl, rfl, rfl, rfl⟩

theorem warmStores_rd (u : State) (cause now k : Nat) : (u.warmStores cause now).rd k = u.rd k := rfl

theorem warmCleared_contain (s : State) (cause : Nat) : (s.warmCleared cause).rdB Reg.ERR_STATUS 31 = false := by
  unfold State.warmCleared
  rw [State.rdB_congr (warmStores_rd ..), State.endPending, State.rdB_wrB_self _ _ (by decide)]

/-- A WARM reset (R354, R421 to R425). -/
theorem warmReset_results {s : State} (h1 : s.boot.porLow = false) (h2 : s.boot.perstLow = false) {cause : Nat} (hc : cause < 8) :
    let t := s.warmReset cause
    t.phase = 0 ∧ t.ctx = (if s.ctx = ctxNone then ctxNone else ctxScrubbing) ∧ t.keyGen = 0 ∧ t.img = Image.none ∧
    t.hold = Hold.reset ∧ t.rings = [] ∧ t.subs = [] ∧ t.latches = [] ∧ t.hostq = [] ∧ t.counts = [] ∧
    (∀ e ∈ t.log.entries, e.pending = false) ∧ t.rdB Reg.ERR_STATUS 31 = false ∧
    t.rdF Reg.GLB_RESET_STATUS 0 8 = 16 + cause ∧ t.boot.slot = none ∧
    t.fuse = s.fuse ∧ t.flash = s.flash ∧ t.health = s.health ∧ t.mem.lines = s.mem.lines := by
  dsimp only
  rw [State.warmReset_eq h1 h2]
  obtain ⟨hkey, himg, hhold, hrings, hsubs, hlatch, hhostq, hcounts, hlog, hslot, hfuse, hflash, hhealth, hlines⟩ := warmCleared_parts s cause
  have hcontain := warmCleared_contain s cause
  generalize s.warmCleared cause = u at *
  obtain ⟨v, hv⟩ : ∃ v, u.ctxRegs (decide (s.ctx ≠ ctxNone)) = v := ⟨_, rfl⟩
  have hvu : v = { u with regs := v.regs } := hv ▸ State.ctxRegs_frame u _
  have hvctx : v.ctx = if s.ctx = ctxNone then ctxNone else ctxScrubbing := by
    rw [← hv, State.ctxRegs_ctx]
    by_cases h : s.ctx = ctxNone <;> simp [h]
  have hverr : v.rd Reg.ERR_STATUS = u.rd Reg.ERR_STATUS := hv ▸ State.ctxRegs_rd u _
  obtain ⟨w, hw⟩ : ∃ w, v.resetRegs cause = w := ⟨_, rfl⟩
  have hwv : w = { v with regs := w.regs } := hw ▸ State.resetRegs_frame v cause
  have hphase : w.phase = 0 := hw ▸ State.resetRegs_phase v cause
  have hcause : w.rdF Reg.GLB_RESET_STATUS 0 8 = 16 + cause := hw ▸ State.resetRegs_cause v hc
  have hctx : w.ctx = v.ctx := hw ▸ State.rdF_congr (State.resetRegs_rd v cause (k := Reg.SEC_CTX_STATUS) (by decide) (by decide) (by decide)) 0 3
  have herr : w.rd Reg.ERR_STATUS = v.rd Reg.ERR_STATUS := hw ▸ State.resetRegs_rd v cause (by decide) (by decide) (by decide)
  have herr31 : w.rdB Reg.ERR_STATUS 31 = false := (State.rdB_congr (herr.trans hverr) 31).trans hcontain
  have hlog' : ∀ e ∈ u.log.entries, e.pending = false := by
    intro e he
    rw [hlog, List.mem_map] at he
    obtain ⟨d, -, rfl⟩ := he
    rfl
  rw [hv, hw, State.dropOutputs_frame]
  refine ⟨hphase, hctx.trans hvctx, ?_⟩
  obtain ⟨g, hkept⟩ : ∃ g, w = { u with regs := g } := ⟨w.regs, by rw [hwv, hvu]⟩
  refine ⟨?_, ?_, ?_, ?_, ?_, ?_, ?_, ?_, ?_, herr31, hcause, ?_, ?_, ?_, ?_, ?_⟩ <;> rw [hkept] <;> assumption

/-! A CONTEXT reset (R421, R426). -/

/-- The state in which a CONTEXT reset is counted and the rings are clear. -/
def ringsCleared (s : State) : State := ((s.countF Reg.GLB_RESET_STATUS 16 8).wrF Reg.GLB_RESET_STATUS 4 3 2).clearRings

theorem ringsCleared_rd (s : State) {k : Nat} (hk : k < 0x0200_0000) (h : k ≠ Reg.GLB_RESET_STATUS) :
    (ringsCleared s).rd k = if isRingWord k then resetWord k else s.rd k := by
  have hmsix : isMsixWord k = false := decide_eq_false (by unfold Reg.bar2; omega)
  have hdrop (t : State) : t.clearRings.rd k = if isRingWord k then resetWord k else t.rd k := by
    have hclear : t.clearRings.rd k = (t.dropRegs (fun o => isRingWord o || isMsixWord o)).rd k := rfl
    rw [hclear, State.dropRegs_rd, State.canon_of_lt hk, hmsix, Bool.or_false]
  rw [ringsCleared, hdrop, State.wrF_rd_ne _ _ _ _ h, State.countF, State.wrF_rd_ne _ _ _ _ h]

theorem ringsCleared_ctx (s : State) : (ringsCleared s).ctx = s.ctx :=
  State.rdF_congr ((ringsCleared_rd s (k := Reg.SEC_CTX_STATUS) (by decide) (by decide)).trans (if_neg (by decide))) 0 3

section ContextReset
variable {s : State} (h1 : s.boot.porLow = false) (h2 : s.boot.perstLow = false) (h3 : s.sec.ctxRst = false) (h4 : s.changing = false)
include h1 h2 h3 h4

theorem contextReset_eq : s.contextReset =
    if s.ctx = ctxNone ∨ s.ctx = ctxScrubbing then ({ ringsCleared s with subs := [] } : State).dropRegs isSubWord
    else (({ ringsCleared s with sec := { (ringsCleared s).sec with ctxRst := true } } : State).stopQuiet.wrB
      Reg.GLB_RESET_STATUS 7 true).wrB Reg.SEC_CTX_STATUS 10 true := by
  unfold State.contextReset
  rw [h1, h2, h3, h4]
  rfl

theorem contextReset_none (hctx : s.ctx ∈ [ctxNone, ctxScrubbing]) : let t := s.contextReset
    t.rings = [] ∧ t.subs = [] ∧ t.arr = s.arr ∧ t.mem = s.mem ∧ t.img = s.img ∧ t.log = s.log ∧ t.fuse = s.fuse ∧ t.ctx = s.ctx ∧
    (∀ o, 0x000A_0000 ≤ o → o < 0x000A_0400 → t.rd o = resetWord o) ∧
    (∀ o, o < 0x000A_0000 → o ≠ Reg.GLB_RESET_STATUS → t.rd o = s.rd o) := by
  have hor : s.ctx = ctxNone ∨ s.ctx = ctxScrubbing := by simpa using hctx
  have hrd {k : Nat} (hk : k < 0x0200_0000) : (({ ringsCleared s with subs := [] } : State).dropRegs isSubWord).rd k =
      if isSubWord k then resetWord k else (ringsCleared s).rd k := by
    refine (State.dropRegs_rd _ _ k).trans ?_
    rw [State.canon_of_lt hk]
    rfl
  dsimp only
  rw [contextReset_eq h1 h2 h3 h4, if_pos hor]
  refine ⟨rfl, rfl, rfl, rfl, rfl, rfl, rfl, ?_, fun o hlo hhi => ?_, fun o ho hne => ?_⟩
  · exact (State.rdF_congr ((hrd (k := Reg.SEC_CTX_STATUS) (by decide)).trans (if_neg (by decide))) 0 3).trans (ringsCleared_ctx s)
  · have hsub : isSubWord o = false := by
      unfold isSubWord
      simp only [Bool.and_eq_false_iff, decide_eq_false_iff_not]
      omega
    have hring : isRingWord o = true := by
      unfold isRingWord
      simp only [Bool.and_eq_true, decide_eq_true_eq]
      omega
    rw [hrd (by omega), hsub, ringsCleared_rd s (by omega) (by unfold Reg.GLB_RESET_STATUS; omega), hring]
    rfl
  · have hsub : isSubWord o = false := by
      unfold isSubWord
      simp only [Bool.and_eq_false_iff, decide_eq_false_iff_not]
      omega
    have hring : isRingWord o = false := by
      unfold isRingWord
      simp only [Bool.and_eq_false_iff, decide_eq_false_iff_not]
      omega
    rw [hrd (by omega), hsub, ringsCleared_rd s (by omega) hne, hring]
    rfl

theorem contextReset_open (hctx : s.ctx ∈ [ctxOpening, ctxReady, ctxLoaded, ctxRunning, ctxHalted]) : let t := s.contextReset
    t.ctx = ctxEnding ∧ t.rdB Reg.SEC_CTX_STATUS 10 = true ∧ t.rdB Reg.GLB_RESET_STATUS 7 = true := by
  obtain ⟨hnone, -, hscrub⟩ := openStates_ne hctx
  obtain ⟨u, hu, huctx⟩ : ∃ u : State, { ringsCleared s with sec := { (ringsCleared s).sec with ctxRst := true } } = u ∧ u.ctx = s.ctx :=
    ⟨_, rfl, ringsCleared_ctx s⟩
  dsimp only
  rw [contextReset_eq h1 h2 h3 h4, if_neg fun hc => hc.elim hnone hscrub, hu, stopQuiet_of_open (huctx ▸ hctx)]
  refine ⟨?_, State.rdB_wrB_self _ _ (by decide) _, ?_⟩
  · rw [State.ctx, State.rdF_wrB_ne _ _ (by decide) fun _ => .inl (by decide), State.rdF_wrB_ne _ _ (by decide) fun h => absurd h (by decide)]
    exact (beginEnding_results u).1
  · rw [State.rdB_wrB_ne _ _ (by decide) fun h => absurd h (by decide), State.rdB_wrB_self _ _ (by decide)]

end ContextReset

/-! An ARRAY reset (R423, R427). -/

theorem abortRings_running (s : State) {r : Nat} (h : r < 16) : (s.abortRings []).running r = none := by
  have hfold (l : List Nat) (t : State) (hr : r ∈ l ∨ t.running r = none) :
      (l.foldl (fun t q => if q ∈ ([] : List Nat) then t else t.complete q stAborted) t).running r = none := by
    induction l generalizing t with
    | nil => exact hr.resolve_left List.not_mem_nil
    | cons q l ih =>
      rw [List.foldl_cons, if_neg List.not_mem_nil]
      refine ih _ ?_
      rw [State.complete_running]
      rcases hr with hr | hr
      · rcases List.mem_cons.mp hr with rfl | hr
        · exact .inr (if_pos rfl)
        · exact .inl hr
      · exact .inr (by rw [hr, ite_self])
  exact hfold _ s (.inl (List.mem_range.mpr h))

theorem arrayReset_results {s : State} (h1 : s.boot.porLow = false) (h2 : s.boot.perstLow = false) (h3 : s.sec.ctxRst = false)
    (h4 : s.changing = false) (hctx : s.ctx = ctxNone) (m : Master) : let t := s.arrayReset m
    t.aryState = aryIdle ∧ t.hold = Hold.reset ∧ t.arr.round = 0 ∧ t.arr.beats = [] ∧ t.peeks = [] ∧
    (∀ r : Fin 16, t.running r.val = none) ∧ t.fuse = s.fuse := by
  obtain ⟨u, hu⟩ : ∃ u, s.wrF Reg.GLB_RESET_STATUS 4 3 3 = u := ⟨_, rfl⟩
  have hfuse : u.fuse = s.fuse := by rw [← hu]; rfl
  obtain ⟨v, hv⟩ : ∃ v, u.abortRings [] = v := ⟨_, rfl⟩
  have hvfuse : v.fuse = u.fuse := by rw [← hv, State.abortRings_frame]
  have he : s.arrayReset m = v.arrayClear := by
    unfold State.arrayReset
    rw [if_neg fun hn => hn hctx, h1, h2, h3, h4, hu, hv]
    rfl
  dsimp only
  rw [he]
  refine ⟨State.setAryState_aryState _ _ (by decide), rfl, rfl, rfl, rfl, fun r => ?_, hvfuse.trans hfuse⟩
  have hrings : v.arrayClear.rings = v.rings := rfl
  rw [State.running_congr hrings, ← hv]
  exact abortRings_running u r.isLt

/-- A write of GLB_RESET_CTL by function 0 or 1 with the key (R421). -/
theorem writeResetCtl_of_key {s : State} {m : Master} {v : Word} (hm : m = .f0 ∨ m = .f1) (hkey : fieldNat v 16 16 = 0xC7A5) :
    (fieldNat v 0 2 = 1 → s.writeResetCtl m v = s.warmReset 4) ∧ (fieldNat v 0 2 = 3 → s.writeResetCtl m v = s.arrayReset m) := by
  have hok : ¬((m ≠ .f0 ∧ m ≠ .f1) ∨ fieldNat v 16 16 ≠ 0xC7A5) := by
    rintro (⟨h0, h1⟩ | h)
    · exact hm.elim h0 h1
    · exact h hkey
  unfold State.writeResetCtl
  rw [if_neg hok]
  refine ⟨fun h => ?_, fun h => ?_⟩ <;> simp only [h]

/-- Settles O26: each reset by the state that it leaves. -/
theorem lesserResetResults : Obligations.LesserResetResults := by
  unfold Obligations.LesserResetResults
  refine ⟨fun s cause m v h1 h2 hc => ⟨s.warmReset cause, ?_, warmReset_results h1 h2 cause.isLt⟩,
    fun s h1 h2 h3 h4 => ⟨fun m v hctx => ⟨_, rfl, contextReset_none h1 h2 h3 h4 hctx⟩, fun m v hctx => ⟨_, rfl, contextReset_open h1 h2 h3 h4 hctx⟩,
      fun m v hm hkey hcode hctx => ⟨s.arrayReset m, ?_, arrayReset_results h1 h2 h3 h4 hctx m⟩, rfl⟩⟩
  · change Host.Outcome.next (if cause.val < 3 then s else if cause.val = 4 then s.writeResetCtl m v else s.warmReset cause.val) = _
    rcases hc with ⟨hlo, hne⟩ | ⟨h4, hm, hkey, hcode⟩
    · rw [if_neg (by omega), if_neg hne]
    · rw [if_neg (by omega), if_pos h4, (writeResetCtl_of_key hm hkey).1 hcode, h4]
  · change Host.Outcome.next (s.writeResetCtl m v) = _
    rw [(writeResetCtl_of_key hm hkey).2 hcode]

end Sys2Proof.Machine
end

section
/-!
PROOF. HBM and DDR5: what a write of a line leaves, reads of good lines, the controllers' queues, patrol, write counters
(R26, R27, R127, R323, R357 to R359, R387, R388).
-/

namespace Sys2Proof.Machine
open Sys2Proof.Claims

/-! The write counters (R359). -/

theorem SMap.mem_of_get_ne {α : Type} {d : α} {m : SMap α} {k : Nat} (h : SMap.get d m k ≠ d) : ∃ e ∈ m, e.2 = SMap.get d m k := by
  induction m with
  | nil => exact absurd rfl h
  | cons x m ih =>
    obtain ⟨k', v⟩ := x
    rw [SMap.get_cons] at h ⊢
    split at h
    · next hk => exact ⟨_, List.mem_cons_self .., by simp [hk]⟩
    · next hk =>
      obtain ⟨e, he, hv⟩ := ih h
      exact ⟨e, List.mem_cons_of_mem _ he, by simp [hk, hv]⟩

theorem SMap.mem_of_mem_insert {α : Type} {m : SMap α} {k : Nat} {v : α} {e : Nat × α} (h : e ∈ SMap.insert m k v) : e ∈ m ∨ e.2 = v := by
  induction m with
  | nil => simp_all [SMap.insert]
  | cons x m ih =>
    rw [SMap.insert] at h
    split at h
    · rcases List.mem_cons.mp h with rfl | h
      · exact .inr rfl
      · exact .inl h
    · split at h
      · rcases List.mem_cons.mp h with rfl | h
        · exact .inr rfl
        · exact .inl (List.mem_cons_of_mem _ h)
      · rcases List.mem_cons.mp h with rfl | h
        · exact .inl (List.mem_cons_self ..)
        · exact (ih h).imp_left (List.mem_cons_of_mem _)

theorem SMap.mem_of_mem_erase {α : Type} {m : SMap α} {k : Nat} {e : Nat × α} (h : e ∈ SMap.erase m k) : e ∈ m := by
  induction m with
  | nil => exact h
  | cons x m ih =>
    rw [SMap.erase] at h
    split at h
    · exact List.mem_cons_of_mem _ (ih h)
    · rcases List.mem_cons.mp h with rfl | h
      · exact List.mem_cons_self ..
      · exact List.mem_cons_of_mem _ (ih h)

theorem SMap.mem_of_mem_set {α : Type} [DecidableEq α] {d : α} {m : SMap α} {k : Nat} {v : α} {e : Nat × α} (h : e ∈ SMap.set d m k v) :
    e ∈ m ∨ e.2 = v := by
  unfold SMap.set at h
  split at h
  · exact .inl (SMap.mem_of_mem_erase h)
  · exact SMap.mem_of_mem_insert h

namespace State

theorem verOf_lt_of_room {s : State} (h : RoomToWrite s) (c : Nat) : s.verOf c + 1 < 2 ^ 56 - 2 ^ 32 := by
  by_cases hc : s.verOf c = 1
  · rw [hc]
    norm_num
  · obtain ⟨e, he, hv⟩ := SMap.mem_of_get_ne hc
    have := h e he
    rwa [hv] at this

/-- Memory after a write of a line. -/
def written (s : State) (l : Nat) (data : BitVec 2048) : MemState :=
  { s.mem with
    lines := SMap.set Line.blank s.mem.lines l (s.sealLine l (BitVec.ofNat 56 (s.verOf (controllerOf l))) data),
    ctr := SMap.set 1 s.mem.ctr (controllerOf l) (s.verOf (controllerOf l) + 1),
    lost := s.mem.lost.filter (· ≠ l),
    dirty := if isHbm l || (256 * l - ddrBase) / 2 ^ 30 ∈ s.mem.dirty then s.mem.dirty
      else s.mem.dirty ++ [(256 * l - ddrBase) / 2 ^ 30] }

/-- A write that no counter's limit stops changes memory and SEC_VERSION_MAX alone. -/
theorem writeLine_of_room {s : State} (h : RoomToWrite s) (l : Nat) (data : BitVec 2048) :
    ∃ r, s.writeLine l data = { s with mem := s.written l data, regs := r } := by
  let s2 : State := ({ s with mem := s.written l data } : State).wr64 Reg.SEC_VERSION_MAX
    (BitVec.ofNat 64 (max (s.verOf (controllerOf l) + 1) (s.rd64 Reg.SEC_VERSION_MAX).toNat))
  have hv := verOf_lt_of_room h (controllerOf l)
  have hnone : s2.exhausted = false := by
    refine Bool.and_eq_false_iff.mpr (.inl (List.any_eq_false.mpr fun e he => ?_))
    rw [decide_eq_true_eq, not_le]
    rcases SMap.mem_of_mem_set (show e ∈ SMap.set 1 s.mem.ctr _ _ from he) with he | he
    · have := h e he
      omega
    · omega
  refine ⟨s2.regs, ?_⟩
  change (if s2.exhausted then s2.exhaust else s2) = _
  rw [if_neg (by simp [hnone])]
  rfl

theorem mem_writeLine {s : State} (h : RoomToWrite s) (l : Nat) (data : BitVec 2048) : (s.writeLine l data).mem = s.written l data := by
  obtain ⟨r, e⟩ := writeLine_of_room h l data
  rw [e]

theorem line_writeLine_self {s : State} (h : RoomToWrite s) (l : Nat) (data : BitVec 2048) :
    (s.writeLine l data).line l = s.sealLine l (BitVec.ofNat 56 (s.verOf (controllerOf l))) data := by
  rw [line, mem_writeLine h]
  exact SMap.get_set_self ..

theorem line_writeLine_ne {s : State} (h : RoomToWrite s) {l k : Nat} (hk : k ≠ l) (data : BitVec 2048) :
    (s.writeLine l data).line k = s.line k := by
  rw [line, mem_writeLine h]
  exact SMap.get_set_ne _ _ _ hk

/-- A line without an error reads as it was written, or as zeros where nothing was. -/
theorem readLine_of_clean {s : State} {l : Nat} (hl : l ∉ s.mem.lost) (he : (s.line l).err = 0) (withheld : Bool) :
    s.readLine l 0 withheld = (s, some (if (s.line l).version = 0 then 0 else (s.line l).data)) := by
  have hc : checkLine ((s.line l).err ^^^ 0) = { fixed := [], left := 0, bad := none } := by
    rw [he, BitVec.xor_self]
    exact if_pos rfl
  unfold readLine
  simp only [hl, if_false, hc, List.foldl_nil, if_true]
  split <;> rfl

end State

/-- Settles O21: a write with room below the counters' limit is one update of memory, and a clean line reads as it stands. -/
theorem memoryReadsBack : Obligations.MemoryReadsBack := by
  intro s l d hpos hroom
  have hline := State.line_writeLine_self hroom l d
  have hmem := State.mem_writeLine hroom l d
  have hlost : l ∉ (s.writeLine l d).mem.lost := by
    rw [hmem]
    simp [State.written]
  have hver : (BitVec.ofNat 56 (s.verOf (controllerOf l))) ≠ 0 := by
    have hlt := State.verOf_lt_of_room hroom (controllerOf l)
    intro h0
    have := congrArg BitVec.toNat h0
    rw [BitVec.toNat_ofNat, Nat.mod_eq_of_lt (by omega)] at this
    exact absurd this hpos.ne'
  refine ⟨?_, ?_, ?_, ?_, hlost, fun k hk => State.line_writeLine_ne hroom hk d, fun hw => ?_⟩
  · rw [State.readLine_of_clean hlost (by rw [hline]; rfl) false, hline]
    exact congrArg (fun v => (_, some v)) (if_neg hver)
  · rw [hline]
    rfl
  · rw [hline]
    rfl
  · rw [State.verOf, hmem]
    exact SMap.get_set_self ..
  · exact linesWf_writeLine s l d hw

namespace State

/-! Bytes of one line (R323). -/

/-- 256 bytes at a line's first address are one write of the line. -/
theorem writeBytes_line (s : State) {dpa : Nat} {bs : List Byte} (hl : bs.length = 256) (hd : dpa % 256 = 0) :
    s.writeBytes dpa bs = s.writeLine (dpa / 256) (BitVec.ofNat 2048 (ofBytes bs)) := by
  have hne : bs.isEmpty = false := by
    cases bs
    · cases hl
    · rfl
  have hn : (dpa + 256 - 1) / 256 + 1 - dpa / 256 = 1 := by omega
  have htake : (bs.drop 0).take (256 - 0) = bs := List.take_of_length_le hl.le
  rw [writeBytes, if_neg (by simp [hne])]
  simp only [hl, hn, hd, List.range_one, List.foldl_cons, List.foldl_nil, if_true, htake, writePart, and_self, Nat.add_zero]

/-- Bytes of one good line. -/
theorem readBytes_line {s : State} {dpa len : Nat} (h0 : 0 < len) (h : dpa % 256 + len ≤ 256) (hl : dpa / 256 ∉ s.mem.lost)
    (he : (s.line (dpa / 256)).err = 0) : s.readBytes dpa len =
      (s, ((bytesOf 256 (if (s.line (dpa / 256)).version = 0 then 0 else (s.line (dpa / 256)).data)).drop (dpa % 256)).take len) := by
  have hn : (dpa + len - 1) / 256 + 1 - dpa / 256 = 1 := by omega
  rw [readBytes, if_neg (by omega)]
  simp only [hn, List.range_one, List.foldl_cons, List.foldl_nil, Nat.add_zero, readLine_of_clean hl he, List.nil_append, Option.getD_some]

/-! The controllers' queues (R26, R27). -/

/-- A state whose controller's queue is without a request. -/
def unqueued (s : State) (c : Nat) (r : MemReq) : State :=
  { s with mem := { s.mem with queue := SMap.set [] s.mem.queue c ((SMap.get [] s.mem.queue c).erase r) } }

theorem serveMem_of_empty {s : State} {c : Nat} (h : SMap.get [] s.mem.queue c = []) : s.serveMem c = s := by
  simp [serveMem, h, firstServed]

theorem serveMem_of_write {s : State} {c : Nat} {r : MemReq} {bs : List Byte} (h : firstServed (SMap.get [] s.mem.queue c) = some r)
    (hd : r.data = some bs) : s.serveMem c = (s.unqueued c r).writeBytes r.dpa bs := by
  simp only [serveMem, h, hd]
  rfl

theorem serveMem_of_read {s : State} {c : Nat} {r : MemReq} (h : firstServed (SMap.get [] s.mem.queue c) = some r)
    (hd : r.data = none) : s.serveMem c =
      ((s.unqueued c r).readBytes r.dpa r.len).1.emit (.readData .f0 ((s.unqueued c r).readBytes r.dpa r.len).2) := by
  simp only [serveMem, h, hd]
  rfl

/-- A request for a whole line is written. -/
theorem serveMem_stored {s : State} {c : Nat} {r : MemReq} {bs : List Byte} (h : firstServed (SMap.get [] s.mem.queue c) = some r)
    (hd : r.data = some bs) (hl : bs.length = 256) (ha : r.dpa % 256 = 0) (hroom : RoomToWrite s) :
    ((s.serveMem c).line (r.dpa / 256)).data = BitVec.ofNat 2048 (ofBytes bs) ∧
    SMap.get [] (s.serveMem c).mem.queue c = (SMap.get [] s.mem.queue c).erase r ∧
    ∀ l, l ≠ r.dpa / 256 → (s.serveMem c).line l = s.line l := by
  have hu : RoomToWrite (s.unqueued c r) := hroom
  rw [serveMem_of_write h hd, writeBytes_line _ hl ha]
  refine ⟨?_, ?_, fun l hne => line_writeLine_ne hu hne _⟩
  · rw [line_writeLine_self hu, sealLine]
  · rw [mem_writeLine hu]
    exact SMap.get_set_self ..

/-- A request for bytes of one good line sends them. -/
theorem serveMem_sent {s : State} {c : Nat} {r : MemReq} (h : firstServed (SMap.get [] s.mem.queue c) = some r) (hd : r.data = none)
    (h0 : 0 < r.len) (hlen : r.dpa % 256 + r.len ≤ 256) (hl : r.dpa / 256 ∉ s.mem.lost) (he : (s.line (r.dpa / 256)).err = 0) :
    SMap.get [] (s.serveMem c).mem.queue c = (SMap.get [] s.mem.queue c).erase r ∧ (s.serveMem c).mem.lines = s.mem.lines ∧
    (s.serveMem c).out = s.out ++ [.readData .f0 (((bytesOf 256 (if (s.line (r.dpa / 256)).version = 0 then 0
      else (s.line (r.dpa / 256)).data)).drop (r.dpa % 256)).take r.len)] := by
  have hread := readBytes_line (s := s.unqueued c r) h0 hlen hl he
  rw [serveMem_of_read h hd, hread]
  exact ⟨SMap.get_set_self .., rfl, rfl⟩

theorem disturb_zero (s : State) (c : Nat) : s.disturb c 0 = s := by
  unfold disturb
  split
  · exact if_pos (by rw [decide_eq_true rfl, Bool.true_or])
  · rfl

theorem disturb_of_empty {s : State} {c : Nat} (h : SMap.get [] s.mem.queue c = []) (bus : BitVec 2048) : s.disturb c bus = s := by
  simp [disturb, h, firstServed]

/-- One comparison of the search for the request that is served first. -/
def firstOf (b : Option MemReq) (r : MemReq) : Option MemReq :=
  match b with
  | none => some r
  | some x => if r.cls < x.cls then some r else some x

/-- The search gives a request of its list, or the one it began with, of the lowest class. -/
theorem foldl_firstOf_some (q : List MemReq) (y r : MemReq) (h : q.foldl firstOf (some y) = some r) :
    (r = y ∨ r ∈ q) ∧ r.cls ≤ y.cls ∧ ∀ x ∈ q, r.cls ≤ x.cls := by
  induction q generalizing y with
  | nil =>
    cases h
    exact ⟨.inl rfl, le_rfl, by simp⟩
  | cons z q ih =>
    rw [List.foldl_cons, firstOf] at h
    split at h
    · next hlt =>
      obtain ⟨hm, hle, hall⟩ := ih z h
      refine ⟨.inr (List.mem_cons.mpr hm), by omega, fun x hx => ?_⟩
      rcases List.mem_cons.mp hx with rfl | hx
      · exact hle
      · exact hall x hx
    · next hge =>
      obtain ⟨hm, hle, hall⟩ := ih y h
      refine ⟨hm.imp_right (List.mem_cons_of_mem _), hle, fun x hx => ?_⟩
      rcases List.mem_cons.mp hx with rfl | hx
      · omega
      · exact hall x hx

theorem firstServed_lowest {q : List MemReq} {r : MemReq} (h : firstServed q = some r) : r ∈ q ∧ ∀ x ∈ q, r.cls ≤ x.cls := by
  cases q with
  | nil => cases h
  | cons y q =>
    obtain ⟨hm, hle, hall⟩ := foldl_firstOf_some q y r h
    refine ⟨List.mem_cons.mpr hm, fun x hx => ?_⟩
    rcases List.mem_cons.mp hx with rfl | hx
    · exact hle
    · exact hall x hx

theorem requested_clearHold (s : State) {cause : Nat} (h7 : cause ≠ 7) (src : HoldSrc) : (s.clearHold cause src).requested cause src = false := by
  cases hr : s.requested cause src
  · simp [clearHold, hr]
  · rw [← Bool.not_eq_true, requested_iff]
    rintro ⟨r, hm, hc⟩
    exact ((mem_clearHold hr h7 r).mp hm).2 hc

/-- An array beat that can be read joins its request, and the hold on its stack is over. -/
theorem serveHbm_beat {s : State} {c : Fin 12} {p i : Nat} {r : LaneReq} {d : BitVec 2048} (hp : p < 1024)
    (hb : s.arrayBeat c = some (p, i, r)) (hd : s.readLine (r.line ⟨p, hp⟩ r.unserved) = (s, some d)) :
    s.serveHbm c false 0 = (s.setPicot p { s.picot p with
      laneIn := (s.picot p).laneIn.set i { r with data := r.data ++ [some d] } }).clearHold 2 (.hbm c) := by
  simp only [serveHbm, hb, serveBeat, dif_pos hp, hd, Bool.false_eq_true, if_false]

theorem serveHbm_none {s : State} {c : Fin 12} (hb : s.arrayBeat c = none) (late : Bool) (bus : BitVec 2048) :
    s.serveHbm c late bus = (s.disturb c bus).serveMem c := by
  simp only [serveHbm, hb]

/-! Patrol (R387, R388). -/

theorem drainFor_line {s : State} {l : Nat} (h : SMap.get [] s.mem.queue (controllerOf l) = []) : s.drainFor (256 * l) 256 = s := by
  have hc : controllers (256 * l) 256 = [controllerOf l] := by
    simp [controllers, List.eraseDups_cons]
  simp [drainFor, hc, drainCtl, h]

theorem mem_foldl_countFixed (s : State) (l : Nat) (fs : List (Nat × Nat)) : (fs.foldl (fun t f => t.countFixed l f) s).mem = s.mem :=
  mem_foldl _ _ _ fun t f => mem_countFixed t l f

theorem patrol_of_lost {s : State} {l : Nat} (h : l ∈ s.mem.lost) : s.patrol l = s := if_pos h

theorem patrol_of_clean {s : State} {l : Nat} (he : (s.line l).err = 0) : s.patrol l = s := by
  have hc : checkLine (s.line l).err = { fixed := [], left := 0, bad := none } := if_pos he
  unfold patrol
  simp only [hc, List.foldl_nil, if_true, ite_self]

theorem patrol_of_fixed {s : State} {l : Nat} (hl : l ∉ s.mem.lost) (hb : (checkLine (s.line l).err).bad = none)
    (hf : (checkLine (s.line l).err).fixed ≠ []) :
    (s.patrol l).line l = { s.line l with err := (checkLine (s.line l).err).left } ∧ (s.patrol l).mem.lost = s.mem.lost := by
  unfold patrol
  simp only [hl, hb, hf, if_false]
  exact ⟨SMap.get_set_self .., (congrArg MemState.lost (mem_foldl_countFixed s l _) :)⟩

theorem patrol_of_bad {s : State} {l j : Nat} (hl : l ∉ s.mem.lost) (hb : (checkLine (s.line l).err).bad = some j)
    (hroom : s.mem.lost.length < 256) : (s.patrol l).mem.lost = s.mem.lost ++ [l] ∧ (s.patrol l).line l = s.line l := by
  unfold patrol line
  simp only [line] at hb
  simp only [hl, hb, if_false, if_neg (not_le.mpr hroom), mem_logMinor, mem_countUe, mem_foldl_countFixed, and_self]

theorem exec_patrolRead_on {s : State} {line : BitVec 36} (he : s.rdB Reg.MEM_PATROL_CFG 31 = true) (hp : s.phase = 7)
    (hb : s.backed (256 * line.toNat) = true) (hq : SMap.get [] s.mem.queue (controllerOf line.toNat) = []) :
    exec (.patrolRead line) s = .next (s.patrol line.toNat) := by
  change Host.Outcome.next _ = _
  rw [if_pos (by simp [he, hp, hb]), drainFor_line hq]

theorem exec_patrolRead_off {s : State} {line : BitVec 36}
    (h : s.rdB Reg.MEM_PATROL_CFG 31 = false ∨ s.phase ≠ 7 ∨ s.backed (256 * line.toNat) = false) : exec (.patrolRead line) s = .next s := by
  refine congrArg Host.Outcome.next (if_neg ?_)
  rcases h with h | h | h <;> simp [h]

end State

/-- Settles O20: the controller's arms in turn; one line's bytes are one write or one read of the line; patrol by what the code makes of
the line; the counters by their largest entry. -/
theorem memoryServiceResults : Obligations.MemoryServiceResults := by
  refine ⟨fun s => ?service, fun q r h => State.firstServed_lowest h, fun s line => ?patrol, fun s => ?exhausted⟩
  case service =>
    refine ⟨fun c bus b hb hr => ?late, fun c p i r d hp hb hd => ?beat, fun c late r bs hb hw => ?whole, fun c late r hb hg => ?good,
      fun c late bus hb hq => ?idle, fun c r bs hw => ?wholeDdr, fun c r hg => ?goodDdr, fun c bus hq => ?idleDdr⟩
    case late =>
      refine ⟨_, congrArg Host.Outcome.next ?_, raises_requestHold hr false⟩
      simp only [State.serveHbm, hb, if_true]
    case beat =>
      refine ⟨_, congrArg Host.Outcome.next (State.serveHbm_beat hp hb hd), State.requested_clearHold _ (by decide) _, ?_⟩
      rw [clearHold_frame]
      exact congrArg Picot.laneIn (picot_setPicot_self ..)
    case whole =>
      obtain ⟨hf, hd, hl, ha, hroom⟩ := hw
      refine ⟨_, congrArg Host.Outcome.next (State.serveHbm_none hb late 0), ?_⟩
      rw [State.disturb_zero]
      exact State.serveMem_stored hf hd hl ha hroom
    case good =>
      obtain ⟨hf, hd, h0, hlen, hl, he⟩ := hg
      refine ⟨_, congrArg Host.Outcome.next (State.serveHbm_none hb late 0), ?_⟩
      rw [State.disturb_zero]
      exact State.serveMem_sent hf hd h0 hlen hl he
    case idle =>
      refine congrArg Host.Outcome.next ?_
      rw [State.serveHbm_none hb, State.disturb_of_empty hq, State.serveMem_of_empty hq]
    case wholeDdr =>
      obtain ⟨hf, hd, hl, ha, hroom⟩ := hw
      refine ⟨_, congrArg (fun t : State => Host.Outcome.next (t.serveMem (16 + c.val))) (State.disturb_zero s _), ?_⟩
      exact State.serveMem_stored hf hd hl ha hroom
    case goodDdr =>
      obtain ⟨hf, hd, h0, hlen, hl, he⟩ := hg
      refine ⟨_, congrArg (fun t : State => Host.Outcome.next (t.serveMem (16 + c.val))) (State.disturb_zero s _), ?_⟩
      exact State.serveMem_sent hf hd h0 hlen hl he
    case idleDdr =>
      refine congrArg Host.Outcome.next ?_
      rw [State.disturb_of_empty hq, State.serveMem_of_empty hq]
  case patrol =>
    refine ⟨fun ⟨he, hp, hb, hq⟩ _ hx => ?clean, fun ⟨he, hp, hb, hq⟩ hl hbad hfix => ?fixed, fun j ⟨he, hp, hb, hq⟩ hl hbad hroom => ?bad,
      fun ⟨he, hp, hb, hq⟩ hl => ?lost, State.exec_patrolRead_off⟩
    case clean => rw [State.exec_patrolRead_on he hp hb hq, State.patrol_of_clean hx]
    case fixed => exact ⟨_, State.exec_patrolRead_on he hp hb hq, State.patrol_of_fixed hl hbad hfix⟩
    case bad => exact ⟨_, State.exec_patrolRead_on he hp hb hq, State.patrol_of_bad hl hbad hroom⟩
    case lost => rw [State.exec_patrolRead_on he hp hb hq, State.patrol_of_lost hl]
  case exhausted =>
    refine ⟨fun c hc h11 => ⟨?first, State.rdB_wrB_self s _ (by decide) true, ?ctx⟩, fun h11 => ?again, fun hall => ?below⟩
    case first =>
      have hne : SMap.get 1 s.mem.ctr c ≠ 1 := by
        intro h
        rw [State.verOf, h] at hc
        norm_num at hc
      obtain ⟨e, he, hv⟩ := SMap.mem_of_get_ne hne
      have hany : s.exhausted = true := by
        rw [State.exhausted, h11, Bool.not_false, Bool.and_true, List.any_eq_true]
        exact ⟨e, he, decide_eq_true (hv ▸ hc)⟩
      exact congrArg Host.Outcome.next (if_pos hany)
    case ctx => exact State.rdF_wrB_ne s true (by decide) fun _ => .inl (by decide)
    case again => exact congrArg Host.Outcome.next (if_neg (by simp [State.exhausted, h11]))
    case below =>
      have hnone : s.exhausted = false :=
        Bool.and_eq_false_iff.mpr (.inl (List.any_eq_false.mpr fun e he => by simpa using hall e he))
      exact congrArg Host.Outcome.next (if_neg (by simp [hnone]))

end Sys2Proof.Machine
end

section
/-!
PROOF. The memory lanes' rows, debug reads and field repair (R126, R144, R145, R176, R199, R204, R379).
-/

namespace Sys2Proof.Machine
open Sys2Proof.Claims

/-! The eight words of a beat (R126). -/

/-- Eight words of 256 bits laid side by side. -/
def beatOf (f : Nat → BitVec 256) : BitVec 2048 :=
  (List.range 8).foldl (fun x i => x ||| ((f i).setWidth 2048 <<< (256 * i))) 0

/-- Words of 256 bits laid side by side, bit by bit. -/
theorem getLsbD_words (f : Nat → BitVec 256) {n : Nat} (hn : n ≤ 8) (b : Nat) :
    ((List.range n).foldl (fun (x : BitVec 2048) i => x ||| ((f i).setWidth 2048 <<< (256 * i))) 0).getLsbD b =
      (decide (b < 256 * n) && (f (b / 256)).getLsbD (b % 256)) := by
  induction n with
  | zero => simp
  | succ n ih =>
    rw [List.range_succ, List.foldl_append, List.foldl_cons, List.foldl_nil, BitVec.getLsbD_or, ih (by omega), BitVec.getLsbD_shiftLeft,
      BitVec.getLsbD_setWidth]
    rcases Nat.lt_trichotomy (b / 256) n with h | h | h
    · have h1 : b < 256 * n := by omega
      simp [h1, show b < 256 * (n + 1) by omega]
    · have h1 : ¬ b < 256 * n := by omega
      have h2 : b - 256 * n = b % 256 := by omega
      simp [h1, h2, h, show b < 256 * (n + 1) by omega, show b < 2048 by omega, show b % 256 < 2048 by omega]
    · have h1 : ¬ b < 256 * n := by omega
      have h2 : 256 ≤ b - 256 * n := by omega
      simp [h1, show ¬ b < 256 * (n + 1) by omega, BitVec.getLsbD_of_ge _ _ h2]

theorem word_beatOf (f : Nat → BitVec 256) {i : Nat} (hi : i < 8) : (beatOf f).extractLsb' (256 * i) 256 = f i := by
  refine BitVec.eq_of_getLsbD_eq fun b hb => ?_
  rw [BitVec.getLsbD_extractLsb', beatOf, getLsbD_words f le_rfl, show (256 * i + b) / 256 = i by omega, show (256 * i + b) % 256 = b by omega]
  simp [hb, show 256 * i + b < 256 * 8 by omega]

theorem onlyPicot_trans {s t u : State} {p : Fin 1024} (a : OnlyPicot s t p) (b : OnlyPicot t u p) : OnlyPicot s u p := by
  obtain ⟨a1, a2⟩ := a
  obtain ⟨b1, b2⟩ := b
  refine ⟨?_, fun q h => (b2 q h).trans (a2 q h)⟩
  rw [b1, a1]

/-- Results put in flight one after another are all in flight. -/
theorem flies_foldl_fly {α : Type} (loc : At) (slot lat : Nat) (g : α → Res) (l : List α) (s : State) :
    OnlyFlies s (l.foldl (fun t x => t.fly loc slot lat (g x)) s) loc.pic ∧
    OnlyPicot s (l.foldl (fun t x => t.fly loc slot lat (g x)) s) loc.pic ∧
    ∀ x ∈ l, Flies (l.foldl (fun t x => t.fly loc slot lat (g x)) s) loc slot lat (g x) := by
  induction l using List.reverseRecOn with
  | nil => exact ⟨⟨rfl, fun _ _ => rfl, rfl, fun _ h => h⟩, ⟨rfl, fun _ _ => rfl⟩, by simp⟩
  | append_singleton l x ih =>
    obtain ⟨hs, hp, hall⟩ := ih
    have hlast := onlyFlies_fly (l.foldl (fun t x => t.fly loc slot lat (g x)) s) loc slot lat (g x)
    rw [List.foldl_append]
    refine ⟨onlyFlies_trans hs hlast, onlyPicot_trans hp (onlyPicot_setPicot ..), fun y hy => ?_⟩
    rcases List.mem_append.mp hy with hy | hy
    · exact flies_mono (hall y hy) hlast
    · rw [List.mem_singleton.mp hy]
      exact flies_fly ..

namespace State
variable {s : State} {p : Fin 1024}

/-! The lane port, where the L-port reaches no bank in the cycle (R109). -/

/-- The picot whose lane port has reached the banks of a beat. -/
def porting (s : State) (p : Fin 1024) (base : Nat) : State :=
  s.setPicot p { s.picot p with lanePort := (s.picot p).lanePort ++ beatBanks base }

theorem laneAccess_of_free (h : (s.picot p).lport = none) (base : Nat) : s.laneAccess p base = (s.porting p base, true) := by
  rw [laneAccess, if_neg (by simp [h])]
  rfl

/-- Eight clean words are read. -/
theorem laneRead_of_clean {base : Nat} (h : (s.picot p).lport = none)
    (hc : CleanWords s p ((List.range 8).map (fun i => base + i))) : s.laneRead p base = (s.porting p base,
      some (beatOf fun i => s.sramRead p (base + i))) := by
  have hc' : CleanWords (s.porting p base) p ((List.range 8).map (fun i => base + i)) := by
    intro w hw
    rw [porting, picot_setPicot_self]
    exact hc w hw
  simp only [laneRead, laneAccess_of_free h, if_true, sramCheck_of_clean hc']
  rfl

/-- The words of a beat are on their way to SRAM. -/
theorem laneWrite_of_free (h : (s.picot p).lport = none) (base : Nat) (x : BitVec 2048) :
    OnlyFlies (s.porting p base) (s.laneWrite p base x) p ∧ OnlyPicot s (s.laneWrite p base x) p ∧
    ∀ i < 8, Flies (s.laneWrite p base x) { pic := p, lg := 0 } 3 1 (.sram (base + i) (x.extractLsb' (256 * i) 256)) := by
  have hw : s.laneWrite p base x = (List.range 8).foldl (fun t i => t.fly { pic := p, lg := 0 } 3 1 (.sram (base + i) (segment x i)))
      (s.porting p base) := by
    simp only [laneWrite, laneAccess_of_free h, if_true]
  obtain ⟨hs, hp, hall⟩ :=
    flies_foldl_fly { pic := p, lg := 0 } 3 1 (fun i => Res.sram (base + i) (segment x i)) (List.range 8) (s.porting p base)
  rw [hw]
  exact ⟨hs, onlyPicot_trans (onlyPicot_setPicot ..) hp, fun i hi => hall i (List.mem_range.mpr hi)⟩

/-- A beat on the lane that comes to its tap. -/
theorem laneBeat_of_coming {b : LaneBeat} (h : s.arr.lanes.find? (fun b => !b.out && decide (b.tap = p)) = some b) :
    s.laneBeat p = ({ s with arr := { s.arr with lanes := s.arr.lanes.erase b } } : State).laneWrite p b.word b.bits := by
  simp only [laneBeat, h]

theorem advance_of_data {r : LaneReq} {d : Option (BitVec 2048)} {ds : List (Option (BitVec 2048))} (hd : r.data = d :: ds)
    (rs : List LaneReq) : (LaneReq.advance r).toList ++ rs =
      if r.beat + 1 < r.len then { r with beat := r.beat + 1, due := 1, data := ds } :: rs else rs := by
  unfold LaneReq.advance
  split
  · rw [hd]
    rfl
  · rfl

/-- The tap's oldest read, whose next beat its controller has served. -/
theorem laneBeat_of_served {r : LaneReq} {rs : List LaneReq} {d : BitVec 2048} {ds : List (Option (BitVec 2048))}
    (h : s.arr.lanes.find? (fun b => !b.out && decide (b.tap = p)) = none) (hin : (s.picot p).laneIn = r :: rs)
    (hd : r.data = some d :: ds) (hk : s.img.hbmKey = none) : s.laneBeat p =
      (s.setPicot p { s.picot p with laneIn := if r.beat + 1 < r.len then { r with beat := r.beat + 1, due := 1, data := ds } :: rs else rs
        }).laneWrite p (r.word + 8 * r.beat) d := by
  have hjob : s.jobBeat p r = (s, some d) := by
    simp [jobBeat, hd, tapLine, hk]
  simp only [laneBeat, h, hin, hjob, advance_of_data hd]

/-- The request that a request beat on the lane carries. -/
theorem laneTake_of_asked {b : LaneBeat} (h : s.arr.lanes.find? (fun b => b.out && b.req && decide (b.tap = p)) = some b) :
    s.laneTake p = ({ s with arr := { s.arr with lanes := s.arr.lanes.erase b } } : State).laneDeliver b := by
  simp only [laneTake, h]

theorem laneTake_of_waiting {r : LaneReq} {rs : List LaneReq}
    (h : s.arr.lanes.find? (fun b => b.out && b.req && decide (b.tap = p)) = none) (ho : (s.picot p).laneOut = r :: rs) :
    s.laneTake p = if r.write then (s.setPicot p { s.picot p with laneOut := rs }).laneStoreAll p r (r.len - r.beat) r.beat
      else (s.setPicot p { s.picot p with laneOut := rs }).laneJob p r := by
  simp only [laneTake, h, ho]

/-- A read request at its controller. -/
def atController (s : State) (r : LaneReq) : LaneReq := { r with beat := 0, due := s.laneCtl + 1, taken := s.cycleIndex, data := [] }

theorem laneJob_laneIn (s : State) (p : Fin 1024) (r : LaneReq) :
    ((s.laneJob p r).picot p).laneIn = (s.picot p).laneIn ++ [s.atController r] := congrArg Picot.laneIn (picot_setPicot_self ..)

/-- The request that a request beat carries. -/
def carried (b : LaneBeat) : LaneReq :=
  { addr := BitVec.ofNat 32 b.addr, len := beatsOf (fieldNat b.bits 32 16), write := false, word := b.word, lg := 0, sent := true,
    beat := 0, due := 0, taken := 0, data := [] }

theorem laneDeliver_read {b : LaneBeat} (hr : b.req = true) (hb : b.bits.getLsbD 48 = false) (s : State) :
    s.laneDeliver b = s.laneJob b.tap (carried b) := by
  rw [laneDeliver, if_pos hr, hb]
  rfl

/-- The one beat that is left of a write waits out its lag. -/
theorem laneStoreAll_one {r : LaneReq} {m : Nat} (h : (s.picot p).lport = none)
    (hc : CleanWords s p ((List.range 8).map (fun i => r.word + 8 * m + i))) : s.laneStoreAll p r 1 m =
      (s.porting p (r.word + 8 * m)).storeBeat ⟨8, r.line p m, beatOf fun i => s.sramRead p (r.word + 8 * m + i)⟩ := by
  simp only [laneStoreAll, laneRead_of_clean h hc]

/-- A beat that has waited out its lag is written. -/
theorem storesCycle_last {y : LaneStore} (h : s.arr.stores = [y]) (hw : y.wait = 1) :
    s.storesCycle = ({ s with arr := { s.arr with stores := [] } } : State).writeLine y.line y.data := by
  simp [storesCycle, h, storeBeat, hw]

end State

theorem beatsOf_field (b : BitVec 2048) : beatsOf (fieldNat b 32 16) = if fieldNat b 32 16 = 0 then 65536 else fieldNat b 32 16 := by
  rw [beatsOf, Nat.mod_eq_of_lt (show fieldNat b 32 16 < 65536 from BitVec.isLt _)]

/-- A picot with the same SRAM reads the same words. -/
theorem sramRead_setPicot (s : State) (p : Fin 1024) {x : Picot} (hw : x.sram = (s.picot p).sram) (he : x.sramErr = (s.picot p).sramErr)
    (a : Nat) : (s.setPicot p x).sramRead p a = s.sramRead p a := by
  unfold State.sramRead Picot.sramWord
  rw [picot_setPicot_self, hw, he]
  rfl

/-- Settles O19: the controller's and the tap's ends by where the request or the beat stands; a beat's words fly to SRAM one by one. -/
theorem memoryLaneResults : Obligations.MemoryLaneResults := by
  intro s p hs x asked coming lands
  have hi : s.issues = true := issues_of hs
  refine ⟨fun r rs hfind ho hw => ?read, fun b hfind hb => ?asked, fun r rs hfind ho hw hlen hport hc => ?write, fun b hfind hport => ?coming,
    fun r rs d ds hfind hin hd hport hkey => ?served, fun y ys hst hwait hroom => ?stores⟩
  case read =>
    refine ⟨_, congrArg Host.Outcome.next ((if_pos hi).trans ((State.laneTake_of_waiting hfind ho).trans (if_neg (by simp [hw])))), ?_⟩
    have hpic : (s.setPicot p { s.picot p with laneOut := rs }).picot p = { s.picot p with laneOut := rs } := picot_setPicot_self ..
    refine ⟨onlyPicot_trans (onlyPicot_setPicot s p _) (onlyPicot_setPicot _ p _), ?_, ?_⟩
    · rw [State.laneJob, picot_setPicot_self, hpic]
    · rw [State.laneJob_laneIn, hpic]
      rfl
  case asked =>
    have hb' := List.find?_some hfind
    simp only [asked, Bool.and_eq_true, decide_eq_true_eq] at hb'
    obtain ⟨⟨-, hreq⟩, htap⟩ := hb'
    refine ⟨_, s.atController (State.carried b), congrArg Host.Outcome.next ((if_pos hi).trans
      ((State.laneTake_of_asked hfind).trans (State.laneDeliver_read hreq hb _))), rfl, ?_, rfl, rfl, rfl, rfl, beatsOf_field _⟩
    rw [htap]
    exact State.laneJob_laneIn ..
  case write =>
    let u := s.setPicot p { s.picot p with laneOut := rs }
    have hpic : u.picot p = { s.picot p with laneOut := rs } := picot_setPicot_self ..
    have hstore := State.laneStoreAll_one (s := u) (p := p) (r := r) (m := r.beat) (by rw [hpic]; exact hport)
      (fun w hw => by rw [hpic]; exact hc w hw)
    have hsame (a : Nat) : u.sramRead p a = s.sramRead p a := sramRead_setPicot s p (x := { s.picot p with laneOut := rs }) rfl rfl a
    have htake : s.laneTake p = u.laneStoreAll p r 1 r.beat := by
      rw [State.laneTake_of_waiting hfind ho, if_pos hw, show r.len - r.beat = 1 by omega]
    refine ⟨_, beatOf fun i => u.sramRead p (r.word + 8 * r.beat + i), congrArg Host.Outcome.next ((if_pos hi).trans (htake.trans hstore)),
      ?_, rfl, fun i hi => ?_⟩
    · change ((u.porting p _).picot p).laneOut = rs
      rw [State.porting, picot_setPicot_self, hpic]
    · exact (word_beatOf (fun i => u.sramRead p (r.word + 8 * r.beat + i)) hi).trans (hsame _)
  case coming =>
    refine ⟨_, congrArg Host.Outcome.next ((if_pos hi).trans (State.laneBeat_of_coming hfind)), ?_⟩
    obtain ⟨hs, -, hall⟩ := State.laneWrite_of_free (s := { s with arr := { s.arr with lanes := s.arr.lanes.erase b } }) hport b.word b.bits
    exact ⟨by rw [hs.1]; rfl, hall⟩
  case served =>
    refine ⟨_, congrArg Host.Outcome.next ((if_pos hi).trans (State.laneBeat_of_served hfind hin hd hkey)), ?_⟩
    have hpic := picot_setPicot_self s p { s.picot p with
      laneIn := if r.beat + 1 < r.len then { r with beat := r.beat + 1, due := 1, data := ds } :: rs else rs }
    obtain ⟨⟨-, -, hsame, -⟩, honly, hall⟩ := State.laneWrite_of_free (s := s.setPicot p _) (p := p)
      (by rw [hpic]; exact hport) (r.word + 8 * r.beat) d
    refine ⟨onlyPicot_trans (onlyPicot_setPicot s p _) honly, hall, ?_⟩
    rw [hsame, State.porting, picot_setPicot_self, hpic]
  case stores =>
    rw [State.storesCycle_last hst hwait]
    have hroom' : RoomToWrite { s with arr := { s.arr with stores := [] } } := hroom
    refine ⟨?_, ?_, fun l hl => State.line_writeLine_ne hroom' hl _⟩
    · rw [State.line_writeLine_self hroom', State.sealLine]
    · obtain ⟨r, e⟩ := State.writeLine_of_room hroom' y.line y.data
      rw [e]

namespace State

/-! Rows of registers. -/

theorem rd_foldl_wr_ne (f : Nat → Nat) (g : Nat → Word) (l : List Nat) (s : State) {k : Nat} (h : ∀ i ∈ l, k ≠ f i) :
    (l.foldl (fun t i => t.wr (f i) (g i)) s).rd k = s.rd k := by
  induction l generalizing s with
  | nil => rfl
  | cons i l ih =>
    exact (ih _ fun j hj => h j (List.mem_cons_of_mem _ hj)).trans (rd_wr_ne _ _ (h i (List.mem_cons_self ..)))

/-- Each register of a row reads as it was written. -/
theorem rd_foldl_wr {f : Nat → Nat} (hf : Function.Injective f) (g : Nat → Word) {l : List Nat} (hl : l.Nodup) (s : State) {i : Nat}
    (hi : i ∈ l) : (l.foldl (fun t i => t.wr (f i) (g i)) s).rd (f i) = g i := by
  induction l generalizing s with
  | nil => cases hi
  | cons j l ih =>
    obtain ⟨hj, hl⟩ := List.nodup_cons.mp hl
    rw [List.foldl_cons]
    rcases List.mem_cons.mp hi with rfl | hi
    · rw [rd_foldl_wr_ne _ _ _ _ fun k hk e => hj (by rwa [hf e]), rd_wr_self]
    · exact ih hl _ hi

theorem foldl_wr_frame (f : Nat → Nat) (g : Nat → Word) (l : List Nat) (s : State) :
    ∃ r, l.foldl (fun t i => t.wr (f i) (g i)) s = { s with regs := r } := by
  induction l generalizing s with
  | nil => exact ⟨_, rfl⟩
  | cons i l ih =>
    obtain ⟨r, e⟩ := ih (s.wr (f i) (g i))
    exact ⟨r, e⟩

/-! Debug reads (R145, R379). -/

theorem startPeek_asked (s : State) (p : Fin 1024) (v : Word) : p ∈ (s.startPeek p v).peeks := by
  unfold startPeek
  dsimp only
  split
  · assumption
  · simp

theorem rdF_with_peeks (s : State) (ps : List (Fin 1024)) (k lo n : Nat) : State.rdF { s with peeks := ps } k lo n = s.rdF k lo n := rfl

theorem startPeek_status (s : State) (p : Fin 1024) (v : Word) : (s.startPeek p v).rdF (Reg.PCT_PEEK_STATUS p) 0 2 = 0 := by
  obtain ⟨ps, e⟩ : ∃ ps, s.startPeek p v = { (s.mergeWord (Reg.PCT_PEEK_ADDR p) v).wrF (Reg.PCT_PEEK_STATUS p) 0 2 0 with peeks := ps } :=
    ⟨_, rfl⟩
  rw [e, rdF_with_peeks, rdF_wrF_self _ _ _ _ _ (by decide), Nat.zero_mod]

theorem finishPeek_frame (s : State) (p : Fin 1024) (masked : Bool) (v : BitVec 256) : ∃ r, s.finishPeek p masked v = { s with regs := r } := by
  obtain ⟨r, e⟩ := foldl_wr_frame (fun i => Reg.PCT_PEEK_DATA p i) (fun i => v.extractLsb' (32 * i) 32) (List.range 8) s
  rw [finishPeek, e]
  exact ⟨_, rfl⟩

theorem finishPeek_status (s : State) (p : Fin 1024) (masked : Bool) (v : BitVec 256) :
    (s.finishPeek p masked v).rdF (Reg.PCT_PEEK_STATUS p) 0 2 = 1 + 2 * masked.toNat := by
  rw [finishPeek, rdF_wrF_self _ _ _ _ _ (by decide)]
  cases masked <;> rfl

theorem finishPeek_data (s : State) (p : Fin 1024) (masked : Bool) (v : BitVec 256) {i : Nat} (hi : i < 8) :
    (s.finishPeek p masked v).rd (Reg.PCT_PEEK_DATA p i) = v.extractLsb' (32 * i) 32 := by
  have hinj : Function.Injective fun i => Reg.PCT_PEEK_DATA p i := fun a b h => by
    simp only [Reg.PCT_PEEK_DATA] at h
    omega
  rw [finishPeek, wrF_rd_ne _ _ _ _ (by unfold Reg.PCT_PEEK_DATA Reg.PCT_PEEK_STATUS; omega)]
  exact rd_foldl_wr hinj _ List.nodup_range s (List.mem_range.mpr hi)

theorem finishPeek_masked (s : State) (p : Fin 1024) (masked : Bool) (v : BitVec 256) :
    (s.finishPeek p masked v).rd Reg.SEC_MASKED = s.rd Reg.SEC_MASKED := by
  rw [finishPeek, wrF_rd_ne _ _ _ _ (by unfold Reg.SEC_MASKED Reg.PCT_PEEK_STATUS; omega)]
  exact rd_foldl_wr_ne _ _ _ s fun i _ => by unfold Reg.SEC_MASKED Reg.PCT_PEEK_DATA; omega

theorem mask_word {i : Nat} (hi : i < 8) : (BitVec.ofNat 256
    (0x4D534B44_4D534B44_4D534B44_4D534B44_4D534B44_4D534B44_4D534B44_4D534B44)).extractLsb' (32 * i) 32 = 0x4D534B44 := by
  revert i
  decide

/-! Field repair (R144). -/

theorem mergeWord_frame (s : State) (off : Nat) (v : Word) : s.mergeWord off v = { s with regs := (s.mergeWord off v).regs } := by
  unfold mergeWord
  split <;> rfl

/-- The registers of a repair command before its fuses are looked at. -/
def repairAsked (s : State) (v : Word) : State := (s.mergeWord Reg.ARY_REPAIR_CMD v).wrB Reg.ARY_REPAIR_CMD 31 false

theorem repairAsked_fuse (s : State) (v : Word) : (s.repairAsked v).fuse = s.fuse := by
  rw [repairAsked, mergeWord_frame]
  rfl

theorem burnRepair_eq {s : State} {m : Master} {v : Word} (hp : s.privileged m = true) (hgo : bit v 31 = true) (hn : fieldNat v 0 5 < 16) :
    s.burnRepair m v = if fieldNat (SMap.get 0x1F s.fuse.repair (repairRow v)) 0 5 ≠ 0x1F
      then (s.repairAsked v).wrB Reg.ARY_REPAIR_STATUS 1 true
      else State.wrB { s.repairAsked v with fuse := { (s.repairAsked v).fuse with
        repair := SMap.set 0x1F (s.repairAsked v).fuse.repair (repairRow v) (BitVec.ofNat 8 (0x80 + fieldNat v 0 5)) } }
        Reg.ARY_REPAIR_STATUS 0 true := by
  rw [burnRepair, if_pos hp]
  exact (if_pos hgo).trans (if_neg (by omega))

end State

/-- A row's fuses name the picot that burned them. -/
theorem fieldNat_repair {n : Nat} (h : n < 16) : fieldNat (BitVec.ofNat 8 (0x80 + n)) 0 5 = n := by
  rw [fieldNat_ofNat _ (by decide)]
  omega

/-- Settles O18: a debug read ends in the eight data words and DONE; a repair burns the row, or answers that it is burned. -/
theorem repairAndDebugResults : Obligations.RepairAndDebugResults := by
  intro s
  refine ⟨fun m p v ha => ?start, fun p hp hprot => ?masked, fun p => ?read, fun m v hm ha hgo hn hb => ?burn,
    fun m v hm ha hgo hn hb => ?burned⟩
  case start =>
    exact ⟨_, congrArg Host.Outcome.next (if_pos ha), State.startPeek_asked .., State.startPeek_status ..⟩
  case masked =>
    refine ⟨_, congrArg Host.Outcome.next ((if_pos hp).trans (if_pos hprot)), ?_, State.finishPeek_status .., fun i hi => ?_⟩
    · rw [State.finishPeek_masked, State.count_rd_self]
      rfl
    · rw [State.finishPeek_data _ _ _ _ hi, State.mask_word hi]
  case read =>
    intro a hp hprot hspace hw hc
    let u : State := { s with peeks := s.peeks.erase p }
    have hrun : u.runPeek p = u.finishPeek p false (s.sramRead p (fieldNat a 0 17)) := by
      have hck : u.sramCheck p [fieldNat a 0 17] = (u, true) := sramCheck_of_clean hc
      unfold State.runPeek
      simp only [show u.rd (Reg.PCT_PEEK_ADDR p) = a from rfl, show u.isProtected = false from hprot, hspace, Bool.false_eq_true, if_false,
        if_pos hw, hck, if_true]
      rfl
    refine ⟨_, congrArg Host.Outcome.next ((if_pos hp).trans hrun), State.finishPeek_status .., ?_, fun i hi => State.finishPeek_data _ _ _ _ hi⟩
    obtain ⟨r, e⟩ := u.finishPeek_frame p false (s.sramRead p (fieldNat a 0 17))
    rw [e]
  case burn =>
    refine ⟨_, congrArg Host.Outcome.next ((if_pos hm).trans ((if_pos ha).trans
      ((State.burnRepair_eq hm hgo hn).trans (if_neg hb)))), State.rdB_wrB_self _ _ (by decide) true, ?_, ?_, fun row hrow => ?_⟩
    · have hf := fieldNat_repair hn
      rw [Fuses.burned, State.wrB_fuse, SMap.get_set_self, hf]
      omega
    · rw [State.wrB_fuse, SMap.get_set_self, fieldNat_repair hn]
    · rw [State.wrB_fuse, SMap.get_set_ne _ _ _ hrow, State.repairAsked_fuse]
  case burned =>
    exact ⟨_, congrArg Host.Outcome.next ((if_pos hm).trans ((if_pos ha).trans
      ((State.burnRepair_eq hm hgo hn).trans (if_pos hb)))), State.rdB_wrB_self _ _ (by decide) true,
      (State.wrB_fuse ..).trans (State.repairAsked_fuse s v)⟩

end Sys2Proof.Machine
end

section
/-!
PROOF. Fills, bindings, the overlapped switch and flips (R135 to R140, R148).
-/

namespace Sys2Proof.Machine
open Sys2Proof.Claims

/-! A pass over distinct places, each of which changes what stands at its own place alone. -/

section Pass
variable {σ ι κ β : Type} {obs : σ → κ → β} {f : σ → ι → σ} {key : ι → κ} {g : β → β}

theorem foldl_obs_ne (hne : ∀ s i k, k ≠ key i → obs (f s i) k = obs s k) (l : List ι) (s : σ) {k : κ} (hk : ∀ i ∈ l, k ≠ key i) :
    obs (l.foldl f s) k = obs s k := by
  induction l generalizing s with
  | nil => rfl
  | cons i l ih =>
    exact (ih _ fun j hj => hk j (List.mem_cons_of_mem _ hj)).trans (hne s i k (hk i (List.mem_cons_self ..)))

/-- What a place shows after the pass is what its own turn makes of what it showed before. -/
theorem foldl_obs_self {i : ι} (hne : ∀ s j k, k ≠ key j → obs (f s j) k = obs s k) (hself : ∀ s, obs (f s i) (key i) = g (obs s (key i)))
    {l : List ι} (hl : (l.map key).Nodup) (s : σ) (hi : i ∈ l) : obs (l.foldl f s) (key i) = g (obs s (key i)) := by
  induction l generalizing s with
  | nil => cases hi
  | cons j l ih =>
    rw [List.map_cons, List.nodup_cons] at hl
    obtain ⟨hj, hl⟩ := hl
    rcases List.mem_cons.mp hi with rfl | hi
    · rw [List.foldl_cons, foldl_obs_ne hne _ _ fun k hk e => hj (by rw [e]; exact List.mem_map_of_mem hk), hself]
    · rw [List.foldl_cons, ih hl _ hi, hne _ _ _ fun e => hj (by rw [← e]; exact List.mem_map_of_mem hi)]

end Pass

namespace State
variable {s t u : State} {p : Nat}

/-! What leaves the bindings, the code and the fills of a picot as they are. -/

/-- `t` differs from `s` at most in the picot `p`, and there neither in its prickings nor in its fills. -/
structure Tended (s t : State) (p : Nat) : Prop where
  rest : t = { s with arr := { s.arr with picots := t.arr.picots } }
  others (q : Nat) (h : q ≠ p) : t.picot q = s.picot q
  logicals : (t.picot p).logicals = (s.picot p).logicals
  slots : (t.picot p).slots = (s.picot p).slots
  fills : (t.picot p).fills = (s.picot p).fills
  fillLink : (t.picot p).fillLink = (s.picot p).fillLink

theorem Tended.refl (s : State) (p : Nat) : Tended s s p := ⟨rfl, fun _ _ => rfl, rfl, rfl, rfl, rfl⟩

theorem Tended.trans (a : Tended s t p) (b : Tended t u p) : Tended s u p where
  rest := by rw [b.rest, a.rest]
  others q h := (b.others q h).trans (a.others q h)
  logicals := b.logicals.trans a.logicals
  slots := b.slots.trans a.slots
  fills := b.fills.trans a.fills
  fillLink := b.fillLink.trans a.fillLink

theorem tended_setPicot {x : Picot} (hl : x.logicals = (s.picot p).logicals) (hs : x.slots = (s.picot p).slots)
    (hf : x.fills = (s.picot p).fills) (hk : x.fillLink = (s.picot p).fillLink) : Tended s (s.setPicot p x) p where
  rest := rfl
  others q h := by rw [picot_setPicot, if_neg h]
  logicals := by rw [picot_setPicot_self, hl]
  slots := by rw [picot_setPicot_self, hs]
  fills := by rw [picot_setPicot_self, hf]
  fillLink := by rw [picot_setPicot_self, hk]

theorem tended_ite {c : Prop} [Decidable c] (a : Tended s t p) (b : Tended s u p) : Tended s (if c then t else u) p := by
  split <;> assumption

theorem tended_foldl {α : Type} {f : State → α → State} (hf : ∀ t x, Tended t (f t x) p) (l : List α) (s : State) :
    Tended s (l.foldl f s) p := by
  induction l generalizing s with
  | nil => exact .refl s p
  | cons x l ih => exact (hf s x).trans (ih _)

theorem tended_configure (s : State) (p k : Nat) : Tended s (s.configure p k) p := by
  refine (tended_foldl (fun t q => ?_) _ _).trans ((tended_foldl (fun t q => ?_) _ _).trans (tended_foldl (fun t u => ?_) _ _))
  · exact tended_ite (.refl ..) (tended_setPicot rfl rfl rfl rfl)
  · exact tended_ite (.refl ..) (tended_setPicot rfl rfl rfl rfl)
  · exact tended_ite (tended_setPicot rfl rfl rfl rfl) (.refl ..)

theorem tended_trace (s : State) (loc : At) (event detail pc : Nat) : Tended s (s.trace loc event detail pc) loc.pic :=
  tended_ite (tended_setPicot rfl rfl rfl rfl) (.refl ..)

/-! The slots and the prickings of a picot. -/

theorem slot_setSlot (x : Picot) (k j : Nat) (y : Slot) : (x.setSlot k y).slot j = if j = k then y else x.slot j := SMap.get_set ..
theorem logical_setLogical (x : Picot) (k j : Nat) (y : Logical) : (x.setLogical k y).logical j = if j = k then y else x.logical j :=
  SMap.get_set ..
theorem slot_setLogical (x : Picot) (k j : Nat) (y : Logical) : (x.setLogical k y).slot j = x.slot j := rfl
theorem logical_setSlot (x : Picot) (k j : Nat) (y : Slot) : (x.setSlot k y).logical j = x.logical j := rfl

/-- The picot in which the slot bound before has become `old`, and slot `k` is bound. -/
def rebound (x : Picot) (l k : Fin 8) (old : SlotKind) : Picot :=
  let x1 := match (x.logical l).slot with
    | some j => if j = k then x else x.setSlot j { x.slot j with kind := old }
    | none => x
  x1.setSlot k { x1.slot k with kind := .bound }

/-- The same picot with the pricking begun at bundle 0. -/
def boundTo (x : Picot) (l k : Fin 8) (old : SlotKind) : Picot :=
  (rebound x l k old).setLogical l (restart { (rebound x l k old).logical l with slot := some k })

theorem bind_eq (s : State) (p : Nat) (l k : Fin 8) (old : SlotKind) :
    s.bind p l k old = (s.setPicot p (boundTo (s.picot p) l k old)).configure p k := rfl

theorem rebound_logicals (x : Picot) (l k : Fin 8) (old : SlotKind) (j : Nat) : (rebound x l k old).logical j = x.logical j := by
  unfold rebound
  dsimp only
  rw [logical_setSlot]
  split
  · split <;> rfl
  · rfl

theorem boundTo_fills (x : Picot) (l k : Fin 8) (old : SlotKind) :
    (boundTo x l k old).fills = x.fills ∧ (boundTo x l k old).fillLink = x.fillLink := by
  change (rebound x l k old).fills = _ ∧ (rebound x l k old).fillLink = _
  unfold rebound
  dsimp only
  split
  · split <;> exact ⟨rfl, rfl⟩
  · exact ⟨rfl, rfl⟩

theorem boundTo_logical (x : Picot) (l k : Fin 8) (old : SlotKind) (j : Nat) :
    (boundTo x l k old).logical j = if j = l then restart { x.logical l with slot := some k } else x.logical j := by
  rw [boundTo, logical_setLogical, rebound_logicals, rebound_logicals]

theorem boundTo_slot (x : Picot) (l k : Fin 8) (old : SlotKind) : ((boundTo x l k old).slot k).kind = .bound := by
  rw [boundTo, slot_setLogical]
  unfold rebound
  dsimp only
  rw [slot_setSlot, if_pos rfl]

theorem boundTo_old {x : Picot} {l k j : Fin 8} {old : SlotKind} (hj : (x.logical l).slot = some j) (hk : j ≠ k) :
    ((boundTo x l k old).slot j).kind = old := by
  rw [boundTo, slot_setLogical]
  unfold rebound
  simp only [hj, if_neg hk, slot_setSlot, if_neg (Fin.val_ne_of_ne hk), if_true]

/-- A binding changes one picot alone. -/
theorem bind_rest (s : State) (p : Nat) (l k : Fin 8) (old : SlotKind) :
    s.bind p l k old = { s with arr := { s.arr with picots := (s.bind p l k old).arr.picots } } := by
  rw [bind_eq, (tended_configure _ p k).rest]
  rfl

theorem bind_others (s : State) {p q : Nat} (h : q ≠ p) (l k : Fin 8) (old : SlotKind) : (s.bind p l k old).picot q = s.picot q := by
  rw [bind_eq, (tended_configure _ p k).others q h, picot_setPicot, if_neg h]

theorem bind_fills (s : State) (p : Nat) (l k : Fin 8) (old : SlotKind) :
    ((s.bind p l k old).picot p).fills = (s.picot p).fills ∧ ((s.bind p l k old).picot p).fillLink = (s.picot p).fillLink := by
  rw [bind_eq, (tended_configure _ p k).fills, (tended_configure _ p k).fillLink, picot_setPicot_self]
  exact boundTo_fills ..

theorem bind_logical (s : State) (p : Nat) (l k : Fin 8) (old : SlotKind) (j : Nat) :
    ((s.bind p l k old).picot p).logical j =
      if j = l then restart { (s.picot p).logical l with slot := some k } else (s.picot p).logical j := by
  rw [bind_eq, Picot.logical, (tended_configure _ p k).logicals, picot_setPicot_self]
  exact boundTo_logical ..

theorem bind_slot (s : State) (p : Nat) (l k : Fin 8) (old : SlotKind) : (((s.bind p l k old).picot p).slot k).kind = .bound := by
  rw [bind_eq, Picot.slot, (tended_configure _ p k).slots, picot_setPicot_self]
  exact boundTo_slot ..

theorem bind_old {s : State} {p : Nat} {l k j : Fin 8} {old : SlotKind} (hj : ((s.picot p).logical l).slot = some j) (hk : j ≠ k) :
    (((s.bind p l k old).picot p).slot j).kind = old := by
  rw [bind_eq, Picot.slot, (tended_configure _ p k).slots, picot_setPicot_self]
  exact boundTo_old hj hk

end State

/-! The fills that the links carry (R135). -/

theorem SMap.find_insert_self {α : Type} (m : SMap α) (k : Nat) (v : α) :
    (SMap.insert m k v).find? (fun e => decide (e.1 = k)) = some (k, v) := by
  induction m with
  | nil => simp [SMap.insert]
  | cons e m ih =>
    rw [SMap.insert]
    split
    · simp
    · split
      · simp
      · next h => rw [List.find?_cons_of_neg (by simpa using Ne.symm h), ih]

theorem SMap.find_erase_self {α : Type} (m : SMap α) (k : Nat) : (SMap.erase m k).find? (fun e => decide (e.1 = k)) = none := by
  induction m with
  | nil => rfl
  | cons e m ih =>
    rw [SMap.erase]
    split
    · exact ih
    · next h => rw [List.find?_cons_of_neg (by simpa using Ne.symm h), ih]

theorem SMap.mem_insert_ne {α : Type} (m : SMap α) (k : Nat) (v : α) {e : Nat × α} (h : e.1 ≠ k) : e ∈ SMap.insert m k v ↔ e ∈ m := by
  induction m with
  | nil => simp [SMap.insert, Prod.ext_iff, h]
  | cons x m ih =>
    have hne : e ≠ (k, v) := fun he => h (congrArg Prod.fst he)
    rw [SMap.insert]
    split
    · simp [hne]
    · split
      · next hk =>
        have hx : e ≠ x := fun he => h ((congrArg Prod.fst he).trans hk.symm)
        simp [hne, hx]
      · simp [ih]

namespace State

theorem filling_congr {x y : Picot} (h : y.fills = x.fills) (hk : y.fillLink = x.fillLink) : filling y = filling x := by
  rw [filling, h, hk, filling]

/-! FILL flits (R135). -/

/-- The fill that a header announces. -/
def announced (data : BitVec 256) (discard : Bool) : FillIn :=
  { slot := (field data 10 3 : BitVec 3).toFin, logical := (field data 13 3 : BitVec 3).toFin, mode := field data 16 2,
    left := fieldNat data 32 16, index := 0, discard := discard }

/-- The picot whose last FILL link carries the fill `f`. -/
def carrying (x : Picot) (f : FillIn) : Picot := { x with fills := SMap.insert x.fills x.fillLink f }

theorem filling_carrying (x : Picot) (f : FillIn) : filling (carrying x f) = some f := by
  rw [filling, carrying, SMap.find_insert_self]
  rfl

theorem mem_carrying {x : Picot} {e : Nat × FillIn} (h : e.1 ≠ x.fillLink) (f : FillIn) : e ∈ (carrying x f).fills ↔ e ∈ x.fills :=
  SMap.mem_insert_ne _ _ _ h

theorem fillFlit_of_none {s : State} {p : Fin 1024} (h : filling (s.picot p) = none) (data : BitVec 256) :
    s.fillFlit p data = s.fillHeader p data := by
  unfold fillFlit
  rw [h]

theorem fillFlit_of_some {s : State} {p : Fin 1024} {f : FillIn} (h : filling (s.picot p) = some f) (data : BitVec 256) :
    s.fillFlit p data = s.fillBody p f data := by
  unfold fillFlit
  rw [h]

/-- A header of another picot's fill. -/
theorem fillHeader_of_foreign {s : State} {p : Fin 1024} {data : BitVec 256}
    (h : ¬(fieldNat data 0 5 = p.val % 32 ∧ fieldNat data 5 5 = p.val / 32)) (hl : fieldNat data 32 16 ≠ 0) :
    s.fillHeader p data = s.setPicot p (carrying (s.picot p) (announced data true)) := by
  rw [fillHeader, if_pos (by simpa using h)]
  exact if_neg hl

/-- A header that begins a fill empties its slot. -/
theorem fillHeader_of_mine {s : State} {p : Fin 1024} {data : BitVec 256} (h : fieldNat data 0 5 = p.val % 32 ∧ fieldNat data 5 5 = p.val / 32)
    (hc : ¬(field data 16 2 = (3 : BitVec 2) ∨ fieldNat data 32 16 = 0 ∨ fieldNat data 18 14 ≠ 0 ∨ fieldNat data 48 16 ≠ 0 ∨
      fieldNat data 64 192 ≠ 0 ∨ ((s.picot p).slot (field data 10 3 : BitVec 3).toFin).kind ≠ .free)) :
    ∃ y : Picot, y.fills = (s.picot p).fills ∧ y.fillLink = (s.picot p).fillLink ∧
      s.fillHeader p data = (s.setPicot p y).setPicot p (carrying y (announced data false)) := by
  refine ⟨(s.picot p).setSlot (field data 10 3 : BitVec 3).toFin { (s.picot p).slot (field data 10 3 : BitVec 3).toFin with flits := [] },
    rfl, rfl, ?_⟩
  rw [fillHeader, if_neg (by simpa using h)]
  refine (if_neg hc).trans ?_
  dsimp only
  rw [picot_setPicot_self]
  rfl

/-- The picot with a body flit of its fill stored. -/
def storing (s : State) (x : Picot) (f : FillIn) (data : BitVec 256) : Picot :=
  x.setSlot f.slot { x.slot f.slot with
    flits := SMap.set Stored.blank (x.slot f.slot).flits f.index { gen := s.keyGen, word := data } }

theorem fillBody_goes_on {s : State} {p : Fin 1024} {f : FillIn} (hd : f.discard = false) (hl : 1 < f.left) (data : BitVec 256) :
    s.fillBody p f data = s.setPicot p (carrying (s.storing (s.picot p) f data) { f with left := f.left - 1, index := f.index + 1 }) := by
  simp only [fillBody, hd, if_neg (not_le.mpr hl), Bool.false_eq_true, if_false]
  rfl

theorem fillBody_discards {s : State} {p : Fin 1024} {f : FillIn} (hd : f.discard = true) (hl : 1 < f.left) (data : BitVec 256) :
    s.fillBody p f data = s.setPicot p (carrying (s.picot p) { f with left := f.left - 1, index := f.index + 1 }) := by
  simp only [fillBody, hd, if_neg (not_le.mpr hl), if_true]
  rfl

/-- The picot whose last FILL link carries no fill any more. -/
def carryingNone (x : Picot) : Picot := { x with fills := SMap.erase x.fills x.fillLink }

theorem fillBody_ends {s : State} {p : Fin 1024} {f : FillIn} (hd : f.discard = false) (hl : f.left = 1) (data : BitVec 256) :
    s.fillBody p f data = (s.setPicot p (carryingNone (s.storing (s.picot p) f data))).fillDone p f := by
  simp only [fillBody, hd, if_pos hl.le, Bool.false_eq_true, if_false]
  rfl

theorem filling_carryingNone (x : Picot) : filling (carryingNone x) = none := by
  rw [filling, carryingNone, SMap.find_erase_self]
  rfl

/-! The end of a fill by its MODE (R136, R137, R139). -/

theorem fillDone_others (s : State) {p q : Nat} (h : q ≠ p) (f : FillIn) : (s.fillDone p f).picot q = s.picot q := by
  unfold fillDone
  dsimp only
  split
  · rw [picot_setPicot, if_neg h]
  · rw [picot_setPicot, if_neg h]
  · exact bind_others s h ..

theorem fillDone_filling (s : State) (p : Nat) (f : FillIn) : filling ((s.fillDone p f).picot p) = filling (s.picot p) := by
  unfold fillDone
  dsimp only
  split
  · rw [picot_setPicot_self]
    rfl
  · rw [picot_setPicot_self]
    rfl
  · exact filling_congr (bind_fills s p _ _ _).1 (bind_fills s p _ _ _).2

theorem fillDone_shadow (s : State) (p : Nat) {f : FillIn} (h : f.mode = 0) : (((s.fillDone p f).picot p).slot f.slot).kind = .shadow ∧
    (((s.fillDone p f).picot p).logical f.logical).shadow = some f.slot := by
  have he : s.fillDone p f = s.setPicot p (((s.picot p).setSlot f.slot { (s.picot p).slot f.slot with kind := .shadow }).setLogical f.logical
      { (s.picot p).logical f.logical with shadow := some f.slot }) := by
    unfold fillDone
    rw [h]
    rfl
  rw [he, picot_setPicot_self, logical_setLogical, if_pos rfl, slot_setLogical, slot_setSlot, if_pos rfl]
  exact ⟨rfl, rfl⟩

theorem fillDone_follow (s : State) (p : Nat) {f : FillIn} (h : f.mode = 1) :
    (((s.fillDone p f).picot p).logical f.logical).follow = some f.slot := by
  have he : s.fillDone p f = s.setPicot p ((s.picot p).setLogical f.logical { (s.picot p).logical f.logical with follow := some f.slot }) := by
    unfold fillDone
    rw [h]
    rfl
  rw [he, picot_setPicot_self, logical_setLogical, if_pos rfl]

theorem fillDone_start (s : State) (p : Nat) {f : FillIn} (h : f.mode = 2) : s.fillDone p f = s.bind p f.logical f.slot .free := by
  unfold fillDone
  rw [h]
  rfl

end State

/-- Settles O16: a header's fields choose between a fill and a discarded one, a body flit goes to its place, and MODE says what the last
one does. -/
theorem fillResults : Obligations.FillResults := by
  refine ⟨fun s p data last => ?flits, fun s p data last f => ?last⟩
  case flits =>
    intro x k lg mode others
    have hothers (y : Picot) (f : FillIn) (hf : y.fills = x.fills) (hk : y.fillLink = x.fillLink) : others (State.carrying y f) := fun e he =>
      (State.mem_carrying (by rw [hk]; exact he) f).trans (by rw [hf])
    refine ⟨fun hf h0 h1 hm hl hz hz1 hz2 hfree => ?header, fun hf h hl => ?foreign, fun f hf hd hleft => ?body, fun f hf hd hleft => ?discard⟩
    case header =>
      obtain ⟨y, hyf, hyk, he⟩ := State.fillHeader_of_mine (s := s) (data := data) ⟨h0, h1⟩ (by
        rintro (h | h | h | h | h | h)
        exacts [hm h, hl h, h hz, h hz1, h hz2, h hfree])
      refine ⟨_, congrArg Host.Outcome.next ((State.fillFlit_of_none hf data).trans he),
        onlyPicot_trans (onlyPicot_setPicot ..) (onlyPicot_setPicot ..), ?_, ?_⟩
      · rw [picot_setPicot_self]
        exact hothers y _ hyf hyk
      · rw [picot_setPicot_self]
        exact State.filling_carrying ..
    case foreign =>
      refine ⟨_, congrArg Host.Outcome.next ((State.fillFlit_of_none hf data).trans (State.fillHeader_of_foreign h hl)),
        onlyPicot_setPicot .., State.announced data true, ?_⟩
      rw [picot_setPicot_self]
      exact ⟨hothers x _ rfl rfl, rfl, State.filling_carrying .., rfl, rfl⟩
    case body =>
      refine ⟨_, congrArg Host.Outcome.next ((State.fillFlit_of_some hf data).trans (State.fillBody_goes_on hd hleft data)),
        onlyPicot_setPicot .., ?_⟩
      rw [picot_setPicot_self]
      refine ⟨hothers (s.storing x f data) _ rfl rfl, State.filling_carrying .., ?_, fun i hi => ?_⟩
      · change SMap.get _ ((s.storing x f data).slot f.slot).flits f.index = _
        rw [State.storing, State.slot_setSlot, if_pos rfl]
        exact SMap.get_set_self ..
      · change SMap.get _ ((s.storing x f data).slot f.slot).flits i = _
        rw [State.storing, State.slot_setSlot, if_pos rfl]
        exact SMap.get_set_ne _ _ _ hi
    case discard =>
      refine ⟨_, congrArg Host.Outcome.next ((State.fillFlit_of_some hf data).trans (State.fillBody_discards hd hleft data)),
        onlyPicot_setPicot .., ?_⟩
      rw [picot_setPicot_self]
      exact ⟨hothers x _ rfl rfl, rfl, State.filling_carrying ..⟩
  case last =>
    intro x hf hd hleft
    let z := State.carryingNone (s.storing x f data)
    have hz : (s.setPicot p z).picot p = z := picot_setPicot_self ..
    refine ⟨_, congrArg Host.Outcome.next ((State.fillFlit_of_some hf data).trans (State.fillBody_ends hd hleft data)), fun q hq => ?_, ?_,
      fun hm => State.fillDone_shadow _ _ hm, fun hm => State.fillDone_follow _ _ hm, fun hm => ?_⟩
    · rw [State.fillDone_others _ hq, picot_setPicot, if_neg hq]
    · rw [State.fillDone_filling, picot_setPicot_self]
      exact State.filling_carryingNone _
    · rw [State.fillDone_start _ _ hm]
      refine ⟨State.bind_slot .., ?_⟩
      rw [State.bind_logical, if_pos rfl]
      exact ⟨rfl, rfl, rfl, rfl, rfl, rfl, fun j hj hne => State.bind_old (by rw [picot_setPicot_self]; exact hj) hne⟩

end Sys2Proof.Machine
end

section
/-!
PROOF. The overlapped switch and flips (R137, R139, R140).
-/

namespace Sys2Proof.Machine
open Sys2Proof.Claims

namespace State

theorem lg_of_logical (s : State) (loc : At) : s.lg loc = (s.picot loc.pic).logical loc.lg := rfl

theorem logical_setLg (s : State) (loc : At) (l : Logical) (j : Nat) :
    ((s.setLg loc l).picot loc.pic).logical j = if j = loc.lg then l else (s.picot loc.pic).logical j := by
  rw [setLg, picot_setPicot_self]
  exact logical_setLogical ..

theorem logical_trace (s : State) (loc : At) (event detail pc j : Nat) :
    ((s.trace loc event detail pc).picot loc.pic).logical j = (s.picot loc.pic).logical j := by
  rw [Picot.logical, (tended_trace s loc event detail pc).logicals, Picot.logical]

/-! The overlapped switch (R137). -/

/-- The switch: nothing follows any more, and the slot that followed is bound. -/
theorem followBind_of_due {s : State} {loc : At} {k : Fin 8} (hf : (s.lg loc).follow = some k)
    (h : (s.lg loc).ended = true ∨ (s.lg loc).slot = none) : s.followBind loc =
      ((s.setLg loc { s.lg loc with follow := none }).trace loc 2 0 (s.lg loc).pc).bind loc.pic loc.lg k .free := by
  unfold followBind
  dsimp only
  rw [hf]
  exact if_pos (by rcases h with h | h <;> simp [h])

theorem followBind_of_not_due {s : State} {loc : At} {k : Fin 8} (hf : (s.lg loc).follow = some k) (he : (s.lg loc).ended = false)
    (hs : (s.lg loc).slot ≠ none) : s.followBind loc = s := by
  unfold followBind
  dsimp only
  rw [hf]
  exact if_neg (by simp [he, hs])

/-! Arming a flip (R139, R140). -/

/-- An arming that is not rejected. -/
theorem armFlipAt_of_ready {s : State} {n : DWord} {sel : Word} (hn : s.arr.round.toNat < n.toNat) (ha : s.rdB Reg.ARY_FLIP_STATUS 0 = false)
    (hall : ∀ l < 8, bit sel l = true → s.lacksShadow l = false) :
    s.armFlipAt n sel = (State.wrB { s with arr := { s.arr with flip := (n, sel) } } Reg.ARY_FLIP_STATUS 0 true, true) := by
  have hmissing : (List.range 8).any (fun l => bit sel l && s.lacksShadow l) = false := by
    simp only [List.any_eq_false, List.mem_range, Bool.and_eq_true, not_and, Bool.not_eq_true]
    exact hall
  simp only [armFlipAt, hmissing, ha]
  exact if_neg (by simp [hn])

/-- The state with a flip armed. -/
def armed (s : State) (hi : Word) : State :=
  ((State.wr { s with
    arr := { s.arr with flip := (hi ++ s.rd Reg.ARY_FLIP, s.rd Reg.ARY_FLIP_CFG) } } (Reg.ARY_FLIP + 4) hi).wrB Reg.ARY_FLIP_STATUS 0 true)

theorem armFlip_of_ready {s : State} {hi : Word} (hn : s.arr.round.toNat < (hi ++ s.rd Reg.ARY_FLIP).toNat)
    (ha : s.rdB Reg.ARY_FLIP_STATUS 0 = false) (hall : ∀ l < 8, bit (s.rd Reg.ARY_FLIP_CFG) l = true → s.lacksShadow l = false) :
    s.armFlip hi = (s.armed hi, true) := by
  have hrd : (s.wr (Reg.ARY_FLIP + 4) hi).rd64 Reg.ARY_FLIP = hi ++ s.rd Reg.ARY_FLIP := by
    rw [rd64, rd_wr_self, rd_wr_ne _ _ (by decide)]
  have hbusy : (s.wr (Reg.ARY_FLIP + 4) hi).rdB Reg.ARY_FLIP_STATUS 0 = false := (rdB_congr (rd_wr_ne _ _ (by decide)) 0).trans ha
  rw [armFlip, hrd]
  exact armFlipAt_of_ready (s := s.wr (Reg.ARY_FLIP + 4) hi) hn hbusy hall

theorem onlyRegs_armed (s : State) (hi : Word) :
    OnlyRegs { s with arr := { s.arr with flip := (hi ++ s.rd Reg.ARY_FLIP, s.rd Reg.ARY_FLIP_CFG) } } (s.armed hi)
      [Reg.ARY_FLIP + 4, Reg.ARY_FLIP_STATUS] :=
  onlyRegs_trans (onlyRegs_wr _ (List.mem_cons_self ..) _) (onlyRegs_wrB _ (List.mem_cons_of_mem _ (List.mem_cons_self ..)) _ _)

/-! The flip (R139). -/

/-- A pricking whose shadow has taken its place. -/
def flipped (x : Logical) : Logical :=
  match x.shadow with
  | none => x
  | some k => { restart { x with slot := some k } with shadow := x.slot }

theorem flipped_of_shadow {x : Logical} {k : Fin 8} (h : x.shadow = some k) : (flipped x).slot = some k ∧ (flipped x).shadow = x.slot ∧
    (flipped x).pc = 0 ∧ (flipped x).gp = [] := by
  unfold flipped
  rw [h]
  exact ⟨rfl, rfl, rfl, rfl⟩

theorem flipOne_others (s : State) (p : Fin 1024) (l : Fin 8) {q : Nat} (h : q ≠ p.val) : (s.flipOne p l).picot q = s.picot q := by
  unfold flipOne
  dsimp only
  split
  · rfl
  · rw [picot_setLg_ne _ _ _ h, bind_others _ h, (tended_trace _ _ _ _ _).others q h]

/-- A flip of one pricking of a picot changes that one alone. -/
theorem flipOne_logical (s : State) (p : Fin 1024) (l : Fin 8) (j : Nat) :
    ((s.flipOne p l).picot p).logical j = if j = l then flipped ((s.picot p).logical l) else (s.picot p).logical j := by
  unfold flipOne
  dsimp only
  split
  · next hk =>
    rw [flipped, hk]
    split
    · next hj => rw [hj]
    · rfl
  · next k hk =>
    rw [logical_setLg _ { pic := p, lg := l }, lg_of_logical]
    dsimp only
    rw [bind_logical, bind_logical, if_pos rfl, logical_trace _ { pic := p, lg := l }, logical_trace _ { pic := p, lg := l }]
    by_cases hj : j = l.val
    · rw [if_pos hj, if_pos hj, flipped, hk]
      rfl
    · rw [if_neg hj, if_neg hj, if_neg hj]

theorem flipOne_regs (s : State) (p : Fin 1024) (l : Fin 8) : (s.flipOne p l).regs = s.regs := by
  unfold flipOne
  dsimp only
  split
  · rfl
  · rw [setLg, setPicot, bind_rest, (tended_trace _ _ _ _ _).rest]

/-- A picot's part of the flip. -/
def flipPicot (sel : Word) (s : State) (p : Nat) : State :=
  (List.finRange 8).foldl (fun u l => if bit sel l.val then (if h : p < 1024 then u.flipOne ⟨p, h⟩ l else u) else u) s

theorem flipAll_eq (s : State) : s.flipAll =
    ((((s.arr.picots.map Prod.fst).foldl (flipPicot s.arr.flip.2) s).countF Reg.ARY_FLIP_STATUS 16 16).wrB
      Reg.ARY_FLIP_STATUS 0 false).adaptFlip s.arr.flip.2 := rfl

theorem flipPicot_others (sel : Word) (s : State) {p q : Nat} (h : q ≠ p) : (flipPicot sel s p).picot q = s.picot q :=
  foldl_leaves (fun t : State => t.picot q) _ _ _ fun t l _ => by
    split
    · split
      · exact flipOne_others _ _ _ h
      · rfl
    · rfl

theorem flipPicot_regs (sel : Word) (s : State) (p : Nat) : (flipPicot sel s p).regs = s.regs :=
  foldl_leaves State.regs _ _ _ fun t l _ => by
    split
    · split
      · exact flipOne_regs ..
      · rfl
    · rfl

/-- Every selected pricking of the picot is flipped, no other changes. -/
theorem flipPicot_logical (sel : Word) (s : State) (p : Fin 1024) (l : Fin 8) : ((flipPicot sel s p).picot p).logical l =
    if bit sel l.val then flipped ((s.picot p).logical l) else (s.picot p).logical l := by
  refine foldl_obs_self (obs := fun (t : State) (j : Fin 8) => (t.picot p).logical j) (key := id)
    (g := fun x => if bit sel l.val then flipped x else x) (fun t i j hj => ?_) (fun t => ?_)
    (by rw [List.map_id]; exact List.nodup_finRange 8) s (List.mem_finRange l)
  · split
    · rw [dif_pos p.isLt, flipOne_logical]
      exact if_neg (Fin.val_ne_of_ne hj)
    · rfl
  · dsimp only [id]
    split
    · rw [dif_pos p.isLt, flipOne_logical, if_pos rfl]
    · rfl

theorem adaptFlip_frame (s : State) (sel : Word) : s.adaptFlip sel = { s with adapt := (s.adaptFlip sel).adapt } := by
  unfold adaptFlip
  dsimp only
  split <;> rfl

/-- What the end of a flip makes of the status register. -/
def flipEnd (u : State) (a : Adapt) : State :=
  { (u.countF Reg.ARY_FLIP_STATUS 16 16).wrB Reg.ARY_FLIP_STATUS 0 false with
    adapt := a }

theorem rd_withAdapt (u : State) (a : Adapt) (k : Nat) : ({ u with adapt := a } : State).rd k = u.rd k := rfl

theorem flipEnd_rd (u : State) (a : Adapt) (k : Nat) :
    (u.flipEnd a).rd k = ((u.countF Reg.ARY_FLIP_STATUS 16 16).wrB Reg.ARY_FLIP_STATUS 0 false).rd k := rd_withAdapt ..

theorem flipEnd_armed (u : State) (a : Adapt) : (u.flipEnd a).rdB Reg.ARY_FLIP_STATUS 0 = false := by
  rw [rdB_congr (flipEnd_rd u a _), rdB_wrB_self _ _ (by decide)]

theorem flipEnd_count (u : State) (a : Adapt) :
    (u.flipEnd a).rdF Reg.ARY_FLIP_STATUS 16 16 = min (u.rdF Reg.ARY_FLIP_STATUS 16 16 + 1) 65535 := by
  rw [rdF_congr (flipEnd_rd u a _), rdF_wrB_ne _ _ (by decide) fun _ => .inr (by decide), countF, rdF_wrF_self _ _ _ _ _ (by decide)]
  omega

theorem flipEnd_picot (u : State) (a : Adapt) (p : Nat) : (u.flipEnd a).picot p = u.picot p := rfl

/-- The flip of every picot, and its end. -/
theorem flipAll_parts (s : State) : ∃ a, s.flipAll = ((s.arr.picots.map Prod.fst).foldl (flipPicot s.arr.flip.2) s).flipEnd a :=
  ⟨_, (flipAll_eq s).trans (adaptFlip_frame ..)⟩

theorem flipped_picots_regs (sel : Word) (s : State) (ps : List Nat) : (ps.foldl (flipPicot sel) s).regs = s.regs :=
  foldl_leaves State.regs _ _ _ fun t p _ => flipPicot_regs _ t p

theorem flipped_picots_logical (sel : Word) (s : State) {ps : List Nat} (hn : ps.Nodup) {p : Fin 1024} (hp : p.val ∈ ps) (l : Fin 8) :
    ((ps.foldl (flipPicot sel) s).picot p).logical l =
      if bit sel l.val then flipped ((s.picot p).logical l) else (s.picot p).logical l := by
  refine congrFun (foldl_obs_self (obs := fun (t : State) (q : Nat) (l : Fin 8) => (t.picot q).logical l) (f := flipPicot sel) (key := id)
    (g := fun x l => if bit sel l.val then flipped (x l) else x l) (fun t q r hr => ?_) (fun t => ?_) (by rwa [List.map_id]) s hp) l
  · funext l
    exact congrArg (fun x : Picot => x.logical l) (flipPicot_others sel t hr)
  · funext l
    exact flipPicot_logical sel t p l

end State

/-- Settles O17: a switch is one binding; a flip runs over distinct picots and, in each, over the eight prickings. -/
theorem followAndFlipResults : Obligations.FollowAndFlipResults := by
  refine ⟨fun s loc k => ?follow, fun s => ⟨fun m hi ha hs hn hall => ?arm, fun hs hnodup => ?flip, fun hs => ?idle⟩⟩
  case follow =>
    intro l hf
    refine ⟨fun h => ⟨_, congrArg Host.Outcome.next (State.followBind_of_due hf h), fun q hq => ?_, ?_⟩,
      fun he hs => congrArg Host.Outcome.next (State.followBind_of_not_due hf he hs)⟩
    · rw [State.bind_others _ hq, (State.tended_trace _ _ _ _ _).others q hq, picot_setLg_ne _ _ _ hq]
    · have hlog : (State.picot ((s.setLg loc { l with follow := none }).trace loc 2 0 l.pc) loc.pic).logical loc.lg =
          { l with follow := none } := by
        rw [State.logical_trace, State.logical_setLg, if_pos rfl]
      rw [State.lg_of_logical, State.bind_logical, if_pos rfl, hlog]
      exact ⟨rfl, rfl, rfl, rfl, State.bind_slot .., fun j hj hne => State.bind_old (by rw [hlog]; exact hj) hne⟩
  case arm =>
    have harm := State.armFlip_of_ready hn hs hall
    have hw : s.writeFlip m hi = s.armed hi := by
      unfold State.writeFlip
      dsimp only
      rw [harm]
      exact if_neg (by simp)
    refine ⟨_, congrArg Host.Outcome.next ((if_pos ha).trans hw), State.onlyRegs_armed s hi, ?_, State.rdB_wrB_self _ _ (by decide) true⟩
    rw [State.armed, State.wrB_rd_ne _ _ _ (by decide), State.rd_wr_self]
  case flip =>
    obtain ⟨a, he⟩ := State.flipAll_parts s
    refine ⟨_, congrArg Host.Outcome.next ((if_pos hs).trans he), State.flipEnd_armed .., ?_, fun p l k hp hk => ?_⟩
    · rw [State.flipEnd_count, State.rdF_congr (State.rd_congr (State.flipped_picots_regs ..) _)]
    · rw [State.flipEnd_picot, State.flipped_picots_logical _ _ hnodup hp]
      refine ⟨fun hb => ?_, fun hb => if_neg (by simp [hb])⟩
      rw [if_pos hb]
      exact State.flipped_of_shadow hk
  case idle => exact congrArg Host.Outcome.next (if_neg (by simp [hs]))

end Sys2Proof.Machine
end

section
/-!
PROOF. Lanes, Noler frames and JESD204C links (R74 to R91).
-/

namespace Sys2Proof.Machine
open Sys2Proof.Claims

/-! A write of a key that a search of a store passes over. -/

section Search
variable {α β : Type} {f : Nat × α → Option β} {k : Nat} (hk : ∀ v, f (k, v) = none)
include hk

theorem SMap.passed {e : Nat × α} (h : k = e.1) : f e = none := by
  rw [show e = (k, e.2) from Prod.ext h.symm rfl]
  exact hk _

theorem SMap.filterMap_erase (m : SMap α) : (SMap.erase m k).filterMap f = m.filterMap f := by
  induction m with
  | nil => rfl
  | cons e m ih =>
    rw [SMap.erase]
    split
    · next h => rw [ih, List.filterMap_cons, SMap.passed hk h]
    · rw [List.filterMap_cons, List.filterMap_cons, ih]

theorem SMap.filterMap_insert (m : SMap α) (v : α) : (SMap.insert m k v).filterMap f = m.filterMap f := by
  induction m with
  | nil => simp [SMap.insert, hk]
  | cons e m ih =>
    rw [SMap.insert]
    split
    · rw [List.filterMap_cons, hk]
    · split
      · next h => rw [List.filterMap_cons, List.filterMap_cons, hk, SMap.passed hk h]
      · rw [List.filterMap_cons, List.filterMap_cons, ih]

theorem SMap.filterMap_set [DecidableEq α] (d : α) (m : SMap α) (v : α) : (SMap.set d m k v).filterMap f = m.filterMap f := by
  unfold SMap.set
  split
  · exact SMap.filterMap_erase hk m
  · exact SMap.filterMap_insert hk m v

end Search

namespace State
variable {s t : State}

/-! The enabled channels, and what flows. -/

/-- A register that maps no channel leaves the channels as they are. -/
theorem channels_wr (s : State) {k : Nat} (hk : ¬(0x0002_4000 ≤ k ∧ k < 0x0002_8000)) (v : Word) : (s.wr k v).channels = s.channels :=
  SMap.filterMap_set (fun _ => if_neg fun h => hk ⟨h.1, h.2.1⟩) _ _ _

theorem channels_countIdle (s : State) (block frames : Nat) : (s.countIdle block frames).channels = s.channels := by
  unfold countIdle
  split
  · rfl
  · exact channels_wr s (by decide) _

theorem countIdle_frame (s : State) (block frames : Nat) : s.countIdle block frames = { s with regs := (s.countIdle block frames).regs } := by
  unfold countIdle
  split <;> rfl

theorem countIdle_rd (s : State) (block frames : Nat) {k : Nat} (h : k ≠ Reg.SEC_IDLE_FRAMES) : (s.countIdle block frames).rd k = s.rd k := by
  unfold countIdle
  split
  · rfl
  · exact count_rd_ne _ _ h

/-- The flow of samples depends on the context's state, the replay mode and the last block. -/
theorem flows_congr (hc : t.rd Reg.SEC_CTX_STATUS = s.rd Reg.SEC_CTX_STATUS) (he : t.rd Reg.ING_EB_MODE = s.rd Reg.ING_EB_MODE)
    (hl : t.ing.lastBlock = s.ing.lastBlock) (b : Nat) : t.flows b = s.flows b := by
  rw [flows, flows, replaying, rdB, he, ctx, rdF, hc, hl, ctx, replaying, rdB, rdF]

theorem blockOf_congr (h : t.rd Reg.ING_BLOCK_CFG = s.rd Reg.ING_BLOCK_CFG) (n : Nat) : t.blockOf n = s.blockOf n := by
  rw [blockOf, blockOf, blockLen, blockLog, rdF_congr h, blockLen, blockLog]

/-- What passes into the front end after an idle count is what would have passed before it. -/
theorem flows_countIdle (s : State) (block frames : Nat) : (fun x : RawSample =>
    (s.countIdle block frames).flows ((s.countIdle block frames).blockOf x.index)) = fun x => s.flows (s.blockOf x.index) := by
  funext x
  rw [flows_congr (countIdle_rd s _ _ (by decide)) (countIdle_rd s _ _ (by decide)) (by rw [countIdle_frame]),
    blockOf_congr (countIdle_rd s _ _ (by decide))]

theorem frameRaw_congr (h : t.channels = s.channels) (n : Nat) (f : NolerFrame) (stamp : DWord) : t.frameRaw n f stamp = s.frameRaw n f stamp := by
  simp only [frameRaw, fedBy, h]

theorem lane_setLane_self (s : State) (n : Nat) (x : LaneIn) : (s.setLane n x).lane n = x := SMap.get_set_self ..
theorem link_setLink_self (s : State) (k : Nat) (x : JLink) : (s.setLink k x).link k = x := SMap.get_set_self ..

/-! A write of a lane's or a link's configuration (R74, R82, R85). -/

theorem wordKey_of_low {off : Nat} (h : off < 0x0004_0404) (s : State) : s.wordKey off = off := by
  unfold wordKey
  rw [if_neg (by omega), if_neg (by omega), if_neg (by omega), if_neg (by omega)]

theorem mergeWord_rd_congr {off : Nat} (hoff : off < 0x0004_0404) (h : t.rd off = s.rd off) (v : Word) :
    (t.mergeWord off v).rd off = (s.mergeWord off v).rd off := by
  unfold mergeWord
  dsimp only
  split
  · exact h
  · rw [wordKey_of_low hoff, wordKey_of_low hoff, rd_wr_self, rd_wr_self, h]

theorem mergeWord_rd_ne {off k : Nat} (hoff : off < 0x0004_0404) (h : k ≠ off) (s : State) (v : Word) : (s.mergeWord off v).rd k = s.rd k := by
  unfold mergeWord
  dsimp only
  split
  · rfl
  · rw [wordKey_of_low hoff, rd_wr_ne _ _ h]

theorem dropLinks_regs (s : State) : s.dropLinks.regs = s.regs := foldl_leaves State.regs _ _ _ fun t k _ => by
  split <;> rfl

theorem adaptEq_regs (s : State) (n : Nat) : (s.adaptEq n).regs = s.regs := by
  change s.free256.2.regs = _
  rw [free256_snd]
  simp only [free_snd_regs]

theorem laneStatus_inj {a b : Nat} (h : Reg.ING_LANE_STATUS a = Reg.ING_LANE_STATUS b) : a = b := by
  unfold Reg.ING_LANE_STATUS at h
  omega

/-- Losing lanes touches LOCK and ALIGNED alone. -/
theorem dropLane_bit (s : State) {m : Nat} (hm : m < 64) {k l : Nat} (hl : l < 32) (h : (∃ n < 64, k = Reg.ING_LANE_STATUS n) → 1 < l) :
    (s.dropLane m).rdB k l = s.rdB k l := by
  have hne (i : Nat) (hi : i ≤ 1) (e : k = Reg.ING_LANE_STATUS m) : l ≠ i := by have := h ⟨m, hm, e⟩; omega
  have hbits (t : State) : ((t.wrB (Reg.ING_LANE_STATUS m) 0 false).wrB (Reg.ING_LANE_STATUS m) 1 false).rdB k l = t.rdB k l := by
    rw [rdB_wrB_ne _ _ hl (hne 1 (by omega)), rdB_wrB_ne _ _ hl (hne 0 (by omega))]
  unfold dropLane
  split
  · rfl
  · dsimp only
    rw [hbits]
    split
    · exact rdB_congr (rd_congr (adaptEq_regs s m) k) l
    · rfl

/-- Setting CFG_ERR anew touches that bit alone. -/
theorem setCfgErrs_bit (s : State) {k l : Nat} (hl : l < 32) (h : (∃ n < 64, k = Reg.ING_LANE_STATUS n) → l ≠ 6) :
    s.setCfgErrs.rdB k l = s.rdB k l :=
  foldl_leaves (fun t : State => t.rdB k l) _ _ _ fun _ n hn => rdB_wrB_ne _ _ hl fun e => h ⟨n, List.mem_range.mp hn, e⟩

theorem setCfgErrs_cfgErr (s : State) {n : Nat} (hn : n < 64) : s.setCfgErrs.rdB (Reg.ING_LANE_STATUS n) 6 = s.laneCfgErr n :=
  foldl_obs_self (obs := fun (t : State) n => t.rdB (Reg.ING_LANE_STATUS n) 6) (key := id) (g := fun _ => s.laneCfgErr n)
    (fun _ _ _ hj => rdB_wrB_ne _ _ (by decide) fun e => absurd (laneStatus_inj e) hj) (fun _ => rdB_wrB_self _ _ (by decide) _)
    (by rw [List.map_id]; exact List.nodup_range) s (List.mem_range.mpr hn)

theorem reconfigure_bit (s : State) {k l : Nat} (hl : l < 32) (h : (∃ n < 64, k = Reg.ING_LANE_STATUS n) → 1 < l) :
    s.reconfigure.rdB k l = s.setCfgErrs.rdB k l := by
  refine (rdB_congr (rd_congr (dropLinks_regs _) k) l).trans ?_
  exact foldl_leaves (fun t : State => t.rdB k l) _ _ _ fun t n hn => dropLane_bit t (List.mem_range.mp hn) hl h

/-- A register that is no lane's status stays as it is. -/
theorem reconfigure_rd (s : State) {k : Nat} (h : ∀ n < 64, k ≠ Reg.ING_LANE_STATUS n) : s.reconfigure.rd k = s.rd k := by
  refine BitVec.eq_of_getLsbD_eq fun l hl => ?_
  have hno (P : Prop) : (∃ n < 64, k = Reg.ING_LANE_STATUS n) → P := fun ⟨n, hn, e⟩ => absurd e (h n hn)
  exact (reconfigure_bit s hl (hno _)).trans (setCfgErrs_bit s hl (hno _))

/-- What a write of a lane's configuration leaves in its registers. -/
theorem writeLaneCfg_results {n : Nat} (hn : n < 64) (s : State) (m : Master) (v : Word)
    (h : s.contextRuns = false ∨ fieldNat v 29 2 = s.laneMode n) :
    let t := s.writeLaneCfg m n v
    t.rd (Reg.ING_LANE_CFG n) = (s.mergeWord (Reg.ING_LANE_CFG n) v).rd (Reg.ING_LANE_CFG n) ∧
    t.rdB (Reg.ING_LANE_STATUS n) 5 = (s.rdB (Reg.ING_LANE_STATUS n) 5 && !(bit v 31 && !s.rdB (Reg.ING_LANE_CFG n) 31)) ∧
    (bit (t.rd (Reg.ING_LANE_CFG n)) 31 = true → laneRateOk (t.rd (Reg.ING_LANE_CFG n)) = false →
      t.rdB (Reg.ING_LANE_STATUS n) 6 = true) := by
  have hcfg (j : Nat) : Reg.ING_LANE_CFG n ≠ Reg.ING_LANE_STATUS j := by
    unfold Reg.ING_LANE_CFG Reg.ING_LANE_STATUS
    omega
  have hlow : Reg.ING_LANE_CFG n < 0x0004_0404 := by
    unfold Reg.ING_LANE_CFG
    omega
  obtain ⟨u, hu⟩ : ∃ u, (if bit v 31 && !s.rdB (Reg.ING_LANE_CFG n) 31 then s.wrB (Reg.ING_LANE_STATUS n) 5 false else s) = u := ⟨_, rfl⟩
  have hucfg : u.rd (Reg.ING_LANE_CFG n) = s.rd (Reg.ING_LANE_CFG n) := by
    rw [← hu]
    split
    · exact wrB_rd_ne _ _ _ (hcfg n)
    · rfl
  have hufault : u.rdB (Reg.ING_LANE_STATUS n) 5 =
      (s.rdB (Reg.ING_LANE_STATUS n) 5 && !(bit v 31 && !s.rdB (Reg.ING_LANE_CFG n) 31)) := by
    rw [← hu]
    split
    · next hb => rw [rdB_wrB_self _ _ (by decide), hb, Bool.not_true, Bool.and_false]
    · next hb => rw [Bool.eq_false_iff.mpr hb, Bool.not_false, Bool.and_true]
  have he : s.writeLaneCfg m n v = (u.mergeWord (Reg.ING_LANE_CFG n) v).reconfigure := by
    rw [← hu]
    refine if_neg ?_
    rcases h with h | h <;> simp [h]
  have hrd : (s.writeLaneCfg m n v).rd (Reg.ING_LANE_CFG n) = (u.mergeWord (Reg.ING_LANE_CFG n) v).rd (Reg.ING_LANE_CFG n) := by
    rw [he, reconfigure_rd _ fun j _ => hcfg j]
  refine ⟨hrd.trans (mergeWord_rd_congr hlow hucfg v), ?_, fun h31 hrate => ?_⟩
  · rw [he, reconfigure_bit _ (by decide) fun _ => by decide, setCfgErrs_bit _ (by decide) fun _ => by decide,
      rdB_congr (mergeWord_rd_ne hlow (hcfg n).symm _ _), hufault]
  · rw [hrd] at h31 hrate
    rw [he, reconfigure_bit _ (by decide) fun _ => by decide, setCfgErrs_cfgErr _ hn, laneCfgErr, h31, hrate]
    rfl

end State

end Sys2Proof.Machine
end

section
/-!
PROOF. What the rows of lanes, frames and links do (R75, R77 to R91).
-/

namespace Sys2Proof.Machine
open Sys2Proof.Claims

namespace State
variable {s : State} {n : Nat}

theorem loseAlign_regs (s : State) (n : Nat) : (s.loseAlign n).regs =
    ((s.wrB (Reg.ING_LANE_STATUS n) 1 false).wrB (Reg.ING_LANE_STATUS n) 4 true).regs := dropLinks_regs _

theorem loseAlign_results (s : State) (n : Nat) : (s.loseAlign n).rdB (Reg.ING_LANE_STATUS n) 1 = false ∧
    (s.loseAlign n).rdB (Reg.ING_LANE_STATUS n) 4 = true ∧
    (∀ k, k ≠ Reg.ING_LANE_STATUS n → (s.loseAlign n).rd k = s.rd k) ∧
    (s.loseAlign n).rdB (Reg.ING_LANE_STATUS n) 0 = s.rdB (Reg.ING_LANE_STATUS n) 0 := by
  have hb (l : Nat) := rdB_congr (rd_congr (loseAlign_regs s n) (Reg.ING_LANE_STATUS n)) l
  refine ⟨?_, ?_, fun k hk => ?_, ?_⟩
  · rw [hb, rdB_wrB_ne _ _ (by decide) (fun _ => by decide), rdB_wrB_self _ _ (by decide)]
  · rw [hb, rdB_wrB_self _ _ (by decide)]
  · rw [rd_congr (loseAlign_regs s n), wrB_rd_ne _ _ _ hk, wrB_rd_ne _ _ _ hk]
  · rw [hb, rdB_wrB_ne _ _ (by decide) (fun _ => by decide), rdB_wrB_ne _ _ (by decide) (fun _ => by decide)]

/-! A DATA frame of a lane in step (R78, R81). -/

/-- The state after an accepted frame's samples. -/
def takeData (s : State) (n : Nat) (f : NolerFrame) (stamp : DWord) : State :=
  (s.deliverRaw (s.frameRaw n f stamp)).setLane n
    { s.lane n with expect := some (f.index + f.span), synced := true, s16 := decide (f.sfmt = 1) }

/-- A plain frame that passes its checks. -/
theorem frame_data {f : NolerFrame} (hcrc : fieldNat f.bits 992 32 = frameCrc f.bits) (hv : f.valid = true) (ht : f.typ = 0)
    (hp : s.isProtected = false) (stamp : DWord) :
    s.frame n f stamp = (s.setLane n (frameAnchor (s.lane n) f stamp)).dataFrame n f stamp := by
  simp [frame, hcrc, hv, ht, hp]

theorem frameAnchor_step (x : LaneIn) (f : NolerFrame) (stamp : DWord) :
    (frameAnchor x f stamp).synced = x.synced ∧ (frameAnchor x f stamp).expect = x.expect := by
  unfold frameAnchor
  split
  · exact ⟨rfl, rfl⟩
  · split <;> exact ⟨rfl, rfl⟩

theorem frameAnchor_tagged (x : LaneIn) {f : NolerFrame} (h : f.ttValid = true) (stamp : DWord) :
    (frameAnchor x f stamp).anchor = some { time := f.timeTag, index := f.index, tagged := true } := by
  rw [frameAnchor, if_pos h]

section Data
variable {f : NolerFrame} (hfault : s.rdB (Reg.ING_LANE_STATUS n) 5 = false) (hspan : s.contextRuns = true → isPow2 f.span = true)
  (hsync : (s.lane n).synced = true)
include hfault hspan hsync

/-- A lane in step looks at the index alone. -/
theorem dataFrame_synced {e : Nat} (he : (s.lane n).expect = some e) (stamp : DWord) : s.dataFrame n f stamp =
    if f.index = e then (s.countIdle (s.blockOf f.index) 1).takeData n f stamp
    else if e < f.index ∧ f.index - e ≤ 2 ^ 20 then
      (((s.countIdle (s.blockOf f.index) 1).fillRaw n e (f.index - e)).setGap n).takeData n f stamp
    else if e < f.index then ((s.countIdle (s.blockOf f.index) 1).setGap n).laneFault n
    else (s.countIdle (s.blockOf f.index) 1).setGap n := by
  have hs : (s.contextRuns && !isPow2 f.span) = false := by
    cases hc : s.contextRuns
    · rfl
    · rw [hspan hc]
      rfl
  simp only [dataFrame, hfault, hs, hsync, he, Bool.false_eq_true, if_false, Bool.not_true, Option.getD_some]
  rfl

/-- The frame at the expected index. -/
theorem dataFrame_expected (he : (s.lane n).expect = some f.index) (stamp : DWord) :
    s.dataFrame n f stamp = (s.countIdle (s.blockOf f.index) 1).takeData n f stamp := by
  rw [dataFrame_synced hfault hspan hsync he, if_pos rfl]

/-- A frame too far ahead is a fault of the lane. -/
theorem dataFrame_ahead {e : Nat} (he : (s.lane n).expect = some e) (hfar : e + 2 ^ 20 < f.index) (stamp : DWord) :
    s.dataFrame n f stamp = ((s.countIdle (s.blockOf f.index) 1).setGap n).laneFault n := by
  rw [dataFrame_synced hfault hspan hsync he, if_neg (by omega), if_neg (by omega), if_pos (by omega)]

/-- A frame behind the expected index is dropped. -/
theorem dataFrame_behind {e : Nat} (he : (s.lane n).expect = some e) (hold : f.index < e) (stamp : DWord) :
    s.dataFrame n f stamp = (s.countIdle (s.blockOf f.index) 1).setGap n := by
  rw [dataFrame_synced hfault hspan hsync he, if_neg (by omega), if_neg (by omega), if_neg (by omega)]

end Data

/-- What an accepted frame leaves: its samples that flow, and the next expected index. -/
theorem takeData_countIdle (s : State) (block n : Nat) (f : NolerFrame) (stamp : DWord) :
    let t := (s.countIdle block 1).takeData n f stamp
    (∀ k, k ≠ Reg.SEC_IDLE_FRAMES → t.rd k = s.rd k) ∧ (t.lane n).expect = some (f.index + f.span) ∧
    (t.lane n).anchor = (s.lane n).anchor ∧
    t.ing.raw = s.ing.raw ++ (s.frameRaw n f stamp).filter (fun x => s.flows (s.blockOf x.index)) := by
  have hing : (s.countIdle block 1).ing = s.ing := by rw [countIdle_frame]
  refine ⟨fun k hk => countIdle_rd s block 1 hk, ?_, ?_, ?_⟩
  · rw [takeData, lane_setLane_self]
  · rw [takeData, lane_setLane_self]
    exact congrArg (fun i : Ingress => (SMap.get LaneIn.none i.lanes n).anchor) hing
  · change (s.countIdle block 1).ing.raw ++ ((s.countIdle block 1).frameRaw n f stamp).filter
      (fun x => (s.countIdle block 1).flows ((s.countIdle block 1).blockOf x.index)) = _
    rw [hing, frameRaw_congr (channels_countIdle ..), flows_countIdle]

theorem setGap_countIdle (s : State) (block n : Nat) : ((s.countIdle block 1).setGap n).ing = s.ing ∧
    ((s.countIdle block 1).setGap n).rdB (Reg.ING_LANE_STATUS n) 3 = true := by
  refine ⟨?_, rdB_wrB_self _ _ (by decide) true⟩
  change (s.countIdle block 1).ing = s.ing
  rw [countIdle_frame]

theorem laneFault_results (s : State) {n : Nat} (hn : n < 64) : (s.laneFault n).ing = s.ing ∧
    (s.laneFault n).rdB (Reg.ING_LANE_STATUS n) 5 = true ∧
    (s.laneFault n).rdB (Reg.ING_LANE_STATUS n) 3 = s.rdB (Reg.ING_LANE_STATUS n) 3 := by
  have hrd : (s.laneFault n).rd (Reg.ING_LANE_STATUS n) = (s.wrB (Reg.ING_LANE_STATUS n) 5 true).rd (Reg.ING_LANE_STATUS n) :=
    addEntry_rd _ _ _ _ _ _ _ (by unfold Reg.ING_LANE_STATUS; omega) (by unfold Reg.ING_LANE_STATUS Reg.ERR_LOG_OVERFLOW; omega)
      (by unfold Reg.ING_LANE_STATUS Reg.ERR_STATUS; omega)
  refine ⟨?_, ?_, ?_⟩
  · rw [laneFault, logMinor, addEntry_frame]
    rfl
  · rw [rdB_congr hrd, rdB_wrB_self _ _ (by decide)]
  · rw [rdB_congr hrd, rdB_wrB_ne _ _ (by decide) fun _ => by decide]

/-- A fill sample of a source whose next index is known. -/
theorem fillTick_results {s : State} {n e : Nat} (he : (s.lane n).expect = some e) :
    ((s.fillTick n).lane n).expect = some (e + 1) ∧
    (s.flows (s.blockOf e) = true → (s.fillTick n).rdB (Reg.ING_LANE_STATUS n) 3 = true) := by
  have hlane : (s.setLane n { s.lane n with expect := some (e + 1) }).lane n = { s.lane n with expect := some (e + 1) } :=
    lane_setLane_self ..
  simp only [fillTick, he, Option.getD_some]
  refine ⟨?_, fun hf => ?_⟩
  · split <;> exact congrArg LaneIn.expect hlane
  · rw [if_pos hf]
    exact rdB_wrB_self (s.setLane n { s.lane n with expect := some (e + 1) }) _ (by decide) true

/-! Multiblocks (R86 to R89). -/

theorem multiblock_clean (s : State) (k : Nat) (words : List (BitVec 16)) :
    let t := s.multiblock k words 0
    (∀ j, j ≠ Reg.SEC_IDLE_FRAMES → t.rd j = s.rd j) ∧ t.link k = { s.link k with next := (s.link k).next + s.linkSpan k } ∧
    t.ing.raw = s.ing.raw ++ ((List.range (s.linkSpan k)).flatMap (fun i => (List.range (s.linkM k)).flatMap (fun c =>
      (s.fedBy (s.linkFirst k) c).map (fun ch =>
        ({ chan := ch, index := (s.link k).next + i,
           code := linkCode (decide (s.linkNp k = 16)) (words.getD (i * s.linkM k + c) 0), bad := false, ovr := false,
           s16 := decide (s.linkNp k = 16), stamp := s.timeline.toNat } : RawSample))))).filter
        (fun x => s.flows (s.blockOf x.index)) := by
  have hbads : (s.linkLanes k).filter (fun n => (0 : BitVec 64).getLsbD n) = [] := by simp
  obtain ⟨u, hu⟩ : ∃ u, s.countIdle (s.blockOf (s.link k).next) (s.linkE k * 256 / s.linkF k) = u := ⟨_, rfl⟩
  have hing : u.ing = s.ing := by rw [← hu, countIdle_frame]
  have hflows : (fun x : RawSample => u.flows (u.blockOf x.index)) = fun x => s.flows (s.blockOf x.index) := by
    rw [← hu]
    exact flows_countIdle ..
  simp only [multiblock, hbads, List.foldl_nil, hu, List.isEmpty_nil, Bool.not_true]
  refine ⟨fun j hj => ?_, ?_, ?_⟩
  · change u.rd j = s.rd j
    rw [← hu, countIdle_rd _ _ _ hj]
  · exact link_setLink_self ..
  · change u.ing.raw ++ List.filter (fun x => u.flows (u.blockOf x.index)) _ = _
    rw [hing, hflows]

end State

/-- Settles O31: a configuration by the bits that its rewrite keeps, a frame by its index against the one expected, a multiblock as one
delivery. -/
theorem laneResults : Obligations.LaneResults := by
  refine ⟨fun s lane => ?lanes, fun s lane wire stamp => ?frames, fun s link => ⟨fun m v ha => ?cfg, fun words hs => ?block, fun words bad hs => ?stopped⟩⟩
  case lanes =>
    intro n st
    refine ⟨fun m v ha h => ?write, fun hon hlock => ?lock, fun hon hlock => ?unlock, fun hon hnoler => ?aligned, fun hnoler hal => ?lost,
      fun hnoler hal => ?sync, fun hon hmode => ?header, fun e hd he => ?fill, fun hd => congrArg Host.Outcome.next (if_pos hd)⟩
    case write => exact ⟨_, congrArg Host.Outcome.next (if_pos ha), State.writeLaneCfg_results lane.isLt s m v h⟩
    case lock =>
      have hno : ¬(!s.laneOn n || s.rdB st 0 == true) = true := by simp [hon, hlock]
      refine ⟨_, congrArg Host.Outcome.next ((if_neg hno).trans (if_pos rfl)), State.rdB_wrB_self s st (by decide) true, ?_⟩
      rw [State.startEq, State.lane_setLane_self]
      rfl
    case unlock =>
      have hno : ¬(!s.laneOn n || s.rdB st 0 == false) = true := by simp [hon, hlock]
      obtain ⟨h1, h4, -, h0⟩ := State.loseAlign_results ((s.adaptEq n).wrB st 0 false) n
      exact ⟨_, congrArg Host.Outcome.next ((if_neg hno).trans (if_neg Bool.false_ne_true)),
        h0.trans (State.rdB_wrB_self _ _ (by decide) false), h1, h4⟩
    case aligned =>
      refine ⟨_, congrArg Host.Outcome.next (if_pos (Bool.and_eq_true_iff.mpr ⟨hon, hnoler⟩)), State.rdB_wrB_self s st (by decide) true, ?_, fun k hk =>
        State.wrB_rd_ne s _ _ hk⟩
      rw [State.lane_setLane_self]
    case lost =>
      obtain ⟨h1, h4, hrd, -⟩ := State.loseAlign_results s n
      exact ⟨_, congrArg Host.Outcome.next (if_pos (by rw [hnoler, hal]; rfl)), h1, h4, hrd⟩
    case sync =>
      obtain ⟨h1, h4, -, -⟩ := State.loseAlign_results s n
      exact ⟨_, congrArg Host.Outcome.next (if_pos (by rw [hnoler, hal]; rfl)), h1, h4⟩
    case header =>
      exact ⟨_, congrArg Host.Outcome.next (if_pos (Bool.and_eq_true_iff.mpr ⟨hon, decide_eq_true hmode⟩)), onlyRegs_wrB s List.mem_cons_self _ _,
        State.rdB_wrB_self s st (by decide) true⟩
    case fill =>
      obtain ⟨hexp, hgap⟩ := State.fillTick_results he
      exact ⟨_, congrArg Host.Outcome.next (if_neg (ne_true_of_eq_false hd)), hexp, hgap⟩
  case frames =>
    intro n st f hon hnoler hal hsync
    have hexec : exec (.nolerFrameReceive lane wire stamp) s = .next (s.frame n f stamp) := by
      refine congrArg Host.Outcome.next (if_pos ?_)
      rw [hon, hnoler, hal, Bool.true_and, Bool.true_and, Bool.true_and, beq_iff_eq]
      exact hsync
    let u := s.setLane n (State.frameAnchor (s.lane n) f stamp)
    have hu : u.lane n = State.frameAnchor (s.lane n) f stamp := State.lane_setLane_self ..
    obtain ⟨hanchorSync, hanchorExp⟩ := State.frameAnchor_step (s.lane n) f stamp
    refine ⟨fun hcrc => ?crc, fun hcrc hv ht hp hfault hspan hs he => ?expected, fun hcrc hv ht hp hfault hspan hs e he hfar => ?ahead,
      fun hcrc hv ht hp hfault hspan hs e he hold => ?behind⟩
    case crc =>
      refine ⟨_, hexec.trans (congrArg Host.Outcome.next (if_pos hcrc)),
        onlyRegs_trans (onlyRegs_countF s List.mem_cons_self _ _ _) (onlyRegs_wrB _ List.mem_cons_self _ _),
        State.rdB_wrB_self _ _ (by decide) true, ?_⟩
      change _ = min (s.rdF (Reg.ING_LANE_STATUS n) 16 16 + 1) 65535
      rw [State.crcError, State.rdF_wrB_ne _ _ (by decide) fun _ => .inr (by decide), State.countF, State.rdF_wrF_self _ _ _ _ _ (by decide)]
      omega
    case expected =>
      have hdata := State.dataFrame_expected (s := u) (n := n) hfault hspan (by rw [hu, hanchorSync, hs]) (by rw [hu, hanchorExp, he]) stamp
      obtain ⟨hrd, hexp, hanchor, hraw⟩ := State.takeData_countIdle u (u.blockOf f.index) n f stamp
      refine ⟨_, (hexec.trans (congrArg Host.Outcome.next ((State.frame_data hcrc hv ht hp stamp).trans hdata))), hrd, hexp, hraw, fun htt => ?_⟩
      rw [hanchor, hu, State.frameAnchor_tagged _ htt]
    case ahead =>
      have hdata := State.dataFrame_ahead (s := u) (n := n) hfault hspan (by rw [hu, hanchorSync, hs]) (by rw [hu, hanchorExp, he]) hfar stamp
      obtain ⟨hing, hgap⟩ := State.setGap_countIdle u (u.blockOf f.index) n
      obtain ⟨hing', h5, h3⟩ := State.laneFault_results ((u.countIdle (u.blockOf f.index) 1).setGap n) lane.isLt
      refine ⟨_, (hexec.trans (congrArg Host.Outcome.next ((State.frame_data hcrc hv ht hp stamp).trans hdata))), h5, h3.trans hgap, ?_⟩
      rw [hing', hing]
      rfl
    case behind =>
      have hdata := State.dataFrame_behind (s := u) (n := n) hfault hspan (by rw [hu, hanchorSync, hs]) (by rw [hu, hanchorExp, he]) hold stamp
      obtain ⟨hing, hgap⟩ := State.setGap_countIdle u (u.blockOf f.index) n
      refine ⟨_, (hexec.trans (congrArg Host.Outcome.next ((State.frame_data hcrc hv ht hp stamp).trans hdata))), hgap, ?_, ?_⟩
      · rw [hing]
        rfl
      · rw [State.lane, hing]
        exact (congrArg LaneIn.expect hu).trans (hanchorExp.trans he)
  case cfg =>
    refine ⟨_, congrArg Host.Outcome.next (if_pos ha), ?_⟩
    exact State.reconfigure_rd _ fun n hn => by unfold Reg.ING_JESD_LINK Reg.ING_LANE_STATUS; omega
  case block => exact ⟨_, congrArg Host.Outcome.next (if_pos hs), State.multiblock_clean s link words⟩
  case stopped => exact congrArg Host.Outcome.next (if_neg (by simp [hs]))

end Sys2Proof.Machine
end

section
/-!
PROOF. The front end (R63, R92, R93).
-/

namespace Sys2Proof.Machine
open Sys2Proof.Claims

namespace State

/-- What a delivered code leaves to be seen in the block and in the channel. -/
def deliveredParts (s : State) :
    List RawSample × SMap (List RawSample) × SMap (SMap Sample) × SMap Nat × Nat × Word :=
  (s.ing.raw, s.ing.taps, s.ing.blocks, s.ing.next, s.ing.first, s.rd Reg.ING_BLOCK_CFG)

/-- A register that is not the block's length is no part of it. -/
theorem deliveredParts_wr (s : State) {k : Nat} (h : Reg.ING_BLOCK_CFG ≠ k) (v : Word) : (s.wr k v).deliveredParts = s.deliveredParts := by
  simp only [deliveredParts, rd_wr_ne _ _ h]
  rfl

theorem deliveredParts_wrB (s : State) {k : Nat} (h : Reg.ING_BLOCK_CFG ≠ k) (i : Nat) (b : Bool) :
    (s.wrB k i b).deliveredParts = s.deliveredParts := deliveredParts_wr s h _

theorem deliveredParts_ite {c : Prop} [Decidable c] {s t u : State} (ht : t.deliveredParts = s.deliveredParts)
    (hu : u.deliveredParts = s.deliveredParts) : (if c then t else u).deliveredParts = s.deliveredParts := by
  split <;> assumption

theorem beginBlock_parts (s : State) (b : Nat) : (s.beginBlock b).deliveredParts = s.deliveredParts := by
  unfold beginBlock
  refine deliveredParts_ite rfl ?_
  dsimp only
  rw [deliveredParts_wrB _ (by decide), count64, wr64, deliveredParts_wr _ (by decide), deliveredParts_wr _ (by decide)]
  rfl

theorem countEv_parts (s : State) (e : Ev) : (s.countEv e).deliveredParts = s.deliveredParts :=
  foldl_leaves deliveredParts _ _ _ fun t p _ => by
    refine deliveredParts_ite rfl ?_
    rw [deliveredParts_wrB _ (by decide), count, deliveredParts_wr _ (by unfold Reg.ING_BLOCK_CFG Reg.ING_FE_EVT; omega)]

theorem toTrigger_parts (s : State) (chan n : Nat) (x : Sample) : (s.toTrigger chan n x).deliveredParts = s.deliveredParts :=
  deliveredParts_ite rfl rfl

theorem toSurvey_parts (s : State) (chan n : Nat) (x : Sample) : (s.toSurvey chan n x).deliveredParts = s.deliveredParts :=
  deliveredParts_ite rfl rfl

theorem toStats_parts (s : State) (chan n : Nat) (x : Sample) (q : Quantized) (sat : Nat) (ovr : Bool) :
    (s.toStats chan n x q sat ovr).deliveredParts = s.deliveredParts :=
  deliveredParts_ite rfl rfl

theorem putQuant_parts (s : State) (chan n code : Nat) (bad : Bool) : (s.putQuant chan n code bad).deliveredParts = s.deliveredParts := rfl

theorem stampBlock_parts (s : State) (b stamp : Nat) : (s.stampBlock b stamp).deliveredParts = s.deliveredParts :=
  deliveredParts_ite rfl rfl

theorem putEntry_parts (s : State) (e : EbEntry) : (s.putEntry e).deliveredParts = s.deliveredParts := by
  unfold putEntry
  dsimp only
  refine deliveredParts_ite rfl (deliveredParts_ite ?_ ?_)
  · rw [ebStatus, wrF, deliveredParts_wr _ (by decide), wrF, deliveredParts_wr _ (by decide)]
    rfl
  · rw [count, deliveredParts_wr _ (by decide)]
    split <;> rfl

theorem formEntries_parts (fuel : Nat) (s : State) : (formEntries fuel s).deliveredParts = s.deliveredParts := by
  induction fuel generalizing s with
  | zero => rfl
  | succ fuel ih =>
    rw [formEntries]
    dsimp only
    split
    · rfl
    · rw [ih]
      exact deliveredParts_ite (putEntry_parts ..) (putEntry_parts ..)

/-- The code of a channel whose record asks for no delay, from the newest raw sample. -/
theorem emitCode_parts {s : State} {x : RawSample} {xs : List RawSample} (ht : SMap.get [] s.ing.taps x.chan = x :: xs)
    (hw : fieldNat (s.recWord (s.recBank (s.blockOf x.index)) x.chan 8) 0 8 = 0)
    (hd : fieldNat (s.recWord (s.recBank (s.blockOf x.index)) x.chan 8) 8 6 = 0) :
    ∃ e : Ev, (s.emitCode x.chan x.index x.ovr x.stamp).deliveredParts =
      (((s.beginBlock (s.blockOf x.index)).countEv e).toRing x.chan x.index { code := (historyCode (s.chanFmt x.chan) (s.recWord (s.recBank (s.blockOf x.index)) x.chan 6)
        (s.recWord (s.recBank (s.blockOf x.index)) x.chan 7) 0 [0, x.code, 0, 0]).1, bad := x.bad }).deliveredParts := by
  have htap : s.tap x.chan (x.index : Int) = ((x.code, x.bad), s) := by
    unfold tap
    rw [ht, List.find?_cons_of_pos (by simp)]
  unfold emitCode
  simp only [hw, hd, if_true, Int.natCast_zero, sub_zero, htap, Bool.false_or, Bool.or_false]
  rw [formEntries_parts, stampBlock_parts, putQuant_parts, toStats_parts, toSurvey_parts, toTrigger_parts]
  exact ⟨_, rfl⟩

/-- A code put into its block, seen from the channel and from the block. -/
theorem toRing_seen {u t : State} {chan n : Nat} {x : Sample} (h : t.deliveredParts = (u.toRing chan n x).deliveredParts) :
    t.ing.raw = u.ing.raw ∧ t.ing.taps = u.ing.taps ∧ t.nextIndex chan = n + 1 ∧
    SMap.get { code := 0, bad := false } (SMap.get [] t.ing.blocks (u.blockOf n)) (sampleKey chan (n % u.blockLen)) = x := by
  simp only [deliveredParts, Prod.mk.injEq] at h
  obtain ⟨hraw, htaps, hblocks, hnext, hfirst, hcfg⟩ := h
  have hlen : t.blockLen = u.blockLen := by
    rw [blockLen, blockLog, rdF_congr hcfg]
    rfl
  refine ⟨hraw, htaps, ?_, ?_⟩
  · rw [nextIndex, hnext, hfirst, hlen]
    exact SMap.get_set_self ..
  · rw [hblocks]
    refine (congrArg (fun m => SMap.get _ m _) (SMap.get_set_self ..)).trans ?_
    rw [SMap.get_insert, if_pos rfl]

/-- The first raw sample of a channel whose record asks for no delay makes a code at once. -/
theorem frontEnd_first {s : State} {x : RawSample} (ht : SMap.get [] s.ing.taps x.chan = [])
    (hw : fieldNat (s.recWord (s.recBank (s.blockOf x.index)) x.chan 8) 0 8 = 0) (hf : s.ing.first ≤ s.blockOf x.index) :
    s.frontEnd x = (s.pushTap x).emitCode x.chan x.index x.ovr x.stamp := by
  have hwait : (s.pushTap x).waitsNext x.chan x.index = false := by
    rw [waitsNext, Bool.and_eq_false_iff]
    exact .inr (decide_eq_false (not_not.mpr hw))
  have hlive : (s.pushTap x).ing.first ≤ (s.pushTap x).blockOf x.index := hf
  unfold frontEnd
  rw [ht]
  simp only [List.head?_nil, Bool.false_eq_true, if_false, hwait, hlive, decide_true, Bool.not_true, Bool.or_false]

/-- A sample that the channel has passed. -/
theorem frontEnd_passed {s : State} {x y : RawSample} {ys : List RawSample} (ht : SMap.get [] s.ing.taps x.chan = y :: ys)
    (h : x.index ≤ y.index) : s.frontEnd x = s := by
  unfold frontEnd
  rw [ht]
  exact if_pos (decide_eq_true h)

theorem pushTap_taps (s : State) (x : RawSample) :
    SMap.get [] (s.pushTap x).ing.taps x.chan = (x :: SMap.get [] s.ing.taps x.chan).take 68 := by
  unfold pushTap
  dsimp only
  rw [SMap.get_set_self]

theorem pushTap_fmt (s : State) (x : RawSample) : (s.pushTap x).chanFmt x.chan = if x.s16 then Fmt.s16 else Fmt.s12 := by
  have h : SMap.get false (s.pushTap x).ing.s12 x.chan = !x.s16 := SMap.get_set_self ..
  rw [chanFmt, h]
  cases x.s16 <;> rfl

end State

/-- A field within a field that is zero is zero. -/
theorem fieldNat_zero_of_le {w : Word} {lo n lo' n' : Nat} (hlo : lo ≤ lo') (hn : lo' + n' ≤ lo + n) (h : fieldNat w lo n = 0) :
    fieldNat w lo' n' = 0 := by
  unfold fieldNat at *
  have hz : w.extractLsb' lo n = 0 := BitVec.eq_of_toNat_eq (by rw [h]; rfl)
  have hz' : w.extractLsb' lo' n' = 0 := by
    refine BitVec.eq_of_getLsbD_eq fun i hi => ?_
    have hbit := congrArg (fun x => x.getLsbD (lo' - lo + i)) hz
    simp only [BitVec.getLsbD_extractLsb', show lo' - lo + i < n by omega, show lo + (lo' - lo + i) = lo' + i by omega] at hbit
    simpa [hi] using hbit
  rw [hz']
  rfl

/-- Settles O32: the sample heads its channel's taps, so that a record without delay makes its code of it; what follows the delivery
leaves the block and the channel's index alone. -/
theorem frontEndResults : Obligations.FrontEndResults := by
  intro s x rest hraw b w
  let s0 : State := { s with ing := { s.ing with raw := rest } }
  have hexec : exec .frontEndSample s = .next (s0.frontEnd x) := by
    change execFrontEndSample s = _
    rw [execFrontEndSample, hraw]
  refine ⟨fun htaps hd hfirst => ?_, fun y ys htaps hle => hexec.trans (congrArg Host.Outcome.next (State.frontEnd_passed htaps hle))⟩
  have hfrac : fieldNat (w 8) 0 8 = 0 := fieldNat_zero_of_le (by decide) (by decide) hd
  have hint : fieldNat (w 8) 8 6 = 0 := fieldNat_zero_of_le (by decide) (by decide) hd
  have hhead : SMap.get [] (s0.pushTap x).ing.taps x.chan = x :: [] := by
    rw [State.pushTap_taps, show SMap.get [] s0.ing.taps x.chan = [] from htaps]
    rfl
  obtain ⟨e, he⟩ := State.emitCode_parts hhead hfrac hint
  obtain ⟨u, hu⟩ : ∃ u, ((s0.pushTap x).beginBlock ((s0.pushTap x).blockOf x.index)).countEv e = u := ⟨_, rfl⟩
  have hparts : u.deliveredParts = (s0.pushTap x).deliveredParts := by
    rw [← hu, State.countEv_parts, State.beginBlock_parts]
  rw [hu, State.pushTap_fmt] at he
  obtain ⟨hr, ht, hn, hb⟩ := State.toRing_seen he
  simp only [State.deliveredParts, Prod.mk.injEq] at hparts
  obtain ⟨huraw, hutaps, -, -, -, hcfg⟩ := hparts
  have hlen : u.blockLen = s.blockLen := by
    rw [State.blockLen, State.blockLog, State.rdF_congr hcfg]
    rfl
  refine ⟨_, hexec.trans (congrArg Host.Outcome.next (State.frontEnd_first htaps hfrac hfirst)), hr.trans huraw, hn, ?_, ?_⟩
  · rw [ht, hutaps, hhead]
    rfl
  · rw [State.blockOf, hlen] at hb
    exact hb

end Sys2Proof.Machine
end

section
/-!
PROOF. The history ring, the ring reader, the elastic buffer, overrun and the input plan (R98, R99, R103, R194, R243).
-/

namespace Sys2Proof.Machine
open Sys2Proof.Claims

namespace State
variable {s : State}

/-! A block delivered (R243, R247). -/

/-- What a delivered block leaves of the ring: the blocks that wait, and W. -/
def ringParts (s : State) : SMap (SMap Sample) × Option Nat × DWord := (s.ing.blocks, s.acq.wblock, s.rd64 Reg.ACQ_RING_WBLOCK)

theorem ringParts_wr (s : State) {k : Nat} (h : k ≠ Reg.ACQ_RING_WBLOCK) (h4 : k ≠ Reg.ACQ_RING_WBLOCK + 4) (v : Word) :
    (s.wr k v).ringParts = s.ringParts := by
  simp only [ringParts, rd64, rd_wr_ne _ _ h.symm, rd_wr_ne _ _ h4.symm]
  rfl

theorem ringParts_count64 (s : State) {k : Nat} (hk : k < 0x0005_000C ∨ 0x0005_0014 < k) (n : Nat) : (s.count64 k n).ringParts = s.ringParts := by
  have hreg : Reg.ACQ_RING_WBLOCK = 0x0005_0010 := rfl
  rw [count64, wr64, ringParts_wr _ (by omega) (by omega), ringParts_wr _ (by omega) (by omega)]

theorem apart_ringParts (c : Nat) : Apart ringParts c 3 where
  cause t n := ringParts_count64 t (.inr (by unfold Reg.cls; omega)) n
  total t n := ringParts_count64 t (.inr (by unfold Reg.cls; omega)) n
  update _ _ _ := rfl

theorem refuseAtRisk_parts (s : State) : s.refuseAtRisk.ringParts = s.ringParts :=
  foldl_leaves ringParts _ _ _ fun t x _ => by
    rw [refuseEvent, refuseCapture, charge_leaves (apart_ringParts _), ringParts_count64 _ (.inr (by decide))]

theorem ringBlockDone_parts (h : s.through s.ringNext = true) (hs : s.ringSlots ≠ 0) : ∃ m, s.ringBlockDone.ringParts =
    (SMap.erase m s.ringNext, some s.ringNext, BitVec.ofNat 64 s.ringNext) := by
  have hno : ¬(!s.through s.ringNext || decide (s.ringSlots = 0)) = true := by simp [h, hs]
  unfold ringBlockDone
  rw [if_neg hno]
  exact ⟨_, Prod.ext rfl (Prod.ext rfl (wr64_rd64 _ _ _))⟩

/-! The ring reader (R98). -/

theorem formEntry_place {b k : Nat} {codes : SMap (Nat × Bool)} {e : EbEntry} (h : s.formEntry b k codes = some e) : e.block = b ∧ e.k = k := by
  unfold formEntry at h
  split at h
  · cases h
  · dsimp only at h
    split at h
    · cases h
      exact ⟨rfl, rfl⟩
    · obtain ⟨p, -, rfl⟩ := Option.map_eq_some_iff.mp h
      exact ⟨rfl, rfl⟩

theorem blockEntries_place {b k0 : Nat} {codes : SMap (Nat × Bool)} {e : EbEntry} (h : e ∈ s.blockEntries b k0 codes) :
    e.block = b ∧ k0 ≤ e.k := by
  obtain ⟨k, -, hk⟩ := List.mem_filterMap.mp h
  split at hk
  · cases hk
  · obtain ⟨hb, rfl⟩ := formEntry_place hk
    exact ⟨hb, by omega⟩

/-- The reader's next block, where the ring is read without an error. -/
theorem readerBlock_of_clean (hm : s.rdB Reg.ING_EB_MODE 0 = true) (hr : s.ing.resume = none) (hin : s.inRing s.feedNext.1 = true)
    (hread : (s.ringRead (s.slotAt s.feedNext.1) s.ringBlock).1 = s) : ∃ codes, s.readerBlock = ({ s with
      ing := { s.ing with feed := s.ing.feed ++ s.blockEntries s.feedNext.1 s.feedNext.2 codes, fed := (s.feedNext.1 + 1, 0) } } :
        State).notePresent s.feedNext.1 := by
  unfold readerBlock
  rw [hr]
  simp only [hm, hin, hread, Bool.not_true, Bool.or_self, Bool.false_eq_true, if_false]
  exact ⟨_, rfl⟩

/-! An overrun (R103). -/

/-- Some block from the array's next one on is not skipped. -/
theorem oldestKept_spec (s : State) : s.oldestKept ∉ s.ing.overrun ∧ s.ing.taken.1 ≤ s.oldestKept := by
  cases hf : ((List.range (s.ing.overrun.length + 1)).map (s.ing.taken.1 + ·)).find? (fun b => decide (b ∉ s.ing.overrun)) with
  | some b =>
    have hb : s.oldestKept = b := by rw [oldestKept, hf]; rfl
    obtain ⟨i, -, hi⟩ := List.mem_map.mp (List.mem_of_find?_eq_some hf)
    rw [hb]
    exact ⟨by simpa using List.find?_some hf, by omega⟩
  | none =>
    have hall : (List.range (s.ing.overrun.length + 1)).map (s.ing.taken.1 + ·) ⊆ s.ing.overrun := fun b hb => by
      simpa using List.find?_eq_none.mp hf b hb
    have hnodup : ((List.range (s.ing.overrun.length + 1)).map (s.ing.taken.1 + ·)).Nodup :=
      List.nodup_range.map fun _ _ h => Nat.add_left_cancel h
    have hle := (List.subperm_of_subset hnodup hall).length_le
    rw [List.length_map, List.length_range] at hle
    omega

/-- The state that skips block `b`, before the ring's header is marked. -/
def skipping (s : State) (b : Nat) : State :=
  let mark (es : List EbEntry) : List EbEntry := es.map (fun e => if e.block = b then { e with overrun := true } else e)
  let s1 : State := { s with ing := { s.ing with overrun := b :: s.ing.overrun, eb := mark s.ing.eb, feed := mark s.ing.feed } }
  (s1.count64 Reg.ING_OVERRUN_COUNT).wrB Reg.ING_SHED_STATUS 17 true

theorem overrunSkip_of_full (hb : s.ringBlock ≠ 0) (hfull : s.ringBytes ≤ s.ringAhead s.oldestKept + s.ringBlock) :
    s.overrunSkip = if s.inRing s.oldestKept then (s.skipping s.oldestKept).ringWrite (s.slotAt s.oldestKept + 24) [1]
      else s.skipping s.oldestKept := by
  unfold overrunSkip
  rw [if_neg (by simp [hb, hfull])]
  rfl

theorem skipping_count (s : State) (b : Nat) : (s.skipping b).rd64 Reg.ING_OVERRUN_COUNT = satInc (s.rd64 Reg.ING_OVERRUN_COUNT) := by
  have hrd (u : State) (k : Nat) (hk : k ≠ Reg.ING_SHED_STATUS) : (u.wrB Reg.ING_SHED_STATUS 17 true).rd k = u.rd k := wrB_rd_ne _ _ _ hk
  rw [skipping, rd64, hrd _ _ (by decide), hrd _ _ (by decide)]
  exact wr64_rd64 ..

theorem skipping_marks {s : State} {b : Nat} {e : EbEntry} (he : e ∈ (s.skipping b).ing.eb ++ (s.skipping b).ing.feed) (hb : e.block = b) :
    e.overrun = true := by
  obtain ⟨x, -, rfl⟩ : ∃ x ∈ s.ing.eb ++ s.ing.feed, (if x.block = b then { x with overrun := true } else x) = e := by
    rw [← List.mem_map, List.map_append]
    exact he
  by_cases hx : x.block = b
  · rw [if_pos hx]
  · rw [if_neg hx] at hb
    exact absurd hb hx

/-! The input plan (R194). -/

theorem refold_frame (s : State) (b : Nat) : s.refold b = { s with arr := { s.arr with picots := (s.refold b).arr.picots } } := by
  unfold refold
  split <;> rfl

theorem journalEntry_frame (s : State) (e : EbEntry) : s.journalEntry e = { s with adapt := (s.journalEntry e).adapt } := by
  unfold journalEntry
  split <;> rfl

/-- Taking an entry moves the array past it, and leaves the links alone. -/
theorem takeEntry_results (s : State) (e : EbEntry) : (s.takeEntry e).ing.taken = s.nextEntry s.ing.taken.1 s.ing.taken.2 ∧
    (s.takeEntry e).arr = s.arr := by
  unfold takeEntry
  dsimp only
  rw [journalEntry_frame]
  split <;> exact ⟨rfl, rfl⟩

/-- The flit `i` of an input block that is there. -/
def entryBeat (p : InEntry) (e : EbEntry) (i : Nat) : Beat :=
  Beat.ofFlit ⟨p.port.val, by omega⟩ .s (1 + i)
    { data := e.data.extractLsb' (256 * i) 256, kind := 0, bad := e.bad, last := false } 0

theorem foldl_hubInject (p : InEntry) (e : EbEntry) (l : List Nat) (s : State) : l.foldl (fun t i => t.hubInject p.port (1 + i)
    { data := e.data.extractLsb' (256 * i) 256, kind := 0, bad := e.bad, last := false } 0) s =
    { s with arr := { s.arr with beats := s.arr.beats ++ l.map (entryBeat p e) } } := by
  induction l generalizing s with
  | nil => simp
  | cons i l ih =>
    rw [List.foldl_cons, ih, List.map_cons, List.append_cons]
    rfl

/-- The flits of an input block that is there. -/
def entryBeats (p : InEntry) (e : EbEntry) : List Beat := (List.range (max 1 ((e.bytes + 31) / 32))).map (entryBeat p e)

theorem injectEntry_beats (s : State) (p : InEntry) {e : EbEntry} (hs : e.shed = false) (ho : e.overrun = false) :
    s.injectEntry p e = { s with arr := { s.arr with beats := s.arr.beats ++ entryBeats p e } } := by
  rw [injectEntry, if_neg (by simp [hs, ho])]
  exact foldl_hubInject p e _ s

/-- The one flit of an input block that is skipped. -/
theorem injectEntry_skip (s : State) (p : InEntry) {e : EbEntry} (h : e.shed = true ∨ e.overrun = true)
    (hfirst : ∀ j ∈ s.planOrder.take s.ing.taken.2, (s.img.inputs[j]?).map InEntry.group ≠ some p.group) :
    s.injectEntry p e = s.free256.2.hubInject p.port 1 { data := s.free256.1, kind := 1, bad := false, last := false } skipOne := by
  have hnone : (s.planOrder.take s.ing.taken.2).any (fun j => decide ((s.img.inputs[j]?.map InEntry.group) = some p.group)) = false := by
    rw [List.any_eq_false]
    exact fun j hj => by simpa using hfirst j hj
  rw [injectEntry, if_pos (by rcases h with h | h <;> simp [h])]
  simp only [hnone, Bool.false_eq_true, if_false]

theorem free256_arr (s : State) : s.free256.2.arr = s.arr := by
  rw [free256_snd]
  simp only [free_snd_arr]

theorem injectNext_of_turn {k : Nat} {p : InEntry} {e : EbEntry} (hturn : s.planOrder[s.ing.taken.2]? = some k)
    (hp : s.img.inputs[k]? = some p) (he : s.headEntry k = some e) :
    s.injectNext k = ((s.refold s.ing.taken.1).injectEntry p e).takeEntry e := by
  unfold injectNext
  rw [if_neg (by simp [hturn]), hp, he]

end State

/-- Settles O33: a delivered block moves W on and nothing after it moves it back; the reader's and the buffer's rows are one update of
the ingress; the array's turn takes the head entry's beats to its port. -/
theorem bufferResults : Obligations.BufferResults := by
  refine ⟨fun s hthr hslots => ?ring, fun s => ⟨fun hm he => ?takeover, fun hm hr hin hread => ?reader, fun x hm hr hn => ?resume, ?overrun,
    fun k p e hs hc hturn hp he => ?inject⟩⟩
  case ring =>
    obtain ⟨m, hm⟩ := State.ringBlockDone_parts hthr hslots
    have h := (State.refuseAtRisk_parts s.ringBlockDone).trans hm
    simp only [State.ringParts, Prod.mk.injEq] at h
    obtain ⟨hblocks, hw, hreg⟩ := h
    exact ⟨_, rfl, hw, hreg, by rw [hblocks, SMap.get_erase, if_pos rfl]⟩
  case takeover =>
    exact ⟨_, congrArg Host.Outcome.next (if_pos ⟨hm, by rw [he]; rfl⟩), onlyRegs_wrB s List.mem_cons_self _ _,
      State.rdB_wrB_self s _ (by decide) true⟩
  case reader =>
    obtain ⟨codes, hc⟩ := State.readerBlock_of_clean hm hr hin hread
    exact ⟨_, s.blockEntries s.feedNext.1 s.feedNext.2 codes, congrArg Host.Outcome.next hc, rfl, fun e he => State.blockEntries_place he⟩
  case resume =>
    refine congrArg Host.Outcome.next (if_pos ?_)
    simp [hm, hr, hn]
  case overrun =>
    intro b hc hrep hblock hfull
    obtain ⟨hkept, hle⟩ := s.oldestKept_spec
    refine ⟨hkept, hle, s.skipping b, congrArg Host.Outcome.next ((if_pos ⟨hc, by rw [hrep]; rfl⟩).trans
      (State.overrunSkip_of_full hblock hfull)), rfl, s.skipping_count b, fun e he hb => State.skipping_marks he hb⟩
  case inject =>
    have hexec : exec (.inputPlanInject k) s = .next (((s.refold s.ing.taken.1).injectEntry p e).takeEntry e) :=
      congrArg Host.Outcome.next ((if_pos (by rw [issues_of hs, hc]; rfl)).trans (State.injectNext_of_turn hturn hp he))
    obtain ⟨ps, hps⟩ : ∃ ps, s.refold s.ing.taken.1 = { s with arr := { s.arr with picots := ps } } := ⟨_, s.refold_frame _⟩
    rw [hps] at hexec
    refine ⟨fun hshed hover => ?plain, fun h hfirst => ?skip⟩
    case plain =>
      rw [State.injectEntry_beats _ _ hshed hover] at hexec
      obtain ⟨htaken, harr⟩ := State.takeEntry_results ({ s with arr := { s.arr with picots := ps, beats := s.arr.beats ++ State.entryBeats p e } }) e
      refine ⟨_, State.entryBeats p e, hexec, htaken, by rw [harr], by simp [State.entryBeats], fun i hi => ?_⟩
      have hi' : i < max 1 ((e.bytes + 31) / 32) := by simpa [State.entryBeats] using hi
      refine ⟨_, by rw [State.entryBeats, List.getElem?_map, List.getElem?_range hi']; rfl, rfl, rfl, rfl, rfl⟩
    case skip =>
      rw [State.injectEntry_skip { s with arr := { s.arr with picots := ps } } p h hfirst] at hexec
      obtain ⟨u, hu⟩ : ∃ u : BitVec 256 × State, State.free256 { s with arr := { s.arr with picots := ps } } = u := ⟨_, rfl⟩
      have harr : u.2.arr.beats = s.arr.beats := by rw [← hu, State.free256_arr]
      rw [hu] at hexec
      obtain ⟨-, htake⟩ := State.takeEntry_results
        (u.2.hubInject p.port 1 { data := u.1, kind := 1, bad := false, last := false } State.skipOne) e
      refine ⟨_, Beat.ofFlit ⟨p.port.val, by omega⟩ .s 1 { data := u.1, kind := 1, bad := false, last := false } State.skipOne, _, hexec, ?_,
        rfl, rfl, rfl, rfl, rfl, rfl, rfl⟩
      rw [htake, ← harr]
      rfl

end Sys2Proof.Machine
end

section
/-!
PROOF. Channel records, statistics, latency debt and shedding (R95 to R97, R100 to R102).
-/

namespace Sys2Proof.Machine
open Sys2Proof.Claims

namespace State
variable {s : State}

/-! Record words (R95). -/

theorem recAdvance_frame (s : State) : s.recAdvance = { s with regs := s.recAdvance.regs } := by
  unfold recAdvance
  dsimp only
  split
  · rfl
  · split <;> rfl

theorem recWord_setRec_self (s : State) (bank chan w : Nat) (v : Word) : (s.setRec bank chan w v).recWord bank chan w = v &&& recMask w :=
  SMap.get_set_self ..

theorem recWord_setRec_ne (s : State) {bank chan w bank' chan' w' : Nat} (hc : chan < 4096) (hw : w < 16) (hc' : chan' < 4096) (hw' : w' < 16)
    (h : (bank', chan', w') ≠ (bank, chan, w)) (v : Word) : (s.setRec bank chan w v).recWord bank' chan' w' = s.recWord bank' chan' w' := by
  refine SMap.get_set_ne' _ _ _ _ fun e => h ?_
  simp only [Prod.mk.injEq]
  omega

/-- A write of a record word while the staging bank is free. -/
theorem writeRecData_of_free {m : Master} (hfree : s.rdB Reg.ING_REC_STATUS 2 = true)
    (hbank : fieldNat (s.rd Reg.ING_REC_ADDR) 16 1 ≠ s.rdF Reg.ING_REC_STATUS 0 1) (v : Word) :
    s.writeRecData m v = (s.setRec (fieldNat (s.rd Reg.ING_REC_ADDR) 16 1) (fieldNat (s.rd Reg.ING_REC_ADDR) 4 12)
      (fieldNat (s.rd Reg.ING_REC_ADDR) 0 4) v).recAdvance := by
  unfold writeRecData
  dsimp only
  rw [if_pos (by rw [hfree, Bool.true_and]; exact decide_eq_true hbank)]

theorem recWord_recAdvance (s : State) (bank chan w : Nat) : s.recAdvance.recWord bank chan w = s.recWord bank chan w := by
  rw [recAdvance_frame]
  rfl

/-! Record switches (R95, R96). -/

theorem rd_withIng (s : State) (i : Ingress) (k : Nat) : ({ s with ing := i } : State).rd k = s.rd k := rfl

/-- An arming that is neither late nor names a format that no record may name. -/
theorem armRec_of_ready {b : Nat} (harmed : s.rdB Reg.ING_REC_STATUS 1 = false) (hlate : ∀ n, s.newestSample = some n → s.blockOf n < b)
    (hfmt : s.channels.any (fun e => !quantFmt (fieldNat (s.recWord (1 - s.rdF Reg.ING_REC_STATUS 0 1) e.1 0) 0 4)) = false) :
    (s.armRec b).1 = { (s.wrB Reg.ING_REC_STATUS 1 true).wrB Reg.ING_REC_STATUS 2 false with ing := { s.ing with recArm := b } } := by
  have hnot : (match s.newestSample with | some n => decide (b ≤ s.blockOf n) | none => false) = false := by
    cases hn : s.newestSample with
    | none => rfl
    | some n => exact decide_eq_false (not_le.mpr (hlate n hn))
  unfold armRec
  simp only [harmed, hfmt, Bool.or_false, Bool.false_or]
  exact congrArg Prod.fst (if_neg (ne_true_of_eq_false hnot))

theorem newestSample_congr {t : State} (hi : t.ing = s.ing) (hb : t.rd Reg.ING_BLOCK_CFG = s.rd Reg.ING_BLOCK_CFG) :
    t.newestSample = s.newestSample := by
  rw [newestSample, hi, blockLen, blockLog, rdF_congr hb]
  rfl

/-- The status word of an armed switch. -/
def armedRec (s : State) (b : Nat) : State :=
  { (s.wrB Reg.ING_REC_STATUS 1 true).wrB Reg.ING_REC_STATUS 2 false with
    ing := { s.ing with recArm := b } }

theorem writeRecSwitch_of_ready {hi : Word} (harmed : s.rdB Reg.ING_REC_STATUS 1 = false)
    (hlate : ∀ n, s.newestSample = some n → s.blockOf n < (hi ++ s.rd Reg.ING_REC_SWITCH).toNat)
    (hfmt : s.channels.any (fun e => !quantFmt (fieldNat (s.recWord (1 - s.rdF Reg.ING_REC_STATUS 0 1) e.1 0) 0 4)) = false) :
    s.writeRecSwitch hi = (s.wr (Reg.ING_REC_SWITCH + 4) hi).armedRec (hi ++ s.rd Reg.ING_REC_SWITCH).toNat := by
  have hrd : (s.wr (Reg.ING_REC_SWITCH + 4) hi).rd64 Reg.ING_REC_SWITCH = hi ++ s.rd Reg.ING_REC_SWITCH := by
    rw [rd64, rd_wr_self, rd_wr_ne _ _ (by decide)]
  have hst : (s.wr (Reg.ING_REC_SWITCH + 4) hi).rd Reg.ING_REC_STATUS = s.rd Reg.ING_REC_STATUS := rd_wr_ne _ _ (by decide)
  have hcfg : (s.wr (Reg.ING_REC_SWITCH + 4) hi).rd Reg.ING_BLOCK_CFG = s.rd Reg.ING_BLOCK_CFG := rd_wr_ne _ _ (by decide)
  rw [writeRecSwitch, hrd]
  refine armRec_of_ready ((rdB_congr hst 1).trans harmed) (fun n hn => ?_) ?_
  · rw [blockOf_congr hcfg]
    exact hlate n ((newestSample_congr (s := s) (t := s.wr (Reg.ING_REC_SWITCH + 4) hi) rfl hcfg).symm.trans hn)
  · rw [channels_wr s (by decide), rdF_congr hst]
    exact hfmt

theorem armedRec_status (s : State) (b : Nat) : (s.armedRec b).rdB Reg.ING_REC_STATUS 1 = true ∧ (s.armedRec b).rdB Reg.ING_REC_STATUS 2 = false := by
  have hrd (l : Nat) : (s.armedRec b).rdB Reg.ING_REC_STATUS l =
      ((s.wrB Reg.ING_REC_STATUS 1 true).wrB Reg.ING_REC_STATUS 2 false).rdB Reg.ING_REC_STATUS l := rdB_congr (rd_withIng ..) l
  rw [hrd, hrd, rdB_wrB_ne _ _ (by decide) fun _ => by decide, rdB_wrB_self _ _ (by decide), rdB_wrB_self _ _ (by decide)]
  exact ⟨rfl, rfl⟩

/-- The switch at its block turns the bank once more. -/
theorem activateRec_of_reached {n : Nat} (ha : s.rdB Reg.ING_REC_STATUS 1 = true) (hn : s.newestSample = some n)
    (hb : s.ing.recArm * s.blockLen ≤ n + 1) : s.activateRec =
      { ((s.wrB Reg.ING_REC_STATUS 1 false).wrF Reg.ING_REC_STATUS 0 1 (1 - s.rdF Reg.ING_REC_STATUS 0 1)).countF Reg.ING_REC_STATUS 16 16 with
        ing := { s.ing with recFrom := some s.ing.recArm, recHist := s.ing.recArm :: s.ing.recHist } } := by
  unfold activateRec
  rw [hn]
  exact if_pos (by rw [ha, Bool.true_and]; exact decide_eq_true hb)

/-- The bank of a block before the armed switch. -/
theorem recBank_before {b : Nat} (h : b < s.ing.recArm ∨ s.rdB Reg.ING_REC_STATUS 1 = false) : s.recBank b =
    (s.rdF Reg.ING_REC_STATUS 0 1 + (s.ing.recHist.filter (fun f => decide (b < f))).length) % 2 := by
  refine if_neg ?_
  rcases h with h | h
  · simp [h]
  · simp [h]

/-- A switch leaves the banks of the blocks before it as they were. -/
theorem recBank_turned {t : State} {b : Nat} (hhist : t.ing.recHist = s.ing.recArm :: s.ing.recHist)
    (hbank : t.rdF Reg.ING_REC_STATUS 0 1 = 1 - s.rdF Reg.ING_REC_STATUS 0 1) (hoff : t.rdB Reg.ING_REC_STATUS 1 = false)
    (hact : s.rdF Reg.ING_REC_STATUS 0 1 ≤ 1) (hb : b < s.ing.recArm) : t.recBank b = s.recBank b := by
  rw [recBank_before (.inl hb), recBank_before (.inr hoff), hhist, hbank, List.filter_cons_of_pos (by simpa using hb), List.length_cons]
  omega

/-- What a switch leaves in the status word. -/
theorem activated_status {act : Nat} (hact : act ≤ 1) (s : State) :
    let t := ((s.wrB Reg.ING_REC_STATUS 1 false).wrF Reg.ING_REC_STATUS 0 1 (1 - act)).countF Reg.ING_REC_STATUS 16 16
    t.rdF Reg.ING_REC_STATUS 0 1 = 1 - act ∧ t.rdB Reg.ING_REC_STATUS 1 = false ∧
    t.rdF Reg.ING_REC_STATUS 16 16 = min (s.rdF Reg.ING_REC_STATUS 16 16 + 1) 65535 := by
  refine ⟨?_, ?_, ?_⟩
  · rw [countF, rdF_wrF_ne _ _ _ _ _ _ _ (by decide) (by decide), rdF_wrF_self _ _ _ _ _ (by decide)]
    omega
  · rw [countF, rdB_wrF_ne _ (by decide) fun _ => by decide, rdB_wrF_ne _ (by decide) fun _ => by decide, rdB_wrB_self _ _ (by decide)]
  · rw [countF, rdF_wrF_self _ _ _ _ _ (by decide), rdF_wrF_ne _ _ _ _ _ _ _ (by decide) (by decide),
      rdF_wrB_ne _ _ (by decide) fun _ => by decide]
    omega

theorem freeStaging_of_done {b : Nat} (hb : s.ing.recFrom = some b) (ha : s.rdB Reg.ING_REC_STATUS 1 = false)
    (hring : s.ing.missed = none ∨ b ≤ s.feedNext.1) (hlive : s.replaying = true ∨ s.img.inputs = [] ∨ b ≤ s.ing.ebNext.1) :
    s.freeStaging = ({ s with ing := { s.ing with recFrom := none } } : State).wrB Reg.ING_REC_STATUS 2 true := by
  have hr : (match s.ing.missed with | some _ => decide (s.feedNext.1 < b) | none => false) = false := by
    rcases hring with h | h
    · rw [h]
    · cases s.ing.missed with
      | none => rfl
      | some _ => exact decide_eq_false (not_lt.mpr h)
  have hl : (!s.replaying && !s.img.inputs.isEmpty && decide (s.ing.ebNext.1 < b)) = false := by
    rcases hlive with h | h | h <;> simp [h]
  unfold freeStaging
  rw [hb]
  simp only [ha, hl, Bool.false_or, Bool.or_false]
  exact if_neg (ne_true_of_eq_false hr)

/-! Statistics (R97). -/

/-- An interval that closes where no region takes its record. -/
theorem statClose_unrecorded (hn : s.rdF Reg.ING_STAT_CFG 0 16 ≠ 0) (hc : s.counted (s.ing.statFrom + s.rdF Reg.ING_STAT_CFG 0 16 - 1) = true)
    (hr : s.img.regions.find? (fun r => decide (r.kind = 1)) = none) : ∃ i : Ingress, i.statFrom = s.ing.statFrom + s.rdF Reg.ING_STAT_CFG 0 16 ∧
      s.statClose = State.wr { s with ing := i } Reg.ING_STAT_SEQ (s.rd Reg.ING_STAT_SEQ + 1) := by
  unfold statClose
  rw [hr]
  dsimp only
  rw [if_neg (by simp [hn, hc])]
  exact ⟨_, rfl, rfl⟩

/-! Debt and shedding (R100, R101). -/

/-- The registers of a shed level. -/
def shedTo (s : State) (l : Nat) : State :=
  { ((s.wrF Reg.ING_SHED_STATUS 0 7 l).wrF Reg.ING_SHED_STATUS 8 7 (max l (s.rdF Reg.ING_SHED_STATUS 8 7))).wrB Reg.ING_SHED_STATUS 31
      (decide (0 < l)) with
    ing := { s.ing with debtOld := s.ing.debt } }

theorem shedLevel_rises (hd : s.rdF Reg.ING_DEBT_CFG 0 10 * (s.ringBytes * s.debtUnit) ≤ 1000 * s.ing.debt) (ho : s.ing.debtOld < s.ing.debt)
    (hl : s.rdF Reg.ING_SHED_STATUS 0 7 < s.shedList.length) : s.shedLevel = s.shedTo (s.rdF Reg.ING_SHED_STATUS 0 7 + 1) := by
  unfold shedLevel
  dsimp only
  rw [if_pos ⟨hd, ho, hl⟩]
  rfl

theorem shedLevel_falls
    (hd : 1000 * s.ing.debt + s.rdF Reg.ING_DEBT_CFG 16 10 * (s.ringBytes * s.debtUnit) < s.rdF Reg.ING_DEBT_CFG 0 10 * (s.ringBytes * s.debtUnit))
    (hl : 0 < s.rdF Reg.ING_SHED_STATUS 0 7) (ho : s.ing.debt < s.ing.debtOld ∨ s.ing.debt = 0) :
    s.shedLevel = s.shedTo (s.rdF Reg.ING_SHED_STATUS 0 7 - 1) := by
  unfold shedLevel
  dsimp only
  rw [if_neg (by omega), if_pos ⟨hd, hl, ho⟩]
  rfl

theorem shedTo_status (s : State) {l : Nat} (h : l < 128) : (s.shedTo l).rdF Reg.ING_SHED_STATUS 0 7 = l ∧
    (s.shedTo l).rdB Reg.ING_SHED_STATUS 31 = decide (0 < l) := by
  obtain ⟨i, e⟩ : ∃ i, s.shedTo l = { ((s.wrF Reg.ING_SHED_STATUS 0 7 l).wrF Reg.ING_SHED_STATUS 8 7
      (max l (s.rdF Reg.ING_SHED_STATUS 8 7))).wrB Reg.ING_SHED_STATUS 31 (decide (0 < l)) with ing := i } := ⟨_, rfl⟩
  rw [e, rdF_congr (rd_withIng ..), rdB_congr (rd_withIng ..)]
  refine ⟨?_, rdB_wrB_self _ _ (by decide) _⟩
  rw [rdF_wrB_ne _ _ (by decide) fun _ => by decide, rdF_wrF_ne _ _ _ _ _ _ _ (by decide) (by decide), rdF_wrF_self _ _ _ _ _ (by decide)]
  omega

/-- One cycle of the debt. -/
theorem debtCycle_results (s : State) : s.debtCycle.ing.arrived = 0 ∧
    s.debtCycle.ing.debt = s.ing.debt + s.ing.arrived * s.ringBlock * (s.img.k * s.img.roundLen) -
      (if s.rdB Reg.GLB_CLK_STATUS 2 then 0
        else s.ringBlock * cyclesPerRef (s.rdF Reg.GLB_CLK_STATUS 0 2) * (s.channels.length * s.blockLen)) ∧
    (s.debtUnit ≠ 0 → s.debtCycle.rd64 Reg.ING_DEBT = BitVec.ofNat 64 (s.debtCycle.ing.debt / s.debtUnit)) ∧
    (∀ k, k ∉ [Reg.ING_DEBT, Reg.ING_DEBT + 4] → s.debtCycle.rd k = s.rd k) := by
  refine ⟨rfl, rfl, fun hu => ?_, fun k hk => ?_⟩
  · rw [debtCycle, wr64_rd64, if_neg hu]
    rfl
  · simp only [List.mem_cons, List.not_mem_nil, or_false, not_or] at hk
    rw [debtCycle, wr64, rd_wr_ne _ _ hk.2, rd_wr_ne _ _ hk.1]
    rfl

end State

/-- Settles O34: a record word by its key, a switch by the number of switches after a block, an interval, a cycle of the debt and a
boundary of the shed level as one update each. -/
theorem recordAndDebtResults : Obligations.RecordAndDebtResults := by
  refine ⟨fun s => ?records, fun s hc hrep => ⟨⟨_, congrArg Host.Outcome.next (if_pos ⟨hc, by rw [hrep]; rfl⟩), s.debtCycle_results⟩, ?shed⟩⟩
  case records =>
    intro a act
    have hact : act ≤ 1 := Nat.le_of_lt_succ (BitVec.isLt _)
    refine ⟨fun m v ha hfree hbank => ?write, fun m hi ha harmed => ?arm, fun n harmed hn hreach => ?activate,
      fun b hb harmed hring hlive => ?free, ?stats⟩
    case write =>
      refine ⟨_, congrArg Host.Outcome.next ((if_pos ha).trans (State.writeRecData_of_free hfree hbank v)), ?_, fun bank c w hb hc hw hne => ?_⟩
      · rw [State.recWord_recAdvance, State.recWord_setRec_self]
      · rw [State.recWord_recAdvance, State.recWord_setRec_ne s (BitVec.isLt _) (BitVec.isLt _) hc hw hne]
    case arm =>
      intro b hlate hfmt
      have harm := State.writeRecSwitch_of_ready harmed hlate hfmt
      obtain ⟨h1, h2⟩ := State.armedRec_status (s.wr (Reg.ING_REC_SWITCH + 4) hi) b
      exact ⟨_, congrArg Host.Outcome.next ((if_pos ha).trans harm), h1, h2, rfl⟩
    case activate =>
      have hex := State.activateRec_of_reached harmed hn hreach
      obtain ⟨hbank, hoff, hcount⟩ := State.activated_status hact s
      refine ⟨_, congrArg Host.Outcome.next hex, (State.rdF_congr (State.rd_withIng ..) _ _).trans hbank,
        (State.rdB_congr (State.rd_withIng ..) _).trans hoff, (State.rdF_congr (State.rd_withIng ..) _ _).trans hcount, rfl, fun b hb => ?_⟩
      exact State.recBank_turned rfl ((State.rdF_congr (State.rd_withIng ..) _ _).trans hbank)
        ((State.rdB_congr (State.rd_withIng ..) _).trans hoff) hact hb
    case free =>
      exact ⟨_, congrArg Host.Outcome.next (State.freeStaging_of_done hb harmed hring hlive), State.rdB_wrB_self _ _ (by decide) true, rfl⟩
    case stats =>
      intro n hn hcnt hr
      obtain ⟨i, hi, he⟩ := State.statClose_unrecorded hn hcnt hr
      refine ⟨_, congrArg Host.Outcome.next he, onlyRegs_wr _ List.mem_cons_self _, State.rd_wr_self _ _ _, hi⟩
  case shed =>
    intro u l limit
    refine ⟨fun hd ho hl h64 => ?_, fun hd hl ho => ?_⟩
    · obtain ⟨hlev, hon⟩ := s.shedTo_status (l := l + 1) (by omega)
      exact ⟨_, congrArg Host.Outcome.next ((if_pos ⟨hc, by rw [hrep]; rfl⟩).trans (State.shedLevel_rises hd ho hl)), hlev,
        hon.trans (decide_eq_true (by omega)), rfl⟩
    · have hl7 : l < 128 := BitVec.isLt _
      obtain ⟨hlev, hon⟩ := s.shedTo_status (l := l - 1) (by omega)
      refine ⟨_, congrArg Host.Outcome.next ((if_pos ⟨hc, by rw [hrep]; rfl⟩).trans (State.shedLevel_falls hd hl ho)), hlev, hon.trans ?_⟩
      exact decide_eq_decide.mpr (by omega)

end Sys2Proof.Machine
end

section
/-!
PROOF. Primitive units, external inputs and contour masks (R216 to R225).
-/

namespace Sys2Proof.Machine
open Sys2Proof.Claims

namespace State
variable {s : State}

/-! What the presentation of an event leaves alone (R232). -/

/-- An event of any source reaches the classes alone. -/
theorem pushEvent_leaves {β : Type} {g : State → β} (h : ∀ c, c < 64 → Apart g c 4) (s : State) (kind : SrcKind) (idx : Nat)
    (e : SlotEvent) : g (s.pushEvent kind idx e) = g s := by
  unfold pushEvent
  split
  · rfl
  refine foldl_leaves g _ _ s fun t c hc => ?_
  split
  · exact foldl_leaves g _ _ t fun t' _ _ => pushTo_leaves (h c (List.mem_range.mp hc)) t' _
  · rfl

/-- The units and masks beside their registers, and the samples at their inputs. -/
def units (s : State) : SMap Prim × SMap (List TSample) × SMap Mask × SMap (List TSample) :=
  (s.trg.prims, s.trg.primQ, s.trg.masks, s.trg.maskQ)

theorem apart_units (c : Nat) : Apart units c 4 where
  cause t n := by rw [units, count64_trg, units]
  total t n := by rw [units, count64_trg, units]
  update _ _ _ := rfl

/-- Every register below the banks of the classes. -/
theorem apart_rd {k : Nat} (hk : k < 0x0220_0000) (c : Nat) : Apart (fun s => s.rd k) c 4 where
  cause t n := wr64_rd_ne _ _ (by unfold Reg.cls; omega) (by unfold Reg.cls; omega)
  total t n := wr64_rd_ne _ _ (by unfold Reg.cls; omega) (by unfold Reg.cls; omega)
  update _ _ _ := rfl

theorem pushEvent_units (s : State) (kind : SrcKind) (idx : Nat) (e : SlotEvent) : (s.pushEvent kind idx e).units = s.units :=
  pushEvent_leaves (fun c _ => apart_units c) s kind idx e

theorem pushEvent_rd {k : Nat} (hk : k < 0x0220_0000) (s : State) (kind : SrcKind) (idx : Nat) (e : SlotEvent) :
    (s.pushEvent kind idx e).rd k = s.rd k :=
  pushEvent_leaves (g := fun t => t.rd k) (fun c _ => apart_rd hk c) s kind idx e

theorem prim_congr {s t : State} (h : t.units = s.units) (u : Nat) : t.prim u = s.prim u :=
  congrArg (fun m : SMap Prim × SMap (List TSample) × SMap Mask × SMap (List TSample) => SMap.get Prim.none m.1 u) h

theorem mask_congr {s t : State} (h : t.units = s.units) (k : Nat) : t.mask k = s.mask k :=
  congrArg (fun m : SMap Prim × SMap (List TSample) × SMap Mask × SMap (List TSample) => SMap.get Mask.none m.2.2.1 k) h

theorem maskQ_congr {s t : State} (h : t.units = s.units) : t.trg.maskQ = s.trg.maskQ :=
  congrArg (fun m : SMap Prim × SMap (List TSample) × SMap Mask × SMap (List TSample) => m.2.2.2) h

/-! A unit that fires (R216, R223). -/

/-- What the start of masks leaves of a unit: its state, its samples, its firings. -/
def unitParts (s : State) (u : Nat) : SMap Prim × SMap (List TSample) × Word :=
  (s.trg.prims, s.trg.primQ, s.rd (Reg.prim u Reg.TRG_PRIM_FIRED))

theorem startMasks_parts {u : Nat} (hu : u < 1024) (s : State) (n : Nat) (t : Int) : (s.startMasks u n t).unitParts u = s.unitParts u := by
  unfold startMasks
  refine foldl_leaves (fun st => st.unitParts u) _ _ s fun st k _ => ?_
  dsimp only
  split_ifs
  · refine Prod.ext rfl (Prod.ext rfl (count_rd_ne _ _ ?_))
    unfold Reg.prim Reg.mask Reg.TRG_PRIM_FIRED
    omega
  · rfl
  · rfl

/-- A unit that fires is disarmed, has fired once more, and keeps the rest of its state. -/
theorem firePrim_results {u : Nat} (hu : u < 1024) (s : State) (n : Nat) (t : Int) :
    (s.firePrim u n t).rd (Reg.prim u Reg.TRG_PRIM_FIRED) = satInc (s.rd (Reg.prim u Reg.TRG_PRIM_FIRED)) ∧
      (s.firePrim u n t).prim u = { s.prim u with disarmed := true, idle := 0 } ∧
      (s.firePrim u n t).trg.primQ = s.trg.primQ := by
  have hlow : Reg.prim u Reg.TRG_PRIM_FIRED < 0x0220_0000 := by
    unfold Reg.prim Reg.TRG_PRIM_FIRED
    omega
  unfold firePrim
  dsimp only
  generalize hs1 : (s.setPrim u { s.prim u with disarmed := true, idle := 0 }).count (Reg.prim u Reg.TRG_PRIM_FIRED) = s1
  generalize s1.plainEvent t = e
  obtain ⟨hprims, hprimQ, hfired⟩ : _ ∧ _ ∧ _ := by simpa only [unitParts, Prod.mk.injEq] using startMasks_parts hu s1 n t
  have hu' := pushEvent_units (s1.startMasks u n t) .prim u e
  refine ⟨?_, ?_, ?_⟩
  · rw [pushEvent_rd hlow, hfired, ← hs1]
    exact count_rd_self ..
  · rw [prim_congr hu', prim, hprims, ← hs1]
    exact prim_setPrim_self ..
  · have hq := congrArg (fun m : SMap Prim × SMap (List TSample) × SMap Mask × SMap (List TSample) => m.2.1) hu'
    refine hq.trans (hprimQ.trans ?_)
    rw [← hs1]
    rfl

/-! A unit's sample (R216, R219, R220). -/

/-- A level unit that is armed and active fires. -/
theorem evalPrim_of_active {u : Nat} {x : TSample} (hk : s.primKind u ≠ 3) (ha : s.primActive u (s.prim u).prev x = true)
    (hd : (s.prim u).disarmed = false) :
    ∃ q t, s.evalPrim u x = (s.setPrim u q).firePrim u x.index t ∧ q.active = true := by
  simp only [evalPrim, ha, hd, hk, decide_false, Bool.false_and, Bool.false_eq_true, if_false, Bool.true_and, Bool.not_false,
    if_true, Bool.and_self]
  exact ⟨_, _, rfl, rfl⟩

/-- An inactive level unit only sets its own state. -/
theorem evalPrim_of_inactive {u : Nat} {x : TSample} (hk : s.primKind u ≠ 3) (ha : s.primActive u (s.prim u).prev x = false) :
    ∃ q, s.evalPrim u x = s.setPrim u q ∧ q.active = false ∧ q.idle = (s.prim u).idle + 1 := by
  simp only [evalPrim, ha, hk, decide_false, Bool.false_and, Bool.and_false, Bool.false_eq_true, if_false]
  exact ⟨_, rfl, rfl, rfl⟩

/-- The state whose unit has taken its oldest sample. -/
def unitTook (s : State) (u : Nat) (rest : List TSample) : State :=
  { s with trg := { s.trg with primQ := SMap.set [] s.trg.primQ u rest } }

theorem primSample_active {u : Fin 1024} {x : TSample} {rest : List TSample} (hctx : s.ctx = ctxRunning) (hen : s.primEn u = true)
    (hq : SMap.get [] s.trg.primQ u = x :: rest) (hb : (s.prim u).begin' = none) (hk : s.primKind u ≠ 3)
    (ha : s.primActive u (s.prim u).prev x = true) (hd : (s.prim u).disarmed = false) :
    ∃ t, exec (.primitiveSample u) s = .next t ∧ t.rd (Reg.prim u Reg.TRG_PRIM_FIRED) = satInc (s.rd (Reg.prim u Reg.TRG_PRIM_FIRED)) ∧
      (t.prim u).disarmed = true ∧ (t.prim u).active = true ∧ SMap.get [] t.trg.primQ u = rest := by
  obtain ⟨q, t0, he, hact⟩ := evalPrim_of_active (s := s.unitTook u rest) hk ha hd
  obtain ⟨hrd, hprim, hpq⟩ := firePrim_results u.isLt ((s.unitTook u rest).setPrim u q) x.index t0
  have hst : s.stepPrim u = _ := (stepPrim_of_cons hctx hen hq hb).trans he
  refine ⟨_, congrArg Host.Outcome.next hst, hrd, ?_, ?_, ?_⟩
  · rw [hprim]
  · rw [hprim, prim_setPrim_self]
    exact hact
  · rw [hpq]
    exact SMap.get_set_self ..

theorem primSample_inactive {u : Fin 1024} {x : TSample} {rest : List TSample} (hctx : s.ctx = ctxRunning) (hen : s.primEn u = true)
    (hq : SMap.get [] s.trg.primQ u = x :: rest) (hb : (s.prim u).begin' = none) (hk : s.primKind u ≠ 3)
    (ha : s.primActive u (s.prim u).prev x = false) :
    ∃ t, exec (.primitiveSample u) s = .next t ∧ (∀ k, t.rd k = s.rd k) ∧ (t.prim u).active = false ∧
      (t.prim u).idle = (s.prim u).idle + 1 ∧ SMap.get [] t.trg.primQ u = rest ∧ t.trg.classes = s.trg.classes := by
  obtain ⟨q, he, hact, hidle⟩ := evalPrim_of_inactive (s := s.unitTook u rest) hk ha
  have hst : s.stepPrim u = _ := (stepPrim_of_cons hctx hen hq hb).trans he
  refine ⟨_, congrArg Host.Outcome.next hst, fun _ => rfl, ?_, ?_, SMap.get_set_self .., rfl⟩
  · rw [prim_setPrim_self, hact]
  · rw [prim_setPrim_self, hidle]
    rfl

/-- A unit whose state is set and whose samples are dropped. -/
def unitSet (s : State) (u : Nat) (p : Prim) : State :=
  { s.setPrim u p with trg := { (s.setPrim u p).trg with primQ := SMap.erase (s.setPrim u p).trg.primQ u } }

theorem prim_unitSet (s : State) (u : Nat) (p : Prim) : (s.unitSet u p).prim u = p := prim_setPrim_self s u p

theorem rdB_unitSet (s : State) (u : Nat) (p : Prim) (k i : Nat) : (s.unitSet u p).rdB k i = s.rdB k i := rfl

/-- Enabling a unit (R219). -/
theorem primEnable_results {u : Fin 1024} (h : bit (s.primRd u Reg.TRG_PRIM_CFG) 31 = false) :
    ∃ t, exec (.primitiveEnable u) s = .next t ∧ bit (t.primRd u Reg.TRG_PRIM_CFG) 31 = true ∧ (t.prim u).active = false ∧
      (t.prim u).disarmed = false ∧ (t.prim u).begin' = (if s.contextRuns then some (s.nextBoundary (s.primChan u)) else none) := by
  have he : exec (.primitiveEnable u) s = .next ((s.wrB (Reg.prim u Reg.TRG_PRIM_CFG) 31 true).unitSet u
      { Prim.none with begin' := if s.contextRuns then some (s.nextBoundary (s.primChan u)) else none }) :=
    congrArg Host.Outcome.next (if_neg (ne_true_of_eq_false h))
  refine ⟨_, he, ?_, ?_, ?_, ?_⟩
  · exact (rdB_unitSet _ _ _ (Reg.prim u Reg.TRG_PRIM_CFG) 31).trans (rdB_wrB_self _ _ (by decide) _)
  · exact congrArg Prim.active (prim_unitSet ..)
  · exact congrArg Prim.disarmed (prim_unitSet ..)
  · exact congrArg Prim.begin' (prim_unitSet ..)

/-! Re-arming and STUCK (R220, R222). -/

theorem rearm_prim {u : Fin 1024} (hd : (s.prim u).disarmed = true) (ha : (s.prim u).active = false) (hi : s.primHold u ≤ (s.prim u).idle) :
    exec (.holdoffExpiry (.prim u)) s = .next (s.setPrim u { s.prim u with disarmed := false }) := by
  refine congrArg Host.Outcome.next (if_pos ?_)
  rw [hd, ha, decide_eq_true hi]
  rfl

theorem rearm_input {n : Fin 16} (hd : (s.extIn n).disarmed = true) (hl : (s.extIn n).level = false)
    (ht : (64 * fieldNat (s.inCfg n) 0 16 : Int) ≤ tlSub s.timeline.toNat (s.extIn n).since) :
    exec (.holdoffExpiry (.input n)) s = .next (s.setExtIn n { s.extIn n with disarmed := false }) := by
  refine congrArg Host.Outcome.next (if_pos ?_)
  rw [hd, hl, decide_eq_true ht]
  rfl

/-- A source's STUCK bit and its bit of TRG_STATUS. -/
theorem stuckBits (s : State) {k i j : Nat} (hi : i < 32) (hj : j < 32) (hk : k ≠ Reg.TRG_STATUS) :
    OnlyRegs s ((s.wrB k i true).wrB Reg.TRG_STATUS j true) [k, Reg.TRG_STATUS] ∧
      ((s.wrB k i true).wrB Reg.TRG_STATUS j true).rdB k i = true ∧
      ((s.wrB k i true).wrB Reg.TRG_STATUS j true).rdB Reg.TRG_STATUS j = true := by
  refine ⟨onlyRegs_trans (onlyRegs_wrB _ (by simp) _ _) (onlyRegs_wrB _ (by simp) _ _), ?_, rdB_wrB_self _ _ hj _⟩
  rw [rdB_wrB_ne _ _ hi (fun e => absurd e hk), rdB_wrB_self _ _ hi]

theorem stuck_prim {u : Fin 1024} {w : Int} (ha : (s.prim u).active = true) (hw : (s.prim u).watermark = some w)
    (hf : fineLe ((s.prim u).since + (s.rd Reg.TRG_STUCK_TIME).toNat * finePerNs) w = true) :
    ∃ t, exec (.stuckDetect (.prim u)) s = .next t ∧ OnlyRegs s t [Reg.prim u Reg.TRG_PRIM_STATUS, Reg.TRG_STATUS] ∧
      t.rdB (Reg.prim u Reg.TRG_PRIM_STATUS) 2 = true ∧ t.rdB Reg.TRG_STATUS 3 = true := by
  have hst : s.stuck (.prim u) = (s.wrB (Reg.prim u Reg.TRG_PRIM_STATUS) 2 true).wrB Reg.TRG_STATUS 3 true := by
    unfold stuck
    dsimp only
    rw [hw]
    exact if_pos (by rw [ha, Bool.true_and]; exact hf)
  exact ⟨_, congrArg Host.Outcome.next hst, stuckBits s (by decide) (by decide) (by unfold Reg.prim Reg.TRG_STATUS; omega)⟩

theorem stuck_input {n : Fin 16} (hl : (s.extIn n).level = true)
    (ht : (64 * (s.rd Reg.TRG_STUCK_TIME).toNat : Int) ≤ tlSub s.timeline.toNat (s.extIn n).since) :
    ∃ t, exec (.stuckDetect (.input n)) s = .next t ∧ OnlyRegs s t [Reg.TRG_IN_STATUS n, Reg.TRG_STATUS] ∧
      t.rdB (Reg.TRG_IN_STATUS n) 2 = true ∧ t.rdB Reg.TRG_STATUS (16 + n.val) = true := by
  have hst : s.stuck (.input n) = (s.wrB (Reg.TRG_IN_STATUS n) 2 true).wrB Reg.TRG_STATUS (16 + n.val) true :=
    if_pos (Bool.and_eq_true_iff.mpr ⟨hl, decide_eq_true ht⟩)
  exact ⟨_, congrArg Host.Outcome.next hst, stuckBits s (by decide) (by omega) (by unfold Reg.TRG_IN_STATUS Reg.TRG_STATUS; omega)⟩

/-! Contour masks (R223 to R225). -/

/-- The state whose mask has taken its oldest sample. -/
def maskTook (s : State) (k : Nat) (rest : List TSample) : State :=
  { s with trg := { s.trg with maskQ := SMap.set [] s.trg.maskQ k rest } }

theorem mask_setMask_self (s : State) (k : Nat) (m : Mask) : (s.setMask k m).mask k = m := SMap.get_set_self ..

/-- An enabled mask in progress takes the sample that its next point is due at. -/
theorem stepMask_of_instance {k : Nat} {x : TSample} {rest : List TSample} {n i : Nat} {t0 : Int} (hctx : s.ctx = ctxRunning)
    (hen : s.maskEn k = true) (hq : SMap.get [] s.trg.maskQ k = x :: rest) (hinst : (s.mask k).inst = some (n, i, t0))
    (hx : n + i ≤ x.index) : s.stepMask k = (s.maskTook k rest).testPoint k x n i t0 := by
  unfold stepMask
  simp only [hq, hen, hctx, hinst, Nat.not_lt.mpr hx, ne_eq, not_true_eq_false, decide_false, Bool.not_true, Bool.or_self,
    Bool.false_eq_true, if_false]
  rfl

/-- Inside its limits, and not the last: the mask goes on to the next point. -/
theorem testPoint_of_inside {k : Nat} {x : TSample} {n i first cnt : Nat} {t0 : Int} (hp : s.maskPoints k = some (first, cnt))
    (hb : x.bad = false) (hin : s.pointLo (first + i) ≤ x.code ∧ x.code ≤ s.pointHi (first + i)) (hi : i + 1 ≠ cnt) :
    ∃ w, s.testPoint k x n i t0 = s.setMask k { inst := some (n, i + 1, t0), watermark := w } := by
  have hout : ¬(x.code < s.pointLo (first + i) ∨ s.pointHi (first + i) < x.code) := by omega
  simp only [testPoint, hp, hb, hout, hi, Bool.false_eq_true, if_false]
  exact ⟨_, rfl⟩

/-- Inside at the last point: a PASS mask has passed. -/
theorem testPoint_of_last {k : Nat} {x : TSample} {n i first cnt : Nat} {t0 : Int} (hp : s.maskPoints k = some (first, cnt))
    (hb : x.bad = false) (hin : s.pointLo (first + i) ≤ x.code ∧ x.code ≤ s.pointHi (first + i)) (hi : i + 1 = cnt)
    (hpass : s.maskPass k = true) :
    ∃ w e, s.testPoint k x n i t0 =
      ((s.setMask k { s.mask k with inst := none, watermark := w }).count (Reg.mask k Reg.TRG_MASK_PASS)).pushEvent .mask k e := by
  have hout : ¬(x.code < s.pointLo (first + i) ∨ s.pointHi (first + i) < x.code) := by omega
  simp only [testPoint, hp, hb, hout, hi, hpass, Bool.false_eq_true, if_false, if_true]
  exact ⟨_, _, rfl⟩

/-- The end of a mask in progress at a violation, before its event. -/
def violated (s : State) (k : Nat) (w : Option Int) : State :=
  let t := (s.setMask k { s.mask k with inst := none, watermark := w }).count (Reg.mask k Reg.TRG_MASK_VIOL)
  if bit (s.maskRd k Reg.TRG_MASK_CFG) 29 then t.wrB (Reg.mask k Reg.TRG_MASK_STATUS) 1 true else t

theorem testPoint_of_outside {k : Nat} {x : TSample} {n i first cnt : Nat} {t0 : Int} (hp : s.maskPoints k = some (first, cnt))
    (hb : x.bad = false) (hout : ¬(s.pointLo (first + i) ≤ x.code ∧ x.code ≤ s.pointHi (first + i))) :
    ∃ w e, s.testPoint k x n i t0 = if s.maskPass k then s.violated k w else (s.violated k w).pushEvent .mask k e := by
  have hout' : x.code < s.pointLo (first + i) ∨ s.pointHi (first + i) < x.code := by omega
  simp only [testPoint, hp, hb, Bool.false_eq_true, if_false, if_pos hout']
  exact ⟨_, _, rfl⟩

theorem violated_results {k : Nat} (s : State) (w : Option Int) :
    ((s.violated k w).mask k).inst = none ∧
      (s.violated k w).rd (Reg.mask k Reg.TRG_MASK_VIOL) = satInc (s.rd (Reg.mask k Reg.TRG_MASK_VIOL)) ∧
      (bit (s.maskRd k Reg.TRG_MASK_CFG) 29 = true → (s.violated k w).rdB (Reg.mask k Reg.TRG_MASK_STATUS) 1 = true) := by
  have hne : Reg.mask k Reg.TRG_MASK_VIOL ≠ Reg.mask k Reg.TRG_MASK_STATUS := by
    unfold Reg.mask Reg.TRG_MASK_VIOL Reg.TRG_MASK_STATUS
    omega
  unfold violated
  dsimp only
  split
  · refine ⟨congrArg Mask.inst (mask_setMask_self s k _), ?_, fun _ => rdB_wrB_self _ _ (by decide) _⟩
    rw [wrB_rd_ne _ _ _ hne]
    exact count_rd_self ..
  case isFalse h => exact ⟨congrArg Mask.inst (mask_setMask_self s k _), count_rd_self .., fun hb => absurd hb h⟩

theorem maskPoint_inside {k : Fin 64} {x : TSample} {rest : List TSample} {n i first cnt : Nat} {t0 : Int} (hctx : s.ctx = ctxRunning)
    (hen : s.maskEn k = true) (hq : SMap.get [] s.trg.maskQ k = x :: rest) (hinst : (s.mask k).inst = some (n, i, t0))
    (hx : n + i ≤ x.index) (hp : s.maskPoints k = some (first, cnt)) (hb : x.bad = false)
    (hin : s.pointLo (first + i) ≤ x.code ∧ x.code ≤ s.pointHi (first + i)) (hi : i + 1 ≠ cnt) :
    ∃ t, exec (.maskPointTest k) s = .next t ∧ (∀ j, t.rd j = s.rd j) ∧ (t.mask k).inst = some (n, i + 1, t0) ∧
      SMap.get [] t.trg.maskQ k = rest := by
  obtain ⟨w, he⟩ := testPoint_of_inside (s := s.maskTook k rest) (n := n) (t0 := t0) hp hb hin hi
  refine ⟨_, congrArg Host.Outcome.next ((stepMask_of_instance hctx hen hq hinst hx).trans he), fun _ => rfl, ?_, SMap.get_set_self ..⟩
  rw [mask_setMask_self]

theorem maskPoint_last {k : Fin 64} {x : TSample} {rest : List TSample} {n i first cnt : Nat} {t0 : Int} (hctx : s.ctx = ctxRunning)
    (hen : s.maskEn k = true) (hq : SMap.get [] s.trg.maskQ k = x :: rest) (hinst : (s.mask k).inst = some (n, i, t0))
    (hx : n + i ≤ x.index) (hp : s.maskPoints k = some (first, cnt)) (hb : x.bad = false)
    (hin : s.pointLo (first + i) ≤ x.code ∧ x.code ≤ s.pointHi (first + i)) (hi : i + 1 = cnt) (hpass : s.maskPass k = true) :
    ∃ t, exec (.maskPointTest k) s = .next t ∧ (t.mask k).inst = none ∧
      t.rd (Reg.mask k Reg.TRG_MASK_PASS) = satInc (s.rd (Reg.mask k Reg.TRG_MASK_PASS)) := by
  obtain ⟨w, e, he⟩ := testPoint_of_last (s := s.maskTook k rest) (n := n) (t0 := t0) hp hb hin hi hpass
  refine ⟨_, congrArg Host.Outcome.next ((stepMask_of_instance hctx hen hq hinst hx).trans he), ?_, ?_⟩
  · rw [mask_congr (pushEvent_units _ _ _ _)]
    exact congrArg Mask.inst (mask_setMask_self ..)
  · rw [pushEvent_rd (by unfold Reg.mask Reg.TRG_MASK_PASS; omega)]
    exact count_rd_self ..

theorem maskPoint_outside {k : Fin 64} {x : TSample} {rest : List TSample} {n i first cnt : Nat} {t0 : Int} (hctx : s.ctx = ctxRunning)
    (hen : s.maskEn k = true) (hq : SMap.get [] s.trg.maskQ k = x :: rest) (hinst : (s.mask k).inst = some (n, i, t0))
    (hx : n + i ≤ x.index) (hp : s.maskPoints k = some (first, cnt)) (hb : x.bad = false)
    (hout : ¬(s.pointLo (first + i) ≤ x.code ∧ x.code ≤ s.pointHi (first + i))) :
    ∃ t, exec (.maskPointTest k) s = .next t ∧ (t.mask k).inst = none ∧
      t.rd (Reg.mask k Reg.TRG_MASK_VIOL) = satInc (s.rd (Reg.mask k Reg.TRG_MASK_VIOL)) ∧
      (bit (s.maskRd k Reg.TRG_MASK_CFG) 29 = true → t.rdB (Reg.mask k Reg.TRG_MASK_STATUS) 1 = true) := by
  obtain ⟨w, e, he⟩ := testPoint_of_outside (s := s.maskTook k rest) (n := n) (t0 := t0) hp hb hout
  refine ⟨_, congrArg Host.Outcome.next ((stepMask_of_instance hctx hen hq hinst hx).trans he), ?_⟩
  obtain ⟨hm, hv, hs⟩ := violated_results (k := k) (s.maskTook k rest) w
  split
  · exact ⟨hm, hv, hs⟩
  · refine ⟨?_, ?_, fun h => ?_⟩
    · rw [mask_congr (pushEvent_units _ _ _ _), hm]
    · rw [pushEvent_rd (by unfold Reg.mask Reg.TRG_MASK_VIOL; omega)]
      exact hv
    · rw [rdB_congr (pushEvent_rd (by unfold Reg.mask Reg.TRG_MASK_STATUS; omega) _ _ _ _)]
      exact hs h

theorem maskRearm_results {k : Fin 64} (w : Master) (v : Word) (ha : s.answers Reg.TRG_MASK_STATUS = true) (hv : bit v 1 = true)
    (hsel : s.rdF Reg.TRG_MASK_SEL 0 6 = k.val) :
    ∃ t, exec (.maskRearm w v) s = .next t ∧ OnlyRegs s t [Reg.mask k Reg.TRG_MASK_STATUS] ∧
      t.rdB (Reg.mask k Reg.TRG_MASK_STATUS) 1 = false := by
  have he : exec (.maskRearm w v) s = .next (s.wrB (Reg.mask k Reg.TRG_MASK_STATUS) 1 false) := by
    refine congrArg Host.Outcome.next ((exec_atReg ha _).trans ?_)
    rw [writeMaskStatus, if_pos hv, hsel]
  exact ⟨_, he, onlyRegs_wrB _ List.mem_cons_self _ _, rdB_wrB_self _ _ (by decide) _⟩

end State

open State in
/-- Settles O35: a unit or mask takes the oldest sample at its input; what it presents reaches the classes alone, whose banks lie
above those of the units and masks. -/
theorem triggerUnitResults : Obligations.TriggerUnitResults := by
  refine ⟨fun s u => ⟨fun x rest hctx hen hq hb hk => ?sample, primEnable_results, rearm_prim, fun n => rearm_input, fun w => stuck_prim,
    fun n => stuck_input⟩, fun s k => ⟨fun x rest n i t0 first cnt hctx hen hq hinst hx hp hb => ?point, maskRearm_results⟩⟩
  case sample => exact ⟨primSample_active hctx hen hq hb hk, primSample_inactive hctx hen hq hb hk⟩
  case point =>
    exact ⟨maskPoint_inside hctx hen hq hinst hx hp hb, maskPoint_last hctx hen hq hinst hx hp hb,
      maskPoint_outside hctx hen hq hinst hx hp hb⟩

end Sys2Proof.Machine
end

section
/-!
PROOF. External edges, the TDC and SYSREF (R87, R226 to R228).
-/

namespace Sys2Proof.Machine
open Sys2Proof.Claims

namespace State
variable {s t u : State}

/-! Edges of an external input (R226). -/

theorem extIn_setExtIn_self (s : State) (n : Nat) (x : ExtIn) : (s.setExtIn n x).extIn n = x := SMap.get_set_self ..

theorem apart_inputs (c : Nat) : Apart (fun s : State => s.trg.inputs) c 4 where
  cause t n := by rw [count64_trg]
  total t n := by rw [count64_trg]
  update _ _ _ := rfl

/-- A pulse or gap below 0.8 ns changes nothing. -/
theorem inputEdge_of_short {n : Nat} {pin : Bool} {lasts : Nat} (h : 10 * lasts < 512) (stamp : DWord) (tdc : Option TdcCapture) :
    s.inputEdge n pin stamp tdc lasts = s := by
  have hd : s.detects lasts = (false, s) := if_pos h
  unfold inputEdge
  rw [hd]
  simp only [Bool.false_eq_true, if_false, ite_self]

/-- One of 1.2 ns or more is taken. -/
theorem inputEdge_of_long {n : Nat} {pin : Bool} {lasts : Nat} {lvl : Bool} (h : 768 ≤ 10 * lasts) (hl : (pin != bit (s.inCfg n) 30) = lvl)
    (hx : (s.extIn n).level = !lvl) (stamp : DWord) (tdc : Option TdcCapture) :
    s.inputEdge n pin stamp tdc lasts = s.takeEdge n lvl stamp tdc := by
  have hd : s.detects lasts = (true, s) := by
    rw [detects, if_neg (by omega), if_pos h]
  have hne : ¬lvl = !lvl := by cases lvl <;> decide
  unfold inputEdge
  rw [hd, hl, hx]
  exact (if_neg hne).trans (if_pos rfl)

/-- An input that fires is disarmed, counted, and keeps the rest of its state. -/
theorem fireInput_results (s : State) {n : Nat} (hn : n < 16) (stamp : DWord) (tdc : Option TdcCapture) :
    (s.fireInput n stamp tdc).rd (Reg.TRG_IN_FIRED n) = satInc (s.rd (Reg.TRG_IN_FIRED n)) ∧
      (s.fireInput n stamp tdc).extIn n = { s.extIn n with disarmed := true } := by
  have hlow : Reg.TRG_IN_FIRED n < 0x0220_0000 := by
    unfold Reg.TRG_IN_FIRED
    omega
  have hne : Reg.TRG_IN_FIRED n ≠ Reg.TRG_TDC_RANGE := by
    unfold Reg.TRG_IN_FIRED Reg.TRG_TDC_RANGE
    omega
  unfold fireInput
  extract_lets x s1 align r s2
  have h1 : s1.rd (Reg.TRG_IN_FIRED n) = satInc (s.rd (Reg.TRG_IN_FIRED n)) := count_rd_self ..
  have h2 : s2.rd (Reg.TRG_IN_FIRED n) = s1.rd (Reg.TRG_IN_FIRED n) ∧ s2.trg = s1.trg := by
    unfold s2
    split
    · exact ⟨count_rd_ne _ _ hne, count_trg ..⟩
    · exact ⟨rfl, rfl⟩
  refine ⟨(pushEvent_rd hlow _ _ _ _).trans (h2.1.trans h1), ?_⟩
  rw [extIn, pushEvent_leaves (g := fun t => t.trg.inputs) (fun c _ => apart_inputs c), h2.2]
  exact extIn_setExtIn_self ..

theorem edge_results {n : Fin 16} {pin : Bool} {tdc : Option TdcCapture} {lasts : Nat} {stamp : DWord} (h : 768 ≤ 10 * lasts)
    (hl : (pin != bit (s.inCfg n) 30) = true) (hx : (s.extIn n).level = false) (hen : bit (s.inCfg n) 31 = true)
    (hd : (s.extIn n).disarmed = false) :
    ∃ t, exec (.externalInputEdge n ⟨pin, lasts⟩ stamp tdc) s = .next t ∧ t.rd (Reg.TRG_IN_FIRED n) = satInc (s.rd (Reg.TRG_IN_FIRED n)) ∧
      (t.extIn n).level = true ∧ (t.extIn n).disarmed = true ∧ (t.extIn n).since = stamp.toNat := by
  have hno : ¬(!true || !bit (s.inCfg n) 31) = true := by
    rw [hen]
    decide
  have hno' : ¬((s.extIn n).disarmed && decide (tlSub stamp.toNat (s.extIn n).since < 64 * fieldNat (s.inCfg n) 0 16)) = true := by
    rw [hd, Bool.false_and]
    decide
  have he : s.inputEdge n pin stamp tdc lasts =
      (s.setExtIn n { s.extIn n with level := true, since := stamp.toNat }).fireInput n stamp tdc :=
    (inputEdge_of_long h hl hx stamp tdc).trans ((if_neg hno).trans (if_neg hno'))
  obtain ⟨hf, hin⟩ := fireInput_results (s.setExtIn n { s.extIn n with level := true, since := stamp.toNat }) n.isLt stamp tdc
  rw [extIn_setExtIn_self] at hin
  exact ⟨_, congrArg Host.Outcome.next he, hf, congrArg ExtIn.level hin, congrArg ExtIn.disarmed hin, congrArg ExtIn.since hin⟩

theorem edge_falls {n : Fin 16} {pin : Bool} {tdc : Option TdcCapture} {lasts : Nat} {stamp : DWord} (h : 768 ≤ 10 * lasts)
    (hl : (pin != bit (s.inCfg n) 30) = false) (hx : (s.extIn n).level = true) :
    exec (.externalInputEdge n ⟨pin, lasts⟩ stamp tdc) s = .next (s.setExtIn n { s.extIn n with level := false, since := stamp.toNat }) :=
  congrArg Host.Outcome.next (inputEdge_of_long h hl hx stamp tdc)

/-! The TDC (R226, R228). -/

/-- A bit that software writes reads as it is written (R8). -/
theorem bit_mergeWrite_rw {rw w1c old v : Word} {i : Nat} (h : bit rw i = true) : bit (mergeWrite rw w1c old v) i = bit v i := by
  unfold bit at h
  unfold mergeWrite bit
  simp [h]

theorem mergeWord_tdcCfg (s : State) (v : Word) :
    s.mergeWord Reg.TRG_TDC_CFG v = s.wr Reg.TRG_TDC_CFG (mergeWrite 0xC0000003 0 (s.rd Reg.TRG_TDC_CFG) v) := by
  rw [mergeWord_of_masks (rw := 0xC0000003) (w1c := 0) (by decide), wordKey_of_low (by decide)]

theorem tdcCfg_bit (s : State) (v : Word) {i : Nat} (h : bit (0xC0000003 : Word) i = true) :
    (s.mergeWord Reg.TRG_TDC_CFG v).rdB Reg.TRG_TDC_CFG i = bit v i := by
  rw [mergeWord_tdcCfg, rdB, rd_wr_self, bit_mergeWrite_rw h]

/-- A TDC that does not wait for SYSREF starts with the stamp as its anchor. -/
theorem startTdc_results (h : s.rdB Reg.TRG_TDC_CFG 30 = false) (stamp : DWord) :
    (s.startTdc stamp).rdB Reg.TRG_TDC_CFG 31 = s.rdB Reg.TRG_TDC_CFG 31 ∧ (s.startTdc stamp).rd64 Reg.TRG_TDC_ANCHOR = stamp ∧
      (s.startTdc stamp).trg.anchored = true := by
  unfold startTdc
  dsimp only
  rw [if_neg (ne_true_of_eq_false h), h]
  refine ⟨rdB_congr (wr64_rd_ne _ _ (by decide) (by decide)) 31, wr64_rd64 .., ?_⟩
  rw [wr64_trg]
  rfl

theorem tdcEnable_results (m : Master) {v : Word} {stamp : DWord} (ha : s.answers Reg.TRG_TDC_CFG = true)
    (hoff : s.rdB Reg.TRG_TDC_CFG 31 = false) (hon : bit v 31 = true) (hsys : bit v 30 = false) :
    ∃ t, exec (.tdcEnable m v stamp) s = .next t ∧ t.rdB Reg.TRG_TDC_CFG 31 = true ∧ t.rd64 Reg.TRG_TDC_ANCHOR = stamp ∧
      t.trg.anchored = true := by
  have he : exec (.tdcEnable m v stamp) s = .next ((s.mergeWord Reg.TRG_TDC_CFG v).startTdc stamp) := by
    refine congrArg Host.Outcome.next ((exec_atReg ha _).trans ?_)
    rw [writeTdcCfg, if_neg (ne_true_of_eq_false hoff)]
    exact if_pos hon
  obtain ⟨hen, hanchor, hset⟩ := startTdc_results ((tdcCfg_bit s v (by decide)).trans hsys) stamp
  exact ⟨_, he, hen.trans ((tdcCfg_bit s v (by decide)).trans hon), hanchor, hset⟩

/-- A histogram that is not empty sets the line's 1024 widths, and the line is calibrated. -/
theorem calibrate_eq {line : Nat} {counts : List Nat} (h : counts.foldl (· + ·) 0 ≠ 0) :
    ∃ ws lines, ws.length = 1024 ∧ line ∈ lines ∧
      s.calibrate line counts = { s with trg := { s.trg with widths := SMap.set [] s.trg.widths line ws, calib := lines } } := by
  unfold calibrate
  dsimp only
  rw [if_neg h]
  refine ⟨_, _, ?_, ?_, rfl⟩
  · rw [List.length_map, List.length_range]
  · split
    · assumption
    · exact List.mem_cons_self

theorem calibrate_results {n : Fin 16} {counts : List Nat} (h : counts.foldl (· + ·) 0 ≠ 0) :
    ∃ t, exec (.tdcLineCalibrate n counts) s = .next t ∧ s.idleLine n ∈ t.trg.calib ∧
      (t.tapWidths (s.idleLine n)).length = 1024 ∧ ∀ l, l ≠ s.idleLine n → t.tapWidths l = s.tapWidths l := by
  obtain ⟨ws, lines, hlen, hin, he⟩ := calibrate_eq (s := s) (line := s.idleLine n) h
  refine ⟨_, congrArg Host.Outcome.next he, hin, ?_, fun l hl => SMap.get_set_ne _ _ _ hl⟩
  rw [tapWidths, SMap.get_set_self, hlen]

theorem tdcLock_results (s : State) (locked : Bool) :
    ∃ t, exec (.tdcLock locked) s = .next t ∧ OnlyRegs s t [Reg.TRG_STATUS] ∧ t.rdB Reg.TRG_STATUS 1 = locked :=
  ⟨_, rfl, onlyRegs_wrB _ List.mem_cons_self _ _, rdB_wrB_self _ _ (by decide) _⟩

/-! SYSREF (R87). -/

/-- What the start of a link reads is the same in two states: the words of the lanes and links, where of the lanes' status words
the low byte counts alone, and the link's own state. -/
structure LinkKept (n : Nat) (s t : State) : Prop where
  rd : ∀ k, k < 0x0002_0300 → (k < 0x0002_0100 ∨ 0x0002_0200 ≤ k) → t.rd k = s.rd k
  low : ∀ j i, j < 64 → i < 8 → t.rdB (Reg.ING_LANE_STATUS j) i = s.rdB (Reg.ING_LANE_STATUS j) i
  link : t.link n = s.link n

theorem LinkKept.refl (n : Nat) (s : State) : LinkKept n s s := ⟨fun _ _ _ => rfl, fun _ _ _ _ => rfl, rfl⟩

theorem LinkKept.trans {n : Nat} (a : LinkKept n s t) (b : LinkKept n t u) : LinkKept n s u :=
  ⟨fun k h h' => (b.rd k h h').trans (a.rd k h h'), fun j i h h' => (b.low j i h h').trans (a.low j i h h'), b.link.trans a.link⟩

section Kept
variable {n : Nat} (a : LinkKept n s t)
include a

theorem LinkKept.word {k : Nat} (hk : k < 16) : t.rd (Reg.ING_JESD_LINK k) = s.rd (Reg.ING_JESD_LINK k) :=
  a.rd _ (by unfold Reg.ING_JESD_LINK; omega) (.inr (by unfold Reg.ING_JESD_LINK; omega))

theorem LinkKept.linkEn {k : Nat} (hk : k < 16) : t.linkEn k = s.linkEn k := by rw [State.linkEn, rdB_congr (a.word hk), State.linkEn]

theorem LinkKept.linkFirst {k : Nat} (hk : k < 16) : t.linkFirst k = s.linkFirst k := by
  rw [State.linkFirst, rdF_congr (a.word hk), State.linkFirst]

theorem LinkKept.linkL {k : Nat} (hk : k < 16) : t.linkL k = s.linkL k := by rw [State.linkL, rdF_congr (a.word hk), State.linkL]

theorem LinkKept.linkE {k : Nat} (hk : k < 16) : t.linkE k = s.linkE k := by rw [State.linkE, rdF_congr (a.word hk), State.linkE]

/-- The product M · S · N' of a link. -/
theorem LinkKept.linkBits {k : Nat} (hk : k < 16) : t.linkM k * t.linkS k * t.linkNp k = s.linkM k * s.linkS k * s.linkNp k := by
  rw [linkM, linkS, linkNp, rdF_congr (a.word hk), rdF_congr (a.word hk), rdB_congr (a.word hk), linkM, linkS, linkNp]

theorem LinkKept.linkHas {k : Nat} (hk : k < 16) (j : Nat) : t.linkHas k j = s.linkHas k j := by
  rw [State.linkHas, a.linkEn hk, a.linkFirst hk, a.linkL hk, State.linkHas]

theorem LinkKept.linkLanes {k : Nat} (hk : k < 16) : t.linkLanes k = s.linkLanes k := by
  simp only [State.linkLanes, a.linkHas hk]

theorem LinkKept.linkOk (hn : n < 16) : t.linkOk n = s.linkOk n := by
  have hall : (List.range 16).all (fun j => decide (j = n) || !(t.linkLanes n).any (fun l => t.linkHas j l)) =
      (List.range 16).all (fun j => decide (j = n) || !(s.linkLanes n).any (fun l => s.linkHas j l)) := by
    rw [a.linkLanes hn]
    refine Bool.eq_iff_iff.mpr ?_
    simp only [List.all_eq_true]
    refine forall₂_congr fun j hj => ?_
    simp only [a.linkHas (List.mem_range.mp hj)]
  unfold State.linkOk linkF
  rw [hall, a.link, a.linkBits hn, a.linkE hn, a.linkFirst hn, a.linkL hn]

theorem LinkKept.laneMode {j : Nat} (hj : j < 64) : t.laneMode j = s.laneMode j := by
  rw [State.laneMode, State.laneMode, rdF_congr (a.rd _ (by unfold Reg.ING_LANE_CFG; omega) (.inl (by unfold Reg.ING_LANE_CFG; omega)))]

theorem LinkKept.laneOn {j : Nat} (hj : j < 64) : t.laneOn j = s.laneOn j := by
  rw [State.laneOn, State.laneOn, a.laneMode hj, a.low j 6 hj (by decide),
    rdB_congr (a.rd _ (by unfold Reg.ING_LANE_CFG; omega) (.inl (by unfold Reg.ING_LANE_CFG; omega)))]

theorem LinkKept.index (hn : n < 16) : t.rd64 (Reg.ING_JESD_INDEX n) = s.rd64 (Reg.ING_JESD_INDEX n) := by
  have h (d : Nat) (hd : d ≤ 4) : t.rd (Reg.ING_JESD_INDEX n + d) = s.rd (Reg.ING_JESD_INDEX n + d) :=
    a.rd _ (by unfold Reg.ING_JESD_INDEX; omega) (.inr (by unfold Reg.ING_JESD_INDEX; omega))
  rw [rd64, rd64, h 4 (by decide), ← Nat.add_zero (Reg.ING_JESD_INDEX n), h 0 (by decide)]

end Kept

/-- A link that is ready for SYSREF: all its lanes are aligned. -/
structure LinkReady (s : State) (n : Nat) : Prop where
  en : s.linkEn n = true
  ok : s.linkOk n = true
  idle : (s.link n).started = false
  lanes : ∀ j ∈ s.linkLanes n, s.laneOn j = true ∧ s.laneMode j = 0 ∧ s.rdB (Reg.ING_LANE_STATUS j) 1 = true

theorem LinkKept.ready {n : Nat} (hn : n < 16) (a : LinkKept n s t) (h : LinkReady s n) : LinkReady t n where
  en := (a.linkEn hn).trans h.en
  ok := (a.linkOk hn).trans h.ok
  idle := a.link ▸ h.idle
  lanes j hj := by
    rw [a.linkLanes hn] at hj
    have hj64 : j < 64 := List.mem_range.mp (List.mem_filter.mp hj).1
    rw [a.laneOn hj64, a.laneMode hj64, a.low j 1 hj64 (by decide)]
    exact h.lanes j hj

/-- The lanes of a link in order lie below lane 64. -/
theorem linkFirst_lt {k : Nat} (h : s.linkOk k = true) : s.linkFirst k < 64 := by
  unfold State.linkOk at h
  simp only [Bool.and_eq_true, decide_eq_true_eq] at h
  have hl : 0 < s.linkL k := Nat.succ_pos _
  omega

theorem linkKept_countLate {j : Nat} (hj : j < 64) (n : Nat) (s : State) : LinkKept n s (s.countF (Reg.ING_LANE_STATUS j) 8 8) where
  rd k _ h := wrF_rd_ne _ _ _ _ (by unfold Reg.ING_LANE_STATUS; omega)
  low j i _ hi := rdB_wrF_ne _ (by omega) fun _ => .inl hi
  link := rfl

theorem linkKept_setLink {n k : Nat} (h : n ≠ k) (s : State) (x : JLink) : LinkKept n s (s.setLink k x) :=
  ⟨fun _ _ _ => rfl, fun _ _ _ _ => rfl, SMap.get_set_ne _ _ _ h⟩

theorem linkKept_setLane (n k : Nat) (s : State) (x : LaneIn) : LinkKept n s (s.setLane k x) :=
  ⟨fun _ _ _ => rfl, fun _ _ _ _ => rfl, rfl⟩

/-- Another link's SYSREF leaves a link as it was. -/
theorem linkKept_sysref {n k : Nat} (h : n ≠ k) (s : State) (stamp : DWord) (off : Bool) : LinkKept n s (s.linkSysref k stamp off) := by
  unfold linkSysref
  extract_lets x n0 first
  split
  · exact .refl n s
  next hok =>
  have hfirst : first < 64 := linkFirst_lt (by
    simp only [Bool.not_eq_true', Bool.not_eq_false, Bool.and_eq_true] at hok
    exact hok.2)
  split_ifs
  · exact linkKept_countLate hfirst n s
  · exact linkKept_setLink h s _
  · exact (linkKept_setLink h s _).trans (linkKept_setLane ..)
  · exact .refl n s

/-- A link that is ready starts on SYSREF. -/
theorem linkSysref_of_ready {n : Nat} (h : LinkReady s n) (stamp : DWord) (off : Bool) : (s.linkSysref n stamp off).link n =
    { s.link n with started := true, next := (s.rd64 (Reg.ING_JESD_INDEX n)).toNat,
                    anchor := some { time := stamp.toNat, index := (s.rd64 (Reg.ING_JESD_INDEX n)).toNat, tagged := true } } := by
  have hall : (s.linkLanes n).all (fun j => s.laneOn j && decide (s.laneMode j = 0) && s.rdB (Reg.ING_LANE_STATUS j) 1) = true :=
    List.all_eq_true.mpr fun j hj => by
      obtain ⟨h1, h2, h3⟩ := h.lanes j hj
      rw [h1, h2, h3]
      rfl
  unfold linkSysref
  dsimp only
  rw [h.en, h.ok, h.idle, hall, if_neg (by decide), if_neg (by decide), if_pos rfl]
  exact (linkKept_setLane n _ _ _).link.trans (link_setLink_self s n _)

/-- What all links together make of a SYSREF edge, of one that is ready. -/
theorem sysref_pass {n : Nat} (hn : n < 16) (h : LinkReady s n) (stamp : DWord) (off : BitVec 16) :
    ((List.range 16).foldl (fun t k => t.linkSysref k stamp (off.getLsbD k)) s).link n =
      { s.link n with started := true, next := (s.rd64 (Reg.ING_JESD_INDEX n)).toNat,
                      anchor := some { time := stamp.toNat, index := (s.rd64 (Reg.ING_JESD_INDEX n)).toNat, tagged := true } } := by
  have others (l : List Nat) (hl : n ∉ l) (t : State) : LinkKept n t (l.foldl (fun t k => t.linkSysref k stamp (off.getLsbD k)) t) :=
    List.foldlRecOn (motive := LinkKept n t) l _ (.refl n t) fun u hu k hk =>
      hu.trans (linkKept_sysref (fun e => hl (by rw [e]; exact hk)) u stamp _)
  obtain ⟨l1, l2, hl⟩ := List.append_of_mem (List.mem_range.mpr hn)
  obtain ⟨-, hnd, hdis⟩ := List.nodup_append.mp (hl ▸ List.nodup_range : (l1 ++ n :: l2).Nodup)
  have h1 : n ∉ l1 := fun hm => hdis n hm n List.mem_cons_self rfl
  have h2 : n ∉ l2 := (List.nodup_cons.mp hnd).1
  rw [hl, List.foldl_append, List.foldl_cons, (others l2 h2 _).link]
  have hk := others l1 h1 s
  rw [linkSysref_of_ready (hk.ready hn h), hk.link, hk.index hn]

/-- What a SYSREF edge leaves of the TDC: the trigger block and the anchor. -/
theorem linkSysref_tdc (s : State) (k : Nat) (stamp : DWord) (off : Bool) :
    (s.linkSysref k stamp off).trg = s.trg ∧ (s.linkSysref k stamp off).rd64 Reg.TRG_TDC_ANCHOR = s.rd64 Reg.TRG_TDC_ANCHOR := by
  unfold linkSysref
  extract_lets x n0 first
  split
  · exact ⟨rfl, rfl⟩
  next hok =>
  have hfirst : first < 64 := linkFirst_lt (by
    simp only [Bool.not_eq_true', Bool.not_eq_false, Bool.and_eq_true] at hok
    exact hok.2)
  have hne (d : Nat) : Reg.TRG_TDC_ANCHOR + d ≠ Reg.ING_LANE_STATUS first := by
    unfold Reg.TRG_TDC_ANCHOR Reg.ING_LANE_STATUS
    omega
  split_ifs
  · refine ⟨countF_trg .., ?_⟩
    rw [rd64, rd64]
    exact congrArg₂ _ (wrF_rd_ne _ _ _ _ (hne 4)) (wrF_rd_ne _ _ _ _ (hne 0))
  · exact ⟨rfl, rfl⟩
  · exact ⟨rfl, rfl⟩
  · exact ⟨rfl, rfl⟩

/-- The state in which the links meet the edge: a TDC that waits has its anchor. -/
def sysrefAnchored (s : State) (stamp : DWord) (off : BitVec 16) : State :=
  if s.rdB Reg.TRG_TDC_CFG 31 && !s.trg.anchored && s.sysrefAccepted off then
    ({ s with trg := { s.trg with anchored := true } } : State).wr64 Reg.TRG_TDC_ANCHOR stamp
  else s

theorem linkKept_anchored (n : Nat) (s : State) (stamp : DWord) (off : BitVec 16) : LinkKept n s (s.sysrefAnchored stamp off) := by
  unfold sysrefAnchored
  have hreg : Reg.TRG_TDC_ANCHOR = 0x0004_0210 := rfl
  have hrd {k : Nat} (hk : k < 0x0002_0300) : (({ s with trg := { s.trg with anchored := true } } : State).wr64 Reg.TRG_TDC_ANCHOR stamp).rd k = s.rd k :=
    wr64_rd_ne _ _ (by omega) (by omega)
  split
  · exact ⟨fun k hk _ => hrd hk, fun j i hj _ => rdB_congr (hrd (by unfold Reg.ING_LANE_STATUS; omega)) i, rfl⟩
  · exact .refl n s

theorem sysrefAccepted_of_ready {n : Nat} (hn : n < 16) (h : LinkReady s n) (off : BitVec 16) : s.sysrefAccepted off = true := by
  refine List.any_eq_true.mpr ⟨n, List.mem_range.mpr hn, ?_⟩
  have hall : (s.linkLanes n).all (fun j => s.laneOn j && decide (s.laneMode j = 0) && s.rdB (Reg.ING_LANE_STATUS j) 1) = true :=
    List.all_eq_true.mpr fun j hj => by
      obtain ⟨h1, h2, h3⟩ := h.lanes j hj
      rw [h1, h2, h3]
      rfl
  rw [h.en, h.ok, h.idle, hall]
  rfl

theorem anchored_of_ready {n : Nat} (hn : n < 16) (h : LinkReady s n) (hen : s.rdB Reg.TRG_TDC_CFG 31 = true)
    (hw : s.trg.anchored = false) (stamp : DWord) (off : BitVec 16) :
    (s.sysrefAnchored stamp off).rd64 Reg.TRG_TDC_ANCHOR = stamp ∧ (s.sysrefAnchored stamp off).trg.anchored = true := by
  have hc : (s.rdB Reg.TRG_TDC_CFG 31 && !s.trg.anchored && s.sysrefAccepted off) = true := by
    rw [hen, hw, sysrefAccepted_of_ready hn h]
    rfl
  rw [sysrefAnchored, if_pos hc]
  exact ⟨wr64_rd64 .., by rw [wr64_trg]⟩

theorem sysref_results {n : Fin 16} {stamp : DWord} (off : BitVec 16) (h : LinkReady s n) :
    ∃ t, exec (.sysrefEdge stamp off) s = .next t ∧ (t.link n).started = true ∧
      (s.rdB Reg.TRG_TDC_CFG 31 = true → s.trg.anchored = false → t.rd64 Reg.TRG_TDC_ANCHOR = stamp ∧ t.trg.anchored = true) ∧
      (t.link n).next = (s.rd64 (Reg.ING_JESD_INDEX n)).toNat ∧
      (t.link n).anchor = some { time := stamp.toNat, index := (s.rd64 (Reg.ING_JESD_INDEX n)).toNat, tagged := true } := by
  have hk := linkKept_anchored n s stamp off
  have hlink := sysref_pass n.isLt (hk.ready n.isLt h) stamp off
  rw [hk.index n.isLt] at hlink
  refine ⟨_, rfl, congrArg JLink.started hlink, fun hen hw => ?_, congrArg JLink.next hlink, congrArg JLink.anchor hlink⟩
  obtain ⟨h1, h2⟩ := anchored_of_ready n.isLt h hen hw stamp off
  have htdc := foldl_leaves (fun t : State => (t.trg, t.rd64 Reg.TRG_TDC_ANCHOR)) (fun t k => t.linkSysref k stamp (off.getLsbD k))
    (List.range 16) (s.sysrefAnchored stamp off) fun t k _ => Prod.ext (linkSysref_tdc t k stamp _).1 (linkSysref_tdc t k stamp _).2
  obtain ⟨htrg, hrd⟩ := Prod.mk.inj htdc
  exact ⟨hrd.trans h1, (congrArg Trigger.anchored htrg).trans h2⟩

end State

open State in
/-- Settles O37: an edge that lasts is taken once; the TDC's start takes its stamp; a ready link starts in its turn of the pass,
which the other links' turns leave as it was. -/
theorem timingInputResults : Obligations.TimingInputResults := by
  intro s n stamp
  refine ⟨fun pin tdc lasts h => ?_, fun pin tdc lasts => edge_results, fun pin tdc lasts => edge_falls, fun m v => tdcEnable_results m,
    fun counts => calibrate_results, fun h => congrArg Host.Outcome.next (if_pos h), tdcLock_results s,
    fun off hen hok hst hlanes => sysref_results off ⟨hen, hok, hst, hlanes⟩⟩
  exact congrArg Host.Outcome.next (inputEdge_of_short h stamp tdc)

end Sys2Proof.Machine
end

section
/-!
PROOF. The survey engines (R253 to R255) and the input gate (R208, R209).
-/

namespace Sys2Proof.Machine
open Sys2Proof.Claims

/-! The length of a survey record (R253 to R255). -/

theorem length_leBytes (n x : Nat) : (leBytes n x).length = n := by rw [leBytes, List.length_map, List.length_range]

/-- The CRC takes the place of four bytes. -/
theorem length_withCrc {off : Nat} {bs : List Byte} (h : off + 4 ≤ bs.length) : (withCrc off bs).length = bs.length := by
  simp only [withCrc, List.length_append, List.length_take, List.length_drop, length_leBytes]
  omega

theorem le_padTo (n : Nat) : n ≤ padTo 64 n := by
  unfold padTo
  omega

theorem length_zeroPad {n : Nat} {bs : List Byte} (h : bs.length ≤ n) : (zeroPad n bs).length = n := by
  rw [zeroPad, List.length_append, List.length_replicate, Nat.add_sub_cancel' h]

/-- A header of 64 bytes, and the entries padded to 64. -/
theorem length_surveyBytes (magic entries interval first : Nat) (time : Int) (samples : Nat) (body : List Byte) :
    (surveyBytes magic entries interval first time samples body).length = 64 + padTo 64 body.length := by
  unfold surveyBytes
  rw [length_withCrc]
  all_goals simp only [List.length_append, length_leBytes, length_zeroPad (le_padTo _)]
  omega

theorem length_avgEntry (a : AvgAcc) : (avgEntry a).length = 32 := by simp only [avgEntry, List.length_append, length_leBytes]

theorem length_redEntry (first : Nat) (thr : Int) (xs : List (Nat × Sample)) : (redEntry first thr xs).length = 16 := by
  unfold redEntry
  dsimp only
  split <;> simp only [List.length_append, length_leBytes]

/-- Entries of one length. -/
theorem length_flatMap_const {α β : Type} {f : α → List β} {n : Nat} (h : ∀ a, (f a).length = n) (l : List α) :
    (l.flatMap f).length = n * l.length := by
  rw [List.length_flatMap, List.map_congr_left (fun a _ => h a), List.map_const', List.sum_replicate, smul_eq_mul, Nat.mul_comm]

namespace State
variable {s : State}

/-! An interval that ends (R253, R254). -/

theorem averaging_results (hctx : s.ctx = ctxRunning) (hrep : s.replaying = false) (hen : s.rdB Reg.ACQ_AVG_CFG 31 = true)
    (hn : s.rdF Reg.ACQ_AVG_CFG 0 16 ≠ 0) (hth : s.through (s.acq.avgFrom + s.rdF Reg.ACQ_AVG_CFG 0 16 - 1) = true) :
    ∃ (u : State) (bs : List Byte), exec .averagingInterval s = .next (u.putSurvey 0 s.acq.avgN bs) ∧ u = { s with acq := u.acq } ∧
      u.acq.avgFrom = s.acq.avgFrom + s.rdF Reg.ACQ_AVG_CFG 0 16 ∧ u.acq.avgN = s.acq.avgN + 1 ∧
      bs.length = 64 + padTo 64 (32 * s.channels.length) := by
  have hno : ¬(decide (s.ctx ≠ ctxRunning) || s.replaying || !s.rdB Reg.ACQ_AVG_CFG 31 || decide (s.rdF Reg.ACQ_AVG_CFG 0 16 = 0) ||
      !s.through (s.acq.avgFrom + s.rdF Reg.ACQ_AVG_CFG 0 16 - 1)) = true := by
    rw [hrep, hen, hth, hctx, decide_eq_false hn]
    decide
  refine ⟨_, _, congrArg Host.Outcome.next (if_neg hno), rfl, rfl, rfl, ?_⟩
  rw [length_surveyBytes, length_flatMap_const (fun _ => length_avgEntry _), List.length_map]

theorem reduction_results (hctx : s.ctx = ctxRunning) (hrep : s.replaying = false) (hen : s.rdB Reg.ACQ_RED_CFG 31 = true)
    (hp : s.privs ≠ []) (hall : ∀ i ∈ s.privs, ∃ x ∈ SMap.get [] s.acq.red i, s.acq.redFrom + 2 ^ s.redLog ≤ x.1 + 1) :
    ∃ (u : State) (bs : List Byte), exec .reductionInterval s = .next (u.putSurvey 1 s.acq.redN bs) ∧ u = { s with acq := u.acq } ∧
      u.acq.redFrom = s.acq.redFrom + 2 ^ s.redLog ∧ u.acq.redN = s.acq.redN + 1 ∧
      bs.length = 64 + padTo 64 (16 * s.privs.length) := by
  have hthere : s.privs.all (fun i => (SMap.get [] s.acq.red i).any (fun x => decide (s.acq.redFrom + 2 ^ s.redLog ≤ x.1 + 1))) = true :=
    List.all_eq_true.mpr fun i hi => List.any_eq_true.mpr ((hall i hi).imp fun x hx => ⟨hx.1, decide_eq_true hx.2⟩)
  have hne : s.privs.isEmpty = false := by rwa [← Bool.not_eq_true, List.isEmpty_iff]
  have hno : ¬(decide (s.ctx ≠ ctxRunning) || s.replaying || !s.rdB Reg.ACQ_RED_CFG 31 || s.privs.isEmpty ||
      !s.privs.all (fun i => (SMap.get [] s.acq.red i).any (fun x => decide (s.acq.redFrom + 2 ^ s.redLog ≤ x.1 + 1)))) = true := by
    rw [hrep, hen, hthere, hctx, hne]
    decide
  refine ⟨_, _, congrArg Host.Outcome.next (if_neg hno), rfl, rfl, rfl, ?_⟩
  rw [length_surveyBytes, length_flatMap_const (fun _ => length_redEntry ..)]

/-- Without an area a record is dropped whole (R250, R255). -/
theorem putSurvey_of_noArea (h : s.areaSize surveyArea = 0) (kind interval : Nat) {bs : List Byte} (hb : bs ≠ []) :
    s.putSurvey kind interval bs = s.count Reg.ACQ_SURVEY_DROPS := by
  have hfree : ¬bs.length ≤ s.areaFree surveyArea := by
    rw [areaFree, h, Nat.zero_sub, Nat.le_zero, List.length_eq_zero_iff]
    exact hb
  unfold putSurvey
  rw [if_neg hfree]
  exact if_pos (.inl h)

/-! The input gate (R208, R209). -/

theorem gate_open (hctx : s.ctx = ctxRunning) (hin : s.img.inputs ≠ []) : ¬(decide (s.ctx ≠ ctxRunning) || s.img.inputs.isEmpty) = true := by
  have hne : s.img.inputs.isEmpty = false := by rwa [← Bool.not_eq_true, List.isEmpty_iff]
  rw [hctx, hne]
  decide

theorem inputGate_absent (hctx : s.ctx = ctxRunning) (hin : s.img.inputs ≠ []) (hb : s.blockPresent s.gateBlock = false) :
    s.inputGate = s.requestHold 6 .gate false := by
  unfold inputGate
  rw [if_neg (gate_open hctx hin), hb]
  rfl

theorem inputGate_present (hctx : s.ctx = ctxRunning) (hin : s.img.inputs ≠ []) (hb : s.blockPresent s.gateBlock = true) :
    s.inputGate = if s.requested 6 .gate then s.clearHold 6 .gate else s.lowerLag s.gateBlock := by
  unfold inputGate
  rw [if_neg (gate_open hctx hin), hb]
  rfl

/-- The lag that is left is no more than the cycles since the block came. -/
theorem lowerLag_results (s : State) (b : Nat) : OnlyRegs s (s.lowerLag b) [Reg.ARY_LAG] ∧
    ((s.lowerLag b).rd Reg.ARY_LAG).toNat = min (s.rd Reg.ARY_LAG).toNat (s.hold.edges - SMap.get 0 s.ing.present b) := by
  have hlag : (s.rd Reg.ARY_LAG).toNat < 2 ^ 32 := (s.rd Reg.ARY_LAG).isLt
  unfold lowerLag
  dsimp only
  split
  case isTrue h => exact ⟨onlyRegs_refl _ _, (Nat.min_eq_left h).symm⟩
  case isFalse h =>
    have hlt := Nat.lt_of_not_le h
    refine ⟨onlyRegs_wr _ List.mem_cons_self _, ?_⟩
    rw [rd_wr_self, BitVec.toNat_ofNat, Nat.mod_eq_of_lt (hlt.trans hlag), Nat.min_eq_right hlt.le]

end State

open State in
/-- Settles O42: an interval that ends hands a record over whose length its entries give; the gate requests, clears, or lowers the
lag as its block is there or not. -/
theorem surveyResults : Obligations.SurveyResults := by
  intro s hctx
  refine ⟨averaging_results hctx, reduction_results hctx, fun kind interval bs h => putSurvey_of_noArea h kind interval,
    fun hin hb hr => ?absent, fun hin hb hr => ?clears, fun hin hb hr _ => ?lowers⟩
  case absent => exact ⟨_, congrArg Host.Outcome.next (inputGate_absent hctx hin hb), raises_requestHold hr false⟩
  case clears =>
    refine ⟨_, congrArg Host.Outcome.next ((inputGate_present hctx hin hb).trans (if_pos hr)), clearHold_frame .., ?_⟩
    exact requested_clearHold s (by decide) .gate
  case lowers =>
    exact ⟨_, congrArg Host.Outcome.next ((inputGate_present hctx hin hb).trans (if_neg (ne_true_of_eq_false hr))),
      lowerLag_results s s.gateBlock⟩

end Sys2Proof.Machine
end

section
/-!
PROOF. The trainer: selection and parameter flits, the begin of a step (R261 to R263, R266, R267, R271, R275, R276).
-/

namespace Sys2Proof.Machine
open Sys2Proof.Claims

/-! The parameter flit (R275). -/

/-- The entries of a parameter flit as digits of 64 bits. -/
def paramPack : List ParamReq → Nat
  | [] => 0
  | p :: ps => p.id + p.value.toNat * 2 ^ 32 + 2 ^ 64 * paramPack ps

theorem sum_params (ps : List ParamReq) (n a : Nat) :
    ((ps.zipIdx n).map (fun p => (p.1.id + p.1.value.toNat * 2 ^ 32) * 2 ^ (64 * p.2 + 64))).foldl (· + ·) a =
      a + 2 ^ (64 * n + 64) * paramPack ps := by
  induction ps generalizing n a with
  | nil => rfl
  | cons p ps ih =>
    rw [List.zipIdx_cons, List.map_cons, List.foldl_cons, ih, paramPack]
    ring

/-- The digit of an entry. -/
theorem paramPack_digit {ps : List ParamReq} (hid : ∀ p ∈ ps, p.id < 256) {k : Nat} {p : ParamReq} (hk : ps[k]? = some p) :
    paramPack ps / 2 ^ (64 * k) % 2 ^ 64 = p.id + p.value.toNat * 2 ^ 32 := by
  induction ps generalizing k with
  | nil => cases hk
  | cons q ps ih =>
    have hq := hid q List.mem_cons_self
    have hv : q.value.toNat < 2 ^ 32 := q.value.isLt
    cases k with
    | zero =>
      cases hk
      rw [paramPack, Nat.mul_zero, Nat.pow_zero, Nat.div_one, Nat.add_mul_mod_self_left, Nat.mod_eq_of_lt (by omega)]
    | succ k =>
      rw [paramPack, show 64 * (k + 1) = 64 + 64 * k by omega, Nat.pow_add, ← Nat.div_div_eq_div_mul, Nat.add_mul_div_left _ _ (by decide),
        Nat.div_eq_of_lt (show q.id + q.value.toNat * 2 ^ 32 < 2 ^ 64 by omega), Nat.zero_add]
      exact ih (fun p hp => hid p (List.mem_cons_of_mem _ hp)) hk

/-- The parameter flit of a block's entries. -/
def paramFlit (ps : List ParamReq) : BitVec 256 :=
  BitVec.ofNat 256 (ps.length + (ps.zipIdx.map (fun p => (p.1.id + p.1.value.toNat * 2 ^ 32) * 2 ^ (64 * p.2 + 64))).foldl (· + ·) 0)

theorem paramFlit_eq (ps : List ParamReq) : paramFlit ps = BitVec.ofNat 256 (ps.length + 2 ^ 64 * paramPack ps) := by
  rw [paramFlit, sum_params, Nat.zero_add]

theorem paramFlit_count {ps : List ParamReq} (hlen : ps.length ≤ 3) : fieldNat (paramFlit ps) 0 64 = ps.length := by
  rw [paramFlit_eq, fieldNat_ofNat _ (by decide), Nat.pow_zero, Nat.div_one, Nat.add_mul_mod_self_left, Nat.mod_eq_of_lt (by omega)]

theorem paramFlit_entry {ps : List ParamReq} (hlen : ps.length ≤ 3) (hid : ∀ p ∈ ps, p.id < 256) {k : Nat} {p : ParamReq}
    (hk : ps[k]? = some p) :
    fieldNat (paramFlit ps) (64 * k + 64) 32 = p.id ∧ fieldNat (paramFlit ps) (64 * k + 96) 32 = p.value.toNat := by
  have hk3 : k < 3 := (List.getElem?_eq_some_iff.mp hk).1.trans_le hlen
  have hd := paramPack_digit hid hk
  have hp := hid p (List.mem_of_getElem? hk)
  have hv : p.value.toNat < 2 ^ 32 := p.value.isLt
  have hlow : (ps.length + 2 ^ 64 * paramPack ps) / 2 ^ (64 * k + 64) = paramPack ps / 2 ^ (64 * k) := by
    rw [Nat.add_comm (64 * k), Nat.pow_add, ← Nat.div_div_eq_div_mul, Nat.add_mul_div_left _ _ (by decide),
      Nat.div_eq_of_lt (show ps.length < 2 ^ 64 by omega), Nat.zero_add]
  have hhigh : (ps.length + 2 ^ 64 * paramPack ps) / 2 ^ (64 * k + 96) = paramPack ps / 2 ^ (64 * k) / 2 ^ 32 := by
    rw [← hlow, Nat.div_div_eq_div_mul, ← Nat.pow_add]
  rw [paramFlit_eq, fieldNat_ofNat _ (by omega), fieldNat_ofNat _ (by omega), hlow, hhigh]
  omega

/-- A field read as bits, from the same field as a number. -/
theorem field_of_fieldNat {w lo n : Nat} {f : BitVec w} {v : BitVec n} (h : fieldNat f lo n = v.toNat) : field f lo n = v :=
  BitVec.eq_of_toNat_eq h

namespace State
variable {s t u : State}

/-! What the trainer's turn of a block keeps. -/

/-- The array as it was but for what the trainer writes: SRAM, waiting line writes, format events.  A trainer that does not copy
leaves even those; the hub's marks and its count stay. -/
structure Trains (s t : State) : Prop where
  frame : t = { s with arr := t.arr, adapt := t.adapt }
  arr : t.arr = { s.arr with picots := t.arr.picots, stores := t.arr.stores, events := t.arr.events }
  idle : s.adapt.trainer.copying = false → t.arr = s.arr ∧ t.adapt.trainer.copying = false
  marks : t.adapt.selDone = s.adapt.selDone ∧ t.adapt.parDone = s.adapt.parDone ∧ t.adapt.overflow = s.adapt.overflow

theorem Trains.trans (a : Trains s t) (b : Trains t u) : Trains s u where
  frame := by rw [b.frame, a.frame]
  arr := by rw [b.arr, a.arr]
  idle h := ⟨((b.idle (a.idle h).2).1).trans (a.idle h).1, (b.idle (a.idle h).2).2⟩
  marks := ⟨b.marks.1.trans a.marks.1, b.marks.2.1.trans a.marks.2.1, b.marks.2.2.trans a.marks.2.2⟩

/-- An update of the trainer that does not make it copy. -/
theorem trains_of_adapt {a : Adapt} (hc : s.adapt.trainer.copying = false → a.trainer.copying = false)
    (hm : a.selDone = s.adapt.selDone ∧ a.parDone = s.adapt.parDone ∧ a.overflow = s.adapt.overflow) : Trains s { s with adapt := a } :=
  ⟨rfl, rfl, fun h => ⟨rfl, hc h⟩, hm⟩

theorem Trains.refl (s : State) : Trains s s := ⟨rfl, rfl, fun h => ⟨rfl, h⟩, rfl, rfl, rfl⟩

theorem Trains.formReport (h : Trains s t) (kind : Nat) (live shadow : Word) (n : Nat) : Trains s (t.formReport kind live shadow n) :=
  h.trans (trains_of_adapt (fun h => h) ⟨rfl, rfl, rfl⟩)

theorem trains_takeArr (s v : State) (h : s.adapt.trainer.copying = true) : Trains s (s.takeArr v) :=
  ⟨rfl, rfl, fun h' => absurd (h.symm.trans h') (by decide), rfl, rfl, rfl⟩

theorem trains_resumeTrainer (s : State) : Trains s s.resumeTrainer := by
  unfold resumeTrainer
  extract_lets t s1 t1
  split
  case isTrue hc =>
    have h1 : Trains s s1 := trains_takeArr s _ hc
    have h1a : s1.adapt.trainer.copying = true := hc
    split
    · refine Trains.formReport ?_ _ _ _ _
      exact h1.trans (trains_of_adapt (fun h => absurd (h1a.symm.trans h) (by decide)) ⟨rfl, rfl, rfl⟩)
    · exact h1.trans (trains_of_adapt (fun h => absurd (h1a.symm.trans h) (by decide)) ⟨rfl, rfl, rfl⟩)
  case isFalse => exact .refl s

theorem trains_settleStep (s : State) : Trains s s.settleStep := by
  unfold settleStep
  extract_lets v t
  have hv : Trains s v := trains_resumeTrainer s
  split
  · split
    · refine Trains.formReport ?_ _ _ _ _
      exact hv.trans (trains_of_adapt (fun h => h) ⟨rfl, rfl, rfl⟩)
    · exact hv
  · exact hv

theorem applyParam_copying (t : Trainer) (p : ParamReq) : (applyParam t p).copying = t.copying := by
  unfold applyParam
  split <;> rfl

theorem trains_applyParams (s : State) (b : Nat) : Trains s (s.applyParams b) := by
  unfold applyParams
  extract_lets t due t1 a s1
  have ht : t1.copying = t.copying := foldl_leaves Trainer.copying _ _ _ fun x p _ => applyParam_copying x p
  have h1 : Trains s s1 := trains_of_adapt (fun h => ht.trans h) ⟨rfl, rfl, rfl⟩
  split
  · exact .refl s
  · split
    · exact h1.formReport ..
    · exact h1

theorem Trains.validate (h : Trains s t) : Trains s t.validate := by
  refine h.trans ?_
  generalize t = s
  unfold State.validate
  extract_lets t s1
  split
  · exact .refl s
  · exact ((Trains.refl s).formReport .. : Trains s s1).trans (trains_of_adapt (fun h => h) ⟨rfl, rfl, rfl⟩)

theorem trains_takeWindow (s : State) (w : TrainWin) : Trains s (s.takeWindow w) := by
  unfold takeWindow
  extract_lets a t n every
  split_ifs
  · exact .refl s
  · exact trains_of_adapt (fun h => h) ⟨rfl, rfl, rfl⟩
  · refine Trains.validate ?_
    exact trains_of_adapt (fun h => h) ⟨rfl, rfl, rfl⟩
  · exact trains_of_adapt (fun h => h) ⟨rfl, rfl, rfl⟩
  · exact trains_of_adapt (fun h => h) ⟨rfl, rfl, rfl⟩

theorem trains_takeWindows (s : State) (ws : List TrainWin) : Trains s (ws.foldl takeWindow s) :=
  List.foldlRecOn (motive := Trains s) ws _ (.refl s) fun _ ht w _ => ht.trans (trains_takeWindow _ w)

/-! The flits of a block (R263, R275). -/

/-- What a flit at the trainer's port and the trainer's turn after it come to. -/
theorem injected {a : Adapt} {port : Fin 32} {f : Flit}
    (h : Trains ({ s.hubInject port 1 f 0 with adapt := a } : State) t) (hc : a.trainer.copying = s.adapt.trainer.copying) :
    ∃ x : Beat, t = { s with arr := t.arr, adapt := t.adapt } ∧ t.arr.beats = s.arr.beats ++ [x] ∧
      (s.adapt.trainer.copying = false → t.arr = { s.arr with beats := s.arr.beats ++ [x] }) ∧
      x.pic.val = port.val ∧ x.inp = .s ∧ x.wait = 1 ∧ x.flit = some f := by
  refine ⟨Beat.ofFlit ⟨port.val, by omega⟩ .s 1 f 0, h.frame, ?_, fun hs => (h.idle (hc.trans hs)).1, rfl, rfl, rfl, rfl⟩
  rw [h.arr]
  rfl

/-- The state in which a selection flit is on its way. -/
def selected (s : State) (lost : Nat) (labels : List TrainWin) (firings : List (Nat × Nat)) : Adapt :=
  { s.adapt with selDone := some s.arrayBlock, overflow := s.adapt.overflow + lost, labels := labels, firings := firings }

theorem selectionInject_eq (ha : s.adapts = true) (hi : s.issues = true) (hd : s.adapt.selDone ≠ some s.arrayBlock)
    (hle : s.adapt.dsc 0x0C 2 ≤ s.arrayBlock) :
    let g := s.gatherWindows (s.arrayBlock - s.adapt.dsc 0x0C 2)
    let ws := g.1.take (s.adapt.dsc 0x0E 1)
    ∃ labels firings, Trains
      { s.hubInject ⟨s.adapt.dsc 0x40 1 % 32, Nat.mod_lt _ (by decide)⟩ 1
          { data := s.selectionFlit ((s.arrayBlock : Int) - s.adapt.dsc 0x0C 2) ws g.2 (decide (ws.length < g.1.length)), kind := 0,
            bad := false, last := false } 0 with
        adapt := s.selected (g.1.length - ws.length) labels firings } s.selectionInject := by
  intro g ws
  have hno : ¬(!s.adapts || !s.issues || decide (s.adapt.selDone = some s.arrayBlock)) = true := by
    rw [ha, hi, decide_eq_false hd]
    decide
  have hlost : decide (0 < g.1.length - ws.length) = decide (ws.length < g.1.length) := decide_eq_decide.mpr (by omega)
  rw [← hlost]
  unfold selectionInject
  rw [if_neg hno]
  dsimp only
  rw [if_pos hle]
  refine ⟨_, _, (((trains_settleStep _).trans (trains_applyParams _ _)).trans (trains_of_adapt ?_ ?_)).trans (trains_takeWindows _ _)⟩
  · exact fun h => h
  · exact ⟨rfl, rfl, rfl⟩

theorem parameterInject_eq (ha : s.adapts = true) (hi : s.issues = true) (hd : s.adapt.parDone ≠ some s.arrayBlock) :
    Trains { s.hubInject ⟨s.adapt.dsc 0x40 1 % 32, Nat.mod_lt _ (by decide)⟩ 1
        { data := paramFlit (s.blockParams s.arrayBlock), kind := 0, bad := false, last := false } 0 with
      adapt := { s.adapt with parDone := some s.arrayBlock } } s.parameterInject := by
  have hno : ¬(!s.adapts || !s.issues || decide (s.adapt.parDone = some s.arrayBlock)) = true := by
    rw [ha, hi, decide_eq_false hd]
    decide
  unfold parameterInject
  rw [if_neg hno]
  exact (trains_settleStep _).trans (trains_applyParams _ _)

/-! The begin of a step (R267, R271). -/

/-- A trainer between steps that does not copy settles nothing. -/
theorem settleStep_of_idle (hu : s.adapt.trainer.until' = none) (hc : s.adapt.trainer.copying = false) : s.settleStep = s := by
  have hr : s.resumeTrainer = s := if_neg (ne_true_of_eq_false hc)
  unfold settleStep
  dsimp only
  rw [hr, hu]

/-- Without requests the blocks up to this one are marked applied. -/
theorem applyParams_of_none (hu : s.adapt.trainer.until' = none) (hp : s.adapt.params = []) (b : Nat) : s.applyParams b =
    { s with adapt := { s.adapt with trainer := { s.adapt.trainer with applied := max s.adapt.trainer.applied (b + 1) } } } := by
  simp only [applyParams, hu, hp, Option.isSome_none, Bool.false_eq_true, if_false, List.filter_nil, List.flatMap_nil, List.foldl_nil,
    List.any_nil, Bool.false_and]

/-- The state in which a step begins. -/
def stepping (s : State) : State :=
  { s with adapt := { s.adapt with trainer := { s.adapt.trainer with applied := max s.adapt.trainer.applied (s.arrayBlock + 1) } } }

/-- The state that a step's update leaves. -/
def stepped (s : State) (r : StepOut) : State :=
  let s2 := s.stepping.takeArr r.st
  { s2 with adapt := { s2.adapt with
      trainer := { (s.stepping.adapt.beginStep s.stepping.adapt.trainer).1 with
        moments := r.moments, until' := some (s.arrayBlock + s.adapt.dsc 0x48 4) },
      clipped := s2.adapt.clipped + r.clips } }

theorem trainStep_of_ready (ha : s.adapts = true) (hi : s.issues = true) (hu : s.adapt.trainer.until' = none) (hp : s.adapt.params = [])
    (hpause : s.adapt.trainer.paused = false) (hc : s.adapt.trainer.copying = false)
    (hw : s.adapt.dsc 0x10 2 ≤ s.adapt.trainer.windows.length) (cols : List GradCol) :
    s.trainStep cols = s.stepped (s.stepping.stepTensors (s.adapt.beginStep s.adapt.trainer).2
      (s.adapt.trainer.windows.take (s.adapt.dsc 0x10 2)) cols) := by
  have hs1 : s.settleStep.applyParams s.arrayBlock = s.stepping := by
    rw [settleStep_of_idle hu hc, applyParams_of_none hu hp]
    rfl
  have hno : ¬(!s.adapts || !s.issues || s.adapt.trainer.paused || s.adapt.trainer.until'.isSome ||
      decide (s.adapt.trainer.windows.length < s.adapt.dsc 0x10 2)) = true := by
    rw [ha, hi, hpause, hu, decide_eq_false (Nat.not_lt.mpr hw)]
    decide
  unfold trainStep
  dsimp only
  rw [hs1]
  exact if_neg hno

end State

open State in
/-- Settles O43: a flit goes to the trainer's port, and the trainer's own turn touches no beat; the step's update is taken over as it is
made, with the trainer's state advanced. -/
theorem trainerResults : Obligations.TrainerResults := by
  intro s ha hi b d port
  refine ⟨fun hd hle => ?selection, fun hd hlen hid => ?parameter, fun cols hu hp hpause hc hw => ?step⟩
  case selection =>
    intro g ws
    obtain ⟨labels, firings, ht⟩ := selectionInject_eq ha hi hd hle
    obtain ⟨x, hframe, hbeats, hidle, hx⟩ := injected ht rfl
    obtain ⟨hsel, -, hover⟩ := ht.marks
    obtain ⟨hpic, hinp, hwait, hflit⟩ := hx
    exact ⟨_, x, rfl, hframe, hbeats, hidle, hpic, hinp, hwait, hflit, hsel, hover⟩
  case parameter =>
    have ht := parameterInject_eq ha hi hd
    obtain ⟨x, hframe, hbeats, hidle, hpic, hinp, hwait, hflit⟩ := injected ht rfl
    refine ⟨_, x, _, rfl, hframe, hbeats, hidle, hpic, hinp, hwait, hflit, ht.marks.2.1, paramFlit_count hlen, fun k p hk => ?_⟩
    obtain ⟨h1, h2⟩ := paramFlit_entry hlen hid hk
    exact ⟨h1, field_of_fieldNat h2⟩
  case step =>
    intro s1 r
    have he := trainStep_of_ready ha hi hu hp hpause hc hw cols
    exact ⟨_, congrArg Host.Outcome.next he, rfl, rfl, rfl, rfl, rfl, rfl, rfl, rfl, rfl, rfl, rfl⟩

end Sys2Proof.Machine
end

section
/-!
PROOF. READ_EVENTS, READ_SURVEY and the life of a subscriber (R336, R343 to R345, R351).
-/

namespace Sys2Proof.Machine
open Sys2Proof.Claims

/-- A command that needs a context is refused without one (R351). -/
theorem needsContext_of_closed {s : State} (h : s.ctx ∈ [ctxNone, ctxOpening, ctxEnding, ctxScrubbing]) (r : Nat) (f : State) :
    s.needsContext r f = s.complete r stUnavailable :=
  if_pos (by simpa using h)

namespace State
variable {s t : State} {r : Fin 16} {e : SubEntry}

/-! The copy commands (R336). -/

/-- An area whose read position has come to its write position has nothing to copy. -/
theorem copyRecords_of_end {a : Area} {pos : Nat} (h : (s.rd64 a.wptr).toNat ≤ pos) (kind room fuel : Nat) (acc : List Byte) (n : Nat) :
    copyRecords a kind room fuel pos acc n s = (s, acc, n, false) := by
  cases fuel with
  | zero => rfl
  | succ fuel => exact if_pos (.inr h)

/-- The one record of an area, of a context that is not protected, is copied where there is room for it. -/
theorem copyRecords_of_one {a : Area} {hd bs : List Byte} {kind room pos : Nat}
    (hh : s.readBytes (ddrBase + (s.rd64 a.base).toNat + pos % s.areaSize a) 64 = (s, hd)) (hpad : isPad hd = false)
    (h64 : 64 ≤ storedLen hd) (hfit : storedLen hd ≤ s.areaSize a) (hw : (s.rd64 a.wptr).toNat = pos + storedLen hd)
    (hb : s.readBytes (ddrBase + (s.rd64 a.base).toNat + pos % s.areaSize a) (storedLen hd) = (s, bs)) (hprot : s.isProtected = false)
    (fuel : Nat) :
    copyRecords a kind room (fuel + 1) pos [] 0 s = if room < bs.length then (s, [], 0, true) else (s, bs, 1, false) := by
  have hmore : ¬(s.areaSize a = 0 ∨ (s.rd64 a.wptr).toNat ≤ pos) := by omega
  have hlen : ¬(storedLen hd < 64 ∨ s.areaSize a < storedLen hd) := by omega
  have hseal : s.sealCopy kind pos bs = bs := if_neg (ne_true_of_eq_false hprot)
  rw [copyRecords]
  dsimp only
  rw [if_neg hmore, hh]
  dsimp only
  rw [if_neg hlen, if_neg (ne_true_of_eq_false hpad), hb, hseal, List.length_nil, Nat.zero_add, List.nil_append,
    copyRecords_of_end hw.le]
  rfl

theorem readArea_empty {a : Area} (h : (s.rd64 a.wptr).toNat ≤ (s.rd64 a.rptr).toNat) (kind : Nat) :
    s.readArea r e a kind none = s.complete r stOk 0 0 := by
  unfold readArea
  rw [copyRecords_of_end h]
  rfl

theorem readArea_one {a : Area} {hd bs : List Byte} {kind : Nat}
    (hh : s.readBytes (ddrBase + (s.rd64 a.base).toNat + (s.rd64 a.rptr).toNat % s.areaSize a) 64 = (s, hd)) (hpad : isPad hd = false)
    (h64 : 64 ≤ storedLen hd) (hfit : storedLen hd ≤ s.areaSize a) (hw : (s.rd64 a.wptr).toNat = (s.rd64 a.rptr).toNat + storedLen hd)
    (hb : s.readBytes (ddrBase + (s.rd64 a.base).toNat + (s.rd64 a.rptr).toNat % s.areaSize a) (storedLen hd) = (s, bs)) (hne : bs ≠ [])
    (hprot : s.isProtected = false) :
    s.readArea r e a kind none = if e.len0.toNat < bs.length then s.completeBad r 0x10
      else (s.emit (.hostWrite e.addr0 bs)).complete r stOk (BitVec.ofNat 64 bs.length) 1 := by
  have hcons : bs.isEmpty = false := by rwa [← Bool.not_eq_true, List.isEmpty_iff]
  unfold readArea
  rw [copyRecords_of_one hh hpad h64 hfit hw hb hprot]
  split
  · rfl
  · dsimp only
    rw [hcons]
    rfl

theorem exec_readEvents (s : State) (r : Fin 16) : exec (.readEvents r none) s =
    .next (s.onRing r 0x04 0 (fun e => s.needsContext r (s.readArea r e eventArea 4 none))) := rfl

theorem exec_readSurvey (s : State) (r : Fin 16) : exec (.readSurvey r none) s =
    .next (s.onRing r 0x05 0 (fun e => s.needsContext r (s.readArea r e surveyArea 5 none))) := rfl

/-- Both copy commands read their own area. -/
theorem exec_copy {i : Instr} {op : Byte} {a : Area} {kind : Nat}
    (hi : (i = .readEvents r none ∧ op = 0x04 ∧ a = eventArea ∧ kind = 4) ∨ (i = .readSurvey r none ∧ op = 0x05 ∧ a = surveyArea ∧ kind = 5))
    (hrun : Runs s r op 0 e) (hctx : OpenContext s) : exec i s = .next (s.readArea r e a kind none) := by
  rcases hi with ⟨rfl, rfl, rfl, rfl⟩ | ⟨rfl, rfl, rfl, rfl⟩
  · rw [exec_readEvents, onRing_of_runs hrun, needsContext_of_open hctx]
  · rw [exec_readSurvey, onRing_of_runs hrun, needsContext_of_open hctx]

/-! A subscriber joins (R343). -/

theorem sub_setSub_self (s : State) (n : Nat) (x : Sub) : (s.setSub n x).sub n = x := SMap.get_set_self ..
theorem sub_setSub_ne (s : State) {n m : Nat} (h : m ≠ n) (x : Sub) : (s.setSub n x).sub m = s.sub m := SMap.get_set_ne _ _ _ h

/-- A table in which one subscriber is set. -/
theorem sub_of_set {n : Nat} {x : Sub} (h : t.subs = SMap.set Sub.free s.subs n x) :
    t.sub n = x ∧ ∀ m, m ≠ n → t.sub m = s.sub m := by
  refine ⟨?_, fun m hm => ?_⟩
  · rw [sub, h, SMap.get_set_self]
  · rw [sub, h, SMap.get_set_ne _ _ _ hm, sub]

theorem wr_frame (s : State) (k : Nat) (v : Word) : s.wr k v = { s with regs := (s.wr k v).regs } := rfl

theorem subStatus_frame (s : State) (n : Nat) : ∃ g, s.subStatus n = { s with regs := g } := by
  rw [subStatus, wr_frame (s.wr _ _), wr_frame s]
  exact ⟨_, rfl⟩

/-- The status words of the table are behind none of the counters of a subscriber. -/
theorem subStatus_rd (s : State) (n : Nat) {k : Nat} (h1 : k ≠ Reg.sub n Reg.HQ_SUB_STAT) (h2 : k ≠ Reg.HQ_SUB_COUNT) :
    (s.subStatus n).rd k = s.rd k := (rd_wr_ne _ _ h2).trans (rd_wr_ne _ _ h1)

/-- The counters of a subscriber: DELIVERED and DROPS. -/
def subCounters (s : State) (n : Nat) : DWord × Word := (s.rd64 (Reg.sub n Reg.HQ_SUB_DELIVERED), s.rd (Reg.sub n Reg.HQ_SUB_DROPS))

theorem subStatus_counters (s : State) (n : Nat) : (s.subStatus n).subCounters n = s.subCounters n := by
  have h (k : Nat) (hk : 0x0230_0008 + 0x20 * n ≤ k) : (s.subStatus n).rd k = s.rd k := by
    refine subStatus_rd s n ?_ ?_
    · unfold Reg.sub Reg.HQ_SUB_STAT
      omega
    · unfold Reg.HQ_SUB_COUNT
      omega
  have hd : Reg.sub n Reg.HQ_SUB_DELIVERED = 0x0230_0008 + 0x20 * n := by
    unfold Reg.sub Reg.HQ_SUB_DELIVERED
    omega
  have hp : Reg.sub n Reg.HQ_SUB_DROPS = 0x0230_0010 + 0x20 * n := by
    unfold Reg.sub Reg.HQ_SUB_DROPS
    omega
  rw [subCounters, subCounters, rd64, rd64, hd, hp, h _ (by omega), h _ (by omega), h _ (by omega)]

/-- The counters of a new subscriber start at zero, and the status words follow. -/
def startCounters (s : State) (n : Nat) : State :=
  ((s.wr64 (Reg.sub n Reg.HQ_SUB_DELIVERED) 0).wr (Reg.sub n Reg.HQ_SUB_DROPS) 0).subStatus n

theorem startCounters_frame (s : State) (n : Nat) : ∃ g, s.startCounters n = { s with regs := g } := by
  obtain ⟨g, hg⟩ := subStatus_frame ((s.wr64 (Reg.sub n Reg.HQ_SUB_DELIVERED) 0).wr (Reg.sub n Reg.HQ_SUB_DROPS) 0) n
  refine ⟨g, hg.trans ?_⟩
  rw [wr_frame (s.wr64 _ _), wr64, wr_frame (s.wr _ _), wr_frame s]

theorem startCounters_zero (s : State) (n : Nat) : (s.startCounters n).subCounters n = (0, 0) := by
  have hne (d : Nat) (hd : d ≤ 4) : Reg.sub n Reg.HQ_SUB_DELIVERED + d ≠ Reg.sub n Reg.HQ_SUB_DROPS := by
    unfold Reg.sub Reg.HQ_SUB_DELIVERED Reg.HQ_SUB_DROPS
    omega
  have hne0 : Reg.sub n Reg.HQ_SUB_DELIVERED ≠ Reg.sub n Reg.HQ_SUB_DROPS := hne 0 (by decide)
  rw [startCounters, subStatus_counters, subCounters, rd_wr_self, rd64, rd_wr_ne _ _ (hne 4 (by decide)), rd_wr_ne _ _ hne0]
  exact Prod.ext (wr64_rd64 _ _ _) rfl

/-- The table after a subscriber has joined, before its command completes. -/
def joined (s : State) (n : Nat) (x : Sub) : State := ({ (s.setSub n x) with joins := s.joins + 1 } : State).startCounters n

theorem joined_frame (s : State) (n : Nat) (x : Sub) : ∃ g, s.joined n x =
    { s with subs := SMap.set Sub.free s.subs n x, joins := s.joins + 1, regs := g } :=
  (startCounters_frame _ n).imp fun _ hg => hg

theorem joined_counters (s : State) (n : Nat) (x : Sub) : (s.joined n x).subCounters n = (0, 0) := startCounters_zero ..

/-- The new entry of a descriptor. -/
def newSub (s : State) (d : List Byte) : Sub :=
  { state := 1, ring := BitVec.ofNat 64 (leAt d 0 8), far := BitVec.ofNat 64 (leAt d 8 8), locCnt := leAt d 0x10 2,
    log2 := leAt d 0x12 1, vector := leAt d 0x14 1, kinds := leAt d 0x18 4, classes := BitVec.ofNat 64 (leAt d 0x20 8),
    streams := BitVec.ofNat 256 (leAt d 0x40 32), serial := s.joins, queue := [], written := 0, leaver := none }

theorem joinSub_of_free {d : List Byte} {n : Nat} (hn : (List.range 1024).find? (fun n => decide ((s.sub n).state = 0)) = some n)
    (hc : s.countUsed (leAt d 0x10 2) = false) : s.joinSub r d =
      (s.joined n (s.newSub d)).complete r stOk (BitVec.ofNat 64 (n + s.joins * 2 ^ 16)) (BitVec.ofNat 64 s.trg.seq) := by
  unfold joinSub
  rw [hn]
  exact if_neg (ne_true_of_eq_false hc)

theorem joinSub_of_full {d : List Byte} (h : (∀ n < 1024, (s.sub n).state ≠ 0) ∨ s.countUsed (leAt d 0x10 2) = true) :
    s.joinSub r d = s.complete r stTableFull := by
  unfold joinSub
  split
  · rfl
  next n hn =>
    have hfree := List.find?_some hn
    have hlt := List.mem_range.mp (List.mem_of_find?_eq_some hn)
    exact if_pos (h.resolve_left fun hall => hall n hlt (of_decide_eq_true hfree))

theorem exec_subJoin {d : List Byte} (hrun : Runs s r 0x0A 0 e) (hctx : s.ctx ∈ [ctxReady, ctxLoaded, ctxRunning]) (hd : subBad d = none) :
    exec (.subJoin r d none) s = .next (s.joinSub r d) := by
  have hopen : OpenContext s ∧ s.ctx ≠ ctxHalted := by
    simp only [List.mem_cons, List.not_mem_nil, or_false] at hctx
    rcases hctx with h | h | h <;> (rw [OpenContext, h]; decide)
  refine congrArg Host.Outcome.next ((onRing_of_runs hrun _).trans ?_)
  rw [needsState_of_ok hopen.1 (decide_eq_true hopen.2), hd]

/-! Its records and its leaving (R343, R344). -/

theorem tellSub_frame (s : State) (x : Sub) (k : Nat) : s.tellSub x k = { s with regs := (s.tellSub x k).regs, out := (s.tellSub x k).out } := by
  unfold tellSub
  dsimp only
  split
  · exact raise_frame ..
  · rfl

theorem tellSub_rd (s : State) (x : Sub) (n : Nat) {k : Nat} (hk : k < 0x0240_0000) : (s.tellSub x n).rd k = s.rd k := by
  unfold tellSub
  dsimp only
  split
  · exact raise_rd _ _ hk
  · rfl

/-- What a raised vector sends comes from the MSI-X table alone (R345). -/
theorem raise_out_congr (hr : ∀ k, 0x0240_0000 ≤ k → t.rd k = s.rd k) (ho : t.out = s.out) (v : BitVec 6) :
    (t.raise v).out = (s.raise v).out := by
  have hmsix (i : Nat) : t.rd (Reg.msix v.toNat i) = s.rd (Reg.msix v.toNat i) := hr _ (by unfold Reg.msix Reg.bar2; omega)
  have hmask : t.vecMasked v = s.vecMasked v := rdB_congr (hmsix 3) 0
  have haddr : t.rd64 (Reg.msix v.toNat 0) = s.rd64 (Reg.msix v.toNat 0) := by
    rw [rd64, rd64, hmsix 0, hr _ (by unfold Reg.msix Reg.bar2; omega)]
  cases hm : s.vecMasked v
  · rw [raise_of_unmasked hm, raise_of_unmasked (hmask.trans hm), sendVector, sendVector, haddr, hmsix 2]
    exact congrArg (· ++ _) ho
  · rw [raise_of_masked hm, raise_of_masked (hmask.trans hm)]
    exact ho

theorem tellSub_out_congr (hr : ∀ k, 0x0240_0000 ≤ k → t.rd k = s.rd k) (ho : t.out = s.out) (x : Sub) (n : Nat) :
    (t.tellSub x n).out = (s.tellSub x n).out := by
  have hemit : (t.emit (.hostWrite x.far (bytesOf 8 (BitVec.ofNat 64 n)))).out = (s.emit (.hostWrite x.far (bytesOf 8 (BitVec.ofNat 64 n)))).out :=
    congrArg (· ++ [Out.hostWrite x.far (bytesOf 8 (BitVec.ofNat 64 n))]) ho
  unfold tellSub
  dsimp only
  split
  · exact raise_out_congr (s := s.emit _) (t := t.emit _) hr hemit _
  · exact hemit

/-- A subscriber that is not leaving, or has records left, stays. -/
theorem freeIfDone_of_stays {n : Nat} (h : (s.sub n).state ≠ 2 ∨ (s.sub n).queue ≠ []) : s.freeIfDone n = s := by
  refine if_neg fun hc => ?_
  obtain ⟨h2, hq⟩ := hc
  exact h.elim (· h2) (· (List.isEmpty_iff.mp hq))

/-- The table with a subscriber that is leaving. -/
def leaving (s : State) (r n : Nat) : State := (s.setSub n { s.sub n with state := 2, leaver := some r }).subStatus n

theorem leaving_frame (s : State) (r n : Nat) : ∃ g, s.leaving r n =
    { s with subs := SMap.set Sub.free s.subs n { s.sub n with state := 2, leaver := some r }, regs := g } :=
  (subStatus_frame _ n).imp fun _ hg => hg

theorem leaving_sub (s : State) (r n : Nat) : (s.leaving r n).sub n = { s.sub n with state := 2, leaver := some r } := by
  obtain ⟨g, hg⟩ := leaving_frame s r n
  exact (sub_of_set (s := s) (by rw [hg])).1

theorem leaving_high (s : State) (r : Nat) {n : Nat} (hn : n < 1024) {k : Nat} (hk : 0x0240_0000 ≤ k) : (s.leaving r n).rd k = s.rd k :=
  subStatus_rd _ n (by unfold Reg.sub Reg.HQ_SUB_STAT; omega) (by unfold Reg.HQ_SUB_COUNT; omega)

/-- The table with a subscriber that has left. -/
def freed (s : State) (n : Nat) : State := ((s.tellSub (s.sub n) (s.sub n).written).setSub n Sub.free).subStatus n

theorem freeIfDone_of_done {n q : Nat} (h2 : (s.sub n).state = 2) (hq : (s.sub n).queue = []) (hl : (s.sub n).leaver = some q) :
    s.freeIfDone n = (s.freed n).completeOp 0x0B q stOk (s.subCounters n).1 ((s.subCounters n).2.setWidth 64) := by
  unfold freeIfDone
  dsimp only
  rw [if_pos ⟨h2, by rw [hq]; rfl⟩, hl]
  rfl

theorem freed_frame (s : State) (n : Nat) : ∃ o g, s.freed n = { s with subs := SMap.set Sub.free s.subs n Sub.free, regs := g, out := o } ∧
    o = (s.tellSub (s.sub n) (s.sub n).written).out := by
  obtain ⟨g, hg⟩ := subStatus_frame ((s.tellSub (s.sub n) (s.sub n).written).setSub n Sub.free) n
  rw [freed, hg, setSub]
  generalize hu : s.tellSub (s.sub n) (s.sub n).written = u
  have hf := tellSub_frame s (s.sub n) (s.sub n).written
  rw [hu] at hf
  rw [hf]
  exact ⟨_, _, rfl, rfl⟩

theorem completeOp_of_runs {op : Byte} (h : s.running r = some e) (hop : e.opcode = op) (st : Byte) (r0 r1 : DWord) :
    s.completeOp op r st r0 r1 = s.complete r st r0 r1 := by
  unfold completeOp
  rw [h]
  exact if_pos hop

theorem subLeave_done {n : Nat} (hrun : Runs s r 0x0B 2 e) (hp : e.param 0 2 = n) (hn : n < 1024) (h1 : (s.sub n).state = 1)
    (hq : (s.sub n).queue = []) :
    ∃ u, Succeeds s (.subLeave r) r u (s.rd64 (Reg.sub n Reg.HQ_SUB_DELIVERED)) ((s.rd (Reg.sub n Reg.HQ_SUB_DROPS)).setWidth 64) ∧
      u.sub n = Sub.free ∧ u.out = (s.tellSub (s.sub n) (s.sub n).written).out := by
  have hexec : exec (.subLeave r) s = .next ((s.leaving r n).freeIfDone n) := by
    refine congrArg Host.Outcome.next ((onRing_of_runs hrun _).trans ?_)
    rw [hp, if_neg (by omega), leaveSub]
    exact if_neg (not_not_intro h1)
  obtain ⟨o, g, hfreed, ho⟩ := freed_frame (s.leaving r n) n
  obtain ⟨g', hleaving⟩ := leaving_frame s r n
  have hrunning : ((s.leaving r n).freed n).running r = s.running r := running_congr (by rw [hfreed, hleaving]) r
  have hcount : (s.leaving r n).subCounters n = s.subCounters n := subStatus_counters ..
  have hdone : (s.leaving r n).freeIfDone n = ((s.leaving r n).freed n).complete r stOk (s.subCounters n).1 ((s.subCounters n).2.setWidth 64) := by
    rw [freeIfDone_of_done (q := r) (by rw [leaving_sub]) (by rw [leaving_sub]; exact hq) (by rw [leaving_sub]), hcount,
      completeOp_of_runs (hrunning.trans hrun.1) hrun.2.1]
  refine ⟨(s.leaving r n).freed n, ⟨hexec.trans (congrArg _ hdone), hrunning⟩, ?_, ?_⟩
  · exact (sub_of_set (s := s.leaving r n) (by rw [hfreed])).1
  · rw [hfreed, ho, leaving_sub]
    exact tellSub_out_congr (s := s) (fun k hk => leaving_high s r hn hk) (by rw [hleaving]) { s.sub n with state := 2, leaver := some r.val } (s.sub n).written

theorem subLeave_waits {n : Nat} (hrun : Runs s r 0x0B 2 e) (hp : e.param 0 2 = n) (hn : n < 1024) (h1 : (s.sub n).state = 1)
    (hq : (s.sub n).queue ≠ []) :
    ∃ t, exec (.subLeave r) s = .next t ∧ (t.sub n).state = 2 ∧ (t.sub n).queue = (s.sub n).queue ∧ t.running r = s.running r := by
  have hstay : (s.leaving r n).freeIfDone n = s.leaving r n := freeIfDone_of_stays (.inr (by rw [leaving_sub]; exact hq))
  have hexec : exec (.subLeave r) s = .next (s.leaving r n) := by
    refine congrArg Host.Outcome.next ((onRing_of_runs hrun _).trans ?_)
    rw [hp, if_neg (by omega), leaveSub]
    exact (if_neg (not_not_intro h1)).trans hstay
  obtain ⟨g, hleaving⟩ := leaving_frame s r n
  exact ⟨_, hexec, by rw [leaving_sub], by rw [leaving_sub], running_congr (by rw [hleaving]) r⟩

theorem subLeave_bad {n : Nat} (hrun : Runs s r 0x0B 2 e) (hp : e.param 0 2 = n) (hn : n < 1024) (h1 : (s.sub n).state ≠ 1) :
    exec (.subLeave r) s = .next (s.completeBad r 0x28) := by
  refine congrArg Host.Outcome.next ((onRing_of_runs hrun _).trans ?_)
  rw [hp, if_neg (by omega), leaveSub]
  exact if_pos h1

/-- A record that is written (R343). -/
theorem writeRecord_room {n : Nat} {b : List Byte} {rest : List (List Byte)} (h1 : (s.sub n).state = 1) (hq : (s.sub n).queue = b :: rest)
    (hroom : (s.sub n).written < (s.countWord (s.sub n).locCnt).toNat + 2 ^ (s.sub n).log2) :
    ∃ t, s.writeRecord n = t ∧ t.sub n = { s.sub n with queue := rest, written := (s.sub n).written + 1 } ∧
      t.out = ((s.emit (.hostWrite ((s.sub n).ring + BitVec.ofNat 64 (64 * ((s.sub n).written % 2 ^ (s.sub n).log2)))
        (s.sealRecord n (s.sub n).serial (s.sub n).written b))).tellSub (s.sub n) ((s.sub n).written + 1)).out ∧
      (n < 1024 → t.rd64 (Reg.sub n Reg.HQ_SUB_DELIVERED) = satInc (s.rd64 (Reg.sub n Reg.HQ_SUB_DELIVERED))) := by
  unfold writeRecord
  dsimp only
  rw [hq]
  dsimp only
  rw [if_neg (by omega)]
  generalize hs1 : s.emit _ = s1
  generalize hu : s1.tellSub (s.sub n) ((s.sub n).written + 1) = u
  have hself := sub_setSub_self u n { s.sub n with queue := rest, written := (s.sub n).written + 1 }
  refine ⟨_, rfl, ?_⟩
  rw [freeIfDone_of_stays (.inl (by
    change (u.setSub n _ |>.sub n).state ≠ 2
    rw [hself]
    exact fun h => absurd (h1.symm.trans h) (by decide)))]
  refine ⟨hself, rfl, fun hn => ?_⟩
  have hlow (d : Nat) (hd : d ≤ 4) : u.rd (Reg.sub n Reg.HQ_SUB_DELIVERED + d) = s.rd (Reg.sub n Reg.HQ_SUB_DELIVERED + d) := by
    rw [← hu, tellSub_rd _ _ _ (by unfold Reg.sub Reg.HQ_SUB_DELIVERED; omega), ← hs1]
    rfl
  have h64 : u.rd64 (Reg.sub n Reg.HQ_SUB_DELIVERED) = s.rd64 (Reg.sub n Reg.HQ_SUB_DELIVERED) := by
    rw [rd64, rd64, hlow 4 (by decide)]
    exact congrArg _ (hlow 0 (by decide))
  rw [count64, wr64_rd64, ← h64]
  rfl

/-- A record that is dropped (R343). -/
theorem writeRecord_full {n : Nat} {b : List Byte} {rest : List (List Byte)} (h1 : (s.sub n).state = 1) (hq : (s.sub n).queue = b :: rest)
    (hfull : (s.countWord (s.sub n).locCnt).toNat + 2 ^ (s.sub n).log2 ≤ (s.sub n).written) :
    s.writeRecord n = (s.setSub n { s.sub n with queue := rest }).count (Reg.sub n Reg.HQ_SUB_DROPS) := by
  unfold writeRecord
  dsimp only
  rw [hq]
  dsimp only
  rw [if_pos hfull]
  refine freeIfDone_of_stays (.inl ?_)
  change ((s.setSub n _).sub n).state ≠ 2
  rw [sub_setSub_self]
  exact fun h => absurd (h1.symm.trans h) (by decide)

end State

open State in
/-- Settles O50: a copy takes whole records up to the write position; a subscriber's entry and its counters are set, moved on or
freed by its own commands alone, and its vector is raised after each count. -/
theorem subscriberResults : Obligations.SubscriberResults := by
  intro s r e told
  refine ⟨fun i op a kind hi hrun hctx => ⟨fun h => ?empty, fun hd bs => ?one⟩, fun d hrun hctx => ?closed,
    fun d hrun hctx hd => ⟨fun n hn hc => ?join, fun h => ?full⟩,
    fun n hrun hp hn => ⟨subLeave_done hrun hp hn, subLeave_waits hrun hp hn, subLeave_bad hrun hp hn⟩, fun n b rest => ?record⟩
  case empty => exact ⟨(exec_copy hi hrun hctx).trans (congrArg _ (readArea_empty h kind)), rfl⟩
  case one =>
    intro pos dpa hh hpad h64 hfit hw hb hne hprot
    have he := (exec_copy hi hrun hctx).trans (congrArg Host.Outcome.next (readArea_one (r := r) (e := e) hh hpad h64 hfit hw hb hne hprot))
    exact ⟨fun hle => ⟨he.trans (congrArg _ (if_neg (Nat.not_lt.mpr hle))), running_congr rfl r⟩,
      fun hlt => he.trans (congrArg _ (if_pos hlt))⟩
  case closed =>
    exact congrArg Host.Outcome.next ((onRing_of_runs hrun _).trans (needsContext_of_closed hctx _ _))
  case join =>
    obtain ⟨hdel, hdrop⟩ := Prod.mk.inj (joined_counters s n (s.newSub d))
    obtain ⟨g, hg⟩ := joined_frame s n (s.newSub d)
    obtain ⟨hself, hother⟩ := sub_of_set (s := s) (t := s.joined n (s.newSub d)) (by rw [hg])
    refine ⟨s.joined n (s.newSub d),
      ⟨(exec_subJoin hrun hctx hd).trans (congrArg _ (joinSub_of_free hn hc)), running_congr (by rw [hg]) r⟩,
      congrArg Sub.state hself, congrArg Sub.queue hself, congrArg Sub.written hself, congrArg Sub.kinds hself, by rw [hg],
      hdel, hdrop, hother⟩
  case full => exact (exec_subJoin hrun hctx hd).trans (congrArg _ (joinSub_of_full h))
  case record =>
    intro x h1 hq
    refine ⟨fun hroom => ?_, fun hfull => ?_⟩
    · obtain ⟨t, ht, hsub, hout, hcount⟩ := writeRecord_room h1 hq hroom
      exact ⟨t, congrArg Host.Outcome.next ht, hsub, hout, hcount n.isLt⟩
    · exact ⟨_, congrArg Host.Outcome.next (writeRecord_full h1 hq hfull), sub_setSub_self .., rfl, count_rd_self ..⟩

end Sys2Proof.Machine
end

section
/-!
PROOF. Firmware commands and the Legend controller's watchdog (R401, R431 to R438).
-/

namespace Sys2Proof.Machine
open Sys2Proof.Claims

/-! The flash (R432 to R434, R438). -/

namespace Flash
variable {f : Flash}

/-- The record that is written is the one in force. -/
theorem record_writeRecord (f : Flash) (r : BootRec) : (f.writeRecord r).record = { r with seq := f.record.seq + 1 } := by
  unfold writeRecord
  dsimp only
  cases hu : f.useRec1 with
  | true =>
    obtain ⟨b, hb⟩ : ∃ b, f.rec1 = some b := by
      unfold useRec1 at hu
      split at hu
      · exact ⟨_, by assumption⟩
      · exact ⟨_, by assumption⟩
      · cases hu
    have hrec : f.record = b := by rw [record, hu, hb]; rfl
    rw [if_pos rfl, hrec, record]
    have hnew : ({ f with rec0 := some { r with seq := b.seq + 1 } } : Flash).useRec1 = false := by
      rw [useRec1, hb]
      exact decide_eq_false (by dsimp only; omega)
    rw [hnew]
    rfl
  | false =>
    rw [if_neg (by decide)]
    have hnew : ({ f with rec1 := some { r with seq := f.record.seq + 1 } } : Flash).useRec1 = true := by
      unfold useRec1
      cases h0 : f.rec0 with
      | none => rfl
      | some a =>
        have hrec : f.record = a := by rw [record, hu, h0]; rfl
        rw [hrec]
        exact decide_eq_true (Nat.lt_succ_self _)
    rw [record, hnew]
    rfl

/-- Data programmed into an erased slot from offset 0. -/
def programmed (data : List Byte) : SMap Byte :=
  data.zipIdx.foldl (fun m x => SMap.set 0xFF m (0 + x.2) (SMap.get 0xFF m (0 + x.2) &&& x.1)) []

theorem slot_program (f : Flash) (b : Bool) (data : List Byte) :
    (f.program b 0 data).slot b = programmed data ∧ (f.program b 0 data).slot (!b) = f.slot (!b) ∧ (f.program b 0 data).record = f.record := by
  cases b <;> exact ⟨rfl, rfl, rfl⟩

/-- A byte past the data is erased; one of the data is programmed. -/
theorem get_programmed (data : List Byte) (n i : Nat) (m : SMap Byte) (hm : ∀ j, n ≤ j → SMap.get 0xFF m j = 0xFF) :
    SMap.get 0xFF ((data.zipIdx n).foldl (fun m x => SMap.set 0xFF m (0 + x.2) (SMap.get 0xFF m (0 + x.2) &&& x.1)) m) i =
      if n ≤ i then data.getD (i - n) 0xFF else SMap.get 0xFF m i := by
  induction data generalizing n m with
  | nil =>
    split
    · exact hm i ‹_›
    · rfl
  | cons x data ih =>
    rw [List.zipIdx_cons, List.foldl_cons, Nat.zero_add, hm n (Nat.le_refl n),
      ih (n + 1) _ fun j hj => by rw [SMap.get_set_ne _ _ _ (by omega)]; exact hm j (by omega)]
    rcases Nat.lt_trichotomy i n with h | h | h
    · rw [if_neg (by omega), if_neg (by omega), SMap.get_set_ne _ _ _ (by omega)]
    · subst h
      rw [if_neg (by omega), if_pos (Nat.le_refl i), SMap.get_set_self, Nat.sub_self, List.getD_cons_zero]
      exact BitVec.allOnes_and
    · rw [if_pos (by omega), if_pos (by omega), show i - n = (i - (n + 1)) + 1 by omega, List.getD_cons_succ]

theorem programmed_byte (data : List Byte) (i : Nat) : SMap.get 0xFF (programmed data) i = data.getD i 0xFF :=
  (get_programmed data 0 i [] fun _ _ => rfl).trans (if_pos (Nat.zero_le i))

/-- A slot that is programmed from offset 0 reads as the data. -/
theorem bytes_programmed (f : Flash) (b : Bool) (data : List Byte) : (f.program b 0 data).bytes b 0 data.length = data := by
  unfold bytes
  rw [(slot_program f b data).1]
  refine List.ext_getElem (by rw [List.length_map, List.length_range]) fun i h1 h2 => ?_
  rw [List.getElem_map, List.getElem_range, Nat.zero_add, programmed_byte, List.getD_eq_getElem _ _ h2]

end Flash

theorem length_fitTo (n : Nat) (bs : List Byte) : (fitTo n bs).length = n := by
  rw [fitTo, List.length_append, List.length_take, List.length_replicate]
  omega

namespace State
variable {s : State} {r : Fin 16} {e : SubEntry} {m : Master}

/-! The status of the firmware follows the record (R434). -/

theorem fwStatus_frame (s : State) : s.fwStatus = { s with regs := s.fwStatus.regs } := rfl

theorem fwStatus_rdB (s : State) {k i : Nat} (hi : i < 32) (h : k = Reg.GLB_FW_STATUS → 3 ≤ i ∧ i < 16) : s.fwStatus.rdB k i = s.rdB k i := by
  unfold fwStatus
  dsimp only
  rw [rdB_wrF_ne _ hi fun e => .inl (h e).2, rdB_wrF_ne _ hi fun e => .inl ((h e).2.trans (by decide)), rdB_wrF_ne _ hi fun e => .inr (h e).1]

theorem putRecord_frame (s : State) (x : BootRec) : s.putRecord x = { s with flash := s.flash.writeRecord x, regs := (s.putRecord x).regs } := by
  rw [putRecord, fwStatus_frame]

theorem putRecord_record (s : State) (x : BootRec) : (s.putRecord x).flash.record = { x with seq := s.flash.record.seq + 1 } := by
  rw [putRecord_frame]
  exact Flash.record_writeRecord ..

theorem setStaged_frame (s : State) (b : Bool) (x : List Byte) :
    ∃ g k, (s.setTransition b).setStaged x = { s with regs := g, boot := k } := ⟨_, _, rfl⟩

theorem setStaged_rdB (s : State) (x : List Byte) (k i : Nat) : (s.setStaged x).rdB k i = s.rdB k i := rfl

theorem setStaged_transition (s : State) (b : Bool) (x : List Byte) : ((s.setTransition b).setStaged x).transition = b :=
  (setStaged_rdB _ _ _ _).trans (rdB_wrB_self _ _ (by decide) _)

/-! Who may run a firmware command (R437, R438). -/

theorem needsFw_of_allowed (h : s.fwAllowed m = true) (f : State) : s.needsFw r m f = f := if_pos h

theorem needsFw_of_not (h : s.fwAllowed m = false) (f : State) : s.needsFw r m f = s.completeRefused r 438 :=
  if_neg (ne_true_of_eq_false h)

/-! FW_WRITE (R438). -/

theorem exec_fwWrite {data : List Byte} (hrun : Runs s r 0x70 8 e) (hlen : e.len0.toNat % 256 = 0) (hmax : e.len0.toNat ≤ 2 ^ 20)
    (hoff : e.param 0 8 = 0) : exec (.fwWrite r m data none) s = .next (s.needsFw r m (
      if s.transition then s.completeState r
      else ({ s with flash := s.flash.program (!s.flash.record.active) 0 (fitTo e.len0.toNat data) } : State).complete r stOk
        (BitVec.ofNat 64 e.len0.toNat))) := by
  refine congrArg Host.Outcome.next ((onRing_of_runs hrun _).trans ?_)
  dsimp only
  rw [hoff, if_neg (by omega), if_neg (by unfold slotSize; omega)]

theorem fwWrite_results {data : List Byte} (hrun : Runs s r 0x70 8 e) (hlen : e.len0.toNat % 256 = 0) (hmax : e.len0.toNat ≤ 2 ^ 20)
    (hoff : e.param 0 8 = 0) (ha : s.fwAllowed m = true) (ht : s.transition = false) :
    ∃ u, Succeeds s (.fwWrite r m data none) r u e.len0 0 ∧ u = { s with flash := u.flash } ∧
      u.flash.bytes (!s.flash.record.active) 0 e.len0.toNat = fitTo e.len0.toNat data ∧
      u.flash.slot s.flash.record.active = s.flash.slot s.flash.record.active ∧
      u.flash.record = s.flash.record ∧ ∀ i, e.len0.toNat ≤ i → SMap.get 0xFF (u.flash.slot (!s.flash.record.active)) i = 0xFF := by
  have hexec := exec_fwWrite (m := m) (data := data) hrun hlen hmax hoff
  rw [needsFw_of_allowed ha, if_neg (ne_true_of_eq_false ht), BitVec.ofNat_toNat, BitVec.setWidth_eq] at hexec
  obtain ⟨hslot, hother, hrec⟩ := Flash.slot_program s.flash (!s.flash.record.active) (fitTo e.len0.toNat data)
  rw [Bool.not_not] at hother
  have hbytes := Flash.bytes_programmed s.flash (!s.flash.record.active) (fitTo e.len0.toNat data)
  rw [length_fitTo] at hbytes
  have herased (i : Nat) (hi : e.len0.toNat ≤ i) : SMap.get 0xFF (Flash.programmed (fitTo e.len0.toNat data)) i = 0xFF := by
    rw [Flash.programmed_byte, List.getD_eq_default _ _ (by rw [length_fitTo]; exact hi)]
  generalize s.flash.program (!s.flash.record.active) 0 (fitTo e.len0.toNat data) = g at hexec hslot hother hrec hbytes
  rw [← hslot] at herased
  exact ⟨{ s with flash := g }, ⟨hexec, running_congr (s := s) rfl r⟩, rfl, hbytes, hother, hrec, herased⟩

/-! FW_STAGE (R437, R438). -/

/-- The state in which the other slot is staged. -/
def stagedState (s : State) : State :=
  ((s.putRecord { s.flash.record with staged := stagedCode (!s.flash.record.active), tries := 3 }).setTransition true).setStaged
    (s.flash.measure (!s.flash.record.active))

theorem exec_fwStage (hrun : Runs s r 0x71 0 e) : exec (.fwStage r m) s = .next (s.needsFw r m (s.stage r)) :=
  congrArg Host.Outcome.next (onRing_of_runs hrun _)

theorem stage_of_valid (ht : s.transition = false) (hv : s.slotValid (!s.flash.record.active) = true) (hp : s.phase ≠ 8) :
    s.stage r = s.stagedState.complete r stOk (BitVec.ofNat 64 (s.flash.svn (!s.flash.record.active))) := by
  unfold stage
  rw [if_neg (ne_true_of_eq_false ht), hv]
  exact if_neg hp

theorem stagedState_results (s : State) : s.stagedState.running r = s.running r ∧ s.stagedState.transition = true ∧
    s.stagedState.flash.record =
      { s.flash.record with seq := s.flash.record.seq + 1, staged := stagedCode (!s.flash.record.active), tries := 3 } := by
  unfold stagedState
  generalize hx : ({ s.flash.record with staged := stagedCode (!s.flash.record.active), tries := 3 } : BootRec) = x
  have hframe := putRecord_frame s x
  have hrec := putRecord_record s x
  generalize s.putRecord x = u at hframe hrec
  generalize s.flash.measure (!s.flash.record.active) = y
  have htr := setStaged_transition u true y
  obtain ⟨g, k, hg⟩ := setStaged_frame u true y
  refine ⟨running_congr (by rw [hg, hframe]) r, htr, ?_⟩
  rw [hg, ← hx] at *
  exact hrec

/-! FW_CONFIRM (R436). -/

/-- The fuses of a confirmation. -/
def confirmFuses (s : State) (commit : Bool) : Fuses :=
  if commit then { s.fuse with minSvn := max s.fuse.minSvn (min (s.rd Reg.GLB_FW_SVN).toNat 64) } else s.fuse

/-- The state in which slot b is the active one. -/
def confirmed (s : State) (b commit : Bool) : State :=
  (((({ s with fuse := s.confirmFuses commit } : State).putRecord { s.flash.record with active := b, staged := 0, tries := 0 }).wrB
    Reg.GLB_FW_STATUS 3 false).setTransition false).setStaged []

theorem exec_fwConfirm (hrun : Runs s r 0x72 1 e) (hp : e.param 0 1 ≤ 1) :
    exec (.fwConfirm r m) s = .next (s.needsFw r m (s.confirm r (decide (e.param 0 1 = 1)))) :=
  congrArg Host.Outcome.next ((onRing_of_runs hrun _).trans (if_neg (Nat.not_lt.mpr hp)))

theorem confirm_of_trial {b : Bool} (ht : s.onTrial = true) (hp : s.phase = 7) (hb : s.boot.slot = some b) (commit : Bool) :
    s.confirm r commit = (s.confirmed b commit).complete r stOk (BitVec.ofNat 64 (s.confirmFuses commit).minSvn) := by
  have hno : ¬((!s.onTrial) = true ∨ s.phase ≠ 7) := by
    rw [ht, hp]
    decide
  unfold confirm
  rw [hb]
  exact if_neg hno

theorem confirm_of_noTrial (ht : s.onTrial = false) (commit : Bool) : s.confirm r commit = s.completeState r := by
  unfold confirm
  split
  · rfl
  · exact if_pos (.inl (by rw [ht]; rfl))

theorem confirmed_results (s : State) (b commit : Bool) :
    (s.confirmed b commit).running r = s.running r ∧ (s.confirmed b commit).onTrial = false ∧ (s.confirmed b commit).transition = false ∧
      (s.confirmed b commit).flash.record = { seq := s.flash.record.seq + 1, active := b, staged := 0, tries := 0 } ∧
      (s.confirmed b commit).fuse = s.confirmFuses commit := by
  unfold confirmed
  generalize hx : ({ s.flash.record with active := b, staged := 0, tries := 0 } : BootRec) = x
  have hframe := putRecord_frame { s with fuse := s.confirmFuses commit } x
  have hrec := putRecord_record { s with fuse := s.confirmFuses commit } x
  generalize ({ s with fuse := s.confirmFuses commit } : State).putRecord x = u at hframe hrec
  obtain ⟨g, k, hg⟩ := setStaged_frame (u.wrB Reg.GLB_FW_STATUS 3 false) false []
  have htrial : (((u.wrB Reg.GLB_FW_STATUS 3 false).setTransition false).setStaged []).onTrial = false :=
    (setStaged_rdB _ _ _ _).trans ((rdB_wrB_ne _ false (by decide) fun h => absurd h (by decide)).trans (rdB_wrB_self _ _ (by decide) _))
  have hrings : u.rings = s.rings := by rw [hframe]
  have hfuse : u.fuse = s.confirmFuses commit := by rw [hframe]
  refine ⟨running_congr ?_ r, htrial, setStaged_transition (u.wrB Reg.GLB_FW_STATUS 3 false) false [], ?_, ?_⟩
  · rw [hg, wrB_rings, hrings]
  · rw [hg, wrB_flash, hrec, ← hx]
  · rw [hg, wrB_fuse, hfuse]

/-! FW_DISCARD (R438). -/

theorem exec_fwDiscard (hrun : Runs s r 0x73 0 e) : exec (.fwDiscard r m) s = .next (s.needsFw r m (s.discard r)) :=
  congrArg Host.Outcome.next (onRing_of_runs hrun _)

/-- The state after a discard, its command complete. -/
def discarded (s : State) (r : Nat) : State :=
  (((s.complete r stOk).putRecord { s.flash.record with staged := 0, tries := 0 }).setTransition false).setStaged []

theorem discard_of_staged (ht : s.transition = true) (hn : s.onTrial = false) : s.discard r = s.discarded r := by
  unfold discard
  rw [ht]
  exact if_neg (ne_true_of_eq_false hn)

theorem discarded_results (s : State) (r : Fin 16) : (s.discarded r).running r = none ∧ (s.discarded r).transition = false ∧
    (s.discarded r).out = (s.complete r stOk).out ∧
    (s.discarded r).flash.record = { s.flash.record with seq := s.flash.record.seq + 1, staged := 0, tries := 0 } := by
  have hflash : (s.complete r stOk).flash = s.flash := complete_part State.flash (fun _ _ _ _ => rfl) s r stOk 0 0 0
  have hrun : (s.complete r stOk).running r = none := (complete_running s r r stOk 0 0 0).trans (if_pos rfl)
  unfold discarded
  generalize hx : ({ s.flash.record with staged := 0, tries := 0 } : BootRec) = x
  generalize s.complete r stOk = c at hflash hrun
  have hframe := putRecord_frame c x
  have hrec := putRecord_record c x
  generalize c.putRecord x = u at hframe hrec
  have htr := setStaged_transition u false []
  obtain ⟨g, k, hg⟩ := setStaged_frame u false []
  refine ⟨(running_congr (s := c) (by rw [hg, hframe]) r).trans hrun, htr, by rw [hg, hframe], ?_⟩
  rw [hg, hrec, ← hx, hflash]

/-! The watchdog (R401). -/

theorem mergeWord_wdog (s : State) (v : Word) :
    s.mergeWord Reg.HLT_WDOG v = s.wr Reg.HLT_WDOG (mergeWrite 131071 0 (s.rd Reg.HLT_WDOG) v) := by
  have hkey : s.wordKey Reg.HLT_WDOG = Reg.HLT_WDOG := by
    unfold wordKey
    rw [if_neg (by decide), if_neg (by decide), if_neg (by decide), if_neg (by decide)]
  rw [mergeWord_of_masks (rw := 131071) (w1c := 0) (by decide), hkey]

theorem kick_rdB (s : State) (k i : Nat) : s.kick.rdB k i = s.rdB k i := rfl

theorem kick_results {v : Word} (ha : s.answers Reg.HLT_WDOG = true) (hv : bit v 16 = true) :
    ∃ t, exec (.watchdogKick .legend v) s = .next t ∧ OnlyRegs { s with boot := { s.boot with kicked := s.timeline } } t [Reg.HLT_WDOG] ∧
      t.rdB Reg.HLT_WDOG 16 = false := by
  have he : exec (.watchdogKick .legend v) s = .next ((s.mergeWord Reg.HLT_WDOG v).wrB Reg.HLT_WDOG 16 false).kick := by
    refine congrArg Host.Outcome.next ((exec_atReg ha _).trans ?_)
    unfold writeWdog
    rw [if_neg (by rw [hv]; decide)]
    exact if_pos hv
  refine ⟨_, he, ?_, (kick_rdB _ _ _).trans (rdB_wrB_self _ _ (by decide) _)⟩
  rw [mergeWord_wdog]
  generalize mergeWrite 131071 0 (s.rd Reg.HLT_WDOG) v = w
  exact ⟨rfl, fun k hk => by
    have hne : k ≠ Reg.HLT_WDOG := fun h => hk (h ▸ List.mem_cons_self)
    exact (wrB_rd_ne (s.wr Reg.HLT_WDOG w) 16 false hne).trans (rd_wr_ne _ _ hne)⟩

theorem kick_refused {v : Word} (ha : s.answers Reg.HLT_WDOG = true) (hv : bit v 16 = true) (hm : m ≠ .legend) :
    exec (.watchdogKick m v) s = .next (s.refuse m Reg.HLT_WDOG) := by
  refine congrArg Host.Outcome.next ((exec_atReg ha _).trans ?_)
  exact if_pos (by rw [hv, decide_eq_true hm]; rfl)

/-- The turn of one ring in the pass that aborts the Legend controller's commands. -/
def abortOne (s : State) (r : Nat) : State :=
  match s.running r with
  | some e => if legendRuns e.opcode then s.complete r stAborted else s
  | none => s

theorem abortLegend_eq (s : State) : s.abortLegend = (List.range 16).foldl abortOne s := rfl

theorem abortOne_cases (s : State) (r : Nat) : s.abortOne r = s ∨ s.abortOne r = s.complete r stAborted := by
  unfold abortOne
  split
  · split
    · exact .inr rfl
    · exact .inl rfl
  · exact .inl rfl

theorem abortLegend_rd (s : State) {k : Nat} (hk : k < 0x0240_0000) (hne : ∀ r < 16, k ≠ Reg.HQ_RING_STAT r) : s.abortLegend.rd k = s.rd k :=
  foldl_leaves (fun t : State => t.rd k) abortOne _ s fun t r hr => by
    rcases abortOne_cases t r with h | h <;> rw [h]
    exact complete_rd t r stAborted 0 0 0 hk (hne r (List.mem_range.mp hr))

theorem abortOne_running_ne (s : State) {r q : Nat} (h : q ≠ r) : (s.abortOne r).running q = s.running q := by
  rcases abortOne_cases s r with he | he
  · rw [he]
  · rw [he, complete_running, if_neg h]

/-- A command that the Legend controller executes runs no more. -/
theorem abortOne_running {x : SubEntry} {r : Nat} (h : s.running r = some x) (hl : legendRuns x.opcode = true) : (s.abortOne r).running r = none := by
  have he : s.abortOne r = s.complete r stAborted := by
    unfold abortOne
    rw [h]
    exact if_pos hl
  rw [he, complete_running, if_pos rfl]

theorem abortOne_stays {r q : Nat} (h : s.running q = none) : (s.abortOne r).running q = none := by
  rcases abortOne_cases s r with he | he
  · rw [he, h]
  · rw [he, complete_running, h, ite_self]

theorem abortLegend_running {k : Fin 16} {x : SubEntry} (h : s.running k = some x) (hl : legendRuns x.opcode = true) :
    s.abortLegend.running k = none := by
  have hpass (l : List Nat) (hk : k.val ∈ l) : ∀ t : State, t.running k = some x → (l.foldl abortOne t).running k = none := by
    induction l with
    | nil => cases hk
    | cons r l ih =>
      intro t ht
      by_cases hr : k.val = r
      · subst hr
        exact List.foldlRecOn (motive := fun u : State => u.running k = none) l _ (abortOne_running ht hl) fun u hu q _ => abortOne_stays hu
      · exact ih (List.mem_of_ne_of_mem hr hk) _ ((abortOne_running_ne t hr).trans ht)
  exact hpass _ (List.mem_range.mpr k.isLt) s h

/-- The expiries of the last 10 s. -/
def recentExpiries (s : State) : List DWord := s.boot.expiries.filter (fun t => decide ((s.timeline - t).toNat < 640000000000))

/-- The state in which the watchdog has expired and its error is still to be logged. -/
def expired (s : State) : State :=
  ((((s.countF Reg.HLT_WDOG 24 8).wrB Reg.HLT_STATUS 2 true).irq 1).abortLegend).legendFails (s.recentExpiries ++ [s.timeline])

theorem legendFails_rd (s : State) (es : List DWord) (k : Nat) : (s.legendFails es).rd k = s.rd k := rfl

theorem legendFails_running (s : State) (es : List DWord) (k : Nat) : (s.legendFails es).running k = s.running k := rfl

theorem legendFails_boot (s : State) (es : List DWord) : (s.legendFails es).boot.legendDown = true := rfl

theorem expired_rd (s : State) {k : Nat} (hk : k < 0x0240_0000) (hne : ∀ r < 16, k ≠ Reg.HQ_RING_STAT r) :
    s.expired.rd k = ((s.countF Reg.HLT_WDOG 24 8).wrB Reg.HLT_STATUS 2 true).rd k :=
  (legendFails_rd _ _ _).trans ((abortLegend_rd _ hk hne).trans (irq_rd _ _ hk))

theorem watchdog_eq (hs : s.boot.slot ≠ none) (hl : s.boot.legendDown = false) : s.watchdog =
    if 3 ≤ (s.recentExpiries ++ [s.timeline]).length then
      let t := s.expired.fatal 0x0D (BitVec.ofNat 64 (s.recentExpiries ++ [s.timeline]).length)
      if s.onTrial && decide (s.phase = 7) then t.warmReset 5 else t
    else s.expired.logMinor 0x0D clsInfo (BitVec.ofNat 64 (s.recentExpiries ++ [s.timeline]).length) := by
  have hno : ¬(s.boot.slot.isNone || s.boot.legendDown) = true := by
    rw [hl, Option.isNone_eq_false_iff.mpr (Option.isSome_iff_ne_none.mpr hs)]
    decide
  exact if_neg hno

theorem logMinor_boot (s : State) (src : Byte) (cls : Nat) (loc : DWord) : (s.logMinor src cls loc).boot = s.boot := by
  rw [logMinor, addEntry_frame]

theorem logMinor_rings (s : State) (src : Byte) (cls : Nat) (loc : DWord) : (s.logMinor src cls loc).rings = s.rings := by
  rw [logMinor, addEntry_frame]

/-- An expiry that is not the third within 10 s (R401). -/
theorem expired_minor (s : State) (loc : DWord) :
    let t := s.expired.logMinor 0x0D clsInfo loc
    t.boot.legendDown = true ∧ t.rdB Reg.HLT_STATUS 2 = true ∧ t.contained = s.contained ∧ t.ctx = s.ctx ∧
      ∀ k : Fin 16, ∀ x, s.running k = some x → legendRuns x.opcode = true → t.running k = none := by
  have hrd {k : Nat} (hk : k < 0x0240_0000) (hov : k ≠ Reg.ERR_LOG_OVERFLOW) (herr : k ≠ Reg.ERR_STATUS)
      (hne : ∀ r < 16, k ≠ Reg.HQ_RING_STAT r) :
      (s.expired.logMinor 0x0D clsInfo loc).rd k = ((s.countF Reg.HLT_WDOG 24 8).wrB Reg.HLT_STATUS 2 true).rd k :=
    (addEntry_rd _ _ _ _ _ _ _ hk hov herr).trans (expired_rd s hk hne)
  refine ⟨?_, ?_, ?_, ?_, fun k x hx hl => ?_⟩
  · rw [logMinor_boot, expired, legendFails_boot]
  · rw [rdB_congr (hrd (k := Reg.HLT_STATUS) (by decide) (by decide) (by decide) (by decide)), rdB_wrB_self _ _ (by decide)]
  · rw [contained, logMinor, addEntry_errStatus _ _ _ _ _ _ _ 31 (by decide) (by decide), contained,
      rdB_congr (expired_rd s (k := Reg.ERR_STATUS) (by decide) (by decide))]
    exact rdB_congr ((wrB_rd_ne _ _ _ (by decide)).trans (wrF_rd_ne _ _ _ _ (by decide))) 31
  · refine rdF_congr ((hrd (k := Reg.SEC_CTX_STATUS) (by decide) (by decide) (by decide) (by decide)).trans ?_) 0 3
    exact (wrB_rd_ne _ _ _ (by decide)).trans (wrF_rd_ne _ _ _ _ (by decide))
  · have hr : (((s.countF Reg.HLT_WDOG 24 8).wrB Reg.HLT_STATUS 2 true).irq 1).running k = s.running k :=
      running_congr (by rw [irq_rings, wrB_rings, countF_rings]) k
    rw [running_congr (logMinor_rings ..), expired, legendFails_running, abortLegend_running (hr.trans hx) hl]

theorem expiry_results (hs : s.boot.slot ≠ none) (hl : s.boot.legendDown = false) :
    ∃ t, exec .watchdogExpiry s = .next t ∧
      (s.recentExpiries.length < 2 →
        t.boot.legendDown = true ∧ t.rdB Reg.HLT_STATUS 2 = true ∧ t.contained = s.contained ∧ t.ctx = s.ctx ∧
        ∀ k : Fin 16, ∀ x, s.running k = some x → legendRuns x.opcode = true → t.running k = none) ∧
      (2 ≤ s.recentExpiries.length → s.onTrial = false → t.contained = true) := by
  have hlen : (s.recentExpiries ++ [s.timeline]).length = s.recentExpiries.length + 1 := List.length_append
  refine ⟨_, congrArg Host.Outcome.next (watchdog_eq hs hl), fun hfew => ?_, fun hmany htrial => ?_⟩
  · rw [if_neg (by omega)]
    exact expired_minor s _
  · rw [if_pos (by omega), htrial]
    exact (logged_fatal s.expired 0x0D _).2.1

theorem watchdog_idle (h : s.boot.slot = none ∨ s.boot.legendDown = true) : exec .watchdogExpiry s = .next s := by
  refine congrArg Host.Outcome.next (if_pos ?_)
  rcases h with h | h <;> rw [h]
  · rfl
  · exact Bool.or_true _

end State

open State in
/-- Settles O56: each command changes the boot record once, with the next SEQ; an expiry aborts the Legend controller's commands ring by
ring, and the third in 10 s is FATAL. -/
theorem firmwareResults : Obligations.FirmwareResults := by
  intro s r e m data f other
  refine ⟨fun hrun hlen hmax hoff => ⟨fwWrite_results hrun hlen hmax hoff, fun ha ht => ?writeBusy, fun ha => ?writeRefused⟩,
    fun hrun => ⟨fun ha ht hv hp => ?stage, fun ha ht hv => ?stageBad, fun ha ht => ?stageBusy, fun ha => ?stageRefused⟩,
    fun hrun hp => ⟨fun b ha ht hph hb => ?confirm, fun ha ht => ?confirmState, fun ha => ?confirmRefused⟩,
    fun hrun => ⟨fun ha ht hn => ?discard, fun ha ht => ?discardState, fun ha => ?discardRefused⟩,
    fun v ha hv => ⟨fun hm => hm ▸ kick_results ha hv, kick_refused ha hv⟩, expiry_results, watchdog_idle, rfl⟩
  case writeBusy => rw [exec_fwWrite hrun hlen hmax hoff, needsFw_of_allowed ha, if_pos ht]
  case writeRefused => rw [exec_fwWrite hrun hlen hmax hoff, needsFw_of_not ha]
  case stage =>
    obtain ⟨hr, htr, hrec⟩ := stagedState_results (r := r) s
    exact ⟨s.stagedState, ⟨by rw [exec_fwStage hrun, needsFw_of_allowed ha, stage_of_valid ht hv hp], hr⟩, htr, hrec⟩
  case stageBad =>
    rw [exec_fwStage hrun, needsFw_of_allowed ha, stage, if_neg (ne_true_of_eq_false ht)]
    exact congrArg Host.Outcome.next (if_pos (by rw [hv]; rfl))
  case stageBusy => rw [exec_fwStage hrun, needsFw_of_allowed ha, stage, if_pos ht]
  case stageRefused => rw [exec_fwStage hrun, needsFw_of_not ha]
  case confirm =>
    obtain ⟨hr, htrial, htr, hrec, hfuse⟩ := confirmed_results (r := r) s b (decide (e.param 0 1 = 1))
    refine ⟨s.confirmed b (decide (e.param 0 1 = 1)), ⟨?_, hr⟩, htrial, htr, hrec, ?_⟩
    · rw [exec_fwConfirm hrun hp, needsFw_of_allowed ha, confirm_of_trial ht hph hb, hfuse]
    · rw [hfuse, confirmFuses]
      by_cases h1 : e.param 0 1 = 1
      · rw [if_pos (decide_eq_true h1), if_pos h1]
      · rw [if_neg (ne_true_of_eq_false (decide_eq_false h1)), if_neg h1]
  case confirmState => rw [exec_fwConfirm hrun hp, needsFw_of_allowed ha, confirm_of_noTrial ht]
  case confirmRefused => rw [exec_fwConfirm hrun hp, needsFw_of_not ha]
  case discard =>
    exact ⟨s.discarded r, by rw [exec_fwDiscard hrun, needsFw_of_allowed ha, discard_of_staged ht hn], discarded_results s r⟩
  case discardState =>
    rw [exec_fwDiscard hrun, needsFw_of_allowed ha]
    exact congrArg Host.Outcome.next (if_pos (by rw [ht]; rfl))
  case discardRefused => rw [exec_fwDiscard hrun, needsFw_of_not ha]

end Sys2Proof.Machine
end

section
/-!
PROOF. Host accesses to device memory, count words and host queues (R321 to R323, R339 to R341, R347, R376).
-/

namespace Sys2Proof.Machine
open Sys2Proof.Claims

/-! Bytes of a number (R2). -/

theorem ofBytes_leBytes (n x : Nat) : ofBytes (leBytes n x) = x % 2 ^ (8 * n) := by
  induction n generalizing x with
  | zero => rw [Nat.mul_zero, Nat.pow_zero, Nat.mod_one]; rfl
  | succ n ih =>
    have htail : leBytes (n + 1) x = BitVec.ofNat 8 x :: leBytes n (x / 256) := by
      unfold leBytes
      rw [List.range_succ_eq_map, List.map_cons, List.map_map]
      refine congrArg₂ List.cons rfl (List.map_congr_left fun i _ => ?_)
      change BitVec.ofNat 8 (x >>> (8 * (i + 1))) = _
      rw [Nat.shiftRight_eq_div_pow, Nat.shiftRight_eq_div_pow, Nat.div_div_eq_div_mul, Nat.mul_succ, Nat.pow_add, Nat.mul_comm]
    rw [htail, ofBytes, ih, BitVec.toNat_ofNat, show 8 * (n + 1) = 8 + 8 * n by omega, Nat.pow_add, Nat.mod_mul]

theorem bytesOf_eq_leBytes {w : Nat} (n : Nat) (x : BitVec w) : bytesOf n x = leBytes n x.toNat := by
  refine List.map_congr_left fun i _ => BitVec.eq_of_toNat_eq ?_
  rw [BitVec.extractLsb'_toNat, BitVec.toNat_ofNat]

theorem length_bytesOf {w : Nat} (n : Nat) (x : BitVec w) : (bytesOf n x).length = n := by
  rw [bytesOf_eq_leBytes, length_leBytes]

/-- A 64-bit value written as bytes reads back. -/
theorem leAt_bytesOf (v : DWord) : leAt (bytesOf 8 v) 0 8 = v.toNat := by
  rw [leAt, List.drop_zero, List.take_of_length_le (length_bytesOf 8 v).le, bytesOf_eq_leBytes, ofBytes_leBytes, Nat.mod_eq_of_lt v.isLt]

namespace State
variable {s t : State}

/-! Accesses (R321 to R323, R341). -/

/-- The count area. -/
theorem inCounts {dpa i : Nat} (hi : i < 32768) (h : dpa = countBase + 8 * i) : countBase ≤ dpa ∧ dpa < countEnd := by
  unfold countBase countEnd at *
  omega

theorem notInCounts {dpa : Nat} (h : dpa < countBase ∨ countEnd ≤ dpa) : ¬(countBase ≤ dpa ∧ dpa < countEnd) := by omega

theorem countBytes_word (s : State) (i : Nat) : s.countBytes (8 * i) 8 = bytesOf 8 (s.countWord i) := by
  refine List.map_congr_left fun j hj => ?_
  have hj8 : j < 8 := List.mem_range.mp hj
  rw [show (8 * i + j) / 8 = i by omega, show (8 * i + j) % 8 = j by omega]

theorem hdmRead_count {dpa : BitVec 44} {i : Fin 32768} (h : dpa.toNat = countBase + 8 * i.val) :
    exec (.hdmRead dpa 8 false) s = .next (s.emit (.readData .f0 (bytesOf 8 (s.countWord i)))) := by
  refine congrArg Host.Outcome.next ((if_pos (inCounts i.isLt h)).trans ?_)
  change s.emit (.readData .f0 (s.countBytes (dpa.toNat - countBase) 8)) = _
  rw [h, Nat.add_sub_cancel_left, countBytes_word]

theorem hdmWrite_count {dpa : BitVec 44} {i : Fin 32768} (h : dpa.toNat = countBase + 8 * i.val) (v : DWord) :
    exec (.hdmWrite dpa (bytesOf 8 v) false) s = exec (.countWordWrite i 8 v) s := by
  have hshape : ¬((bytesOf 8 v).length < 8 ∨ dpa.toNat % 8 ≠ 0 ∨ (bytesOf 8 v).length % 8 ≠ 0) := by
    rw [length_bytesOf, h]
    unfold countBase
    omega
  have hlen : (bytesOf 8 v).length = 8 := length_bytesOf 8 v
  have hle : BitVec.ofNat 64 (leAt (bytesOf 8 v) 0 8) = v := by
    rw [leAt_bytesOf, BitVec.ofNat_toNat, BitVec.setWidth_eq]
  have hw : s.hdmWrite dpa.toNat (bytesOf 8 v) = s.writeCount i 8 v := by
    generalize bytesOf 8 v = bs at hshape hlen hle
    unfold hdmWrite
    rw [if_pos (inCounts i.isLt h), if_neg hshape, hlen, h, Nat.add_sub_cancel_left, Nat.mul_div_cancel_left _ (by decide)]
    dsimp only [Nat.reduceDiv, List.range_one, List.foldl_cons, List.foldl_nil]
    rw [Nat.mul_zero, hle, Nat.add_zero]
  exact congrArg Host.Outcome.next hw

theorem writeCount_results (s : State) (i n : Nat) (v : DWord) :
    (s.writeCount i n v).countWord i = (if 8 ≤ n ∧ s.countWord i < v then v else s.countWord i) ∧
      (∀ j, j ≠ i → (s.writeCount i n v).countWord j = s.countWord j) ∧
      (s.writeCount i n v).rd Reg.HQ_HDM_WDROP = (if n < 8 then satInc (s.rd Reg.HQ_HDM_WDROP) else s.rd Reg.HQ_HDM_WDROP) := by
  unfold writeCount
  by_cases hn : n < 8
  · rw [if_pos hn, if_pos hn, if_neg (fun h => absurd h.1 (by omega))]
    exact ⟨rfl, fun _ _ => rfl, count_rd_self ..⟩
  · rw [if_neg hn, if_neg hn]
    by_cases hv : s.countWord i < v
    · rw [if_pos hv, if_pos ⟨by omega, hv⟩]
      exact ⟨SMap.get_set_self .., fun j hj => SMap.get_set_ne _ _ _ hj, rfl⟩
    · rw [if_neg hv, if_neg (fun h => hv h.2)]
      exact ⟨rfl, fun _ _ => rfl, rfl⟩

section Access
variable {dpa : BitVec 44}

theorem hdmRead_backed (hdpa : dpa.toNat < countBase ∨ countEnd ≤ dpa.toNat) (hb : s.hdmBacked dpa.toNat = true) (len : Nat) :
    exec (.hdmRead dpa len false) s = .next (if s.memUnavailable || s.isProtected then
        (s.count Reg.HQ_HDM_UNAVAIL).emit (.readData .f0 (List.replicate len 0))
      else s.enqueueMem { cls := if dpa.toNat < countBase then 4 else 2, dpa := dpa.toNat, len := len, data := none }) :=
  congrArg Host.Outcome.next ((if_neg (notInCounts hdpa)).trans (if_pos hb))

theorem hdmWrite_backed (hdpa : dpa.toNat < countBase ∨ countEnd ≤ dpa.toNat) (hb : s.hdmBacked dpa.toNat = true) (bs : List Byte) :
    exec (.hdmWrite dpa bs false) s = .next (if s.memUnavailable then s.count Reg.HQ_HDM_UNAVAIL
      else if s.hostWritable dpa.toNat bs.length then
        s.enqueueMem { cls := if dpa.toNat < countBase then 4 else 2, dpa := dpa.toNat, len := bs.length, data := some bs }
      else s.count Reg.HQ_HDM_WDROP) :=
  congrArg Host.Outcome.next ((if_neg (notInCounts hdpa)).trans (if_pos hb))

theorem hdmRead_unbacked (hdpa : dpa.toNat < countBase ∨ countEnd ≤ dpa.toNat) (hb : s.hdmBacked dpa.toNat = false) (len : Nat) :
    exec (.hdmRead dpa len false) s = .next (s.emit (.readData .f0 (List.replicate len 0))) :=
  congrArg Host.Outcome.next ((if_neg (notInCounts hdpa)).trans (if_neg (ne_true_of_eq_false hb)))

theorem hdmWrite_unbacked (hdpa : dpa.toNat < countBase ∨ countEnd ≤ dpa.toNat) (hb : s.hdmBacked dpa.toNat = false) (bs : List Byte) :
    exec (.hdmWrite dpa bs false) s = .next (s.count Reg.HQ_HDM_WDROP) :=
  congrArg Host.Outcome.next ((if_neg (notInCounts hdpa)).trans (if_neg (ne_true_of_eq_false hb)))

end Access

/-! Host queues (R339 to R341). -/

theorem hq_setHq_self (s : State) (q : Nat) (x : HostQ) : (s.setHq q x).hq q = some x := by
  rw [hq, setHq, SMap.find_insert_self]
  rfl

theorem hq_congr (h : t.hostq = s.hostq) (q : Nat) : t.hq q = s.hq q := by rw [hq, hq, h]

theorem needMet_congr (hq : t.hostq = s.hostq) (ha : t.arr = s.arr) (n : Nat × Nat) : t.needMet n = s.needMet n := by
  unfold needMet
  rw [hq, ha]

/-- The CXL hold clears when everything that it waits for is there. -/
theorem cxlMet_results (s : State) : ((∀ n ∈ s.hold.needs, s.cxlMet.needMet n = true) → s.cxlMet.requested 4 .cxl = false) ∧
    ((∃ n ∈ s.hold.needs, s.cxlMet.needMet n = false) → s.cxlMet.hold = s.hold) := by
  have hneed (n : Nat × Nat) : s.cxlMet.needMet n = s.needMet n := needMet_congr (by rw [cxlMet_frame]) (by rw [cxlMet_frame]) n
  simp only [hneed]
  refine ⟨fun hall => ?_, fun ⟨n, hn, hno⟩ => ?_⟩
  · rw [cxlMet, if_pos (List.all_eq_true.mpr hall)]
    exact requested_clearHold s (by decide) .cxl
  · rw [cxlMet, if_neg fun h => absurd (List.all_eq_true.mp h n hn) (ne_true_of_eq_false hno)]

theorem prefetch_results {q : Nat} {x : HostQ} {bs : List Byte} (hx : s.hq q = some x) (hi : x.inject = true)
    (hc : x.next + x.held.length < (s.countWord x.loc).toNat)
    (hr : s.readBytes (x.ring.toNat + 32 * ((x.next + x.held.length) % 2 ^ x.log2)) 32 = (s, bs)) :
    s.prefetch q = (s.setHq q { x with held := x.held ++ [{ data := BitVec.ofNat 256 (ofBytes bs), last := false }] }).cxlMet := by
  have hno : ¬(!x.inject || decide ((s.countWord x.loc).toNat ≤ x.next + x.held.length)) = true := by
    rw [hi, decide_eq_false (Nat.not_le.mpr hc)]
    decide
  unfold prefetch
  rw [hx]
  dsimp only
  rw [if_neg hno, hr]

/-- An inject queue tells its far side at once. -/
theorem tellFar_of_inject {x : HostQ} (h : (x.peer && !x.inject) = false) (q : Nat) :
    s.tellFar q x = (s.setHq q { x with told := x.next }).emit (.hostWrite x.far (bytesOf 8 (BitVec.ofNat 64 x.next))) :=
  if_neg (ne_true_of_eq_false h)

/-- The count of a PEER queue waits for the flits' writes (R341). -/
theorem tellFar_of_peer {x : HostQ} (h : (x.peer && !x.inject) = true) (q : Nat) :
    s.tellFar q x = s.setHq q { x with owed := x.owed ++ [x.next] } := if_pos h

theorem queueInject_flit {port : Fin 32} {q : Nat} {x : HostQ} {f : QFlit} {rest : List QFlit} (hs : s.issues = true)
    (hp : s.hubEntry port = (3, q)) (hx : s.hq q = some x) (hh : x.held = f :: rest) :
    s.queueInject port =
      let s1 := s.hubInject port 1 { data := f.data, kind := 0, bad := false, last := f.last } 0
      let y : HostQ := { x with next := x.next + 1, held := rest }
      if y.next % 64 = 0 || f.last then s1.tellFar q y else s1.setHq q y := by
  unfold queueInject
  dsimp only
  rw [hp, hs]
  dsimp only
  rw [hx]
  dsimp only
  rw [hh]
  rfl

theorem queueInject_none {port : Fin 32} {q : Nat} {x : HostQ} (hs : s.issues = true) (hp : s.hubEntry port = (3, q))
    (hx : s.hq q = some x) (hh : x.held = []) : s.queueInject port = (s.stopNow 4 .cxl).needCxl (q, x.next) := by
  unfold queueInject
  dsimp only
  rw [hp, hs]
  dsimp only
  rw [hx]
  dsimp only
  rw [hh]
  rfl

/-- The CXL hold stands, and the need is noted. -/
theorem needCxl_of_requested (h : s.requested 4 .cxl = true) (x : Nat × Nat) : s.needCxl x =
    { s with hold := { s.hold with needs := if x ∈ s.hold.needs then s.hold.needs else s.hold.needs ++ [x] } } := by
  have he : s.requestHold 4 .cxl false = s := if_pos h
  unfold needCxl
  rw [he]

theorem requestHold_cancel (s : State) (cause : Nat) (src : HoldSrc) : (s.requestHold cause src false).hold.cancel = s.hold.cancel := by
  cases h : s.requested cause src
  · rw [requestHold_hold h]
    cases hs : s.hold.stopped <;> simp [heldBy, hs]
  · rw [requestHold, if_pos h]

/-- A hold request touches neither the host queues nor the array. -/
theorem requestHold_kept (s : State) (cause : Nat) (src : HoldSrc) (cancel : Bool) :
    (s.requestHold cause src cancel).hostq = s.hostq ∧ (s.requestHold cause src cancel).arr = s.arr := by
  cases h : s.requested cause src
  · have hr := (raises_requestHold h cancel).1
    rw [hr]
    exact ⟨rfl, rfl⟩
  · rw [requestHold, if_pos h]
    exact ⟨rfl, rfl⟩

/-- What a trace entry leaves: host queues, beats and the cycle. -/
def stopParts (s : State) : SMap HostQ × List Beat × Nat := (s.hostq, s.arr.beats, s.arr.cycle)

theorem traceHold_stopParts (s : State) (event : Nat) : (s.traceHold event).stopParts = s.stopParts := by
  unfold traceHold eachPicot
  refine foldl_leaves stopParts _ _ s fun t p _ => ?_
  dsimp only
  unfold trace
  dsimp only
  split <;> rfl

/-- A stop that takes no cycle back. -/
theorem enterStop_of_none (h : s.hold.cancel = none) :
    s.enterStop = ({ s with hold := { s.hold with stopped := true, stopIn := none } } : State).traceHold 4 := by
  unfold enterStop
  rw [h]
  rfl

theorem stopNow_cxl (h : s.hold.cancel = none) : (s.stopNow 4 .cxl).requested 4 .cxl = true ∧ (s.stopNow 4 .cxl).hold.stopped = true ∧
    (s.stopNow 4 .cxl).stopParts = s.stopParts := by
  unfold stopNow
  dsimp only
  rw [h]
  obtain ⟨v, hv⟩ : ∃ v : State, { s with hold := { s.hold with cancel := (none : Option Nat).map (· - s.hold.stopIn.getD 0) } } = v := ⟨_, rfl⟩
  have hvc : v.hold.cancel = none := by rw [← hv]; rfl
  have hvp : v.stopParts = s.stopParts := by rw [← hv]; rfl
  rw [hv]
  obtain ⟨hq, ha⟩ := requestHold_kept v 4 .cxl false
  have hreq := requested_requestHold v 4 .cxl false
  have hcancel := (requestHold_cancel v 4 .cxl).trans hvc
  generalize v.requestHold 4 .cxl false = u at hq ha hreq hcancel
  rw [enterStop_of_none hcancel]
  refine ⟨?_, ?_, ?_⟩
  · rw [requested, traceHold_hold]
    exact hreq
  · rw [traceHold_hold]
  · rw [traceHold_stopParts, ← hvp]
    exact Prod.ext hq (Prod.ext (congrArg ArrCore.beats ha) (congrArg ArrCore.cycle ha))

theorem inject_missing {port : Fin 32} {q : BitVec 14} {x : HostQ} (hs : s.issues = true) (hp : s.hubEntry port = (3, q.toNat))
    (hx : s.hq q.toNat = some x) (hh : x.held = []) (hc : s.hold.cancel = none) :
    ∃ t, exec (.hostQueueInject port) s = .next t ∧ t.hold.stopped = true ∧ t.requested 4 .cxl = true ∧
      (q.toNat, x.next) ∈ t.hold.needs ∧ t.hostq = s.hostq ∧ t.arr.beats = s.arr.beats ∧ t.arr.cycle = s.arr.cycle := by
  obtain ⟨hreq, hstop, hparts⟩ := stopNow_cxl hc
  have he := queueInject_none hs hp hx hh
  generalize s.stopNow 4 .cxl = u at hreq hstop hparts he
  rw [needCxl_of_requested hreq] at he
  obtain ⟨hq, hbeats, hcycle⟩ : u.hostq = s.hostq ∧ u.arr.beats = s.arr.beats ∧ u.arr.cycle = s.arr.cycle := by
    simpa only [stopParts, Prod.mk.injEq] using hparts
  refine ⟨_, congrArg Host.Outcome.next he, hstop, hreq, ?_, hq, hbeats, hcycle⟩
  dsimp only
  split
  · assumption
  · exact List.mem_append_right _ List.mem_cons_self

theorem inject_flit {port : Fin 32} {q : BitVec 14} {x : HostQ} {f : QFlit} {rest : List QFlit} (hs : s.issues = true)
    (hp : s.hubEntry port = (3, q.toNat)) (hx : s.hq q.toNat = some x) (hi : x.inject = true) (hh : x.held = f :: rest) :
    ∃ (t : State) (b : Beat), exec (.hostQueueInject port) s = .next t ∧ t = { s with arr := t.arr, hostq := t.hostq, out := t.out } ∧
      t.arr = { s.arr with beats := s.arr.beats ++ [b] } ∧ b.pic.val = port.val ∧ b.inp = .s ∧ b.wait = 1 ∧
      b.flit = some { data := f.data, kind := 0, bad := false, last := f.last } ∧
      (∃ y, t.hq q.toNat = some y ∧ y.next = x.next + 1 ∧ y.held = rest) ∧
      t.out = s.out ++ (if (x.next + 1) % 64 = 0 ∨ f.last = true then
        [.hostWrite x.far (bytesOf 8 (BitVec.ofNat 64 (x.next + 1)))] else []) := by
  refine ⟨_, Beat.ofFlit ⟨port.val, by omega⟩ .s 1 { data := f.data, kind := 0, bad := false, last := f.last } 0,
    congrArg Host.Outcome.next (queueInject_flit hs hp hx hh), ?_⟩
  have hfar : (x.peer && !x.inject) = false := by rw [hi]; exact Bool.and_false _
  dsimp only
  by_cases hdue : (x.next + 1) % 64 = 0 ∨ f.last = true
  · rw [if_pos (by simpa using hdue), if_pos hdue, tellFar_of_inject (x := { x with next := x.next + 1, held := rest }) hfar]
    exact ⟨rfl, rfl, rfl, rfl, rfl, rfl, ⟨_, hq_setHq_self .., rfl, rfl⟩, rfl⟩
  · rw [if_neg (by simpa using hdue), if_neg hdue]
    exact ⟨rfl, rfl, rfl, rfl, rfl, rfl, ⟨_, hq_setHq_self .., rfl, rfl⟩, (List.append_nil _).symm⟩

/-! Eject queues (R341). -/

theorem settlePeer_of_none {q : Nat} {x : HostQ} (hx : s.hq q = some x) (ho : x.owed = []) : s.settlePeer q = s := by
  unfold settlePeer
  rw [hx]
  dsimp only
  rw [ho]
  rfl

theorem settlePeer_of_one {q n : Nat} {x : HostQ} (hx : s.hq q = some x) (ho : x.owed = [n]) : s.settlePeer q =
    (s.setHq q { x with told := n, owed := [] }).emit (.hostWrite x.far (bytesOf 8 (BitVec.ofNat 64 n))) := by
  unfold settlePeer
  rw [hx]
  dsimp only
  rw [ho]
  rfl

theorem takeCommit_of_none {q : Nat} (h : ∀ c ∈ s.arr.commits, c.action = 2 → c.dest ≠ q) : s.takeCommit q = s := by
  have hnone : s.arr.commits.find? (fun c => decide (c.action = 2) && decide (c.dest = q)) = none :=
    List.find?_eq_none.mpr fun c hc hm => by
      obtain ⟨h1, h2⟩ := Bool.and_eq_true_iff.mp hm
      exact h c hc (of_decide_eq_true h1) (of_decide_eq_true h2)
  unfold takeCommit
  rw [hnone]

/-- A turn of an eject queue after its last writes have completed and a commit has been taken. -/
theorem queueEject_of {q : Nat} {u : State} {x : HostQ} (hu : (s.settlePeer q).takeCommit q = u) (hx : u.hq q = some x)
    (hi : x.inject = false) : s.queueEject q = drainEject (x.held.length + 1) q u := by
  unfold queueEject
  dsimp only
  rw [hu, hx]
  exact if_neg (ne_true_of_eq_false hi)

/-- A queue that holds no flit has none to write. -/
theorem drainEject_of_empty {q : Nat} {x : HostQ} (hx : s.hq q = some x) (hh : x.held = []) (fuel : Nat) : drainEject fuel q s = s := by
  cases fuel with
  | zero => rfl
  | succ fuel =>
    unfold drainEject
    rw [hx]
    dsimp only
    rw [hh]

/-- The flit at the front is written into its ring where there is room. -/
theorem drainEject_of_room {q : Nat} {x : HostQ} {f : QFlit} {rest : List QFlit} (hx : s.hq q = some x) (hh : x.held = f :: rest)
    (hroom : x.next < (s.countWord x.loc).toNat + 2 ^ x.log2) (fuel : Nat) : drainEject (fuel + 1) q s =
      let s1 := s.emit (.hostWrite (x.ring + BitVec.ofNat 64 (32 * (x.next % 2 ^ x.log2))) (s.sealFlit q x.next (bytesOf 32 f.data)))
      let y : HostQ := { x with next := x.next + 1, held := rest }
      drainEject fuel q (if f.last || y.next % 64 = 0 then s1.tellFar q y else s1.setHq q y) := by
  conv_lhs => unfold drainEject
  rw [hx]
  dsimp only
  rw [hh]
  dsimp only
  rw [if_neg (Nat.not_le.mpr hroom)]

theorem eject_flit {q : BitVec 14} {x : HostQ} {f : QFlit} (hx : s.hq q.toNat = some x) (hi : x.inject = false) (ho : x.owed = [])
    (hc : ∀ c ∈ s.arr.commits, c.action = 2 → c.dest ≠ q.toNat) (hh : x.held = [f])
    (hroom : x.next < (s.countWord x.loc).toNat + 2 ^ x.log2) :
    let due := decide (f.last = true ∨ (x.next + 1) % 64 = 0)
    ∃ t, exec (.hostQueueEject q) s = .next t ∧ t = { s with hostq := t.hostq, out := t.out } ∧
      (∃ y, t.hq q.toNat = some y ∧ y.next = x.next + 1 ∧ y.held = [] ∧ y.owed = if due && x.peer then [x.next + 1] else []) ∧
      t.out = s.out ++ [.hostWrite (x.ring + BitVec.ofNat 64 (32 * (x.next % 2 ^ x.log2))) (s.sealFlit q.toNat x.next (bytesOf 32 f.data))] ++
        (if due && !x.peer then [.hostWrite x.far (bytesOf 8 (BitVec.ofNat 64 (x.next + 1)))] else []) := by
  intro due
  have hturn : s.queueEject q.toNat = drainEject (1 + 1) q.toNat s := by
    rw [queueEject_of (u := s) (by rw [settlePeer_of_none hx ho, takeCommit_of_none hc]) hx hi, hh]
    rfl
  rw [drainEject_of_room hx hh hroom] at hturn
  dsimp only at hturn
  generalize (Out.hostWrite (x.ring + BitVec.ofNat 64 (32 * (x.next % 2 ^ x.log2))) (s.sealFlit q.toNat x.next (bytesOf 32 f.data))) = o at hturn ⊢
  have hcond : (f.last || decide ((x.next + 1) % 64 = 0)) = due := by
    unfold due
    cases f.last <;> simp
  rw [hcond] at hturn
  have hdone (u : State) (y : HostQ) (hu : u.hq q.toNat = some y) (hy : y.held = []) : drainEject 1 q.toNat u = u :=
    drainEject_of_empty hu hy 1
  cases hdue : due with
  | false =>
    rw [hdue, if_neg (by decide), hdone _ _ (hq_setHq_self ..) rfl] at hturn
    refine ⟨_, congrArg Host.Outcome.next hturn, rfl, ⟨_, hq_setHq_self .., rfl, rfl, ?_⟩, ?_⟩
    · exact ho
    · exact (List.append_nil _).symm
  | true =>
    rw [hdue, if_pos rfl] at hturn
    cases hpeer : x.peer with
    | false =>
      have hfar : (x.peer && !x.inject) = false := by rw [hpeer]; rfl
      rw [tellFar_of_inject (x := { x with next := x.next + 1, held := [] }) hfar, hdone (emit (setHq _ _ _) _) _ (hq_setHq_self ..) rfl] at hturn
      exact ⟨_, congrArg Host.Outcome.next hturn, rfl, ⟨_, hq_setHq_self .., rfl, rfl, ho⟩, rfl⟩
    | true =>
      have hfar : (x.peer && !x.inject) = true := by rw [hpeer, hi]; rfl
      rw [tellFar_of_peer (x := { x with next := x.next + 1, held := [] }) hfar, hdone _ _ (hq_setHq_self ..) rfl] at hturn
      refine ⟨_, congrArg Host.Outcome.next hturn, rfl, ⟨_, hq_setHq_self .., rfl, rfl, ?_⟩, (List.append_nil _).symm⟩
      exact congrArg (· ++ [x.next + 1]) ho

theorem eject_owed {q : BitVec 14} {x : HostQ} {n : Nat} (hx : s.hq q.toNat = some x) (hi : x.inject = false) (ho : x.owed = [n])
    (hc : ∀ c ∈ s.arr.commits, c.action = 2 → c.dest ≠ q.toNat) (hh : x.held = []) :
    ∃ t, exec (.hostQueueEject q) s = .next t ∧ t = { s with hostq := t.hostq, out := t.out } ∧
      t.hq q.toNat = some { x with told := n, owed := [] } ∧
      t.out = s.out ++ [.hostWrite x.far (bytesOf 8 (BitVec.ofNat 64 n))] := by
  have hself := hq_setHq_self s q.toNat { x with told := n, owed := [] }
  have hsettle := settlePeer_of_one hx ho
  obtain ⟨u, hu⟩ : ∃ u, (s.setHq q.toNat { x with told := n, owed := [] }).emit (.hostWrite x.far (bytesOf 8 (BitVec.ofNat 64 n))) = u := ⟨_, rfl⟩
  have huq : u.hq q.toNat = some { x with told := n, owed := [] } := (hq_congr (by rw [← hu]; rfl) _).trans hself
  have hcommits : u.arr.commits = s.arr.commits := by rw [← hu]; rfl
  have hturn : s.queueEject q.toNat = u := by
    rw [queueEject_of (u := u) (by rw [hsettle, hu, takeCommit_of_none (by rw [hcommits]; exact hc)]) huq hi, drainEject_of_empty huq hh]
  exact ⟨u, congrArg Host.Outcome.next hturn, by rw [← hu]; rfl, huq, by rw [← hu]; rfl⟩

/-- A full eject buffer drops the flit that comes (R341). -/
theorem eject_dropped {q : BitVec 14} {x : HostQ} {c : Commit} (hx : s.hq q.toNat = some x) (hi : x.inject = false) (ho : x.owed = [])
    (hc : s.arr.commits.find? (fun c => decide (c.action = 2) && decide (c.dest = q.toNat)) = some c) (hw : c.wait = 0)
    (hfull : 16384 ≤ s.ejectHeld) (hh : x.held = []) :
    ∃ t, exec (.hostQueueEject q) s = .next t ∧ t.arr.commits = s.arr.commits.erase c ∧ t.hq q.toNat = some x ∧
      OnlyRegs { s with arr := t.arr } t [Reg.HQ_EJECT_DROPS] ∧ t.rdB Reg.HQ_EJECT_DROPS 31 = true := by
  obtain ⟨v, hv⟩ : ∃ v : State, { s with arr := { s.arr with commits := s.arr.commits.erase c } } = v := ⟨_, rfl⟩
  have htake : s.takeCommit q.toNat = (v.countF Reg.HQ_EJECT_DROPS 0 31).wrB Reg.HQ_EJECT_DROPS 31 true := by
    unfold takeCommit
    rw [hc, hx]
    dsimp only
    rw [if_neg (not_not_intro hw), if_pos hfull, hv]
  have hkept : ((v.countF Reg.HQ_EJECT_DROPS 0 31).wrB Reg.HQ_EJECT_DROPS 31 true).hostq = v.hostq := by
    rw [wrB_hostq, countF_hostq]
  have harr : ((v.countF Reg.HQ_EJECT_DROPS 0 31).wrB Reg.HQ_EJECT_DROPS 31 true).arr = v.arr := by
    rw [wrB_arr, countF_arr]
  have hux : ((v.countF Reg.HQ_EJECT_DROPS 0 31).wrB Reg.HQ_EJECT_DROPS 31 true).hq q.toNat = some x :=
    (hq_congr (hkept.trans (by rw [← hv])) _).trans hx
  have hturn : s.queueEject q.toNat = (v.countF Reg.HQ_EJECT_DROPS 0 31).wrB Reg.HQ_EJECT_DROPS 31 true := by
    rw [queueEject_of (by rw [settlePeer_of_none hx ho, htake]) hux hi, drainEject_of_empty hux hh]
  refine ⟨_, congrArg Host.Outcome.next hturn, ?_, hux, ?_, rdB_wrB_self _ _ (by decide) _⟩
  · rw [harr, ← hv]
  · have hbase : { s with arr := v.arr } = v := by rw [← hv]
    rw [harr, hbase]
    exact onlyRegs_trans (onlyRegs_countF v List.mem_cons_self _ _ _) (onlyRegs_wrB _ List.mem_cons_self _ _)

end State

open State in
/-- Settles O49: an access is answered at once, queued for its controller or counted; a queue's turn moves one flit and its counts. -/
theorem deviceMemoryResults : Obligations.DeviceMemoryResults := by
  refine ⟨fun s dpa len bs => ⟨fun i hi => ⟨hdmRead_count hi, hdmWrite_count hi⟩, fun i n v => ⟨_, rfl, writeCount_results s i n v⟩,
    fun hdpa hb => ⟨fun h => ?noRead, fun hm hp => ?read, fun hm => ?noWrite, fun hm hw => ?write, fun hm hw => ?dropped⟩,
    fun hdpa hb => ⟨hdmRead_unbacked hdpa hb len, hdmWrite_unbacked hdpa hb bs⟩, fun t h => h, fun t h => h⟩, fun s q x hx => ?queue⟩
  case noRead => rw [hdmRead_backed hdpa hb, if_pos (by simpa using h)]
  case read => rw [hdmRead_backed hdpa hb, if_neg (by rw [hm, hp]; decide)]
  case noWrite => rw [hdmWrite_backed hdpa hb, if_pos hm]
  case write => rw [hdmWrite_backed hdpa hb, if_neg (ne_true_of_eq_false hm), if_pos hw]
  case dropped => rw [hdmWrite_backed hdpa hb, if_neg (ne_true_of_eq_false hm), if_neg (ne_true_of_eq_false hw)]
  case queue =>
    intro at'
    refine ⟨fun bs hi hc hr => ?prefetch, fun port hs hp => ⟨fun f rest => inject_flit hs hp hx, inject_missing hs hp hx⟩,
      fun f hi ho hc hh hroom => eject_flit hx hi ho hc hh hroom, fun n hi ho hc hh => eject_owed hx hi ho hc hh,
      fun c hi ho hc hw hfull hh => eject_dropped hx hi ho hc hw hfull hh⟩
    have hself := hq_setHq_self s q.toNat { x with held := x.held ++ [{ data := BitVec.ofNat 256 (ofBytes bs), last := false }] }
    obtain ⟨u, hu⟩ : ∃ u, s.setHq q.toNat { x with held := x.held ++ [{ data := BitVec.ofNat 256 (ofBytes bs), last := false }] } = u := ⟨_, rfl⟩
    have he : exec (.hostQueuePrefetch q) s = .next u.cxlMet := congrArg Host.Outcome.next (hu ▸ prefetch_results hx hi hc hr)
    have hhold : u.hold = s.hold := by rw [← hu]; rfl
    rw [hu] at hself
    obtain ⟨hall, hsome⟩ := cxlMet_results u
    rw [hhold] at hall hsome
    refine ⟨_, he, ?_, (hq_congr (by rw [cxlMet_frame]) _).trans hself, hall, hsome⟩
    rw [cxlMet_frame, ← hu]
    rfl

end Sys2Proof.Machine
end

section
/-!
PROOF. LABEL, TRAIN_PARAM and POLICY (R265, R275, R276, R286, R287, R338).
-/

namespace Sys2Proof.Machine
open Sys2Proof.Claims

namespace State
variable {s t : State} {r : Fin 16} {e : SubEntry}

theorem needsAdapt_of_loaded (ha : s.adaptive = true) (hc : s.ctx = ctxLoaded ∨ s.ctx = ctxRunning) (r : Nat) (f : State) :
    s.needsAdapt r f = f := by
  have hopen : OpenContext s := by
    rcases hc with h | h <;> simp [OpenContext, h]
  rw [needsAdapt, needsContext_of_open hopen, if_pos ⟨ha, hc⟩]

/-! LABEL (R265, R338). -/

/-- LABEL's record `i`, with the count of those accepted. -/
def labelTurn (records : List Byte) (a : State × Nat) (i : Nat) : State × Nat :=
  let q := a.1.takeLabel ((records.drop (16 * i)).take 16)
  (q.1, a.2 + q.2.toNat)

/-- The records that LABEL takes, with the number accepted. -/
def takeLabels (s : State) (records : List Byte) (n : Nat) : State × Nat :=
  (List.range (min n (records.length / 16))).foldl (labelTurn records) (s, 0)

theorem takeLabel_rings (s : State) (w : List Byte) : (s.takeLabel w).1.rings = s.rings := by
  unfold takeLabel
  dsimp only
  split_ifs <;> rfl

theorem foldl_labelTurn (records : List Byte) (is : List Nat) (a : State × Nat) :
    (is.foldl (labelTurn records) a).1.rings = a.1.rings ∧ (is.foldl (labelTurn records) a).2 ≤ a.2 + is.length := by
  induction is generalizing a with
  | nil => exact ⟨rfl, Nat.le_refl _⟩
  | cons i is ih =>
    obtain ⟨hrings, hcount⟩ := ih (labelTurn records a i)
    refine ⟨hrings.trans (takeLabel_rings ..), hcount.trans ?_⟩
    have hbit := Bool.toNat_le (a.1.takeLabel ((records.drop (16 * i)).take 16)).2
    rw [List.length_cons, labelTurn]
    dsimp only
    omega

theorem takeLabels_rings (s : State) (records : List Byte) (n : Nat) : (s.takeLabels records n).1.rings = s.rings :=
  (foldl_labelTurn ..).1

theorem takeLabels_count_le (s : State) (records : List Byte) (n : Nat) : (s.takeLabels records n).2 ≤ n := by
  have hcount := (foldl_labelTurn records (List.range (min n (records.length / 16))) (s, 0)).2
  rw [List.length_range, Nat.zero_add] at hcount
  exact hcount.trans (Nat.min_le_left ..)

/-- One record of 16 bytes is all that is taken. -/
theorem takeLabels_one (s : State) {w : List Byte} (hw : w.length = 16) :
    s.takeLabels w 1 = ((s.takeLabel w).1, (s.takeLabel w).2.toNat) := by
  have htake : (w.drop (16 * 0)).take 16 = w := List.take_of_length_le (Nat.le_of_eq hw)
  rw [takeLabels, hw, show List.range (min 1 (16 / 16)) = [0] from rfl, List.foldl_cons, List.foldl_nil, labelTurn]
  dsimp only
  rw [htake, Nat.zero_add]

theorem exec_label (ha : s.adaptive = true) (hc : s.ctx = ctxLoaded ∨ s.ctx = ctxRunning) (hrun : Runs s r 0x07 0 e)
    (hlen : e.len0.toNat % 16 = 0) (records : List Byte) :
    exec (.label r records none) s = .next ((s.takeLabels records (e.len0.toNat / 16)).1.complete r stOk
      (BitVec.ofNat 64 (s.takeLabels records (e.len0.toNat / 16)).2)
      (BitVec.ofNat 64 (e.len0.toNat / 16 - (s.takeLabels records (e.len0.toNat / 16)).2))) := by
  refine congrArg Host.Outcome.next ((onRing_of_runs hrun _).trans ?_)
  rw [if_neg (not_not_intro hlen), needsAdapt_of_loaded ha hc]
  rfl

theorem exec_label_one (ha : s.adaptive = true) (hc : s.ctx = ctxLoaded ∨ s.ctx = ctxRunning) {w : List Byte} (hrun : Runs s r 0x07 0 e)
    (hlen : e.len0.toNat = 16) (hw : w.length = 16) :
    exec (.label r w none) s = .next ((s.takeLabel w).1.complete r stOk (BitVec.ofNat 64 (s.takeLabel w).2.toNat)
      (BitVec.ofNat 64 (1 - (s.takeLabel w).2.toNat))) := by
  rw [exec_label ha hc hrun (by rw [hlen]), hlen, takeLabels_one s hw]

theorem takeLabel_of_valid {w : List Byte} (hweight : leAt w 10 1 ≠ 0) (hzero : leAt w 11 5 = 0) : s.takeLabel w =
    if s.afterNewest (s.blockOf (leAt w 0 8) + s.adapt.dsc 0x0C 2) then
      ({ s with adapt := { s.adapt with labels := s.adapt.labels ++
        [{ index := leAt w 0 8, label := signedCode 16 (leAt w 8 2), weight := leAt w 10 1, source := 0 }] } }, true)
    else ({ s with adapt := { s.adapt with late := s.adapt.late + 1 } }, false) :=
  if_neg (by simp [hweight, hzero])

/-! TRAIN_PARAM (R275, R276). -/

theorem exec_trainParam (ha : s.adaptive = true) (hc : s.ctx = ctxLoaded ∨ s.ctx = ctxRunning) (hrun : Runs s r 0x08 16 e)
    (hzero : e.firstNonzero 0x31 0x34 = none) :
    exec (.trainParam r) s = .next (
      let q := s.requestParam true (e.param 0 8) (e.param 8 1) (BitVec.ofNat 32 (e.param 12 4))
      match q.2 with
      | none => q.1.complete r.val stOk
      | some rule => s.completeRefused r.val rule) := by
  refine congrArg Host.Outcome.next ((onRing_of_runs hrun _).trans ?_)
  rw [hzero]
  exact needsAdapt_of_loaded ha hc _ _

theorem requestParam_badValue {id : Nat} {v : Word} (h : paramOk id v = false) (host : Bool) (b : Nat) :
    s.requestParam host b id v = (s, some 275) := if_pos (by rw [h]; rfl)

theorem requestParam_refused {host : Bool} {b id : Nat} {v : Word} (hv : paramOk id v = true)
    (h : s.afterNewest b = false ∨ 3 ≤ (SMap.get [] s.adapt.params b).length) : s.requestParam host b id v = (s, some 276) :=
  (if_neg (by rw [hv]; decide)).trans (if_pos (by simpa using h))

theorem requestParam_taken {host : Bool} {b id : Nat} {v : Word} (hv : paramOk id v = true) (hb : s.afterNewest b = true)
    (hroom : (SMap.get [] s.adapt.params b).length < 3) : s.requestParam host b id v =
      ({ s with adapt := { s.adapt with params := (
        SMap.set [] s.adapt.params b (SMap.get [] s.adapt.params b ++ [{ host := host, id := id, value := v }])) } }, none) :=
  (if_neg (by rw [hv]; decide)).trans (if_neg (by simp [hb, hroom]))

/-! POLICY (R286, R287). -/

theorem exec_policy (ha : s.adaptive = true) (hc : s.ctx = ctxLoaded ∨ s.ctx = ctxRunning) (hrun : Runs s r 0x09 8 e) (block : List Byte) :
    exec (.policy r block none) s = .next (
      if polOn s.adapt.policy 7 then s.completeRefused r.val 286
      else if !policyOk block then s.completeRefused r.val 287
      else (startPolicy { s with adapt := { s.adapt with policy := block.take 128, status := BitVec.ofNat 64 (e.param 0 8) } }).complete
        r.val stOk) := by
  refine congrArg Host.Outcome.next ((onRing_of_runs hrun _).trans ?_)
  rw [needsAdapt_of_loaded ha hc]

/-- The start of a policy changes neither registers nor rings, nor the policy block in force and its status address. -/
def PolicyKept (s t : State) : Prop :=
  t.regs = s.regs ∧ t.rings = s.rings ∧ t.adapt.policy = s.adapt.policy ∧ t.adapt.status = s.adapt.status

theorem PolicyKept.refl (s : State) : PolicyKept s s := ⟨rfl, rfl, rfl, rfl⟩

theorem PolicyKept.trans {u : State} (h : PolicyKept s t) (h' : PolicyKept t u) : PolicyKept s u := by
  obtain ⟨hg, hr, hp, ha⟩ := h
  obtain ⟨hg', hr', hp', ha'⟩ := h'
  exact ⟨hg'.trans hg, hr'.trans hr, hp'.trans hp, ha'.trans ha⟩

theorem policyKept_requestParam (s : State) (host : Bool) (b id : Nat) (v : Word) : PolicyKept s (s.requestParam host b id v).1 := by
  unfold requestParam
  extract_lets
  split_ifs <;> exact ⟨rfl, rfl, rfl, rfl⟩

theorem policyKept_pauseSoon (s : State) (on : Bool) : PolicyKept s (s.pauseSoon on) := by
  unfold pauseSoon
  extract_lets
  split
  · exact policyKept_requestParam ..
  · exact .refl s

theorem policyKept_acted (s : State) (b : Nat) : PolicyKept s (s.acted b true) := ⟨rfl, rfl, rfl, rfl⟩
theorem policyKept_nextThr (s : State) (b : Nat) : PolicyKept s (s.nextThr b) := ⟨rfl, rfl, rfl, rfl⟩
theorem policyKept_nextRange (s : State) (mid : Bool) : PolicyKept s (s.nextRange mid) := ⟨rfl, rfl, rfl, rfl⟩

theorem policyKept_startPolicy (s : State) : PolicyKept s s.startPolicy := by
  unfold startPolicy
  extract_lets p on off x pause t _ s1 s2
  have ht : PolicyKept s t := policyKept_pauseSoon s pause
  clear_value t
  have h1 : PolicyKept s s1 := by
    refine ht.trans (.trans ?_ (policyKept_acted _ _))
    exact ⟨rfl, rfl, rfl, rfl⟩
  have h2 : PolicyKept s s2 := by
    unfold s2
    split
    · exact h1.trans (policyKept_nextThr ..)
    · exact h1
  split
  · exact h2.trans (policyKept_nextRange ..)
  · exact h2

end State

open State in
/-- Settles O45: each command runs its own update under a loaded adaptive image, and refuses with its rule. -/
theorem adaptationCommandResults : Obligations.AdaptationCommandResults := by
  refine fun s r e ha hc => ⟨fun records hrun hlen => ⟨_, _, takeLabels_count_le s records _, exec_label ha hc hrun hlen records,
    running_congr (takeLabels_rings ..) _⟩, fun w hrun hlen hw hweight hzero => ?label, fun hrun hzero => ?param, fun block hrun => ?policy⟩
  case label =>
    have hexec := exec_label_one ha hc hrun hlen hw
    rw [takeLabel_of_valid hweight hzero] at hexec
    refine ⟨fun hb => ?_, fun hb => ?_⟩
    · rw [if_pos hb] at hexec
      exact ⟨hexec, rfl⟩
    · rw [if_neg (ne_true_of_eq_false hb)] at hexec
      exact ⟨hexec, rfl⟩
  case param =>
    intro b v ps
    have hexec := exec_trainParam ha hc hrun hzero
    refine ⟨fun hv hb hroom => ?_, fun hv => ?_, fun hv hfull => ?_⟩
    · rw [requestParam_taken hv hb hroom] at hexec
      refine ⟨_, ⟨hexec, rfl⟩, SMap.get_set_self .., fun c hne => ?_⟩
      exact SMap.get_set_ne (d := []) s.adapt.params _ hne
    · rwa [requestParam_badValue hv] at hexec
    · rwa [requestParam_refused hv hfull] at hexec
  case policy =>
    have hexec := exec_policy ha hc hrun block
    refine ⟨fun hfixed => ?_, fun hopen hbad => ?_, fun hopen hok => ?_⟩
    · rwa [if_pos hfixed] at hexec
    · rwa [if_neg (ne_true_of_eq_false hopen), if_pos (by rw [hbad]; rfl)] at hexec
    · rw [if_neg (ne_true_of_eq_false hopen), if_neg (by rw [hok]; decide)] at hexec
      obtain ⟨hregs, hrings, hpolicy, hstatus⟩ :=
        policyKept_startPolicy { s with adapt := { s.adapt with policy := block.take 128, status := BitVec.ofNat 64 (e.param 0 8) } }
      generalize startPolicy _ = u at hexec hregs hrings hpolicy hstatus
      exact ⟨_, ⟨hexec, running_congr hrings _⟩, hpolicy, hstatus, hregs⟩

end Sys2Proof.Machine
end

section
/-!
PROOF. The Legend controller's policies: trainer reports, swaps, threshold and range policies, training periods (R274, R278 to R284,
R288).
-/

namespace Sys2Proof.Machine
open Sys2Proof.Claims

namespace State
variable {s t : State}

theorem afterNewest_congr (hi : t.ing = s.ing) (hb : t.rd Reg.ING_BLOCK_CFG = s.rd Reg.ING_BLOCK_CFG) (b : Nat) :
    t.afterNewest b = s.afterNewest b := by
  rw [afterNewest, afterNewest, newestSample_congr hi hb]
  simp only [blockOf_congr hb]

/-- The state in which PAUSE is requested for a block. -/
def pausing (s : State) (b : Nat) (on : Bool) : State :=
  { s with adapt := { s.adapt with params := (
    SMap.set [] s.adapt.params b (SMap.get [] s.adapt.params b ++ [{ host := false, id := 3, value := if on then 1 else 0 }])) } }

theorem requestPause_taken {b : Nat} {on : Bool} (hb : s.afterNewest b = true) (hroom : (SMap.get [] s.adapt.params b).length < 3) :
    s.requestPause b on = (s.pausing b on, true) := by
  have hok : paramOk 3 (if on then 1 else 0) = true := by cases on <;> rfl
  rw [requestPause, requestParam_taken hok hb hroom]
  rfl

theorem params_pausing (s : State) (b : Nat) (on : Bool) : SMap.get [] (s.pausing b on).adapt.params b =
    SMap.get [] s.adapt.params b ++ [{ host := false, id := 3, value := if on then 1 else 0 }] := SMap.get_set_self ..

/-! Reports and swaps (R278 to R280, R288). -/

/-- A trainer report is taken and the status record written. -/
def reported (s : State) (flit : BitVec 256) : State :=
  ({ s with adapt := { s.adapt with
    repStep := field flit 32 32, block := fieldNat flit 64 64, lost := s.adapt.lost || decide (fieldNat flit 0 4 = 4),
    partial' := s.adapt.partial' || flit.getLsbD 208, steps := if fieldNat flit 0 4 = 2 then s.adapt.steps + 1 else s.adapt.steps,
    liveLoss := if fieldNat flit 0 4 = 1 then field flit 128 32 else s.adapt.liveLoss,
    shLoss := if fieldNat flit 0 4 = 1 then field flit 160 32 else s.adapt.shLoss } } : State).writeStatus

theorem takeReport_eq (s : State) (flit : BitVec 256) : s.takeReport flit =
    if fieldNat flit 0 4 = 1 then
      (s.reported flit).startSwap (field flit 128 32) (field flit 160 32) (fieldNat flit 192 16) (fieldNat flit 64 64)
    else if fieldNat flit 0 4 = 3 ∧ (s.reported flit).adapt.swapping then (s.reported flit).carrySwap (fieldNat flit 64 64)
    else s.reported flit := rfl

/-- What a report leaves as it was: the policy in force, the swap and the requests; the block's other parts but its output. -/
theorem reported_kept (s : State) (flit : BitVec 256) : (s.reported flit).regs = s.regs ∧ (s.reported flit).ing = s.ing ∧
    (s.reported flit).arr = s.arr ∧ (s.reported flit).img = s.img :=
  ⟨rfl, rfl, rfl, rfl⟩

theorem reported_adapt (s : State) (flit : BitVec 256) : (s.reported flit).adapt.desc = s.adapt.desc ∧
    (s.reported flit).adapt.policy = s.adapt.policy ∧ (s.reported flit).adapt.swapping = s.adapt.swapping ∧
    (s.reported flit).adapt.staged = s.adapt.staged ∧ (s.reported flit).adapt.swaps = s.adapt.swaps ∧
    (s.reported flit).adapt.params = s.adapt.params :=
  ⟨rfl, rfl, rfl, rfl, rfl, rfl⟩

theorem reported_afterNewest (s : State) (flit : BitVec 256) (b : Nat) : (s.reported flit).afterNewest b = s.afterNewest b :=
  afterNewest_congr (s := s) (t := s.reported flit) rfl rfl b

theorem exec_report (ha : s.adapts = true) (flit : BitVec 256) : exec (.trainerReportReceive (some flit)) s = .next (s.takeReport flit) :=
  congrArg Host.Outcome.next ((if_pos ha).trans rfl)

/-- The oldest report that the trainer has formed is taken like one that prickings ejected. -/
theorem exec_report_oldest (ha : s.adapts = true) {f : BitVec 256} {rest : List (BitVec 256)} (h : s.adapt.trainer.reports = f :: rest) :
    exec (.trainerReportReceive none) s = exec (.trainerReportReceive (some f))
      { s with adapt := { s.adapt with trainer := { s.adapt.trainer with reports := rest } } } := by
  refine Eq.trans ?_ (exec_report (s := { s with adapt := { s.adapt with trainer := { s.adapt.trainer with reports := rest } } }) ha f).symm
  refine congrArg Host.Outcome.next ((if_pos ha).trans ?_)
  unfold receiveReport
  rw [h]

theorem startSwap_of_ready {live shadow : Word} {windows block : Nat} (hon : polOn s.adapt.policy 1 = true) (hs : s.adapt.swapping = false)
    (hle : fLe shadow (rnWord ((fp32Val live).mul (((Q.ofInt 1).toVal).add (fp32Val (BitVec.ofNat 32 (leAt s.adapt.policy 0x1C 4))).neg))) =
      true)
    (hw : leAt s.adapt.policy 0x20 4 ≤ windows) (hst : leAt s.adapt.policy 0x18 4 ≤ s.adapt.steps)
    (hmax : leAt s.adapt.policy 0x28 4 = 0 ∨ s.adapt.swaps < leAt s.adapt.policy 0x28 4)
    (hb : s.afterNewest (block + leAt s.adapt.policy 0x24 4) = true)
    (hroom : (SMap.get [] s.adapt.params (block + leAt s.adapt.policy 0x24 4)).length < 3) :
    s.startSwap live shadow windows block =
      ({ s.pausing (block + leAt s.adapt.policy 0x24 4) true with
        adapt := { (s.pausing (block + leAt s.adapt.policy 0x24 4) true).adapt with swapping := true } } : State).acted
          (block + leAt s.adapt.policy 0x24 4) true := by
  unfold startSwap leadOf
  dsimp only
  rw [requestPause_taken hb hroom, if_pos (by simpa [hon, hs, hle, hw, hst] using hmax)]
  rfl

/-- The swap's paused report where the flip is armed, no thresholds are staged and the resume is accepted. -/
theorem carrySwap_of_ready {block f : Nat} {n : DWord} {sel : Word} {u v : State} (hf : block + leadOf s.adapt.policy = f)
    (hn : BitVec.ofNat 64 (s.img.k * (f - s.ing.first)) = n) (hsel : BitVec.ofNat 32 (s.adapt.dsc 7 1) = sel)
    (harm : s.armFlipAt n sel = (u, true)) (hv : (u.wr Reg.ARY_FLIP_CFG sel).wr64 Reg.ARY_FLIP n = v) (hst : v.adapt.staged = false)
    (hb : v.afterNewest f = true) (hroom : (SMap.get [] v.adapt.params f).length < 3) :
    s.carrySwap block = ({ v.pausing f false with
      adapt := { (v.pausing f false).adapt with swapAt := some f, swapping := false } } : State).acted f true := by
  unfold carrySwap
  dsimp only
  rw [hf, hn, hsel, harm]
  dsimp only
  rw [if_neg (show ¬(!true) = true by decide), hv, if_neg (ne_true_of_eq_false hst), requestPause_taken hb hroom]
  rfl

theorem carry_results {flit : BitVec 256} {f : Nat} {n : DWord} (ha : s.adapts = true)
    (hf : fieldNat flit 64 64 + leAt s.adapt.policy 0x24 4 = f) (hn : BitVec.ofNat 64 (s.img.k * (f - s.ing.first)) = n)
    (hk : fieldNat flit 0 4 = 3) (hsw : s.adapt.swapping = true) (hstaged : s.adapt.staged = false) (hround : s.arr.round.toNat < n.toNat)
    (hidle : s.rdB Reg.ARY_FLIP_STATUS 0 = false) (hshadow : ∀ l < 8, (s.adapt.dsc 7 1).testBit l = true → s.lacksShadow l = false)
    (hb : s.afterNewest f = true) (hroom : (SMap.get [] s.adapt.params f).length < 3) :
    ∃ t, exec (.trainerReportReceive (some flit)) s = .next t ∧ t.adapt.swapping = false ∧ t.adapt.swapAt = some f ∧
      t.adapt.swaps = s.adapt.swaps ∧ t.rdB Reg.ARY_FLIP_STATUS 0 = true ∧ t.rd64 Reg.ARY_FLIP = n ∧ t.arr.flip.1 = n ∧
      SMap.get [] t.adapt.params f = SMap.get [] s.adapt.params f ++ [{ host := false, id := 3, value := 0 }] := by
  have hexec := (exec_report ha flit).trans (congrArg Host.Outcome.next ((takeReport_eq s flit).trans (if_neg (by rw [hk]; decide))))
  obtain ⟨hdesc, hpol, hswap, hstg, hswaps, hpar⟩ := reported_adapt s flit
  obtain ⟨hregs, hing, harr, himg⟩ := reported_kept s flit
  have hafter := reported_afterNewest s flit f
  rw [if_pos ⟨hk, hswap.trans hsw⟩] at hexec
  generalize s.reported flit = u at hexec hdesc hpol hswap hstg hswaps hpar hafter hregs hing harr himg
  have hsel : u.adapt.dsc 7 1 = s.adapt.dsc 7 1 := by rw [Adapt.dsc, Adapt.dsc, hdesc]
  have hflip := armFlipAt_of_ready (s := u) (n := n) (sel := BitVec.ofNat 32 (u.adapt.dsc 7 1)) (by rw [harr]; exact hround)
    ((rdB_congr (rd_congr hregs _) 0).trans hidle) fun l hl h => by
      rw [bit, BitVec.getLsbD_ofNat, hsel, Bool.and_eq_true] at h
      have hlacks : u.lacksShadow l = s.lacksShadow l := by
        unfold lacksShadow picot
        rw [harr]
      exact hlacks.trans (hshadow l hl h.2)
  generalize hselw : BitVec.ofNat 32 (u.adapt.dsc 7 1) = sel at hflip
  obtain ⟨x, hx⟩ : ∃ x : State, { u with arr := { u.arr with flip := (n, sel) } } = x := ⟨_, rfl⟩
  obtain ⟨hxadapt, hxing, hxarr, hxrd⟩ : x.adapt = u.adapt ∧ x.ing = u.ing ∧ x.arr.flip.1 = n ∧ ∀ k, x.rd k = u.rd k := by
    rw [← hx]
    exact ⟨rfl, rfl, rfl, fun _ => rfl⟩
  rw [hx] at hflip
  obtain ⟨v, hv⟩ : ∃ v, ((x.wrB Reg.ARY_FLIP_STATUS 0 true).wr Reg.ARY_FLIP_CFG sel).wr64 Reg.ARY_FLIP n = v := ⟨_, rfl⟩
  obtain ⟨hvadapt, hving, hvarr, hvn⟩ : v.adapt = x.adapt ∧ v.ing = x.ing ∧ v.arr = x.arr ∧ v.rd64 Reg.ARY_FLIP = n := by
    rw [← hv]
    exact ⟨by rw [wr64_adapt, wr_adapt, wrB_adapt], by rw [wr64_ing, wr_ing, wrB_ing], by rw [wr64_arr, wr_arr, wrB_arr], wr64_rd64 ..⟩
  have hvblk : v.rd Reg.ING_BLOCK_CFG = u.rd Reg.ING_BLOCK_CFG := by
    rw [← hv, wr64_rd_ne (k := Reg.ARY_FLIP) (j := Reg.ING_BLOCK_CFG) _ n (by decide) (by decide), rd_wr_ne _ _ (by decide),
      wrB_rd_ne _ _ _ (by decide), hxrd]
  have hvst : v.rdB Reg.ARY_FLIP_STATUS 0 = true := by
    rw [← hv, rdB_congr (wr64_rd_ne (k := Reg.ARY_FLIP) (j := Reg.ARY_FLIP_STATUS) _ n (by decide) (by decide)), rdB_congr (rd_wr_ne _ _ (by decide)), rdB_wrB_self _ _ (by decide)]
  have hvparams : v.adapt.params = s.adapt.params := by rw [hvadapt, hxadapt, hpar]
  rw [carrySwap_of_ready (s := u) (f := f) (n := n) (by rw [hpol]; exact hf) (by rw [himg, hing]; exact hn) hselw hflip hv
    (by rw [hvadapt, hxadapt, hstg, hstaged]) (by rw [afterNewest_congr (hving.trans hxing) hvblk, hafter]; exact hb)
    (by rw [hvparams]; exact hroom)] at hexec
  refine ⟨_, hexec, rfl, rfl, ?_, hvst, hvn, ?_, (params_pausing v f false).trans (by rw [hvparams]; rfl)⟩
  · exact (congrArg Adapt.swaps (hvadapt.trans hxadapt)).trans hswaps
  · exact (congrArg (fun a : ArrCore => a.flip.1) hvarr).trans hxarr

theorem adaptFlip_of_swap {sel : Word} {f : Nat} (ha : s.adaptive = true) (h0 : s.adapt.dsc 7 1 ≠ 0)
    (hsel : sel.toNat % 256 &&& s.adapt.dsc 7 1 = s.adapt.dsc 7 1) (hf : s.adapt.swapAt = some f) : s.adaptFlip sel =
      { s with adapt := { s.adapt with trainer := s.adapt.trainer.flip, swapAt := none, steps := 0, swaps := s.adapt.swaps + 1,
                                       lastSwap := f } } := by
  unfold adaptFlip
  dsimp only
  rw [if_pos (by simp [ha, h0, hsel]), Adapt.swapped]
  dsimp only
  rw [hf]

/-! The threshold policy (R281). -/

/-- A threshold switch that is armed for a block. -/
def armedThr (s : State) (b : Nat) : State :=
  { (s.wrB Reg.TRG_THR_STATUS 1 true).wrB Reg.TRG_THR_STATUS 2 false with trg := { s.trg with thrArm := b } }

theorem armedThr_rd (s : State) (b : Nat) {k : Nat} (h : k ≠ Reg.TRG_THR_STATUS) : (s.armedThr b).rd k = s.rd k :=
  (wrB_rd_ne _ _ _ h).trans (wrB_rd_ne _ _ _ h)

theorem rd_withTrg (s : State) (x : Trigger) (k : Nat) : ({ s with trg := x } : State).rd k = s.rd k := rfl

theorem armedThr_armed (s : State) (b : Nat) : (s.armedThr b).rdB Reg.TRG_THR_STATUS 1 = true := by
  have hword : (s.armedThr b).rdB Reg.TRG_THR_STATUS 1 =
      ((s.wrB Reg.TRG_THR_STATUS 1 true).wrB Reg.TRG_THR_STATUS 2 false).rdB Reg.TRG_THR_STATUS 1 := rdB_congr (rd_withTrg ..) 1
  rw [hword, rdB_wrB_ne _ _ (by decide) (by decide), rdB_wrB_self _ _ (by decide)]

theorem armThr_of_ready {b : Nat} (harmed : s.rdB Reg.TRG_THR_STATUS 1 = false) (hlate : ∀ n, s.trg.newestV = some n → s.blockOf n < b) :
    s.armThr b = (s.armedThr b, true) := by
  have hnot : (match s.trg.newestV with | some n => decide (b ≤ s.blockOf n) | none => false) = false := by
    cases hn : s.trg.newestV with
    | none => rfl
    | some n => exact decide_eq_false (not_le.mpr (hlate n hn))
  unfold armThr
  simp only [harmed, Bool.false_or]
  exact if_neg (ne_true_of_eq_false hnot)

/-- The verdicts of an interval that has ended are forgotten. -/
def forgetAsserts (s : State) (v b n : Nat) : State :=
  let kept := s.trg.asserts.filter (fun x => decide (x.1 / 2 ^ 48 ≠ v) || decide (v * 2 ^ 48 + b + n ≤ x.1))
  { s with trg := { s.trg with asserts := kept } }

/-- The stream whose threshold the policy adjusts. -/
def policyStream (s : State) : Nat := s.adapt.dsc 8 2 % 256

/-- The threshold that the policy `q` gives the stream after the interval of `leAt q 0x2C 4` blocks from `b`, within its limits. -/
def policyThreshold (s : State) (q : List Byte) (b : Nat) : Int :=
  let c : Nat := ((List.range (leAt q 0x2C 4)).map (fun i => SMap.get 0 s.trg.asserts (s.policyStream * 2 ^ 48 + b + i))).foldl (· + ·) 0
  let thr := ((s.rd (Reg.TRG_VS_ACT s.policyStream)).extractLsb' 0 16).toInt
  let new := if leAt q 0x30 4 * (1000 + leAt q 0x36 2) < 1000 * c then thr + polS16 q 0x34
    else if 1000 * c < leAt q 0x30 4 * (1000 - leAt q 0x36 2) then thr - polS16 q 0x34 else thr
  max (polS16 q 0x38) (min (polS16 q 0x3A) new)

/-- An interval that its stream's watermark has passed. -/
theorem thresholdInterval_of_due {q : List Byte} {b : Nat} {u : State} (ha : s.adapts = true) (hl : s.boot.legendDown = false)
    (ht : s.adapt.thr = some (q, b)) (hdue : (b + leAt q 0x2C 4) * s.blockLen ≤ (s.stream s.policyStream).markIdx)
    (hu : s.forgetAsserts s.policyStream b (leAt q 0x2C 4) = u) : s.thresholdInterval =
      if !u.rdB Reg.TRG_THR_STATUS 2 then (u.nextThr (b + leAt q 0x2C 4)).acted (b + leAt q 0x2C 4 - 1 + leadOf q) false
      else
        let r := (u.wr (Reg.TRG_VS_THR s.policyStream) (BitVec.ofNat 32 (codeOf 16 (s.policyThreshold q b)))).armThr
          (b + leAt q 0x2C 4 - 1 + leadOf q)
        (({ r.1 with adapt := { r.1.adapt with staged := !r.2 } } : State).nextThr (b + leAt q 0x2C 4)).acted
          (b + leAt q 0x2C 4 - 1 + leadOf q) r.2 := by
  have hlu : u.boot.legendDown = false := by rw [← hu]; exact hl
  unfold thresholdInterval
  rw [ht]
  dsimp only
  rw [if_neg (by rw [ha]; simpa [policyStream] using hdue)]
  change (if !State.rdB (s.forgetAsserts s.policyStream b (leAt q 0x2C 4)) Reg.TRG_THR_STATUS 2 ||
    (s.forgetAsserts s.policyStream b (leAt q 0x2C 4)).boot.legendDown then _ else _) = _
  rw [hu, hlu, Bool.or_false, ← hu]
  rfl

/-- What follows the switch touches the adaptation and the output alone. -/
theorem thrActed_parts (u : State) (x y : Nat) :
    (((({ u with adapt := { u.adapt with staged := false } } : State).nextThr x).acted y true).regs = u.regs) ∧
    (((({ u with adapt := { u.adapt with staged := false } } : State).nextThr x).acted y true).trg = u.trg) ∧
    (((({ u with adapt := { u.adapt with staged := false } } : State).nextThr x).acted y true).adapt.miss = u.adapt.miss) := ⟨rfl, rfl, rfl⟩

/-- The registers that the threshold policy reads do not include the one it writes. -/
theorem thr_regs (v : Nat) : Reg.TRG_THR_STATUS ≠ Reg.TRG_VS_THR v ∧ Reg.ING_BLOCK_CFG ≠ Reg.TRG_VS_THR v := by
  unfold Reg.TRG_THR_STATUS Reg.TRG_VS_THR Reg.ING_BLOCK_CFG
  omega

theorem threshold_armed {q : List Byte} {b : Nat} (ha : s.adapts = true) (hl : s.boot.legendDown = false)
    (ht : s.adapt.thr = some (q, b)) (hdue : (b + leAt q 0x2C 4) * s.blockLen ≤ (s.stream s.policyStream).markIdx)
    (hfree : s.rdB Reg.TRG_THR_STATUS 2 = true) (harmed : s.rdB Reg.TRG_THR_STATUS 1 = false)
    (hlate : ∀ i, s.trg.newestV = some i → s.blockOf i < b + leAt q 0x2C 4 - 1 + leadOf q) :
    ∃ t, exec .thresholdPolicyInterval s = .next t ∧ t.trg.thrArm = b + leAt q 0x2C 4 - 1 + leadOf q ∧
      t.rdB Reg.TRG_THR_STATUS 1 = true ∧
      t.rd (Reg.TRG_VS_THR s.policyStream) = BitVec.ofNat 32 (codeOf 16 (s.policyThreshold q b)) ∧ t.adapt.miss = s.adapt.miss := by
  obtain ⟨u, hu⟩ : ∃ u, s.forgetAsserts s.policyStream b (leAt q 0x2C 4) = u := ⟨_, rfl⟩
  obtain ⟨hregs, hnew, hmiss⟩ : u.regs = s.regs ∧ u.trg.newestV = s.trg.newestV ∧ u.adapt.miss = s.adapt.miss := by
    rw [← hu]
    exact ⟨rfl, rfl, rfl⟩
  have hrd (k : Nat) : u.rd k = s.rd k := rd_congr hregs k
  obtain ⟨hst, hblk⟩ := thr_regs s.policyStream
  generalize hc : BitVec.ofNat 32 (codeOf 16 (s.policyThreshold q b)) = c
  obtain ⟨w, hw⟩ : ∃ w, u.wr (Reg.TRG_VS_THR s.policyStream) c = w := ⟨_, rfl⟩
  obtain ⟨hwst, hwblk, hwc, hwtrg, hwmiss⟩ : w.rd Reg.TRG_THR_STATUS = s.rd Reg.TRG_THR_STATUS ∧
      w.rd Reg.ING_BLOCK_CFG = s.rd Reg.ING_BLOCK_CFG ∧ w.rd (Reg.TRG_VS_THR s.policyStream) = c ∧ w.trg = u.trg ∧
      w.adapt.miss = u.adapt.miss := by
    rw [← hw]
    exact ⟨(rd_wr_ne _ _ hst).trans (hrd _), (rd_wr_ne _ _ hblk).trans (hrd _), rd_wr_self .., rfl, rfl⟩
  have harm := armThr_of_ready (s := w) (b := b + leAt q 0x2C 4 - 1 + leadOf q) ((rdB_congr hwst 1).trans harmed) fun n hn => by
    rw [blockOf_congr hwblk]
    exact hlate n (by rw [← hn, hwtrg, hnew])
  have hexec := thresholdInterval_of_due ha hl ht hdue hu
  rw [rdB_congr (hrd _), hfree, if_neg (by decide), hc, hw] at hexec
  dsimp only at hexec
  rw [harm] at hexec
  obtain ⟨hpregs, hptrg, hpmiss⟩ := thrActed_parts (w.armedThr (b + leAt q 0x2C 4 - 1 + leadOf q)) (b + leAt q 0x2C 4)
    (b + leAt q 0x2C 4 - 1 + leadOf q)
  have hrd' (k : Nat) := rd_congr hpregs k
  refine ⟨_, congrArg Host.Outcome.next hexec, (congrArg Trigger.thrArm hptrg).trans rfl, ?_, ?_, hpmiss.trans (Eq.trans ?_ (hwmiss.trans hmiss))⟩
  · exact (rdB_congr (hrd' _) 1).trans (armedThr_armed ..)
  · exact (hrd' _).trans ((armedThr_rd _ _ hst.symm).trans hwc)
  · rfl

theorem threshold_missed {q : List Byte} {b : Nat} (ha : s.adapts = true) (hl : s.boot.legendDown = false)
    (ht : s.adapt.thr = some (q, b)) (hdue : (b + leAt q 0x2C 4) * s.blockLen ≤ (s.stream s.policyStream).markIdx)
    (hbusy : s.rdB Reg.TRG_THR_STATUS 2 = false) :
    ∃ t, exec .thresholdPolicyInterval s = .next t ∧ t.regs = s.regs ∧ t.adapt.miss = s.adapt.miss + 1 := by
  have hexec := thresholdInterval_of_due ha hl ht hdue rfl
  rw [if_pos (by rw [show (s.forgetAsserts _ _ _).rdB Reg.TRG_THR_STATUS 2 = false from hbusy]; rfl)] at hexec
  exact ⟨_, congrArg Host.Outcome.next hexec, rfl, rfl⟩

/-! The range policy (R282). -/

/-- The staging words of a channel. -/
def stagedRecord (s : State) (act chan : Nat) : List Word :=
  let old := (List.range 12).map (s.recWord act chan)
  let a := SMap.get StatAcc.none s.ing.ranges chan
  if a.good = 0 then old else deriveRecord (s.recWord act chan 0) a.min a.max ++ old.drop 6

theorem stageRange_eq (s : State) (act chan : Nat) : s.stageRange act chan =
    (s.stagedRecord act chan).zipIdx.foldl (fun (t : State) p => t.setRec (1 - act) chan p.2 p.1) s := rfl

theorem length_deriveRecord (w0 : Word) (lo hi : Int) : (deriveRecord w0 lo hi).length = 6 := by
  unfold deriveRecord
  dsimp only
  split_ifs <;> rfl

theorem length_stagedRecord (s : State) (act chan : Nat) : (s.stagedRecord act chan).length = 12 := by
  unfold stagedRecord
  dsimp only
  split_ifs
  · rfl
  · rw [List.length_append, length_deriveRecord]
    rfl

theorem stagedRecord_blank {act chan : Nat} (h : (SMap.get StatAcc.none s.ing.ranges chan).good = 0) {w : Nat} (hw : w < 12) :
    (s.stagedRecord act chan).getD w 0 = s.recWord act chan w := by
  rw [stagedRecord, if_pos h, List.getD_eq_getElem _ _ (by simpa using hw), List.getElem_map, List.getElem_range]

theorem stagedRecord_derived {act chan : Nat} (h : (SMap.get StatAcc.none s.ing.ranges chan).good ≠ 0) {w : Nat} (hw : w < 6) :
    (s.stagedRecord act chan).getD w 0 = (deriveRecord (s.recWord act chan 0) (SMap.get StatAcc.none s.ing.ranges chan).min
      (SMap.get StatAcc.none s.ing.ranges chan).max).getD w 0 := by
  rw [stagedRecord, if_neg h, List.getD_append _ _ _ _ (by rwa [length_deriveRecord])]

/-- Word 0 keeps the format and takes the bits of its form; the rest are whole words. -/
theorem deriveRecord_cons (w0 : Word) (lo hi : Int) : ∃ f rest, deriveRecord w0 lo hi = f :: rest ∧ (f = w0 &&& 0x2F ∨ f = w0 &&& 0x2F ||| 0x10) := by
  unfold deriveRecord
  dsimp only
  split_ifs
  · exact ⟨_, _, rfl, .inr rfl⟩
  · exact ⟨_, _, rfl, .inr rfl⟩
  all_goals exact ⟨_, _, rfl, .inl rfl⟩

theorem fmtWord_masked {w0 f : Word} (h : f = w0 &&& 0x2F ∨ f = w0 &&& 0x2F ||| 0x10) : f &&& 0x3F = f := by
  have hand : w0 &&& 0x2F &&& 0x3F = w0 &&& 0x2F := BitVec.and_assoc ..
  rcases h with rfl | rfl
  · exact hand
  · rw [BitVec.and_or_distrib_right, hand]
    rfl

theorem fieldNat_and_low (w m : Word) (h : BitVec.extractLsb' 0 4 m = 0xF#4) : fieldNat (w &&& m) 0 4 = fieldNat w 0 4 := by
  rw [fieldNat, fieldNat, BitVec.extractLsb'_and, h]
  exact congrArg BitVec.toNat BitVec.and_allOnes

theorem fmtWord_fmt {w0 f : Word} (h : f = w0 &&& 0x2F ∨ f = w0 &&& 0x2F ||| 0x10) : fieldNat f 0 4 = fieldNat w0 0 4 := by
  rcases h with rfl | rfl
  · exact fieldNat_and_low _ _ rfl
  · rw [← fieldNat_and_low w0 0x2F rfl, fieldNat, fieldNat, BitVec.extractLsb'_or]
    exact congrArg BitVec.toNat (BitVec.or_zero ..)

/-- A derived word fits the bits of its place. -/
theorem deriveRecord_masked (w0 : Word) (lo hi : Int) {w : Nat} (hw : w < 6) :
    (deriveRecord w0 lo hi).getD w 0 &&& recMask w = (deriveRecord w0 lo hi).getD w 0 := by
  obtain ⟨f, rest, hcons, hf⟩ := deriveRecord_cons w0 lo hi
  rw [hcons]
  cases w with
  | zero => exact fmtWord_masked hf
  | succ w =>
    rw [recMask, if_neg (by omega), if_pos (by omega)]
    exact BitVec.and_allOnes

/-- The staged format is the channel's own. -/
theorem stagedRecord_fmt (s : State) (act chan : Nat) : fieldNat ((s.stagedRecord act chan).getD 0 0) 0 4 = fieldNat (s.recWord act chan 0) 0 4 := by
  by_cases h : (SMap.get StatAcc.none s.ing.ranges chan).good = 0
  · rw [stagedRecord_blank h (by decide)]
  · obtain ⟨f, rest, hcons, hf⟩ := deriveRecord_cons (s.recWord act chan 0) (SMap.get StatAcc.none s.ing.ranges chan).min
      (SMap.get StatAcc.none s.ing.ranges chan).max
    rw [stagedRecord_derived h (by decide), hcons]
    exact fmtWord_fmt hf

/-- A pass that writes record words alone. -/
theorem foldl_recs {α : Type} {f : State → α → State} (h : ∀ t x, ∃ r, f t x = { t with ing := { t.ing with recs := r } }) (l : List α) (s : State) :
    ∃ r, l.foldl f s = { s with ing := { s.ing with recs := r } } := by
  induction l generalizing s with
  | nil => exact ⟨s.ing.recs, rfl⟩
  | cons x l ih =>
    obtain ⟨r, hr⟩ := h s x
    obtain ⟨r', hr'⟩ := ih (f s x)
    exact ⟨r', by rw [List.foldl_cons, hr', hr]⟩

theorem stageRange_frame (s : State) (act chan : Nat) : ∃ r, s.stageRange act chan = { s with ing := { s.ing with recs := r } } :=
  foldl_recs (fun _ _ => ⟨_, rfl⟩) _ _

/-- Staging a channel leaves every other record word. -/
theorem stageRange_recWord_ne (s : State) {act chan bank c w : Nat} (hchan : chan < 4096) (hc : c < 4096) (hw : w < 12)
    (h : bank ≠ 1 - act ∨ c ≠ chan) : (s.stageRange act chan).recWord bank c w = s.recWord bank c w := by
  rw [stageRange_eq]
  refine foldl_leaves (fun t : State => t.recWord bank c w) _ _ _ fun t x hx => ?_
  have hx12 : x.2 < 12 := by
    have := List.snd_lt_of_mem_zipIdx hx
    rwa [length_stagedRecord] at this
  refine recWord_setRec_ne _ hchan (by omega) hc (by omega) ?_ _
  simp only [ne_eq, Prod.mk.injEq, not_and]
  intro h1 h2
  exact absurd h1 (h.resolve_right (not_not_intro h2))

theorem stageRange_recWord_self (s : State) {act chan w : Nat} (hw : w < 12) :
    (s.stageRange act chan).recWord (1 - act) chan w = (s.stagedRecord act chan).getD w 0 &&& recMask w := by
  have hlen := length_stagedRecord s act chan
  have hmem : ((s.stagedRecord act chan).getD w 0, w) ∈ (s.stagedRecord act chan).zipIdx := by
    rw [List.getD_eq_getElem _ _ (by omega)]
    exact List.mem_zipIdx_iff_getElem?.mpr (List.getElem?_eq_getElem (by omega))
  have hnodup : ((s.stagedRecord act chan).zipIdx.map (fun p : Word × Nat => p.2)).Nodup := by
    rw [List.zipIdx_map_snd]
    exact List.nodup_range'
  rw [stageRange_eq]
  refine foldl_obs_self (obs := fun (t : State) k => t.recWord (1 - act) chan k) (key := Prod.snd)
    (g := fun _ => (s.stagedRecord act chan).getD w 0 &&& recMask w) (fun t p k hk => ?_) (fun t => recWord_setRec_self ..) hnodup s hmem
  exact SMap.get_set_ne' _ _ _ _ (by omega)

/-- What staging reads is as it was: the ranges and the active records. -/
def StageBase (act : Nat) (s t : State) : Prop :=
  t.ing.ranges = s.ing.ranges ∧ ∀ c < 4096, ∀ w < 12, t.recWord act c w = s.recWord act c w

/-- A channel whose staging words are the ones that `s` gives it. -/
def Staged (act : Nat) (s t : State) (c : Nat) : Prop :=
  ∀ w < 12, t.recWord (1 - act) c w = (s.stagedRecord act c).getD w 0 &&& recMask w

theorem stagedRecord_congr {act c : Nat} (h : StageBase act s t) (hc : c < 4096) : t.stagedRecord act c = s.stagedRecord act c := by
  obtain ⟨hr, hw⟩ := h
  have hold : (List.range 12).map (t.recWord act c) = (List.range 12).map (s.recWord act c) :=
    List.map_congr_left fun w hmem => hw c hc w (List.mem_range.mp hmem)
  rw [stagedRecord, stagedRecord, hold, hr, hw c hc 0 (by decide)]

theorem stageRange_step {act c : Nat} (hact : act ≤ 1) (hc : c < 4096) (h : StageBase act s t) : StageBase act s (t.stageRange act c) ∧
    Staged act s (t.stageRange act c) c ∧ ∀ d < 4096, Staged act s t d → Staged act s (t.stageRange act c) d := by
  have hself : Staged act s (t.stageRange act c) c := fun w hw => by
    rw [stageRange_recWord_self t hw, stagedRecord_congr h hc]
  obtain ⟨hr, hw⟩ := h
  refine ⟨⟨?_, fun d hd w hw12 => ?_⟩, hself, fun d hd hst w hw12 => ?_⟩
  · obtain ⟨r, hr'⟩ := stageRange_frame t act c
    rw [hr']
    exact hr
  · rw [stageRange_recWord_ne t hc hd hw12 (.inl (by omega)), hw d hd w hw12]
  · by_cases hdc : d = c
    · rw [hdc]
      exact hself w hw12
    · rw [stageRange_recWord_ne t hc hd hw12 (.inr hdc), hst w hw12]

theorem stagePass_results {act : Nat} (hact : act ≤ 1) (l : List Nat) (hl : ∀ c ∈ l, c < 4096) (h : StageBase act s t) :
    StageBase act s (l.foldl (fun t c => t.stageRange act c) t) ∧
      ∀ c < 4096, c ∈ l ∨ Staged act s t c → Staged act s (l.foldl (fun t c => t.stageRange act c) t) c := by
  induction l generalizing t with
  | nil => exact ⟨h, fun c _ hc => hc.resolve_left (List.not_mem_nil)⟩
  | cons c l ih =>
    obtain ⟨hbase, hself, hkept⟩ := stageRange_step hact (hl c (List.mem_cons_self ..)) h
    obtain ⟨hbase', hpass⟩ := ih (fun d hd => hl d (List.mem_cons_of_mem _ hd)) hbase
    refine ⟨hbase', fun d hd hc => hpass d hd ?_⟩
    rcases hc with hmem | hst
    · rcases List.mem_cons.mp hmem with rfl | hmem
      · exact .inr hself
      · exact .inl hmem
    · exact .inr (hkept d hd hst)

/-- Every channel's staging record is made. -/
def staging (s : State) : State := (s.channels.map Prod.fst).foldl (fun t c => t.stageRange (s.rdF Reg.ING_REC_STATUS 0 1) c) s

theorem staging_frame (s : State) : ∃ r, s.staging = { s with ing := { s.ing with recs := r } } :=
  foldl_recs (fun _ _ => stageRange_frame ..) _ _

theorem channels_lt {e : Nat × Word} (h : e ∈ s.channels) : e.1 < 4096 := by
  obtain ⟨x, -, hx⟩ := List.mem_filterMap.mp h
  split at hx
  next hr =>
    obtain ⟨-, hhi, -⟩ := hr
    obtain rfl := Option.some.inj hx
    dsimp only
    omega
  next => cases hx

theorem activeBank_le (s : State) : s.rdF Reg.ING_REC_STATUS 0 1 ≤ 1 := Nat.le_of_lt_succ (BitVec.isLt (field (s.rd Reg.ING_REC_STATUS) 0 1))

theorem staging_results (s : State) : StageBase (s.rdF Reg.ING_REC_STATUS 0 1) s s.staging ∧
    ∀ e ∈ s.channels, Staged (s.rdF Reg.ING_REC_STATUS 0 1) s s.staging e.1 := by
  have hl (c : Nat) (hc : c ∈ s.channels.map Prod.fst) : c < 4096 := by
    obtain ⟨e, he, rfl⟩ := List.mem_map.mp hc
    exact channels_lt he
  obtain ⟨hbase, hpass⟩ := stagePass_results (activeBank_le s) _ hl (⟨rfl, fun _ _ _ _ => rfl⟩ : StageBase _ s s)
  exact ⟨hbase, fun e he => hpass e.1 (channels_lt he) (.inl (List.mem_map_of_mem he))⟩

theorem armRec_eq {b : Nat} (harmed : s.rdB Reg.ING_REC_STATUS 1 = false) (hlate : ∀ n, s.newestSample = some n → s.blockOf n < b)
    (hfmt : s.channels.any (fun e => !quantFmt (fieldNat (s.recWord (1 - s.rdF Reg.ING_REC_STATUS 0 1) e.1 0) 0 4)) = false) :
    s.armRec b = (s.armedRec b, true) := by
  have hnot : (match s.newestSample with | some n => decide (b ≤ s.blockOf n) | none => false) = false := by
    cases hn : s.newestSample with
    | none => rfl
    | some n => exact decide_eq_false (not_le.mpr (hlate n hn))
  unfold armRec
  simp only [harmed, hfmt, Bool.or_false, Bool.false_or]
  exact if_neg (ne_true_of_eq_false hnot)

/-- The first block that a range policy `q` may act at after its span. -/
def rangeBlock (s : State) (q : List Byte) : Nat :=
  s.ing.statFrom - 1 - (s.ing.rangeN - leAt q 0x3C 4) * s.rdF Reg.ING_STAT_CFG 0 16 + leadOf q

/-- A range span whose statistics intervals have closed. -/
theorem rangeInterval_of_due {q : List Byte} {b : Nat} (ha : s.adapts = true) (hl : s.boot.legendDown = false)
    (hr : s.adapt.rng = some (q, b)) (hdue : leAt q 0x3C 4 ≤ s.ing.rangeN) : s.rangeInterval =
      if !s.rdB Reg.ING_REC_STATUS 2 then (s.nextRange false).acted (s.rangeBlock q) false
      else if (s.channels.map Prod.fst).all (fun c => (List.range 12).all (fun w => decide (s.staging.recWord 0 c w = s.staging.recWord 1 c w))) then
        s.staging.nextRange false
      else ((s.staging.armRec (s.rangeBlock q)).1.nextRange false).acted (s.rangeBlock q) (s.staging.armRec (s.rangeBlock q)).2 := by
  unfold rangeInterval
  rw [hr]
  dsimp only
  rw [if_neg (by rw [ha]; simpa using hdue), hl, Bool.or_false]
  rfl

theorem armedRec_recWord (s : State) (b bank c w : Nat) : (s.armedRec b).recWord bank c w = s.recWord bank c w := rfl

/-- What follows the arming touches the interval and the adaptation alone. -/
theorem rangeActed_parts (u : State) (y : Nat) : ((u.nextRange false).acted y true).regs = u.regs ∧
    ((u.nextRange false).acted y true).ing.recArm = u.ing.recArm ∧ ((u.nextRange false).acted y true).adapt.miss = u.adapt.miss ∧
    ∀ bank c w, ((u.nextRange false).acted y true).recWord bank c w = u.recWord bank c w := ⟨rfl, rfl, rfl, fun _ _ _ => rfl⟩

theorem range_armed {q : List Byte} {b : Nat} (ha : s.adapts = true) (hl : s.boot.legendDown = false)
    (hr : s.adapt.rng = some (q, b)) (hdue : leAt q 0x3C 4 ≤ s.ing.rangeN) (hfree : s.rdB Reg.ING_REC_STATUS 2 = true)
    (harmed : s.rdB Reg.ING_REC_STATUS 1 = false) (hlate : ∀ i, s.newestSample = some i → s.blockOf i < s.rangeBlock q)
    (hfmt : ∀ e ∈ s.channels, quantFmt (fieldNat (s.recWord (s.rdF Reg.ING_REC_STATUS 0 1) e.1 0) 0 4) = true)
    (hnew : ∃ e ∈ s.channels, (SMap.get StatAcc.none s.ing.ranges e.1).good ≠ 0 ∧ ∃ w < 6,
      (s.stagedRecord (s.rdF Reg.ING_REC_STATUS 0 1) e.1).getD w 0 ≠ s.recWord (s.rdF Reg.ING_REC_STATUS 0 1) e.1 w) :
    ∃ t, exec .rangePolicyInterval s = .next t ∧ t.ing.recArm = s.rangeBlock q ∧ t.rdB Reg.ING_REC_STATUS 1 = true ∧
      t.adapt.miss = s.adapt.miss ∧ ∀ e ∈ s.channels, (SMap.get StatAcc.none s.ing.ranges e.1).good ≠ 0 → ∀ w < 6,
        t.recWord (1 - s.rdF Reg.ING_REC_STATUS 0 1) e.1 w = (s.stagedRecord (s.rdF Reg.ING_REC_STATUS 0 1) e.1).getD w 0 := by
  have hact := activeBank_le s
  obtain ⟨⟨-, hkept⟩, hstaged⟩ := staging_results s
  obtain ⟨r, hframe⟩ := staging_frame s
  have hexec := rangeInterval_of_due ha hl hr hdue
  rw [hfree, if_neg (by decide)] at hexec
  generalize s.rangeBlock q = at' at hexec hlate ⊢
  generalize s.staging = u at hkept hstaged hframe hexec
  obtain ⟨hregs, hchan, hnewest, hmiss⟩ : u.regs = s.regs ∧ u.channels = s.channels ∧ u.newestSample = s.newestSample ∧
      u.adapt.miss = s.adapt.miss := by
    rw [hframe]
    exact ⟨rfl, rfl, rfl, rfl⟩
  have hrd (k : Nat) : u.rd k = s.rd k := rd_congr hregs k
  have hword (e : Nat × Word) (he : e ∈ s.channels) (hgood : (SMap.get StatAcc.none s.ing.ranges e.1).good ≠ 0) (w : Nat) (hw : w < 6) :
      u.recWord (1 - s.rdF Reg.ING_REC_STATUS 0 1) e.1 w = (s.stagedRecord (s.rdF Reg.ING_REC_STATUS 0 1) e.1).getD w 0 := by
    rw [hstaged e he w (by omega), stagedRecord_derived hgood hw, deriveRecord_masked _ _ _ hw]
  have hsame : ¬((s.channels.map Prod.fst).all (fun c => (List.range 12).all (fun w => decide (u.recWord 0 c w = u.recWord 1 c w)))) = true := by
    obtain ⟨e, he, hgood, w, hw, hne⟩ := hnew
    rw [← hword e he hgood w hw, ← hkept e.1 (channels_lt he) w (by omega)] at hne
    intro hall
    have heq := List.all_eq_true.mp (List.all_eq_true.mp hall e.1 (List.mem_map_of_mem he)) w (List.mem_range.mpr (by omega))
    rcases (by omega : s.rdF Reg.ING_REC_STATUS 0 1 = 0 ∨ s.rdF Reg.ING_REC_STATUS 0 1 = 1) with h | h <;> rw [h] at hne
    · exact hne (of_decide_eq_true heq).symm
    · exact hne (of_decide_eq_true heq)
  have harm := armRec_eq (s := u) (b := at') ((rdB_congr (hrd _) 1).trans harmed)
    (fun n hn => by rw [blockOf_congr (hrd _)]; exact hlate n (hnewest ▸ hn)) (by
      rw [hchan, rdF_congr (hrd _), List.any_eq_false]
      intro e he
      have hfield : fieldNat (u.recWord (1 - s.rdF Reg.ING_REC_STATUS 0 1) e.1 0) 0 4 =
          fieldNat (s.recWord (s.rdF Reg.ING_REC_STATUS 0 1) e.1 0) 0 4 := by
        rw [hstaged e he 0 (by decide), ← stagedRecord_fmt]
        exact fieldNat_and_low _ _ rfl
      rw [hfield, hfmt e he]
      decide)
  rw [if_neg hsame, harm] at hexec
  obtain ⟨hpregs, hparm, hpmiss, hpword⟩ := rangeActed_parts (u.armedRec at') at'
  refine ⟨_, congrArg Host.Outcome.next hexec, hparm, (rdB_congr (rd_congr hpregs _) 1).trans (armedRec_status u at').1, hpmiss.trans hmiss,
    fun e he hgood w hw => (hpword ..).trans (hword e he hgood w hw)⟩

theorem range_missed {q : List Byte} {b : Nat} (ha : s.adapts = true) (hl : s.boot.legendDown = false)
    (hr : s.adapt.rng = some (q, b)) (hdue : leAt q 0x3C 4 ≤ s.ing.rangeN) (hbusy : s.rdB Reg.ING_REC_STATUS 2 = false) :
    ∃ t, exec .rangePolicyInterval s = .next t ∧ t.regs = s.regs ∧ t.ing.recs = s.ing.recs ∧ t.adapt.miss = s.adapt.miss + 1 := by
  have hexec := rangeInterval_of_due ha hl hr hdue
  rw [hbusy, if_pos (by decide)] at hexec
  exact ⟨_, congrArg Host.Outcome.next hexec, rfl, rfl, rfl⟩

/-! Training periods (R283). -/

theorem period_acted {b : Nat} {on : Bool} (ha : s.adapts = true) (hl : s.boot.legendDown = false) (hp : s.adapt.period = some (b, on))
    (hon : polOn s.adapt.policy 0 = true) (hoff : leAt s.adapt.policy 0x44 4 ≠ 0) (hb : s.afterNewest b = true)
    (hroom : (SMap.get [] s.adapt.params b).length < 3) :
    ∃ t, exec .trainPeriodBoundary s = .next t ∧
      t.adapt.period = some (b + (if on then leAt s.adapt.policy 0x40 4 else leAt s.adapt.policy 0x44 4), !on) ∧
      t.adapt.miss = s.adapt.miss ∧
      SMap.get [] t.adapt.params b = SMap.get [] s.adapt.params b ++ [{ host := false, id := 3, value := if on then 0 else 1 }] := by
  have hexec : s.periodBoundary = ({ s.pausing b (!on) with adapt := { (s.pausing b (!on)).adapt with
      period := some (b + (if on then leAt s.adapt.policy 0x40 4 else leAt s.adapt.policy 0x44 4), !on) } } : State).acted b true := by
    unfold periodBoundary
    dsimp only
    rw [hp]
    dsimp only
    rw [if_neg (by simp [ha, hon, hoff]), hl, if_neg (by decide), requestPause_taken hb hroom]
  refine ⟨_, congrArg Host.Outcome.next hexec, rfl, rfl, (params_pausing s b (!on)).trans ?_⟩
  cases on <;> rfl

end State

open State in
/-- Settles O44: a report or an interval's end acts where the armed switch or the requested parameter is taken, and counts a miss
where its bank is not free. -/
theorem policyResults : Obligations.PolicyResults := by
  intro s ha hl p lead
  refine ⟨fun flit hk => ?step, fun flit => ?start, fun flit => ?carry, fun f rest h => exec_report_oldest ha h, fun sel f h0 hsel hf => ?flip,
    fun q b hq => ?thr, fun q b hq => ?rng, fun b on hp hon hoff hb hroom => period_acted ha hl hp hon hoff hb hroom⟩
  case step =>
    refine ⟨s.reported flit, _, (exec_report ha flit).trans (congrArg Host.Outcome.next ?_), rfl, if_pos hk, rfl, rfl, rfl⟩
    rw [takeReport_eq, hk, if_neg (by decide), if_neg (by simp)]
  case start =>
    intro f hk hon hsw hle hw hst hmax hb hroom
    have hexec := (exec_report ha flit).trans (congrArg Host.Outcome.next ((takeReport_eq s flit).trans (if_pos hk)))
    obtain ⟨-, hpol, hswap, -, hswaps, hpar⟩ := reported_adapt s flit
    have hsteps : (s.reported flit).adapt.steps = s.adapt.steps := if_neg (by rw [hk]; decide)
    have hafter := reported_afterNewest s flit
    generalize s.reported flit = u at hexec hpol hswap hswaps hpar hsteps hafter
    rw [startSwap_of_ready (s := u) (by rw [hpol]; exact hon) (hswap.trans hsw) (by rw [hpol]; exact hle) (by rw [hpol]; exact hw)
      (by rw [hpol, hsteps]; exact hst) (by rw [hpol, hswaps]; exact hmax) (by rw [hpol, hafter]; exact hb)
      (by rw [hpol, hpar]; exact hroom), hpol] at hexec
    exact ⟨_, hexec, rfl, (params_pausing u f true).trans (by rw [hpar]; rfl)⟩
  case carry =>
    intro f n hk hsw hstaged hround hidle hshadow hb hroom
    exact carry_results ha rfl rfl hk hsw hstaged hround hidle hshadow hb hroom
  case flip =>
    intro t
    have hadaptive : s.adaptive = true := (Bool.and_eq_true_iff.mp ha).1
    have ht : t = _ := adaptFlip_of_swap hadaptive h0 hsel hf
    rw [ht]
    exact ⟨rfl, rfl, rfl, rfl, rfl, rfl⟩
  case thr =>
    intro n v at' c thr new hdue
    exact ⟨fun hfree harmed hlate => threshold_armed ha hl hq hdue hfree harmed hlate, fun hbusy => threshold_missed ha hl hq hdue hbusy⟩
  case rng =>
    intro n act at' acc new hdue
    refine ⟨fun hfree harmed hlate hfmt hnew => ?_, fun hbusy => range_missed ha hl hq hdue hbusy⟩
    obtain ⟨e, he, hgood, w, hw, hne⟩ := hnew
    obtain ⟨t, hexec, harm, hst, hmiss, hrec⟩ := range_armed ha hl hq hdue hfree harmed hlate hfmt
      ⟨e, he, hgood, w, hw, by rw [stagedRecord_derived hgood hw]; exact hne⟩
    exact ⟨t, hexec, harm, hst, hmiss, fun e he hgood w hw => (hrec e he hgood w hw).trans (stagedRecord_derived hgood hw)⟩

end Sys2Proof.Machine
end

section
/-!
PROOF. Verdicts, threshold switches, the evaluation of a class and output pulses (R230, R231, R233, R236 to R238).
-/

namespace Sys2Proof.Machine
open Sys2Proof.Claims

namespace State
variable {s t : State}

/-! Verdicts (R230). -/

/-- What a verdict changes of its stream: the streams and the register that counts its verdicts. -/
def seen (v : Nat) (s : State) : SMap VStream × Word := (s.trg.streams, s.rd (Reg.ARY_VS_COUNT v))

theorem seen_wr {v k : Nat} (h : k ≠ Reg.ARY_VS_COUNT v) (s : State) (x : Word) : seen v (s.wr k x) = seen v s :=
  Prod.ext rfl (rd_wr_ne _ _ h.symm)

/-- A class's words lie above the streams' counters. -/
theorem apart_seen {v : Nat} (hv : v < 256) (c k : Nat) : Apart (seen v) c k where
  cause t n := by
    refine (seen_wr ?_ ..).trans (seen_wr ?_ ..) <;> unfold Reg.cls Reg.ARY_VS_COUNT <;> omega
  total t n := by
    refine (seen_wr ?_ ..).trans (seen_wr ?_ ..) <;> unfold Reg.cls Reg.ARY_VS_COUNT <;> omega
  update _ _ _ := rfl

theorem seen_produce (v : Nat) (s : State) (takes : Sub → Bool) (r : List Byte) : seen v (s.produce takes r) = seen v s := by
  refine foldl_leaves (seen v) _ _ s fun t n _ => ?_
  dsimp only
  split <;> rfl

theorem seen_freeThr {v : Nat} (hv : v < 256) (s : State) : seen v s.freeThr = seen v s := by
  unfold freeThr
  split
  · split
    · refine (seen_wr ?_ ..).trans rfl
      unfold Reg.TRG_THR_STATUS Reg.ARY_VS_COUNT
      omega
    · rfl
  · rfl

theorem seen_chargeStream {v : Nat} (hv : v < 256) (s : State) (w cause b span chan : Nat) :
    seen v (s.chargeStream w cause b span chan) = seen v s :=
  foldl_leaves (seen v) _ _ s fun _ c _ => charge_leaves (apart_seen hv c cause) ..

/-- The latency's report leaves the count of the verdict. -/
theorem verdictLatency_results (s : State) (v idx : Nat) :
    (s.verdictLatency v idx).rd (Reg.ARY_VS_COUNT v) = satInc (s.rd (Reg.ARY_VS_COUNT v)) := by
  unfold verdictLatency
  extract_lets s1
  split
  · exact count_rd_self ..
  · have hlag : Reg.ARY_VS_COUNT v ≠ Reg.ARY_VS_LAG v := by
      unfold Reg.ARY_VS_COUNT Reg.ARY_VS_LAG
      omega
    have hworst : Reg.ARY_VS_COUNT v ≠ Reg.ARY_VS_WORST v := by
      unfold Reg.ARY_VS_COUNT Reg.ARY_VS_WORST
      omega
    exact (rd_wr_ne _ _ hlag).trans ((rd_wr_ne _ _ hworst).trans (count_rd_self ..))

theorem verdict_in_order {v : Nat} (hv : v < 256) {flit : BitVec 256} (h : (s.stream v).markIdx ≤ fieldNat flit 0 64) (bad : Bool) :
    ((s.verdict v flit bad).stream v).markIdx =
        (if fieldNat flit 112 16 = 0 then fieldNat flit 0 64 + 1 else (s.blockOf (fieldNat flit 0 64) + fieldNat flit 112 16 + 1) * s.blockLen) ∧
      ((s.verdict v flit bad).stream v).seq = (s.stream v).seq + 1 ∧
      (s.verdict v flit bad).rd (Reg.ARY_VS_COUNT v) = satInc (s.rd (Reg.ARY_VS_COUNT v)) := by
  unfold verdict
  extract_lets x idx chan b span shed ovr t score asserts mark s1 _ s2 s3 s4 s5
  rw [if_neg (Nat.not_lt.mpr h)]
  have h3 : seen v s3 = seen v s1 := (seen_produce ..).trans ((seen_freeThr hv s2).trans rfl)
  have h4 : seen v s4 = seen v s1 := by
    unfold s4
    split
    · exact (seen_chargeStream hv ..).trans h3
    · exact h3
  have h5 : seen v s5 = seen v s1 := by
    unfold s5
    split
    · exact (seen_chargeStream hv ..).trans h4
    · exact h4
  have hend : ∀ u, seen v u = seen v s1 → (u.stream v).markIdx = mark ∧ (u.stream v).seq = x.seq + 1 ∧
      u.rd (Reg.ARY_VS_COUNT v) = satInc (s.rd (Reg.ARY_VS_COUNT v)) := by
    intro u hu
    obtain ⟨hstreams, hcount⟩ := Prod.ext_iff.mp hu
    have hstream : u.stream v = { markIdx := mark, mark := some (s.acqFine chan mark), seq := x.seq + 1 } := by
      rw [stream, show u.trg.streams = s1.trg.streams from hstreams]
      exact SMap.get_set_self ..
    rw [hstream]
    exact ⟨rfl, rfl, hcount.trans (verdictLatency_results ..)⟩
  refine hend _ ?_
  split_ifs
  · exact h3
  · exact (pushEvent_leaves (fun c _ => apart_seen hv c 4) ..).trans h5
  · exact h5

theorem verdict_behind {v : Nat} {flit : BitVec 256} (h : fieldNat flit 0 64 < (s.stream v).markIdx) (bad : Bool) :
    s.verdict v flit bad = s.count Reg.TRG_VS_ORDER := if_pos h

/-! Threshold switches (R231). -/

theorem writeThrSwitch_of_ready {hi : Word} (harmed : s.rdB Reg.TRG_THR_STATUS 1 = false)
    (hlate : ∀ n, s.trg.newestV = some n → s.blockOf n < (hi ++ s.rd Reg.TRG_THR_SWITCH).toNat) :
    s.writeThrSwitch hi = (s.wr (Reg.TRG_THR_SWITCH + 4) hi).armedThr (hi ++ s.rd Reg.TRG_THR_SWITCH).toNat := by
  have hrd : (s.wr (Reg.TRG_THR_SWITCH + 4) hi).rd64 Reg.TRG_THR_SWITCH = hi ++ s.rd Reg.TRG_THR_SWITCH := by
    rw [rd64, rd_wr_self, rd_wr_ne _ _ (by decide)]
  have hst : (s.wr (Reg.TRG_THR_SWITCH + 4) hi).rd Reg.TRG_THR_STATUS = s.rd Reg.TRG_THR_STATUS := rd_wr_ne _ _ (by decide)
  have hcfg : (s.wr (Reg.TRG_THR_SWITCH + 4) hi).rd Reg.ING_BLOCK_CFG = s.rd Reg.ING_BLOCK_CFG := rd_wr_ne _ _ (by decide)
  rw [writeThrSwitch, hrd]
  refine congrArg Prod.fst (armThr_of_ready ((rdB_congr hst 1).trans harmed) fun n hn => ?_)
  rw [blockOf_congr hcfg]
  exact hlate n hn

theorem armedThr_busy (s : State) (b : Nat) : (s.armedThr b).rdB Reg.TRG_THR_STATUS 2 = false := by
  have hword : (s.armedThr b).rdB Reg.TRG_THR_STATUS 2 =
      ((s.wrB Reg.TRG_THR_STATUS 1 true).wrB Reg.TRG_THR_STATUS 2 false).rdB Reg.TRG_THR_STATUS 2 := rdB_congr (rd_withTrg ..) 2
  rw [hword, rdB_wrB_self _ _ (by decide)]

/-- The words of stream `v` change places. -/
def swapThrOf (s t : State) (v : Nat) : State :=
  (t.wr (Reg.TRG_VS_THR v) (s.rd (Reg.TRG_VS_ACT v))).wr (Reg.TRG_VS_ACT v) (s.rd (Reg.TRG_VS_THR v))

/-- The active and the staged threshold of a stream. -/
def thrWords (s : State) (v : Nat) : Word × Word := (s.rd (Reg.TRG_VS_ACT v), s.rd (Reg.TRG_VS_THR v))

theorem swapThrOf_self (s t : State) (v : Nat) : (swapThrOf s t v).thrWords v = (s.rd (Reg.TRG_VS_THR v), s.rd (Reg.TRG_VS_ACT v)) := by
  have hne : Reg.TRG_VS_THR v ≠ Reg.TRG_VS_ACT v := by
    unfold Reg.TRG_VS_THR Reg.TRG_VS_ACT
    omega
  exact Prod.ext (rd_wr_self ..) ((rd_wr_ne _ _ hne).trans (rd_wr_self ..))

theorem swapThrOf_rd_ne (s t : State) {v k : Nat} (h1 : k ≠ Reg.TRG_VS_THR v) (h2 : k ≠ Reg.TRG_VS_ACT v) : (swapThrOf s t v).rd k = t.rd k :=
  (rd_wr_ne _ _ h2).trans (rd_wr_ne _ _ h1)

theorem swapThrOf_ne (s t : State) {v w : Nat} (hv : v < 256) (hw : w < 256) (h : w ≠ v) : (swapThrOf s t v).thrWords w = t.thrWords w := by
  have hthr : Reg.TRG_VS_THR w = 0x0004_0C00 + 4 * w := rfl
  have hact : Reg.TRG_VS_ACT w = 0x0004_1000 + 4 * w := rfl
  have hthr' : Reg.TRG_VS_THR v = 0x0004_0C00 + 4 * v := rfl
  have hact' : Reg.TRG_VS_ACT v = 0x0004_1000 + 4 * v := rfl
  exact Prod.ext (swapThrOf_rd_ne s t (by omega) (by omega)) (swapThrOf_rd_ne s t (by omega) (by omega))

theorem foldl_swapThrOf (s : State) {n : Nat} (hn : n ≤ 256) :
    (∀ w < 256, ((List.range n).foldl (swapThrOf s) s).thrWords w =
      if w < n then (s.rd (Reg.TRG_VS_THR w), s.rd (Reg.TRG_VS_ACT w)) else s.thrWords w) ∧
      ((List.range n).foldl (swapThrOf s) s).rd Reg.TRG_THR_STATUS = s.rd Reg.TRG_THR_STATUS := by
  induction n with
  | zero => exact ⟨fun w _ => rfl, rfl⟩
  | succ n ih =>
    obtain ⟨hwords, hst⟩ := ih (by omega)
    rw [List.range_succ, List.foldl_append, List.foldl_cons, List.foldl_nil]
    refine ⟨fun w hw => ?_, (swapThrOf_rd_ne s _ ?_ ?_).trans hst⟩
    · by_cases hwn : w = n
      · rw [hwn, swapThrOf_self s _ _, if_pos (by omega)]
      · rw [swapThrOf_ne s _ (by omega) hw hwn, hwords w hw]
        exact if_congr (by omega) rfl rfl
    · unfold Reg.TRG_THR_STATUS Reg.TRG_VS_THR
      omega
    · unfold Reg.TRG_THR_STATUS Reg.TRG_VS_ACT
      omega

theorem swapThr_results (s : State) : (∀ w < 256, s.swapThr.thrWords w = (s.rd (Reg.TRG_VS_THR w), s.rd (Reg.TRG_VS_ACT w))) ∧
    s.swapThr.rd Reg.TRG_THR_STATUS = s.rd Reg.TRG_THR_STATUS := by
  obtain ⟨hwords, hst⟩ := foldl_swapThrOf s (Nat.le_refl 256)
  exact ⟨fun w hw => (hwords w hw).trans (if_pos hw), hst⟩

/-- The status word of a switch that has taken place. -/
def thrSwitched (s : State) : State := (s.swapThr.wrB Reg.TRG_THR_STATUS 1 false).countF Reg.TRG_THR_STATUS 16 16

theorem freeThr_status (s : State) {i : Nat} (hi : i < 32) (h : i ≠ 2) : s.freeThr.rdB Reg.TRG_THR_STATUS i = s.rdB Reg.TRG_THR_STATUS i := by
  unfold freeThr
  split
  · split
    · exact (rdB_wrB_ne _ _ hi fun _ => h).trans rfl
    · rfl
  · rfl

theorem freeThr_switches (s : State) : s.freeThr.rdF Reg.TRG_THR_STATUS 16 16 = s.rdF Reg.TRG_THR_STATUS 16 16 := by
  unfold freeThr
  split
  · split
    · exact (rdF_wrB_ne _ _ (by decide) (by decide)).trans rfl
    · rfl
  · rfl

theorem freeThr_rd (s : State) {k : Nat} (h : k ≠ Reg.TRG_THR_STATUS) : s.freeThr.rd k = s.rd k := by
  unfold freeThr
  split
  · split
    · exact (wrB_rd_ne _ _ _ h).trans rfl
    · rfl
  · rfl

theorem activateThr_results (harmed : s.rdB Reg.TRG_THR_STATUS 1 = true)
    (hreached : ∃ v < 256, s.trg.thrArm * s.blockLen ≤ (s.stream v).markIdx) :
    s.activateThr.rdB Reg.TRG_THR_STATUS 1 = false ∧
      s.activateThr.rdF Reg.TRG_THR_STATUS 16 16 = min (s.rdF Reg.TRG_THR_STATUS 16 16 + 1) 65535 ∧
      ∀ v < 256, s.activateThr.rd (Reg.TRG_VS_ACT v) = s.rd (Reg.TRG_VS_THR v) ∧ s.activateThr.rd (Reg.TRG_VS_THR v) = s.rd (Reg.TRG_VS_ACT v) := by
  obtain ⟨v, hv, hle⟩ := hreached
  have hany : (List.range 256).any (fun v => decide (s.trg.thrArm * s.blockLen ≤ (s.stream v).markIdx)) = true :=
    List.any_eq_true.mpr ⟨v, List.mem_range.mpr hv, decide_eq_true hle⟩
  have hcond : (s.rdB Reg.TRG_THR_STATUS 1 &&
      (List.range 256).any (fun v => decide (s.trg.thrArm * s.blockLen ≤ (s.stream v).markIdx))) = true := by rw [harmed, hany]; rfl
  obtain ⟨u, hu, hrd⟩ : ∃ u : State, s.activateThr = u.freeThr ∧ ∀ k, u.rd k = s.thrSwitched.rd k := 
    ⟨{ s.thrSwitched with trg := { s.thrSwitched.trg with thrFrom := some s.trg.thrArm } }, if_pos hcond, rd_withTrg s.thrSwitched _⟩
  obtain ⟨hwords, hst⟩ := swapThr_results s
  have hrdne {k : Nat} (h : k ≠ Reg.TRG_THR_STATUS) : s.thrSwitched.rd k = s.swapThr.rd k := (wrF_rd_ne _ _ _ _ h).trans (wrB_rd_ne _ _ _ h)
  rw [hu]
  refine ⟨?_, ?_, fun v hv => ?_⟩
  · rw [freeThr_status u (by decide) (by decide), rdB_congr (hrd _)]
    exact (rdB_wrF_ne _ (by decide) (by decide)).trans (rdB_wrB_self _ _ (by decide) _)
  · rw [freeThr_switches, rdF_congr (hrd _)]
    have hcount : (s.swapThr.wrB Reg.TRG_THR_STATUS 1 false).rdF Reg.TRG_THR_STATUS 16 16 = s.rdF Reg.TRG_THR_STATUS 16 16 :=
      (rdF_wrB_ne _ _ (by decide) (by decide)).trans (rdF_congr hst ..)
    rw [thrSwitched, countF, rdF_wrF_self _ _ _ _ _ (by decide), hcount]
    omega
  · have h := hwords v hv
    rw [freeThr_rd _ (by unfold Reg.TRG_VS_ACT Reg.TRG_THR_STATUS; omega), freeThr_rd _ (by unfold Reg.TRG_VS_THR Reg.TRG_THR_STATUS; omega),
      hrd, hrd, hrdne (by unfold Reg.TRG_VS_ACT Reg.TRG_THR_STATUS; omega), hrdne (by unfold Reg.TRG_VS_THR Reg.TRG_THR_STATUS; omega)]
    exact ⟨congrArg Prod.fst h, congrArg Prod.snd h⟩

/-! A firing (R236). -/

/-- What a class's evaluation reads of its past, and the count of its firings, which a firing's consequences leave. -/
def evaluated (c : Nat) (s : State) : List SlotEvent × Word := ((s.tcls c).recent, s.rd (Reg.cls c Reg.TRG_CLASS_FIRED))

theorem evaluated_wr {c k : Nat} (h : k ≠ Reg.cls c Reg.TRG_CLASS_FIRED) (s : State) (v : Word) : evaluated c (s.wr k v) = evaluated c s :=
  Prod.ext rfl (rd_wr_ne _ _ h.symm)

theorem evaluated_wr_of_lt {c k : Nat} (h : k < 0x0200_0000) (s : State) (v : Word) : evaluated c (s.wr k v) = evaluated c s :=
  evaluated_wr (by unfold Reg.cls; omega) s v

theorem evaluated_setTcls {c d : Nat} {x : TClass} (h : x.recent = (s.tcls d).recent) : evaluated c (s.setTcls d x) = evaluated c s := by
  refine Prod.ext ?_ rfl
  change ((s.setTcls d x).tcls c).recent = (s.tcls c).recent
  rw [tcls_setTcls]
  split
  · next heq => rw [heq, h]
  · rfl

/-- A class's dead time is counted beside its firings. -/
theorem evaluated_count64 {c d k : Nat} (h : k = Reg.TRG_CLASS_DEAD_TOTAL ∨ ∃ j ≤ 4, k = Reg.TRG_CLASS_DEAD j) (s : State) (n : Nat) :
    evaluated c (s.count64 (Reg.cls d k) n) = evaluated c s := by
  rcases h with rfl | ⟨j, hj, rfl⟩ <;> refine (evaluated_wr ?_ ..).trans (evaluated_wr ?_ ..) <;>
    unfold Reg.cls Reg.TRG_CLASS_FIRED <;> simp only [Reg.TRG_CLASS_DEAD_TOTAL, Reg.TRG_CLASS_DEAD] <;> omega

theorem evaluated_charge {k : Nat} (hk : k ≤ 4) (c : Nat) (s : State) (d : Nat) (a b : Int) : evaluated c (s.charge d k a b) = evaluated c s := by
  have step (t : State) (p : Prop) [Decidable p] (key n : Nat) (x : TClass) (hn : evaluated c (t.count64 key n) = evaluated c t)
      (hf : x.recent = (t.tcls d).recent) : evaluated c (if p then (t.count64 key n).setTcls d x else t) = evaluated c t := by
    split
    · exact (evaluated_setTcls (s := t.count64 key n) hf).trans hn
    · rfl
  unfold charge
  refine (step _ _ _ _ _ ?total ?_).trans (step _ _ _ _ _ ?cause ?_)
  case total => exact evaluated_count64 (.inl rfl) ..
  case cause => exact evaluated_count64 (.inr ⟨k, hk, rfl⟩) ..
  all_goals rfl

/-- A class above writes nothing of the class. -/
theorem apart_evaluated {c d : Nat} (h : c < d) : Apart (evaluated c) d 4 where
  cause t n := evaluated_count64 (.inr ⟨4, Nat.le_refl 4, rfl⟩) ..
  total t n := evaluated_count64 (.inl rfl) ..
  update t x _ := by
    refine Prod.ext ?_ rfl
    change ((t.setTcls d x).tcls c).recent = (t.tcls c).recent
    rw [tcls_setTcls, if_neg (by omega)]

theorem evaluated_closeEvent (c : Nat) (s : State) (d : Nat) : evaluated c (s.closeEvent d) = evaluated c s := by
  unfold closeEvent
  split
  · rfl
  · exact (evaluated_wr_of_lt (by decide) ..).trans (evaluated_wr_of_lt (by decide) ..)

theorem evaluated_openEvent (c : Nat) (s : State) (e : CapEvent) : evaluated c (s.openEvent e).1 = evaluated c s := by
  unfold openEvent
  split
  · exact (evaluated_charge (by decide) ..).trans (evaluated_wr_of_lt (by decide) ..)
  · rfl

theorem evaluated_captureRequest (c : Nat) (s : State) (f : Firing) : evaluated c (s.captureRequest f).1 = evaluated c s := by
  have hclose (e : CapEvent) : evaluated c ((s.closeEvent f.cls).openEvent e).1 = evaluated c s :=
    (evaluated_openEvent ..).trans (evaluated_closeEvent ..)
  unfold captureRequest
  extract_lets
  split
  · rfl
  split
  · exact evaluated_openEvent ..
  · extract_lets
    split_ifs
    · exact evaluated_wr_of_lt (by decide) ..
    · exact evaluated_closeEvent ..
    · exact hclose _
    · exact hclose _

theorem evaluated_noteFiring (c : Nat) (s : State) (d : Nat) (n : Int) : evaluated c (s.noteFiring d n) = evaluated c s := by
  unfold noteFiring
  split <;> rfl

theorem evaluated_countOutput {o : Nat} (ho : o < 16) (c : Nat) (s : State) (lo n : Nat) :
    evaluated c (s.countF (Reg.TRG_OUT_STAT o) lo n) = evaluated c s :=
  evaluated_wr_of_lt (by unfold Reg.TRG_OUT_STAT; omega) ..

theorem evaluated_startPulse {o : Nat} (ho : o < 16) (c : Nat) (s : State) : evaluated c (s.startPulse o) = evaluated c s := by
  simp only [startPulse]
  split
  · exact evaluated_countOutput ho ..
  · rfl

theorem evaluated_driveOutputs (c : Nat) (s : State) (d : Nat) (t : Int) : evaluated c (s.driveOutputs d t).1 = evaluated c s := by
  unfold driveOutputs
  split
  · rfl
  · refine foldl_leaves (fun r : State × Bool => evaluated c r.1) _ _ (s, false) fun r o ho => ?_
    have ho : o < 16 := List.mem_range.mp (List.mem_filter.mp ho).1
    simp only [driveOutput]
    split_ifs
    · exact evaluated_startPulse ho ..
    · exact (evaluated_startPulse ho ..).trans (evaluated_countOutput ho ..)
    · exact evaluated_countOutput ho ..
    · rfl

theorem evaluated_produce (c : Nat) (s : State) (takes : Sub → Bool) (r : List Byte) : evaluated c (s.produce takes r) = evaluated c s := by
  refine foldl_leaves (evaluated c) _ _ s fun t n _ => ?_
  dsimp only
  split <;> rfl

theorem evaluated_enqueueLaunch {p : Nat} (hp : p < 2) (c : Nat) (s : State) (l : Launch) : evaluated c (s.enqueueLaunch p l) = evaluated c s := by
  unfold enqueueLaunch
  split_ifs
  · exact evaluated_wr_of_lt (by unfold Reg.TIM_LAUNCH_DROPPED; omega) ..
  · exact evaluated_wr_of_lt (by unfold Reg.TIM_LAUNCH_QFULL; omega) ..
  · have hk : Reg.TIM_LAUNCH_STAT p < 0x0200_0000 := by unfold Reg.TIM_LAUNCH_STAT; omega
    exact (evaluated_wr_of_lt hk ..).trans (evaluated_wr_of_lt hk ..)

theorem evaluated_notify (c : Nat) (s : State) (f : Firing) (seq : Nat) (late : Bool) (event : BitVec 64) :
    evaluated c (s.notify f seq late event) = evaluated c s := by
  refine (foldl_leaves (evaluated c) _ _ _ fun t p hp => ?_).trans ?_
  · have hp2 : p < 2 := by
      simp only [List.mem_cons, List.not_mem_nil, or_false] at hp
      omega
    split
    · exact evaluated_enqueueLaunch hp2 ..
    · rfl
  · split
    · exact evaluated_produce ..
    · rfl

theorem evaluated_accept (s : State) (f : Firing) : evaluated f.cls (s.accept f) = evaluated f.cls s := by
  unfold accept
  extract_lets cfg s1 seq _ s2 o r
  have h1 : evaluated f.cls s1 = evaluated f.cls s := evaluated_wr (by unfold Reg.cls Reg.TRG_CLASS_ACCEPTED Reg.TRG_CLASS_FIRED; omega) ..
  have ho : evaluated f.cls o.1 = evaluated f.cls s := ((evaluated_driveOutputs ..).trans (evaluated_noteFiring ..)).trans h1
  have hr : evaluated f.cls r.1 = evaluated f.cls s := by
    unfold r
    split
    · exact (evaluated_captureRequest ..).trans ho
    · exact ho
  split_ifs
  · exact (evaluated_notify ..).trans hr
  · exact (evaluated_notify ..).trans hr
  · exact hr

theorem presented_evaluated (s : State) (f : Firing) (mark : Int) :
    evaluated f.cls (s.presented f mark) = ((s.tcls f.cls).recent, satInc (s.rd (Reg.cls f.cls Reg.TRG_CLASS_FIRED))) := by
  refine (pushEvent_cls_leaves (fun d hd => apart_evaluated hd) ..).trans (Prod.ext ?_ (count_rd_self ..))
  change ((s.setTcls f.cls _).tcls f.cls).recent = _
  rw [tcls_setTcls, if_pos rfl]

/-- A firing is counted once and leaves the events that the class still sees. -/
theorem fireClass_evaluated (s : State) (f : Firing) (mark : Int) :
    evaluated f.cls (s.fireClass f mark) = ((s.tcls f.cls).recent, satInc (s.rd (Reg.cls f.cls Reg.TRG_CLASS_FIRED))) := by
  rw [fireClass_eq]
  split
  · rw [evaluated_accept, presented_evaluated]
  · exact presented_evaluated ..

/-! The evaluation of one event (R233). -/

/-- The truth table's index of one event's slot. -/
theorem lutIndex_one {e : SlotEvent} (h : e.slot < 8) :
    (List.range 8).foldl (fun n i => if [e].any (fun e => decide (e.slot = i)) then n + 2 ^ i else n) 0 = 2 ^ e.slot := by
  simp only [List.any_cons, List.any_nil, Bool.or_false, decide_eq_true_eq]
  generalize e.slot = n at h
  interval_cases n <;> rfl

theorem instant_of_zero {c : Nat} {e : SlotEvent} (hslot : e.slot < 8) (h : s.lutBit c (2 ^ e.slot) = false) (mark : Int) (cycle : Nat)
    (again : Bool) : s.instant c [e] [e] mark cycle again = s := by
  unfold instant
  dsimp only
  rw [lutIndex_one hslot, h]
  rfl

/-- The table's 1 fires the class once. -/
theorem instant_of_one {c : Nat} {e : SlotEvent} (hslot : e.slot < 8) (h : s.lutBit c (2 ^ e.slot) = true) (mark : Int) (cycle : Nat) :
    ∃ f : Firing, f.cls = c ∧ s.instant c [e] [e] mark cycle false = s.fireClass f mark := by
  have hfilter (p : SlotEvent → Bool) : [e].filter p = [] ∨ [e].filter p = [e] := by
    cases hp : p e with
    | false => exact .inl (by simp [hp])
    | true => exact .inr (by simp [hp])
  unfold instant
  dsimp only
  rw [lutIndex_one hslot, h]
  rcases hfilter fun x => (fieldNat (s.clsRd c Reg.TRG_CLASS_CFG) 0 8).testBit x.slot with hf | hf <;> rw [hf] <;> exact ⟨_, rfl, rfl⟩

theorem fineSub_self (a : Int) : fineSub a a = 0 := by
  unfold fineSub
  rw [Int.sub_self]
  rfl

/-- An event lies within the window that ends with it. -/
theorem event_in_window (s : State) (c : Nat) (a : Int) : fineLe a (a - s.clsWin c * finePerNs) = false := by
  have hw : 1 ≤ s.clsWin c ∧ s.clsWin c ≤ 65535 := by
    unfold clsWin
    omega
  unfold fineLe fineSub finePerNs
  refine decide_eq_false ?_
  rw [Int.bmod_eq_of_le] <;> omega

/-- A class with one waiting event and none before it. -/
theorem evaluate_one {c : Nat} {e : SlotEvent} (hctx : s.ctx = ctxRunning) (hen : s.clsEn c = true) (hwait : (s.tcls c).waiting = [e])
    (hrecent : (s.tcls c).recent = []) (hlast : (s.tcls c).lastFire = none) :
    (s.isSlow c = false → e.cycle ≤ s.lineCycle → s.evaluate c false =
      (s.setTcls c { s.tcls c with waiting := [], recent := [e] }).instant c [e] [e] e.cycle e.cycle false) ∧
    (s.isSlow c = true → s.reached 64 c e.time = true → s.evaluate c true =
      (s.setTcls c { s.tcls c with waiting := [], recent := [e] }).instant c [e] [e] e.time s.lineCycle false) := by
  refine ⟨fun hfast hcyc => ?_, fun hslow hreached => ?_⟩
  · have hw : 1 ≤ s.clsWin c := by
      unfold clsWin
      omega
    unfold evaluate
    rw [hctx, hen, hfast, if_neg (by decide), if_neg (by decide)]
    unfold fastEvaluate
    dsimp only
    rw [hwait, hrecent, hlast]
    dsimp only [List.foldl_nil]
    refine (if_neg (Nat.not_lt.mpr hcyc)).trans ?_
    simp only [List.nil_append, List.filter_cons, List.filter_nil, decide_true, if_true, Bool.not_true, Bool.false_eq_true, if_false,
      show e.cycle < e.cycle + s.clsWin c by omega]
  · unfold evaluate
    rw [hctx, hen, hslow, if_neg (by decide), if_pos rfl]
    unfold slowEvaluate
    dsimp only
    rw [hwait, hrecent, hlast]
    dsimp only [earliest, List.foldl_cons, List.foldl_nil]
    rw [hreached, if_neg (by decide)]
    simp only [List.nil_append, List.filter_cons, List.filter_nil, fineSub_self, event_in_window, decide_true, if_true, Bool.not_true,
      Bool.not_false, Bool.false_eq_true, if_false]

/-- The class has seen the event, and none waits. -/
def seenOne (s : State) (c : Nat) (e : SlotEvent) : State := s.setTcls c { s.tcls c with waiting := [], recent := [e] }

/-- What one event does to a class whose truth table is 1, or 0, for it. -/
theorem seenOne_instant {c : Nat} (hc : c < 64) {e : SlotEvent} (hslot : e.slot < 8) (mark : Int) (cycle : Nat) :
    (s.lutBit c (2 ^ e.slot) = true →
      ((s.seenOne c e).instant c [e] [e] mark cycle false).rd (Reg.cls c Reg.TRG_CLASS_FIRED) = satInc (s.rd (Reg.cls c Reg.TRG_CLASS_FIRED)) ∧
      (((s.seenOne c e).instant c [e] [e] mark cycle false).tcls c).firings = (s.tcls c).firings + 1 ∧
      (((s.seenOne c e).instant c [e] [e] mark cycle false).tcls c).recent = [e]) ∧
    (s.lutBit c (2 ^ e.slot) = false → (s.seenOne c e).instant c [e] [e] mark cycle false = s.seenOne c e) := by
  have hself : (s.seenOne c e).tcls c = { s.tcls c with waiting := [], recent := [e] } := (tcls_setTcls ..).trans (if_pos rfl)
  refine ⟨fun h => ?_, fun h => instant_of_zero (s := s.seenOne c e) hslot h mark cycle false⟩
  obtain ⟨f, rfl, hf⟩ := instant_of_one (s := s.seenOne c e) hslot h mark cycle
  obtain ⟨hrecent, hfired⟩ := Prod.ext_iff.mp (fireClass_evaluated (s.seenOne f.cls e) f mark)
  have hcount := (acceptedFirings.1 (s.seenOne f.cls e) f mark hc).1
  rw [hf]
  rw [hself] at hrecent hcount
  exact ⟨hfired, hcount, hrecent⟩

/-- A class's evaluation of its one waiting event. -/
theorem evaluate_results {c : Fin 64} {e : SlotEvent} {i : Instr} (hctx : s.ctx = ctxRunning) (hen : s.clsEn c = true)
    (hwait : (s.tcls c).waiting = [e]) (hrecent : (s.tcls c).recent = []) (hlast : (s.tcls c).lastFire = none)
    (hi : (i = .fastClassEvaluate c ∧ s.isSlow c = false ∧ e.cycle ≤ s.lineCycle) ∨
      (i = .slowClassEvaluate c ∧ s.isSlow c = true ∧ s.reached 64 c e.time = true)) :
    ∃ mark cycle, exec i s = .next ((s.seenOne c e).instant c [e] [e] mark cycle false) := by
  obtain ⟨hfast, hslow⟩ := evaluate_one hctx hen hwait hrecent hlast
  rcases hi with ⟨rfl, hkind, hcyc⟩ | ⟨rfl, hkind, hreached⟩
  · exact ⟨_, _, congrArg Host.Outcome.next (hfast hkind hcyc)⟩
  · exact ⟨_, _, congrArg Host.Outcome.next (hslow hkind hreached)⟩

/-- A class waits for the cycle of its event. -/
theorem fastEvaluate_early {c : Nat} {e : SlotEvent} (hwait : (s.tcls c).waiting = [e]) (h : s.lineCycle < e.cycle) : s.evaluate c false = s := by
  unfold evaluate
  split
  · rfl
  · rw [if_neg Bool.false_ne_true]
    unfold fastEvaluate
    dsimp only
    rw [hwait]
    exact if_pos h

theorem enableClass_results {c : Nat} (h : s.clsEn c = false) : (s.enableClass c).clsEn c = true ∧ ((s.enableClass c).tcls c).waiting = [] ∧
    ((s.enableClass c).tcls c).lastFire = none ∧
    ((s.enableClass c).tcls c).begin' = (if s.contextRuns then some (s.nextBoundary s.refChannel) else none) := by
  have hexec : s.enableClass c = (s.wrB (Reg.cls c Reg.TRG_CLASS_CFG) 31 true).setTcls c
      { s.tcls c with begin' := if s.contextRuns then some (s.nextBoundary s.refChannel) else none,
                      waiting := [], recent := [], lastFire := none } := if_neg (ne_true_of_eq_false h)
  have hen : (s.wrB (Reg.cls c Reg.TRG_CLASS_CFG) 31 true).clsEn c = true := rdB_wrB_self _ _ (by decide) _
  generalize s.wrB (Reg.cls c Reg.TRG_CLASS_CFG) 31 true = u at hexec hen
  rw [hexec, tcls_setTcls, if_pos rfl]
  exact ⟨hen, rfl, rfl, rfl⟩

/-! Output pulses (R238). -/

theorem tout_setTout_self (s : State) (o : Nat) (x : TOut) : (s.setTout o x).tout o = x := SMap.get_set_self ..

theorem drivePin_on (s : State) (o : Nat) : s.drivePin o true = s.emit (.trig o (!s.rdB (Reg.TRG_OUT_CFG o) 30)) := by
  rw [drivePin, Bool.true_bne]

theorem startTimed_of_due {o : Nat} {p : Int} {ps : List Int} (hp : (s.tout o).pulses = p :: ps) (hlow : (s.tout o).high = false)
    (hdue : fineLe (firstDue p ps) (256 * s.timeline.toNat) = true) : ∃ t, s.startTimed o = t ∧
      t = { s with trg := t.trg, out := s.out ++ [.trig o (!s.rdB (Reg.TRG_OUT_CFG o) 30)] } ∧
      t.tout o = { high := true, stop := s.lineCycle + max 2 (s.rdF (Reg.TRG_OUT_CFG o) 0 16), pulses := (p :: ps).erase (firstDue p ps) } := by
  have hself := tout_setTout_self s o { s.tout o with pulses := (p :: ps).erase (firstDue p ps) }
  have hexec : s.startTimed o = (s.setTout o { s.tout o with pulses := (p :: ps).erase (firstDue p ps) }).startPulse o := by
    unfold startTimed
    rw [hp]
    exact if_pos hdue
  rw [startPulse, hself] at hexec
  dsimp only at hexec
  rw [hlow, if_neg (by decide), drivePin_on] at hexec
  exact ⟨_, hexec, rfl, tout_setTout_self ..⟩

theorem startTimed_early {o : Nat} {p : Int} {ps : List Int} (hp : (s.tout o).pulses = p :: ps)
    (hdue : fineLe (firstDue p ps) (256 * s.timeline.toNat) = false) : s.startTimed o = s := by
  unfold startTimed
  rw [hp]
  exact if_neg (ne_true_of_eq_false hdue)

theorem endPulse_due {o : Nat} (hhigh : (s.tout o).high = true) (h : (s.tout o).stop ≤ s.lineCycle) : s.endPulse o =
    (s.setTout o { s.tout o with high := false }).emit (.trig o (s.rdB (Reg.TRG_OUT_CFG o) 30)) := by
  refine (if_pos (by rw [hhigh, Bool.true_and]; exact decide_eq_true h)).trans ?_
  rw [drivePin, Bool.false_bne]
  rfl

theorem endPulse_early {o : Nat} (h : s.lineCycle < (s.tout o).stop) : s.endPulse o = s :=
  if_neg (by simp [Nat.not_le.mpr h])

end State

open State in
/-- Settles O38: what follows a verdict and a firing reaches neither the stream's mark nor the class's own count and events. -/
theorem verdictAndCombinerResults : Obligations.VerdictAndCombinerResults := by
  refine ⟨fun s => ⟨fun v flit bad hctx => ⟨fun h => ?inOrder, fun h => ?behind⟩, fun m hi ha harmed => ?arm,
    fun harmed hreached => ⟨_, rfl, activateThr_results harmed hreached⟩⟩, fun s c => ⟨fun h => ⟨_, rfl, enableClass_results h⟩,
    fun i e hctx hen hwait hrecent hlast hslot hi => ?event, fun e hwait h => congrArg Host.Outcome.next (fastEvaluate_early hwait h),
    fun o p ps hp => ⟨fun hlow hdue => ?start, fun hdue => congrArg Host.Outcome.next (startTimed_early hp hdue)⟩,
    fun o hhigh => ⟨fun h => congrArg Host.Outcome.next (endPulse_due hhigh h), fun h => congrArg Host.Outcome.next (endPulse_early h)⟩⟩⟩
  case inOrder => exact ⟨_, congrArg Host.Outcome.next (if_pos hctx), verdict_in_order v.isLt h bad⟩
  case behind => exact congrArg Host.Outcome.next ((if_pos hctx).trans (verdict_behind h bad))
  case arm =>
    intro b hlate
    refine ⟨_, congrArg Host.Outcome.next ((exec_atReg ha _).trans (writeThrSwitch_of_ready harmed hlate)), ?_⟩
    exact ⟨armedThr_armed .., armedThr_busy .., rfl⟩
  case event =>
    obtain ⟨mark, cycle, hexec⟩ := evaluate_results hctx hen hwait hrecent hlast hi
    obtain ⟨hone, hzero⟩ := seenOne_instant (s := s) c.isLt hslot mark cycle
    exact ⟨fun h => ⟨_, hexec, hone h⟩, fun h => hexec.trans (congrArg Host.Outcome.next (hzero h))⟩
  case start =>
    obtain ⟨t, hexec, hframe, hout⟩ := startTimed_of_due hp hlow hdue
    exact ⟨t, congrArg Host.Outcome.next hexec, hframe, hout⟩

end Sys2Proof.Machine
end

section
/-!
PROOF. Captures: events close and are copied, refused or wait; records and the read pointer (R246 to R250, R398).
-/

namespace Sys2Proof.Machine
open Sys2Proof.Claims

namespace State
variable {s t : State}

/-! What the controllers do leaves the event store's registers, and the loader's. -/

section QuietWords
variable {k : Nat}

/-- A word that neither an error nor an access to memory writes: the event store's pointers and counters, below the queue's, and the
loader's ARY_LOAD_STATUS and ARY_IMAGE_STAMP. -/
def QuietWord (k : Nat) : Prop := (0x0005_0040 ≤ k ∧ k < 0x0005_0060) ∨ (0x0008_0100 ≤ k ∧ k < 0x0008_0108)

theorem quietWord_ne {n : Nat} (hk : QuietWord k) (h : (n < 0x0005_0040 ∨ 0x0005_0060 ≤ n) ∧ (n < 0x0008_0100 ∨ 0x0008_0108 ≤ n)) : k ≠ n := by
  unfold QuietWord at hk
  omega

theorem uncorrectable_quiet (hk : QuietWord k) (s : State) (src : Byte) (loc : DWord) (withheld lost : Bool) :
    (s.uncorrectable src loc withheld lost).rd k = s.rd k := by
  have hhalt : k ∉ haltRegs := fun h => by
    simp only [haltRegs, List.mem_cons, List.not_mem_nil, or_false] at h
    rcases h with h | h | h | h <;> exact quietWord_ne hk (by decide) h
  have hring (r : Nat) (hr : r < 16) : k ≠ Reg.HQ_RING_STAT r := quietWord_ne hk (by unfold Reg.HQ_RING_STAT; omega)
  exact uncorrectable_rd s src loc withheld lost (by unfold QuietWord at hk; omega) hhalt hring (quietWord_ne hk (by decide))
    (quietWord_ne hk (by decide)) (quietWord_ne hk (by decide))

theorem logCorrected_quiet (hk : QuietWord k) (s : State) (src : Byte) (loc : DWord) : (s.logCorrected src loc).rd k = s.rd k := by
  have hk' : k < 0x0240_0000 := by
    unfold QuietWord at hk
    omega
  have h1 : ((s.count Reg.ERR_CE_TOTAL).wrB Reg.ERR_STATUS 27 true).rd k = s.rd k :=
    (wrB_rd_ne _ _ _ (quietWord_ne hk (by decide))).trans (count_rd_ne _ _ (quietWord_ne hk (by decide)))
  unfold logCorrected
  extract_lets ms s1 _ s2
  have h2 : s2.rd k = s.rd k := by
    unfold s2
    split
    · exact h1
    · exact (addEntry_rd _ _ _ _ _ _ _ hk' (quietWord_ne hk (by decide)) (quietWord_ne hk (by decide))).trans h1
  split
  · exact (irq_rd _ _ hk').trans h2
  · exact h2

theorem countFixed_quiet (hk : QuietWord k) (s : State) (l : Nat) (f : Nat × Nat) : (s.countFixed l f).rd k = s.rd k := by
  unfold countFixed
  dsimp only
  split
  · exact (logCorrected_quiet hk ..).trans (count_rd_ne _ _ (quietWord_ne hk (by unfold Reg.MEM_CE_HBM; omega)))
  · exact (logCorrected_quiet hk ..).trans (count_rd_ne _ _ (quietWord_ne hk (by unfold Reg.MEM_CE_DDR; omega)))

theorem countUe_quiet (hk : QuietWord k) (s : State) (l : Nat) : (s.countUe l).rd k = s.rd k := by
  unfold countUe
  split <;> exact wrF_rd_ne _ _ _ _ (quietWord_ne hk (by decide))

theorem readLine_quiet (hk : QuietWord k) (s : State) (l : Nat) (bus : BitVec 2048) (withheld : Bool) :
    (s.readLine l bus withheld).1.rd k = s.rd k := by
  have hfixed (fs : List (Nat × Nat)) : (fs.foldl (fun t f => t.countFixed l f) s).rd k = s.rd k :=
    foldl_leaves (fun t : State => t.rd k) _ _ s fun t f _ => countFixed_quiet hk t l f
  unfold readLine
  extract_lets x src c s1
  split
  · exact uncorrectable_quiet hk ..
  split
  · exact (uncorrectable_quiet hk ..).trans ((countUe_quiet hk ..).trans (hfixed _))
  · split
    · exact hfixed _
    split
    · exact hfixed _
    split
    · exact hfixed _
    · exact (uncorrectable_quiet hk ..).trans ((count_rd_ne _ _ (quietWord_ne hk (by decide))).trans (hfixed _))

theorem writeLine_quiet (hk : QuietWord k) (s : State) (l : Nat) (data : BitVec 2048) : (s.writeLine l data).rd k = s.rd k := by
  unfold writeLine
  extract_lets c v region m m1 s1 s2
  have h2 : s2.rd k = s.rd k := wr64_rd_ne _ _ (quietWord_ne hk (by decide)) (quietWord_ne hk (by decide))
  split
  · exact (uncorrectable_quiet hk ..).trans ((wrB_rd_ne _ _ _ (quietWord_ne hk (by decide))).trans h2)
  · exact h2

theorem writePart_quiet (hk : QuietWord k) (s : State) (l lo : Nat) (bs : List Byte) : (s.writePart l lo bs).rd k = s.rd k := by
  have hread := readLine_quiet hk s l 0 false
  unfold writePart
  split
  · exact writeLine_quiet hk ..
  · split
    · next heq =>
      rw [heq] at hread
      exact (writeLine_quiet hk ..).trans hread
    · next heq =>
      rw [heq] at hread
      exact hread

theorem writeBytes_quiet (hk : QuietWord k) (s : State) (dpa : Nat) (bs : List Byte) : (s.writeBytes dpa bs).rd k = s.rd k := by
  unfold writeBytes
  split
  · rfl
  · exact foldl_leaves (fun t : State => t.rd k) _ _ s fun _ _ _ => writePart_quiet hk ..

theorem readBytes_quiet (hk : QuietWord k) (s : State) (dpa len : Nat) (withheld : Bool) : (s.readBytes dpa len withheld).1.rd k = s.rd k := by
  unfold readBytes
  split
  · rfl
  · exact foldl_leaves (fun a : State × List Byte => a.1.rd k) _ _ (s, []) fun _ _ _ => readLine_quiet hk ..

theorem serveMem_quiet (hk : QuietWord k) (s : State) (c : Nat) : (s.serveMem c).rd k = s.rd k := by
  unfold serveMem
  extract_lets q
  split
  · rfl
  · extract_lets _ s1
    split
    · exact writeBytes_quiet hk ..
    · exact readBytes_quiet hk ..

theorem drainFor_quiet (hk : QuietWord k) (s : State) (dpa len : Nat) : (s.drainFor dpa len).rd k = s.rd k :=
  foldl_leaves (fun t : State => t.rd k) _ _ s fun t _ _ =>
    foldl_leaves (fun t : State => t.rd k) _ _ t fun _ _ _ => serveMem_quiet hk ..

end QuietWords

/-! An event closes (R246). -/

theorem exec_close {c : Fin 64} {k : Nat} {e : CapEvent} (hf : s.acq.opened.find? (fun e => decide (e.1 = c.val)) = some (k, e))
    (hc : s.canClose e = true) : exec (.captureEventClose c) s = .next (queueStatus { s with acq := { s.acq with
      opened := SMap.erase s.acq.opened c, queue := s.acq.queue ++ [{ e with number := s.acq.next }], next := s.acq.next + 1 } }) := by
  have hclose : s.closeEvent c = queueStatus { s with acq := { s.acq with
      opened := SMap.erase s.acq.opened c, queue := s.acq.queue ++ [{ e with number := s.acq.next }], next := s.acq.next + 1 } } := by
    unfold closeEvent
    rw [hf]
  refine congrArg Host.Outcome.next (Eq.trans ?_ hclose)
  rw [hf]
  exact if_pos hc

theorem queueStatus_acq (s : State) : s.queueStatus.acq = s.acq := rfl

/-! A copy begins (R247, R250). -/

/-- A queue of which no block is at risk. -/
theorem refuseAtRisk_of_safe (hcopy : s.acq.copying = false)
    (h : ∀ x ∈ s.acq.queue, x.fate = 0 → s.atRisk (s.blockOf x.first) = false) : s.refuseAtRisk = s := by
  have hsafe (x : CapEvent × Nat) (hx : x ∈ s.acq.queue.zipIdx) : s.copyAtRisk x.1 x.2 = false := by
    unfold copyAtRisk
    rw [hcopy]
    by_cases hf : x.1.fate = 0
    · simp [h x.1 (List.fst_mem_of_mem_zipIdx hx) hf]
    · simp [hf]
  have hq : s.acq.queue.zipIdx.map (fun x => (x.1, s.copyAtRisk x.1 x.2)) = s.acq.queue.zipIdx.map (fun x => (x.1, false)) :=
    List.map_congr_left fun x hx => by rw [hsafe x hx]
  have hnone : (s.acq.queue.zipIdx.map (fun x => (x.1, false))).filter Prod.snd = [] := by
    simp
  have hsame : (s.acq.queue.zipIdx.map (fun x => (x.1, false))).map (fun x => if x.2 then { x.1 with fate := 1 } else x.1) = s.acq.queue := by
    rw [List.map_map]
    exact (List.map_congr_left fun _ _ => rfl).trans (List.zipIdx_map_fst 0 s.acq.queue)
  unfold refuseAtRisk
  dsimp only
  rw [hq, hnone, hsame, List.foldl_nil, hcopy, Bool.false_and, ← hcopy]

theorem copyStart_of_ready {e : CapEvent} {rest : List CapEvent} (hcopy : s.acq.copying = false) (hq : s.acq.queue = e :: rest)
    (hstop : s.acq.stopped = false) (hsize : s.recordLen e ≤ s.areaSize eventArea) (hfree : s.recordLen e ≤ s.areaFree eventArea)
    (hrest : s.recordLen e ≤ s.areaRest eventArea) (hw : e.fate = 0 → s.blocksWritten e = true) :
    s.copyStart = { s with acq := { s.acq with copying := true, copyNext := s.blockOf e.first, copied := [] } } := by
  have hgo : (s.acq.stopped || decide (s.areaSize eventArea < s.recordLen e) || decide (s.areaFree eventArea < s.recordLen e) ||
      (decide (e.fate = 0) && !s.blocksWritten e)) = false := by
    have hwritten : (decide (e.fate = 0) && !s.blocksWritten e) = false := by
      by_cases hf : e.fate = 0
      · simp [hw hf]
      · simp [hf]
    rw [hstop, decide_eq_false (by omega), decide_eq_false (by omega), hwritten]
    rfl
  have hpad : s.areaPad eventArea (s.recordLen e) = s := if_neg (Nat.not_lt.mpr hrest)
  unfold copyStart
  rw [hcopy, hq]
  dsimp only
  rw [if_neg (ne_true_of_eq_false hgo), if_neg (Nat.not_lt.mpr hrest), hpad, if_neg (Nat.not_lt.mpr hfree)]

/-! Refusal and records (R248 to R250). -/

/-- What a refusal's dead time leaves: the captures and the count of refusals. -/
def refusals (s : State) : Acq × DWord := (s.acq, s.rd64 Reg.ACQ_REFUSED)

theorem refusals_wr {k : Nat} (h : 0x0220_0000 ≤ k) (s : State) (v : Word) : (s.wr k v).refusals = s.refusals := by
  have h0 : Reg.ACQ_REFUSED ≠ k := by
    unfold Reg.ACQ_REFUSED
    omega
  have h4 : Reg.ACQ_REFUSED + 4 ≠ k := by
    unfold Reg.ACQ_REFUSED
    omega
  rw [refusals, refusals, rd64, rd64, rd_wr_ne _ _ h0, rd_wr_ne _ _ h4]
  rfl

theorem apart_refusals (c k : Nat) : Apart refusals c k where
  cause t n := (refusals_wr (by unfold Reg.cls; omega) ..).trans (refusals_wr (by unfold Reg.cls; omega) ..)
  total t n := (refusals_wr (by unfold Reg.cls; omega) ..).trans (refusals_wr (by unfold Reg.cls; omega) ..)
  update _ _ _ := rfl

theorem refuseEvent_refusals (s : State) (e : CapEvent) : (s.refuseEvent e).refusals = (s.acq, satInc (s.rd64 Reg.ACQ_REFUSED)) :=
  (charge_leaves (apart_refusals e.cls 3) ..).trans (Prod.ext rfl (wr64_rd64 ..))

theorem oversize_refused {e : CapEvent} {rest : List CapEvent} (hcopy : s.acq.copying = false) (hq : s.acq.queue = e :: rest)
    (hstop : s.acq.stopped = false) (hf : e.fate = 0) (hsize : s.areaSize eventArea ≠ 0) (hlen : s.areaSize eventArea < s.recordLen e) :
    ∃ t, exec .captureRefuseOversize s = .next t ∧ t.acq.queue = { e with fate := 1 } :: rest ∧
      t.rd64 Reg.ACQ_REFUSED = satInc (s.rd64 Reg.ACQ_REFUSED) := by
  have hexec : s.refuseOversize = (s.refuseEvent e).setHead { e with fate := 1 } := by
    unfold refuseOversize
    rw [hcopy, hq]
    dsimp only
    rw [hstop, if_neg (by decide), if_neg hsize, if_pos ⟨hf, .inr hlen⟩]
  obtain ⟨hacq, hcount⟩ := Prod.ext_iff.mp (refuseEvent_refusals s e)
  refine ⟨_, congrArg Host.Outcome.next hexec, ?_, hcount⟩
  change _ :: (s.refuseEvent e).acq.queue.tail = _
  rw [show (s.refuseEvent e).acq = s.acq from hacq, hq]
  rfl

theorem copyComplete_refused {e : CapEvent} {rest : List CapEvent} (hcopy : s.acq.copying = true) (hq : s.acq.queue = e :: rest)
    (hf : e.fate = 1) : s.copyComplete = s.finishEvent (s.headerOnly e) := by
  unfold copyComplete
  rw [hcopy, hq]
  exact if_pos hf

theorem copyComplete_read {e : CapEvent} {rest : List CapEvent} {m : SMap (BitVec 2048)} (hcopy : s.acq.copying = true)
    (hq : s.acq.queue = e :: rest) (hf : e.fate = 0) (hlost : s.eventLost e = false)
    (hread : s.captureRead (s.linesFrom e s.acq.copyNext) s.acq.copied = (s, some m)) :
    s.copyComplete = s.finishEvent (s.eventRecord e ((s.eventChannels e).map (s.eventSection e m))
      (((s.eventBlocks e).map (s.slotMarks m)).any (fun x => decide (BitVec.ofNat 64 x.1 &&& e.groups ≠ 0)))
      (((s.eventBlocks e).map (s.slotMarks m)).any Prod.snd)) := by
  unfold copyComplete
  rw [hcopy, hq]
  dsimp only
  rw [hf, hlost, if_neg (by decide), if_neg (by decide), hread]

theorem quietWord_wptr : QuietWord Reg.ACQ_STORE_WPTR ∧ QuietWord (Reg.ACQ_STORE_WPTR + 4) := by
  unfold QuietWord Reg.ACQ_STORE_WPTR
  omega

theorem rd64_congr {k : Nat} (h : t.rd k = s.rd k) (h4 : t.rd (k + 4) = s.rd (k + 4)) : t.rd64 k = s.rd64 k := by
  rw [rd64, rd64, h, h4]

/-- WPTR moves past the record. -/
theorem areaWrite_wptr (s : State) (bs : List Byte) : (s.areaWrite eventArea bs).rd64 Reg.ACQ_STORE_WPTR =
    BitVec.ofNat 64 ((s.rd64 Reg.ACQ_STORE_WPTR).toNat + bs.length) := wr64_rd64 ..

/-- An event that leaves the queue moves no pointer. -/
theorem dropHead_wptr (s : State) : (s.count64 Reg.ACQ_EVENTS).dropHead.rd64 Reg.ACQ_STORE_WPTR = s.rd64 Reg.ACQ_STORE_WPTR := by
  have hrd (k : Nat) (hq : k ≠ Reg.ACQ_QUEUE) (h0 : k ≠ Reg.ACQ_EVENTS) (h4 : k ≠ Reg.ACQ_EVENTS + 4) :
      (s.count64 Reg.ACQ_EVENTS).dropHead.rd k = s.rd k := (queueStatus_rd _ hq).trans (wr64_rd_ne _ _ h4 h0)
  exact rd64_congr (hrd _ (by decide) (by decide) (by decide)) (hrd _ (by decide) (by decide) (by decide))

theorem finishEvent_results (s : State) (bs : List Byte) : (s.finishEvent bs).acq.copying = false ∧
    (s.finishEvent bs).acq.queue = ((s.eventDrain bs.length).areaWrite eventArea bs).acq.queue.tail ∧
    (s.finishEvent bs).rd64 Reg.ACQ_STORE_WPTR = BitVec.ofNat 64 ((s.rd64 Reg.ACQ_STORE_WPTR).toNat + bs.length) := by
  obtain ⟨hlo, hhi⟩ := quietWord_wptr
  have hdrain : (s.eventDrain bs.length).rd64 Reg.ACQ_STORE_WPTR = s.rd64 Reg.ACQ_STORE_WPTR :=
    rd64_congr (drainFor_quiet hlo ..) (drainFor_quiet hhi ..)
  unfold finishEvent
  rw [dropHead_wptr, areaWrite_wptr, hdrain]
  exact ⟨rfl, rfl, rfl⟩

end State

open State in
/-- Settles O41: an event whose copy neither waits nor is refused runs to its record; the controllers leave the store's pointers. -/
theorem captureResults : Obligations.CaptureResults := by
  refine fun s => ⟨fun c k e hf hc => ?close, fun e rest hcopy hq hsafe hstop hsize hfree hrest hw => ?start,
    fun e rest hcopy hq hstop hf hsize hlen => oversize_refused hcopy hq hstop hf hsize hlen,
    fun e rest hcopy hq hf => congrArg Host.Outcome.next (copyComplete_refused hcopy hq hf),
    fun e rest m hcopy hq hf hlost hread => congrArg Host.Outcome.next (copyComplete_read hcopy hq hf hlost hread),
    finishEvent_results s, fun m survey v => ?rptr⟩
  case close =>
    exact ⟨_, exec_close hf hc, rfl, rfl, SMap.find_erase_self ..⟩
  case start =>
    refine congrArg Host.Outcome.next ?_
    rw [refuseAtRisk_of_safe hcopy hsafe]
    exact copyStart_of_ready hcopy hq hstop hsize hfree hrest hw
  case rptr =>
    intro a ha hlo hhi
    refine ⟨s.wr64 a.rptr v, congrArg Host.Outcome.next ((exec_atReg ha _).trans (if_pos ⟨hlo, hhi⟩)), ?_, wr64_rd64 ..⟩
    exact onlyRegs_wr64 _ List.mem_cons_self (List.mem_cons_of_mem _ List.mem_cons_self) _

end Sys2Proof.Machine
end

section
/-!
PROOF. The timeline and its steps, the servo, delays, PPS and the frequency inputs (R289 to R293, R304 to R309, R311 to R313).
-/

namespace Sys2Proof.Machine
open Sys2Proof.Claims

namespace State
variable {s t : State}

/-! The wrap (R290). -/

theorem edgeStep_bounds (s : State) : 0 < s.edgeStep ∧ s.edgeStep < 2 ^ 39 := by
  have hlo : -(2 ^ 31) ≤ s.adj := BitVec.le_toInt (s.rd Reg.TIM_RATE)
  have hhi : s.adj < 2 ^ 31 := BitVec.toInt_lt (x := s.rd Reg.TIM_RATE)
  unfold edgeStep
  omega

/-- The edges to a boundary overshoot it by less than one step. -/
theorem ceil_steps {left step : Nat} (h : 0 < step) : left ≤ (left + step - 1) / step * step ∧ (left + step - 1) / step * step < left + step := by
  have hdiv := Nat.div_add_mod (left + step - 1) step
  have hmod := Nat.mod_lt (left + step - 1) h
  rw [Nat.mul_comm] at hdiv
  omega

/-- The accumulator at the wrap's edge: one wrap of 2^96, and less than a step beyond it. -/
theorem wrap_accumulator (s : State) : ∃ r < s.edgeStep,
    s.timeline.toNat * 2 ^ 32 + s.time.frac.toNat + s.edgesToWrap * s.edgeStep = 2 ^ 96 + r := by
  obtain ⟨hpos, hlt⟩ := edgeStep_bounds s
  have hv : s.timeline.toNat < 2 ^ 64 := s.timeline.isLt
  have hf : s.time.frac.toNat < 2 ^ 32 := s.time.frac.isLt
  obtain ⟨hlo, hhi⟩ := ceil_steps (left := 2 ^ 96 - (s.timeline.toNat * 2 ^ 32 + s.time.frac.toNat)) hpos
  unfold edgesToWrap
  dsimp only
  rw [Nat.max_eq_right hpos]
  exact ⟨s.timeline.toNat * 2 ^ 32 + s.time.frac.toNat + (2 ^ 96 - (s.timeline.toNat * 2 ^ 32 + s.time.frac.toNat) + s.edgeStep - 1) /
    s.edgeStep * s.edgeStep - 2 ^ 96, by omega, by omega⟩

/-- A register word written after the clock has moved. -/
theorem wr_clock (s : State) (n : Nat) (l : DWord) (x : TimeSt) (k : Nat) (v : Word) :
    let u : State := { s with now := n, timeline := l, time := x }
    u.wr k v = { s with now := (u.wr k v).now, timeline := (u.wr k v).timeline, time := (u.wr k v).time, regs := (u.wr k v).regs } ∧
      (u.wr k v).timeline = l ∧ (u.wr k v).time = x ∧ (∀ j, j ≠ k → (u.wr k v).rd j = s.rd j) ∧ (u.wr k v).rd k = v :=
  ⟨rfl, rfl, rfl, fun _ h => rd_wr_ne _ _ h, rd_wr_self ..⟩

theorem timelineWrap_results (s : State) : ∃ t, exec .timelineWrap s = .next t ∧
    t = { s with now := t.now, timeline := t.timeline, time := t.time, regs := t.regs } ∧
    (∀ k, k ≠ Reg.TIM_ERA → t.rd k = s.rd k) ∧ t.rd Reg.TIM_ERA = s.rd Reg.TIM_ERA + 1 ∧
    t.timeline.toNat * 2 ^ 32 + t.time.frac.toNat < s.edgeStep := by
  obtain ⟨r, hr, hacc⟩ := wrap_accumulator s
  obtain ⟨-, hlt⟩ := edgeStep_bounds s
  obtain ⟨hframe, hline, htime, hne, hself⟩ := wr_clock s (s.now + 18 * s.edgesToWrap) (BitVec.ofNat 64 ((2 ^ 96 + r) / 2 ^ 32))
    { s.time with frac := BitVec.ofNat 32 (2 ^ 96 + r) } Reg.TIM_ERA (s.rd Reg.TIM_ERA + BitVec.ofNat 32 ((2 ^ 96 + r) / 2 ^ 96))
  have hexec : exec .timelineWrap s = .next (s.lineEdges s.edgesToWrap) := rfl
  unfold lineEdges at hexec
  dsimp only at hexec
  rw [hacc] at hexec
  refine ⟨_, hexec, hframe, hne, ?_, ?_⟩
  · rw [hself, show (2 ^ 96 + r) / 2 ^ 96 = 1 by omega]
    rfl
  · rw [hline, htime, BitVec.toNat_ofNat, BitVec.toNat_ofNat]
    omega

/-! Steps (R293). -/

theorem setAbsolute_results {m : Master} (ha : s.answers Reg.TIM_SET_CTL = true) (hc : s.contextRuns = false) :
    ∃ t, exec (.timelineSetAbsolute m) s = .next t ∧ t.timeline = s.rd64 Reg.TIM_SET ∧ t.rd Reg.TIM_ERA = s.rd Reg.TIM_SET_ERA ∧
      t.rdB Reg.TIM_STATUS 2 = true := by
  have hexec : exec (.timelineSetAbsolute m) s = .next (((({ s.wrB Reg.TIM_SET_CTL 1 false with timeline := s.rd64 Reg.TIM_SET } : State).wr
      Reg.TIM_ERA (s.rd Reg.TIM_SET_ERA)).wrB Reg.TIM_STATUS 2 true)) :=
    congrArg Host.Outcome.next ((exec_atReg ha _).trans (if_neg (ne_true_of_eq_false hc)))
  obtain ⟨u, hu, hline⟩ : ∃ u : State, { s.wrB Reg.TIM_SET_CTL 1 false with timeline := s.rd64 Reg.TIM_SET } = u ∧
    u.timeline = s.rd64 Reg.TIM_SET := ⟨_, rfl, rfl⟩
  rw [hu] at hexec
  exact ⟨_, hexec, by rw [wrB_timeline, wr_timeline, hline], (wrB_rd_ne _ _ _ (by decide)).trans (rd_wr_self ..),
    rdB_wrB_self _ _ (by decide) _⟩

/-- A time T in timeline units, put and read back modulo 2^96. -/
theorem ptpTime_setPtpTime (s : State) (t : Int) : (s.setPtpTime t).ptpTime = t % 2 ^ 96 := by
  have hera : (s.setPtpTime t).rd Reg.TIM_ERA = BitVec.ofInt 32 (t / 2 ^ 64) := rd_wr_self ..
  have hline : (s.setPtpTime t).timeline = BitVec.ofInt 64 t := rfl
  rw [ptpTime, hera, hline, BitVec.toNat_ofInt, BitVec.toNat_ofInt]
  omega

theorem ptpTime_congr (hl : t.timeline = s.timeline) (he : t.rd Reg.TIM_ERA = s.rd Reg.TIM_ERA) : t.ptpTime = s.ptpTime := by
  rw [ptpTime, ptpTime, hl, he]

theorem setRelative_results {m : Master} (ha : s.answers Reg.TIM_SET_CTL = true) (hc : s.contextRuns = false) :
    ∃ t, exec (.timelineSetRelative m) s = .next t ∧ t.ptpTime = (s.ptpTime + (s.rd64 Reg.TIM_SET).toInt) % 2 ^ 96 ∧
      t.rdB Reg.TIM_STATUS 2 = true := by
  have hexec : exec (.timelineSetRelative m) s = .next ((s.wrB Reg.TIM_SET_CTL 1 true).stepTimeline (s.rd64 Reg.TIM_SET).toInt) :=
    congrArg Host.Outcome.next ((exec_atReg ha _).trans (if_neg (ne_true_of_eq_false hc)))
  have hT : (s.wrB Reg.TIM_SET_CTL 1 true).ptpTime = s.ptpTime := ptpTime_congr (wrB_timeline ..) (wrB_rd_ne _ _ _ (by decide))
  rw [stepTimeline, hT] at hexec
  refine ⟨_, hexec, ?_, rdB_wrB_self _ _ (by decide) _⟩
  exact (ptpTime_congr (wrB_timeline ..) (wrB_rd_ne _ _ _ (by decide))).trans (ptpTime_setPtpTime ..)

/-! Offsets (R304 to R309). -/

theorem syncOffset_of_exchange {x : PtpSync} {t1 d : Int} (hs : s.time.sync = some x) (h1 : x.t1 = some t1) (hen : s.ocEn = true)
    (hd : (if s.ocPeer then SMap.get none s.time.link s.ocPort else s.time.mf) = some d) (hv : x.void = false) :
    s.syncOffset = if s.phaseSrc = 1 then ({ s with time := { s.time with sync := none } } : State).servoOffset
        (stampDiff x.t2 t1 - (x.corr + s.asym s.ocPort) - d) x.logInt
      else ({ s with time := { s.time with sync := none } } : State).wr Reg.TIM_OFFSET
        (sat32 (stampDiff x.t2 t1 - (x.corr + s.asym s.ocPort) - d)) := by
  unfold syncOffset
  rw [hs]
  dsimp only
  rw [h1]
  dsimp only
  rw [hd, hv, hen]
  rfl

/-- The state that an offset finds: TIM_OFFSET reports it. -/
def offsetSeen (s : State) (th : Int) : State := s.wr Reg.TIM_OFFSET (sat32 th)

theorem offsetSeen_rd (s : State) (th : Int) {k : Nat} (h : k ≠ Reg.TIM_OFFSET) : (s.offsetSeen th).rd k = s.rd k := rd_wr_ne _ _ h

theorem phaseSrc_congr (h : t.rd Reg.TIM_SERVO_CFG = s.rd Reg.TIM_SERVO_CFG) : t.phaseSrc = s.phaseSrc := by
  unfold phaseSrc
  rw [rdB_congr h, rdF_congr h]

theorem servo_congr (h : t.rd Reg.TIM_STATUS = s.rd Reg.TIM_STATUS) : t.servo = s.servo := rdF_congr h ..

theorem slewLimit_congr (hc : t.rd Reg.SEC_CTX_STATUS = s.rd Reg.SEC_CTX_STATUS) (hs : t.rd Reg.TIM_SLEW = s.rd Reg.TIM_SLEW) :
    t.slewLimit = s.slewLimit := by
  unfold slewLimit contextRuns ctx
  rw [rdF_congr hc, hs]

theorem rd_withTime (s : State) (x : TimeSt) (k : Nat) : ({ s with time := x } : State).rd k = s.rd k := rfl

/-- A locked servo takes an offset within the outlier bound, or counts it (R306, R309). -/
theorem servoOffset_of_locked {th log : Int} (hp : s.phaseSrc = 1) (hv : s.servo = 2) : s.servoOffset th log =
    if 4 * (s.rdF Reg.TIM_LOCK_CFG 0 16 * 1024) < th.natAbs then
      let run := (s.offsetSeen th).time.outRun + 1
      let s2 : State := { (s.offsetSeen th).outlier with time := { (s.offsetSeen th).time with outRun := run } }
      if max 1 (s.rdF Reg.TIM_LOCK_CFG 24 8) ≤ run then s2.moveServo 1 else s2
    else ({ s.offsetSeen th with time := { (s.offsetSeen th).time with outRun := 0 } } : State).applyOffset th log := by
  have hp' : (s.offsetSeen th).phaseSrc = 1 := (phaseSrc_congr (offsetSeen_rd s th (by decide))).trans hp
  have hv' : (s.offsetSeen th).servo = 2 := (servo_congr (offsetSeen_rd s th (by decide))).trans hv
  change (if (s.offsetSeen th).phaseSrc = 0 then _ else _) = _
  rw [hp', if_neg (by decide)]
  change (match (s.offsetSeen th).servo with | 0 => _ | 1 => _ | 2 => _ | _ => _) = _
  rw [hv']
  rfl

/-- A locked servo without a frequency source integrates the offset. -/
theorem applyOffset_of_locked {th log : Int} (hv : s.servo = 2) (hsrc : s.rdF Reg.TIM_SERVO_CFG 2 2 = 0) : s.applyOffset th log =
    let i := clampTo (s.slewLimit * giga * 2 ^ (rateLog - 38))
      (s.time.rate + fieldNat (s.rd Reg.TIM_GAIN_LOCK) 0 16 * th * ((2 ^ (128 - log).toNat : Nat) : Int))
    ({ s with time := { s.time with rate := i } } : State).setAdj
      (i + fieldNat (s.rd Reg.TIM_GAIN_LOCK) 16 16 * th * ((2 ^ (128 - log).toNat : Nat) : Int)) := by
  unfold applyOffset
  dsimp only
  rw [hv, hsrc, if_pos rfl, if_neg (by decide)]

theorem setAdj_results (s : State) (rate : Int) : (s.setAdj rate).servo = s.servo ∧ (s.setAdj rate).time = s.time ∧
    (s.setAdj rate).rd Reg.TIM_OFFSET = s.rd Reg.TIM_OFFSET ∧
    (s.setAdj rate).rd Reg.TIM_RATE = BitVec.ofInt 32 (clampTo s.slewLimit (rnDiv (-rate) (giga * 2 ^ (rateLog - 38)))) ∧
    (s.setAdj rate).timeline = s.timeline ∧ (s.setAdj rate).hold = s.hold := by
  refine ⟨(rdF_wrB_ne _ _ (by decide) (by decide)).trans (rdF_congr (rd_wr_ne _ _ (by decide)) ..), ?_,
    (wrB_rd_ne _ _ _ (by decide)).trans (rd_wr_ne _ _ (by decide)), (wrB_rd_ne _ _ _ (by decide)).trans (rd_wr_self ..), ?_, ?_⟩
  · exact (wrB_time ..).trans (wr_time ..)
  · exact (wrB_timeline ..).trans (wr_timeline ..)
  · exact (wrB_hold ..).trans (wr_hold ..)

theorem locked_offset {th log : Int} {x : Option PtpSync} (hp : s.phaseSrc = 1) (hv : s.servo = 2) (hsrc : s.rdF Reg.TIM_SERVO_CFG 2 2 = 0)
    (hth : th.natAbs ≤ 4 * (1024 * s.rdF Reg.TIM_LOCK_CFG 0 16)) :
    let t := ({ s with time := { s.time with sync := x } } : State).servoOffset th log
    let unit : Nat := 2 ^ (128 - log).toNat
    let i := clampTo (s.slewLimit * giga * 2 ^ (rateLog - 38)) (s.time.rate + fieldNat (s.rd Reg.TIM_GAIN_LOCK) 0 16 * th * unit)
    t.servo = 2 ∧ t.time.rate = i ∧ t.rd Reg.TIM_OFFSET = sat32 th ∧
      t.rd Reg.TIM_RATE = BitVec.ofInt 32 (clampTo s.slewLimit
        (rnDiv (-(i + fieldNat (s.rd Reg.TIM_GAIN_LOCK) 16 16 * th * unit)) (giga * 2 ^ (rateLog - 38)))) := by
  intro t unit i
  have hbound : ¬4 * (s.rdF Reg.TIM_LOCK_CFG 0 16 * 1024) < th.natAbs := by omega
  obtain ⟨u, hu, hurd, hutime⟩ : ∃ u : State, { s with time := { s.time with sync := x } } = u ∧ (∀ k, u.rd k = s.rd k) ∧
      u.time.rate = s.time.rate := ⟨_, rfl, fun _ => rfl, rfl⟩
  have ht : t = u.servoOffset th log := congrArg (fun v : State => v.servoOffset th log) hu
  rw [servoOffset_of_locked ((phaseSrc_congr (hurd _)).trans hp) ((servo_congr (hurd _)).trans hv), rdF_congr (hurd _), if_neg hbound] at ht
  obtain ⟨w, hw, hwrd, hwtime⟩ : ∃ w : State, { u.offsetSeen th with time := { (u.offsetSeen th).time with outRun := 0 } } = w ∧
      (∀ k, w.rd k = (u.offsetSeen th).rd k) ∧ w.time.rate = u.time.rate := ⟨_, rfl, rd_withTime _ _, rfl⟩
  have hword {k : Nat} (h : k ≠ Reg.TIM_OFFSET) : w.rd k = s.rd k := (hwrd k).trans ((offsetSeen_rd u th h).trans (hurd k))
  have hslew : w.slewLimit = s.slewLimit := slewLimit_congr (hword (by decide)) (hword (by decide))
  have hservo : w.servo = 2 := (servo_congr (hword (by decide))).trans hv
  rw [hw, applyOffset_of_locked hservo ((rdF_congr (hword (by decide)) ..).trans hsrc), hslew, hword (by decide : Reg.TIM_GAIN_LOCK ≠ Reg.TIM_OFFSET),
    hwtime, hutime] at ht
  obtain ⟨v, hv', hvrd, hvtime⟩ : ∃ v : State, { w with time := { w.time with rate := i } } = v ∧ (∀ k, v.rd k = w.rd k) ∧ v.time.rate = i :=
    ⟨_, rfl, rd_withTime _ _, rfl⟩
  have ht' : t = v.setAdj (i + fieldNat (s.rd Reg.TIM_GAIN_LOCK) 16 16 * th * unit) := ht.trans (congrArg (fun z : State => z.setAdj _) hv')
  obtain ⟨hs, htm, hoff, hrate, -, -⟩ := setAdj_results v (i + fieldNat (s.rd Reg.TIM_GAIN_LOCK) 16 16 * th * unit)
  have hvslew : v.slewLimit = s.slewLimit := (slewLimit_congr (hvrd _) (hvrd _)).trans hslew
  rw [ht']
  refine ⟨hs.trans ((servo_congr (hvrd _)).trans hservo), (congrArg TimeSt.rate htm).trans hvtime, ?_, by rw [hrate, hvslew]⟩
  exact hoff.trans ((hvrd _).trans ((hwrd _).trans (rd_wr_self ..)))

theorem outlier_results (s : State) : s.outlier.servo = s.servo ∧ s.outlier.time = s.time ∧ s.outlier.timeline = s.timeline ∧
    s.outlier.rd Reg.TIM_OUTLIERS = satInc (s.rd Reg.TIM_OUTLIERS) ∧ s.outlier.rdB Reg.TIM_STATUS 7 = true ∧
    ∀ k, k ≠ Reg.TIM_OUTLIERS → k ≠ Reg.TIM_STATUS → s.outlier.rd k = s.rd k := by
  refine ⟨(rdF_wrB_ne _ _ (by decide) (by decide)).trans (rdF_congr (count_rd_ne _ _ (by decide)) ..), (wrB_time ..).trans (count_time ..),
    (wrB_timeline ..).trans (count_timeline ..), (wrB_rd_ne _ _ _ (by decide)).trans (count_rd_self ..), rdB_wrB_self _ _ (by decide) _,
    fun k h1 h2 => (wrB_rd_ne _ _ _ h2).trans (count_rd_ne _ _ h1)⟩

theorem locked_outlier {th log : Int} {x : Option PtpSync} (hp : s.phaseSrc = 1) (hv : s.servo = 2)
    (hth : 4 * (1024 * s.rdF Reg.TIM_LOCK_CFG 0 16) < th.natAbs) (hrun : s.time.outRun + 1 < s.rdF Reg.TIM_LOCK_CFG 24 8) :
    let t := ({ s with time := { s.time with sync := x } } : State).servoOffset th log
    t.servo = 2 ∧ t.time.rate = s.time.rate ∧ t.time.outRun = s.time.outRun + 1 ∧ t.rd Reg.TIM_RATE = s.rd Reg.TIM_RATE ∧
      t.rd Reg.TIM_OUTLIERS = satInc (s.rd Reg.TIM_OUTLIERS) ∧ t.rdB Reg.TIM_STATUS 7 = true := by
  intro t
  have hbound : 4 * (s.rdF Reg.TIM_LOCK_CFG 0 16 * 1024) < th.natAbs := by omega
  obtain ⟨u, hu, hurd, hurate, hurun⟩ : ∃ u : State, { s with time := { s.time with sync := x } } = u ∧ (∀ k, u.rd k = s.rd k) ∧
      u.time.rate = s.time.rate ∧ u.time.outRun = s.time.outRun := ⟨_, rfl, fun _ => rfl, rfl, rfl⟩
  have ht : t = u.servoOffset th log := congrArg (fun v : State => v.servoOffset th log) hu
  rw [servoOffset_of_locked ((phaseSrc_congr (hurd _)).trans hp) ((servo_congr (hurd _)).trans hv), rdF_congr (hurd _), rdF_congr (hurd _),
    if_pos hbound] at ht
  dsimp only at ht
  obtain ⟨w, hw, hwrd, hwtime⟩ : ∃ w : State, u.offsetSeen th = w ∧ (∀ k, k ≠ Reg.TIM_OFFSET → w.rd k = s.rd k) ∧ w.time = u.time :=
    ⟨_, rfl, fun k h => (offsetSeen_rd u th h).trans (hurd k), wr_time ..⟩
  rw [hw] at ht
  rw [if_neg (show ¬max 1 (s.rdF Reg.TIM_LOCK_CFG 24 8) ≤ w.time.outRun + 1 by rw [hwtime, hurun]; omega)] at ht
  obtain ⟨hs, htm, -, hcount, hflag, hne⟩ := outlier_results w
  rw [ht]
  refine ⟨hs.trans ((servo_congr (hwrd _ (by decide))).trans hv), ?_, ?_, (hne _ (by decide) (by decide)).trans (hwrd _ (by decide)),
    hcount.trans (congrArg (satInc ·) (hwrd _ (by decide))), hflag⟩
  · rw [← hurate, ← hwtime]
  · rw [← hurun, ← hwtime]

/-! Delays and quiet intervals (R304, R305, R308). -/

/-- What a move of the servo leaves. -/
theorem moveServo_results (s : State) {n : Nat} (hn : n < 4) : (s.moveServo n).servo = n ∧ (s.moveServo n).timeline = s.timeline ∧
    (s.moveServo n).time.rate = s.time.rate ∧ (s.moveServo n).hold = s.hold := by
  unfold moveServo
  extract_lets s1 _ s2
  split
  next h => exact ⟨h, rfl, rfl, rfl⟩
  next h =>
    obtain ⟨hs, htm, hline, hhold⟩ : s1.servo = n ∧ s1.time = s.time ∧ s1.timeline = s.timeline ∧ s1.hold = s.hold := by
      refine ⟨?_, by simp only [s1, countF_time, wrF_time], by simp only [s1, countF_timeline, wrF_timeline],
        by simp only [s1, countF_hold, wrF_hold]⟩
      refine (rdF_wrF_ne _ _ _ _ _ _ _ (by decide) (by decide)).trans ((rdF_wrF_self _ _ _ _ _ (by decide)).trans ?_)
      omega
    clear_value s1
    have h2 : s2.servo = n ∧ s2.timeline = s.timeline ∧ s2.time.rate = s.time.rate ∧ s2.hold = s.hold :=
      ⟨hs, hline, (show s2.time.rate = s1.time.rate from rfl).trans (congrArg TimeSt.rate htm), hhold⟩
    clear_value s2
    obtain ⟨hs2, hline2, hrate2, hhold2⟩ := h2
    split
    · obtain ⟨ha, htime, -, -, hl, hh⟩ := setAdj_results s2 s2.time.rate
      exact ⟨ha.trans hs2, hl.trans hline2, (congrArg TimeSt.rate htime).trans hrate2, hh.trans hhold2⟩
    · exact ⟨hs2, hline2, hrate2, hhold2⟩

theorem quiet_results (s : State) : s.quiet.servo = (if s.servo = 1 then 0 else if s.servo = 2 then 3 else s.servo) ∧
    s.quiet.timeline = s.timeline ∧ s.quiet.time.rate = s.time.rate ∧ s.quiet.hold = s.hold := by
  unfold quiet
  split
  next h =>
    rw [h, if_pos rfl]
    exact moveServo_results s (by decide)
  next h =>
    rw [h, if_neg (by decide), if_pos rfl]
    exact moveServo_results s (by decide)
  next h1 h2 =>
    rw [if_neg h1, if_neg h2]
    exact ⟨rfl, rfl, rfl, rfl⟩

theorem delayResp_results {t4 t1 c : Int} {t2 t3 corr : DWord} (hq : s.time.req = some t3) (hd : s.time.done = some (t2, t1, c))
    (hen : s.ocEn = true) (hpeer : s.ocPeer = false) :
    let a := s.asym s.ocPort
    let mf := s.filterDelay s.time.mf (rnDiv ((stampDiff t2 t1 - (c + a)) + (-(stampDiff t3 t4) - (corr.toInt - a))) 2)
    exec (.delayRespReceive t4 corr) s = .next (({ s with time := { s.time with mf := some mf, req := none } } : State).wr Reg.TIM_MPD (sat32 mf)) := by
  refine congrArg Host.Outcome.next ?_
  unfold delayResp
  rw [hq, hd]
  dsimp only
  rw [hen, hpeer]
  rfl

theorem onlyRegs_wr_time (s : State) (x : TimeSt) (k : Nat) (v : Word) :
    OnlyRegs { s with time := (({ s with time := x } : State).wr k v).time } (({ s with time := x } : State).wr k v) [k] ∧
      (({ s with time := x } : State).wr k v).time = x ∧ (({ s with time := x } : State).wr k v).rd k = v :=
  ⟨onlyRegs_wr _ List.mem_cons_self _, rfl, rd_wr_self ..⟩

/-! PPS and the frequency inputs (R311 to R313). -/

theorem ppsEdge_captured {stamp : DWord} (hen : s.rdB Reg.TIM_PPS_CFG 31 = true) (hp : s.phaseSrc ≠ 2) : s.ppsEdge stamp =
    s.wr64 Reg.TIM_PPS_IN_STAMP (stamp - BitVec.ofInt 64 (sword (s.rd Reg.TIM_PPS_IN_DELAY))) := by
  unfold ppsEdge
  dsimp only
  rw [hen, if_neg (by decide), if_pos hp]

theorem ppsEdge_outlier {stamp p : DWord} (hstamp : stamp - BitVec.ofInt 64 (sword (s.rd Reg.TIM_PPS_IN_DELAY)) = p)
    (hen : s.rdB Reg.TIM_PPS_CFG 31 = true) (hp : s.phaseSrc = 2)
    (hfar : 64 * giga / 10 < ((s.ptpTime + tlDiff p s.timeline + 32 * giga) % (64 * giga) - 32 * giga : Int).natAbs) :
    s.ppsEdge stamp = (s.wr64 Reg.TIM_PPS_IN_STAMP p).outlier := by
  unfold ppsEdge
  dsimp only
  rw [hen, if_neg (by decide), if_neg (not_not_intro hp), hstamp, if_pos hfar]

theorem codeOf_signed {x : Int} (hlo : -(2 ^ 23) ≤ x) (hhi : x < 2 ^ 23) : ((BitVec.ofNat 24 (codeOf 24 x)) : BitVec 24).toInt = x := by
  have hcode : codeOf 24 x = (x % 2 ^ 24).toNat := rfl
  rw [hcode, BitVec.toInt_eq_toNat_bmod, BitVec.toNat_ofNat, Int.bmod_def]
  omega

/-- The 24-bit field of a register is what its number says. -/
theorem field24_congr {k : Nat} (h : t.rdF k 0 24 = s.rdF k 0 24) : (t.rd k).extractLsb' 0 24 = (s.rd k).extractLsb' 0 24 :=
  BitVec.eq_of_toNat_eq h

theorem field24_of_rdF {k v : Nat} (h : t.rdF k 0 24 = v % 2 ^ 24) : (t.rd k).extractLsb' 0 24 = BitVec.ofNat 24 v :=
  BitVec.eq_of_toNat_eq (h.trans (BitVec.toNat_ofNat ..).symm)

theorem clk10mGate_results (s : State) (present : Bool) {ppb : Int} (hlo : -(2 ^ 23) ≤ ppb) (hhi : ppb < 2 ^ 23) :
    ∃ t, exec (.clk10mGate present ppb) s = .next t ∧ OnlyRegs s t [Reg.TIM_STATUS, Reg.TIM_10M_STAT] ∧
      t.rdB Reg.TIM_STATUS 5 = present ∧ t.rdB Reg.TIM_10M_STAT 31 = present ∧
      ((t.rd Reg.TIM_10M_STAT).extractLsb' 0 24).toInt =
        (if present then ppb else ((s.rd Reg.TIM_10M_STAT).extractLsb' 0 24).toInt) := by
  have h1 : OnlyRegs s ((s.wrB Reg.TIM_STATUS 5 present).wrB Reg.TIM_10M_STAT 31 present) [Reg.TIM_STATUS, Reg.TIM_10M_STAT] :=
    onlyRegs_trans (onlyRegs_wrB s List.mem_cons_self _ _) (onlyRegs_wrB _ (List.mem_cons_of_mem _ List.mem_cons_self) _ _)
  have hst : ((s.wrB Reg.TIM_STATUS 5 present).wrB Reg.TIM_10M_STAT 31 present).rdB Reg.TIM_STATUS 5 = present :=
    (rdB_congr (wrB_rd_ne _ _ _ (by decide)) 5).trans (rdB_wrB_self _ _ (by decide) _)
  have hon : ((s.wrB Reg.TIM_STATUS 5 present).wrB Reg.TIM_10M_STAT 31 present).rdB Reg.TIM_10M_STAT 31 = present := rdB_wrB_self _ _ (by decide) _
  have hfield : ((s.wrB Reg.TIM_STATUS 5 present).wrB Reg.TIM_10M_STAT 31 present).rdF Reg.TIM_10M_STAT 0 24 = s.rdF Reg.TIM_10M_STAT 0 24 :=
    (rdF_wrB_ne _ _ (by decide) (by decide)).trans (rdF_congr (wrB_rd_ne _ _ _ (by decide)) ..)
  cases present with
  | false =>
    refine ⟨_, congrArg Host.Outcome.next (if_neg Bool.false_ne_true), h1, hst, hon, ?_⟩
    rw [if_neg Bool.false_ne_true, field24_congr hfield]
  | true =>
    refine ⟨_, congrArg Host.Outcome.next (if_pos rfl), onlyRegs_trans h1 (onlyRegs_wrF _ (List.mem_cons_of_mem _ List.mem_cons_self) _ _ _),
      (rdB_wrF_ne _ (by decide) (by decide)).trans hst, (rdB_wrF_ne _ (by decide) (by decide)).trans hon, ?_⟩
    rw [if_pos rfl, show max (-(2 ^ 23)) (min (2 ^ 23 - 1) ppb) = ppb by omega, field24_of_rdF (rdF_wrF_self _ _ _ _ _ (by decide)),
      codeOf_signed hlo hhi]

end State

open State in
/-- Settles O46: the wrap's edge overshoots by less than a step; a locked servo integrates an offset or counts an outlier. -/
theorem timelineResults : Obligations.TimelineResults := by
  refine fun s => ⟨timelineWrap_results s, fun m ha => ⟨fun hc => ⟨setAbsolute_results ha hc, setRelative_results ha hc⟩, fun hc => ?held⟩,
    fun x t1 d hs h1 hen hd hv => ?offset, fun t4 t1 c t2 t3 corr hq hd hen hpeer => ?resp, fun p c1 c4 t2 t3 c hon => ?peer,
    ⟨_, rfl, quiet_results s⟩, fun stamp => ?pps, fun hen => ?rise, fun hhigh => ?fall, fun present ppb hlo hhi => clk10mGate_results s present hlo hhi,
    fun rate => rfl, ?lost⟩
  case held =>
    exact ⟨congrArg Host.Outcome.next ((exec_atReg ha _).trans (if_pos hc)), congrArg Host.Outcome.next ((exec_atReg ha _).trans (if_pos hc))⟩
  case offset =>
    intro th
    have hexec := syncOffset_of_exchange hs h1 hen hd hv
    refine ⟨fun hp => congrArg Host.Outcome.next (hexec.trans (if_neg hp)), fun hp hlock hsrc => ?_⟩
    have hlocked := hexec.trans (if_pos hp)
    exact ⟨fun hth => ⟨_, congrArg Host.Outcome.next hlocked, locked_offset hp hlock hsrc hth⟩,
      fun hth hrun => ⟨_, congrArg Host.Outcome.next hlocked, locked_outlier hp hlock hth hrun⟩⟩
  case resp =>
    intro a mf
    obtain ⟨honly, htime, hrd⟩ := onlyRegs_wr_time s { s.time with mf := some mf, req := none } Reg.TIM_MPD (sat32 mf)
    exact ⟨_, delayResp_results hq hd hen hpeer, honly, htime, hrd⟩
  case peer =>
    intro t1' t4' l
    have hpeer : s.peerDelay = true := by simpa [peerDelay] using hon
    have hexec : exec (.pdelayRespReceive p c1 t2 t3 c4 c) s =
        .next (({ s with time := { s.time with link := SMap.set none s.time.link p (some l) } } : State).wr (Reg.TIM_PORT_LINK p) (sat32 l)) :=
      congrArg Host.Outcome.next (if_pos hpeer)
    obtain ⟨x, hx, hl⟩ : ∃ x : TimeSt, { s.time with link := SMap.set none s.time.link p (some l) } = x ∧ SMap.get none x.link p = some l :=
      ⟨_, rfl, SMap.get_set_self none s.time.link p.val (some l)⟩
    rw [hx] at hexec
    obtain ⟨honly, htime, hrd⟩ := onlyRegs_wr_time s x (Reg.TIM_PORT_LINK p) (sat32 l)
    exact ⟨_, hexec, honly, (congrArg (fun y : TimeSt => SMap.get none y.link p) htime).trans hl, hrd⟩
  case pps =>
    intro p
    refine ⟨fun hen hp => ⟨_, congrArg Host.Outcome.next (ppsEdge_captured hen hp), onlyRegs_wr64 _ (by decide) (by decide) _, wr64_rd64 ..⟩,
      fun hen hp hfar => ?_⟩
    obtain ⟨-, htime, hline, hcount, -, hne⟩ := outlier_results (s.wr64 Reg.TIM_PPS_IN_STAMP p)
    refine ⟨_, congrArg Host.Outcome.next (ppsEdge_outlier rfl hen hp hfar), ?_, ?_, htime.trans (wr64_time ..), hline.trans (wr64_timeline ..)⟩
    · rw [hcount, wr64_rd_ne (k := Reg.TIM_PPS_IN_STAMP) (j := Reg.TIM_OUTLIERS) _ p (by decide) (by decide)]
    · exact (rd64_congr (hne _ (by decide) (by decide)) (hne _ (by decide) (by decide))).trans (wr64_rd64 ..)
  case rise => exact congrArg Host.Outcome.next (if_pos hen)
  case fall => exact congrArg Host.Outcome.next (if_pos hhigh)
  case lost =>
    by_cases hsrc : s.rdF Reg.TIM_SERVO_CFG 2 2 = 1
    · refine ⟨_, congrArg Host.Outcome.next (if_pos hsrc), onlyRegs_trans (onlyRegs_wrB s List.mem_cons_self _ _) (onlyRegs_wrB _ List.mem_cons_self _ _),
        ?_, fun _ => rdB_wrB_self _ _ (by decide) _⟩
      exact (rdB_wrB_ne _ _ (by decide) (by decide)).trans (rdB_wrB_self _ _ (by decide) _)
    · exact ⟨_, congrArg Host.Outcome.next (if_neg hsrc), onlyRegs_wrB s List.mem_cons_self _ _, rdB_wrB_self _ _ (by decide) _,
        fun h => absurd h hsrc⟩

end Sys2Proof.Machine
end

section
/-!
PROOF. The Ethernet ports: what is dropped, forwarded, corrected, protected and sent; launch notices (R294, R296 to R303, R314 to R317).
-/

namespace Sys2Proof.Machine
open Sys2Proof.Claims

namespace State
variable {s t : State} {p : Fin 2}

/-! Frames that arrive (R294, R302, R303). -/

theorem receiveFrame_of_on (hp : s.portOn p = true) (f : List Byte) (capture : DWord) (fcs : Bool) : s.receiveFrame p f capture fcs =
    if !fcs || decide (1522 < f.length + 4) then s.rxDrop p
    else match (s.macReceive p f).1 with
      | none => (s.macReceive p f).2.rxDrop p
      | some g => (s.macReceive p f).2.takeFrame p g (s.inStamp p capture) := by
  unfold receiveFrame
  rw [hp]
  rfl

theorem macReceive_of_open (h : s.macsec p = false) (f : List Byte) : s.macReceive p f = (some f, s) :=
  if_neg (ne_true_of_eq_false h)

theorem macReceive_of_valid {a : MacSa} {f g : List Byte} {pn : Nat} (h : s.macsec p = true) (ha : s.macSa p = some a)
    (hu : unprotect a f = some (g, pn)) : s.macReceive p f = (some g, s.setMacSa p { a with rx := pn + 1 }) := by
  unfold macReceive
  rw [if_pos h, ha]
  dsimp only
  rw [hu]

theorem macReceive_of_invalid {f : List Byte} (h : s.macsec p = true) (hu : ∀ x, s.macSa p = some x → unprotect x f = none) :
    s.macReceive p f = (none, s) := by
  unfold macReceive
  rw [if_pos h]
  cases ha : s.macSa p with
  | none => rfl
  | some x =>
    dsimp only
    rw [hu x ha]

theorem receive_dropped (hp : s.portOn p = true) {f : List Byte} {fcs : Bool} (h : fcs = false ∨ 1522 < f.length + 4 ∨
    (s.macsec p = true ∧ ∀ x, s.macSa p = some x → unprotect x f = none)) (capture : DWord) :
    s.receiveFrame p f capture fcs = s.countF (Reg.TIM_PORT_ERR p) 8 8 := by
  rw [receiveFrame_of_on hp]
  by_cases hbad : (!fcs || decide (1522 < f.length + 4)) = true
  · exact if_pos hbad
  · rw [if_neg hbad]
    simp only [Bool.or_eq_true, Bool.not_eq_true', decide_eq_true_eq, not_or] at hbad
    obtain ⟨hfcs, hlen⟩ := hbad
    obtain ⟨hm, hu⟩ := (h.resolve_left hfcs).resolve_left hlen
    rw [macReceive_of_invalid hm hu]
    rfl

/-- A frame that the other port is to send: one of no protocol of the block's, or of the end-to-end transparent clock. -/
theorem takeFrame_forwarded {f : List Byte} (hother : s.portOn (1 - p.val) = true)
    (h : (ptpOff s.udp f = none ∧ s.rdB Reg.TIM_PTP_CFG 13 = true ∧ f.take 6 ≠ s.portMac p) ∨
      (∃ off, ptpOff s.udp f = some off ∧ s.tcMode = 1 ∧ s.ocEn = false)) (stamp : DWord) :
    s.takeFrame p f stamp = s.setEthQueue (1 - p.val) (s.ethQueue (1 - p.val) ++ [{ bytes := f, from' := p, stamp := stamp }]) := by
  unfold takeFrame
  dsimp only
  rcases h with ⟨hoff, hflood, hmac⟩ | ⟨off, hoff, htc, hoc⟩ <;> rw [hoff] <;> dsimp only
  · exact if_pos (by simp [hflood, hmac, hother])
  · have hfwd (typ : Nat) : s.tcForwards typ = true := by
      unfold tcForwards
      rw [htc]
      rfl
    have hpeer : s.peerDelay = false := by
      unfold peerDelay
      rw [htc, hoc]
      rfl
    rw [hfwd, hother, hoc, hpeer]
    rfl

theorem receive_forwarded {f g : List Byte} {u : State} (hp : s.portOn p = true) (hlen : f.length + 4 ≤ 1522)
    (hm : s.macReceive p f = (some g, u)) (capture : DWord) :
    s.receiveFrame p f capture true = u.takeFrame p g (s.inStamp p capture) := by
  rw [receiveFrame_of_on hp, if_neg (by simpa using hlen), hm]

/-! Frames that leave (R303). -/

theorem portFin (p : Fin 2) : (⟨p.val % 2, Nat.mod_lt _ (by decide)⟩ : Fin 2) = p := Fin.ext (Nat.mod_eq_of_lt p.isLt)

theorem sendFrame_open (h : s.macsec p = false) (mac f : List Byte) : s.sendFrame p mac f = s.emit (.frame p f) := by
  rw [sendFrame, if_neg (ne_true_of_eq_false h), portFin]

theorem sendFrame_dead (h : s.macsec p = true) (ha : s.macSa p = none) (mac f : List Byte) : s.sendFrame p mac f = s := by
  rw [sendFrame, if_pos h, ha]

theorem sendFrame_protected {a : MacSa} (h : s.macsec p = true) (ha : s.macSa p = some a) (mac f : List Byte) :
    s.sendFrame p mac f = (s.setMacSa p { a with tx := a.tx + 1 }).emit (.frame p (protect a (mac ++ [0, 1]) f)) := by
  rw [sendFrame, if_pos h, ha]
  dsimp only
  rw [portFin]

/-! The transparent clock (R298 to R301). -/

/-- The frame at the head of a port's queue, whose turn it is. -/
theorem transmit_head {e : EthFrame} {rest : List EthFrame} {stamp : DWord} (hp : s.portOn p = true) (hq : s.ethQueue p = e :: rest)
    (hg : s.guarded p e.bytes.length (s.outStamp p stamp) = false) : s.transmit p stamp =
      let t := s.outStamp p stamp
      let s1 := s.setEthQueue p rest
      if 2 ≤ e.from' then
        ({ s1 with time := { s1.time with req := if e.from' = 3 then some t else s1.time.req } } : State).sendFrame p (s.portMac p) e.bytes
      else
      match ptpOff s.udp e.bytes with
      | none => s1.sendFrame p (s.portMac p) e.bytes
      | some off =>
        let m := e.bytes.drop off
        let typ := beAt m 0 1 % 16
        let two := beAt m 6 1 / 2 % 2 = 1
        let peer := if s.tcMode = 2 ∧ typ = mSync then sword (s.rd (Reg.TIM_PORT_LINK e.from')) + s.asym e.from' else 0
        let d := tlDiff t e.stamp * 1024 + peer
        let send (x : State × List Byte) : State := x.1.sendFrame p (s.portMac p) x.2
        if typ = mSync ∧ two then
          let tbl := if 64 ≤ s.time.table.length then s.time.table.tail else s.time.table
          send ({ s1 with time := { s1.time with table := tbl ++ [{ key := tcKey m, delta := d, made := t }] } }, e.bytes)
        else if typ = mFollowUp then
          match s.time.table.find? (fun x => decide (x.key = tcKey m)) with
          | some x => send (({ s1 with time := { s1.time with table := s1.time.table.erase x } } : State).withCorr p e.bytes off x.delta)
          | none => send (s1.countF (Reg.TIM_PORT_ERR p) 24 8, e.bytes)
        else if typ ≤ mPdelayResp then send (s1.withCorr p e.bytes off d)
        else send (s1, e.bytes) := by
  unfold transmit
  dsimp only
  rw [hq]
  dsimp only
  rw [hp, hg]
  rfl

/-- A corrected frame on a transport without a checksum. -/
theorem send_withCorr {u : State} (hudp : u.udp = false) (f : List Byte) (off : Nat) (x : Int) (mac : List Byte) :
    let c := signedCode 64 (beAt f (off + 8) 8)
    (u.withCorr p f off x).1.sendFrame p mac (u.withCorr p f off x).2 =
      if c = corrMax ∨ corrMax < c + x ∨ c + x < -(2 ^ 63) then
        (u.countF (Reg.TIM_PORT_ERR p) 16 8).sendFrame p mac (putAt f (off + 8) (beOctets 8 (codeOf 64 corrMax)))
      else u.sendFrame p mac (putAt f (off + 8) (beOctets 8 (codeOf 64 (c + x)))) := by
  intro c
  unfold withCorr addCorr
  dsimp only
  rw [hudp, if_neg Bool.false_ne_true]
  by_cases hsat : c = corrMax ∨ corrMax < c + x ∨ c + x < -(2 ^ 63)
  · rw [if_pos hsat, if_pos hsat]
    rfl
  · rw [if_neg hsat, if_neg hsat]
    rfl

section Message
variable {e : EthFrame} {rest : List EthFrame} {stamp : DWord} {off : Nat}

/-- A message whose correctionField takes the time in the device. -/
theorem transmit_corrected (hp : s.portOn p = true) (hq : s.ethQueue p = e :: rest)
    (hg : s.guarded p e.bytes.length (s.outStamp p stamp) = false) (hfrom : e.from' < 2) (hoff : ptpOff s.udp e.bytes = some off)
    (htyp : beAt (e.bytes.drop off) 0 1 % 16 ∈ [mDelayReq, mPdelayReq, mPdelayResp]) :
    s.transmit p stamp = ((s.setEthQueue p rest).withCorr p e.bytes off (tlDiff (s.outStamp p stamp) e.stamp * 1024)).1.sendFrame p (s.portMac p)
      ((s.setEthQueue p rest).withCorr p e.bytes off (tlDiff (s.outStamp p stamp) e.stamp * 1024)).2 := by
  rw [transmit_head hp hq hg]
  dsimp only
  rw [if_neg (Nat.not_le.mpr hfrom), hoff]
  dsimp only
  generalize beAt (e.bytes.drop off) 0 1 % 16 = typ at htyp
  have hsync : typ ≠ mSync := by
    rintro rfl
    revert htyp
    decide
  have hfollow : typ ≠ mFollowUp := by
    rintro rfl
    revert htyp
    decide
  have hle : typ ≤ mPdelayResp := by
    simp only [List.mem_cons, List.not_mem_nil, or_false] at htyp
    rcases htyp with rfl | rfl | rfl <;> decide
  rw [if_neg (fun h => hsync h.1), if_neg hfollow, if_pos hle, if_neg (fun h => hsync h.2), Int.add_zero]

theorem transmit_twoStep (hp : s.portOn p = true) (hq : s.ethQueue p = e :: rest)
    (hg : s.guarded p e.bytes.length (s.outStamp p stamp) = false) (hfrom : e.from' < 2) (hoff : ptpOff s.udp e.bytes = some off)
    (htyp : beAt (e.bytes.drop off) 0 1 % 16 = mSync) (htwo : beAt (e.bytes.drop off) 6 1 / 2 % 2 = 1) (htc : s.tcMode ≠ 2)
    (hroom : s.time.table.length < 64) : s.transmit p stamp =
      ({ s.setEthQueue p rest with time := { (s.setEthQueue p rest).time with table := s.time.table ++
        [{ key := tcKey (e.bytes.drop off), delta := tlDiff (s.outStamp p stamp) e.stamp * 1024, made := s.outStamp p stamp }] } } : State).sendFrame p
          (s.portMac p) e.bytes := by
  rw [transmit_head hp hq hg]
  dsimp only
  rw [if_neg (Nat.not_le.mpr hfrom), hoff]
  dsimp only
  rw [if_pos ⟨htyp, htwo⟩, if_neg (Nat.not_le.mpr hroom), if_neg (fun h => htc h.1), Int.add_zero]

theorem transmit_followUp {x : TcEntry} (hp : s.portOn p = true) (hq : s.ethQueue p = e :: rest)
    (hg : s.guarded p e.bytes.length (s.outStamp p stamp) = false) (hfrom : e.from' < 2) (hoff : ptpOff s.udp e.bytes = some off)
    (htyp : beAt (e.bytes.drop off) 0 1 % 16 = mFollowUp)
    (hx : s.time.table.find? (fun y => decide (y.key = tcKey (e.bytes.drop off))) = some x) {u : State}
    (hu : { s.setEthQueue p rest with time := { (s.setEthQueue p rest).time with table := s.time.table.erase x } } = u) :
    s.transmit p stamp = (u.withCorr p e.bytes off x.delta).1.sendFrame p (s.portMac p) (u.withCorr p e.bytes off x.delta).2 := by
  rw [transmit_head hp hq hg]
  dsimp only
  rw [if_neg (Nat.not_le.mpr hfrom), hoff]
  dsimp only
  rw [htyp, if_neg (fun h => absurd h.1 (by decide)), if_pos rfl, hx, ← hu]
  rfl

end Message

/-! Delay_Req (R297, R304, R316). -/

theorem sendDelayReq_of_endToEnd (hen : s.ocEn = true) (hpeer : s.ocPeer = false) (hport : s.ocPort = p.val) (hudp : s.udp = false)
    (htc : s.tcMode ≠ 2) (hp : s.portOn p = true) (stamp : DWord) :
    let t := s.sendOwn p 3 ([0x01, 0x1B, 0x19, 0, 0, 0] ++ s.portMac p ++ [0x88, 0xF7] ++ s.delayReqBytes p) stamp
    s.sendDelayReq stamp = { t with time := { t.time with reqSeq := (s.time.reqSeq + 1) % 65536 } } := by
  have hpd : s.peerDelay = false := by
    unfold peerDelay
    rw [hen, hpeer, decide_eq_false htc]
    rfl
  have hhead (dst : List Byte) : s.ptpHead p dst = (dst ++ s.portMac p ++ [0x88, 0xF7], s) := by
    unfold ptpHead
    rw [hudp]
    rfl
  unfold sendDelayReq
  dsimp only
  rw [hpd, if_neg Bool.false_ne_true, hport, hen, hpeer, hp, if_neg (by decide), hhead]

theorem sendOwn_guarded {f : List Byte} {stamp : DWord} {kind : Nat} (h : s.guarded p f.length (s.outStamp p stamp) = true) :
    s.sendOwn p kind f stamp = s.setEthQueue p (s.ethQueue p ++ [{ bytes := f, from' := kind, stamp := s.outStamp p stamp }]) := if_pos h

theorem sendOwn_request {f : List Byte} {stamp : DWord} (h : s.guarded p f.length (s.outStamp p stamp) = false) :
    s.sendOwn p 3 f stamp = ({ s with time := { s.time with req := some (s.outStamp p stamp) } } : State).sendFrame p (s.portMac p) f :=
  if_neg (ne_true_of_eq_false h)

theorem ethQueue_setEthQueue_self (s : State) (p : Nat) (q : List EthFrame) : (s.setEthQueue p q).ethQueue p = q := SMap.get_set_self ..

theorem ethQueue_congr (h : t.time.queues = s.time.queues) (p : Nat) : t.ethQueue p = s.ethQueue p := by
  rw [ethQueue, ethQueue, h]

/-! Launch notices (R317). -/

theorem launchHead_of_cons {l : Launch} {rest : List Launch} (hp : s.portOn p = true) (hq : s.launchQ p = l :: rest) (capture : DWord) :
    s.launchHead p capture =
      let late := tlDiff (s.outStamp p capture) (BitVec.ofInt 64 l.sched)
      let isLate := decide ((if s.rdB (Reg.TIM_PORT_CFG p) 30 then 40960 else 16384 : Int) ≤ 100 * late)
      let s2 := (s.setLaunchQ p rest).count (Reg.TIM_LAUNCH_SENT p)
      if late < 0 then s
      else if 64000 ≤ late then (s.setLaunchQ p rest).count (Reg.TIM_LAUNCH_DROPPED p)
      else (if isLate then s2.count (Reg.TIM_LAUNCH_LATE p) else s2).sendFrame p (s.portMac p)
        (s.launchFrame p l isLate (s.outStamp p capture)) := by
  unfold launchHead
  dsimp only
  rw [hq, hp]
  dsimp only
  simp only [Bool.not_true, Bool.false_or, decide_eq_true_eq]

/-- The queue, and the counters beside its status word. -/
theorem setLaunchQ_results (s : State) (p : Fin 2) (q : List Launch) :
    (s.setLaunchQ p q = { s with launch := (s.setLaunchQ p q).launch, regs := (s.setLaunchQ p q).regs }) ∧
      (s.setLaunchQ p q).launchQ p = q ∧ ∀ k, k ≠ Reg.TIM_LAUNCH_STAT p → (s.setLaunchQ p q).rd k = s.rd k :=
  ⟨rfl, SMap.get_set_self [] s.launch p.val q, fun _ h => (wrF_rd_ne _ _ _ _ h).trans (wrF_rd_ne _ _ _ _ h)⟩

theorem launchQ_count (u : State) (k n : Nat) : (u.count k n).launchQ p = u.launchQ p := rfl

theorem count_launching {u : State} (h : u = { s with launch := u.launch, regs := u.regs }) (k n : Nat) :
    u.count k n = { s with launch := (u.count k n).launch, regs := (u.count k n).regs } := by
  obtain ⟨l, g, rfl⟩ : ∃ l g, u = { s with launch := l, regs := g } := ⟨_, _, h⟩
  rfl

end State

open State in
/-- Settles O47: each frame meets the one rule that its port, its protocol and its message type name. -/
theorem ethernetResults : Obligations.EthernetResults := by
  intro s p stamp hp rx tx forwarded
  refine ⟨fun a b fcs => ?dropped, fun b c => ?forward, fun u mac f => ⟨fun hm => sendFrame_open hm mac f, fun hm ha => sendFrame_dead hm ha mac f,
      fun a hm ha => sendFrame_protected hm ha mac f⟩, fun e rest hq hg => ?transmit, rfl, fun hen hpeer hport hudp htc => ?request,
    fun l rest hq => ?launch⟩
  case dropped =>
    intro f h
    exact congrArg Host.Outcome.next (receive_dropped hp h stamp)
  case forward =>
    intro f hlen hother
    refine ⟨fun hm hfwd => ?plain, fun a g pn hm ha hu hfwd => ?secured⟩
    case plain =>
      exact congrArg Host.Outcome.next ((receive_forwarded hp hlen (macReceive_of_open hm _) stamp).trans (takeFrame_forwarded hother hfwd _))
    case secured =>
      refine congrArg Host.Outcome.next ((receive_forwarded hp hlen (macReceive_of_valid hm ha hu) stamp).trans ?_)
      exact takeFrame_forwarded (s := s.setMacSa p { a with rx := pn + 1 }) hother hfwd _
  case transmit =>
    intro s1 leaves
    refine ⟨fun hown => ?_, fun hfrom hoff => ?_, fun off hfrom hoff => ?_⟩
    · exact congrArg Host.Outcome.next ((transmit_head hp hq hg).trans (if_pos hown))
    · refine congrArg Host.Outcome.next ((transmit_head hp hq hg).trans ((if_neg (Nat.not_le.mpr hfrom)).trans ?_))
      rw [hoff]
    · intro m typ c d corrected
      have hcorr {u : State} {x : Int} (hudp : u.udp = false) (h : s.transmit p stamp =
          (u.withCorr p e.bytes off x).1.sendFrame p (s.portMac p) (u.withCorr p e.bytes off x).2) : corrected u x := by
        rw [send_withCorr hudp] at h
        unfold corrected
        split
        next hsat => exact congrArg Host.Outcome.next (h.trans (if_pos hsat))
        next hsat => exact congrArg Host.Outcome.next (h.trans (if_neg hsat))
      exact ⟨fun htyp hudp => hcorr hudp (transmit_corrected hp hq hg hfrom hoff htyp),
        fun htyp htwo htc hroom => congrArg Host.Outcome.next (transmit_twoStep hp hq hg hfrom hoff htyp htwo htc hroom),
        fun htyp hudp x hx => hcorr hudp (transmit_followUp hp hq hg hfrom hoff htyp hx rfl)⟩
  case request =>
    intro f seq
    have hexec := sendDelayReq_of_endToEnd hen hpeer hport hudp htc hp stamp
    dsimp only at hexec
    refine ⟨fun hg => ?_, fun hg => ?_⟩
    · rw [sendOwn_request hg] at hexec
      exact congrArg Host.Outcome.next hexec
    · rw [sendOwn_guarded hg] at hexec
      exact ⟨_, congrArg Host.Outcome.next hexec, ethQueue_setEthQueue_self s p _, rfl, rfl, rfl⟩
  case launch =>
    intro late period
    have hexec : s.launchHead p stamp =
        if late < 0 then s
        else if 64000 ≤ late then (s.setLaunchQ p rest).count (Reg.TIM_LAUNCH_DROPPED p)
        else (if decide (period ≤ 100 * late) = true then ((s.setLaunchQ p rest).count (Reg.TIM_LAUNCH_SENT p)).count (Reg.TIM_LAUNCH_LATE p)
          else (s.setLaunchQ p rest).count (Reg.TIM_LAUNCH_SENT p)).sendFrame p (s.portMac p) (s.launchFrame p l (decide (period ≤ 100 * late)) tx) :=
      launchHead_of_cons hp hq stamp
    obtain ⟨hframe, hqueue, hrd⟩ := setLaunchQ_results s p rest
    have hne (k : Nat) (h : Reg.TIM_LAUNCH_SENT p ≤ k) : k ≠ Reg.TIM_LAUNCH_STAT p := by
      unfold Reg.TIM_LAUNCH_SENT at h
      unfold Reg.TIM_LAUNCH_STAT
      omega
    have hsl : Reg.TIM_LAUNCH_LATE p ≠ Reg.TIM_LAUNCH_SENT p := by
      unfold Reg.TIM_LAUNCH_LATE Reg.TIM_LAUNCH_SENT
      omega
    have hlate : Reg.TIM_LAUNCH_SENT p ≤ Reg.TIM_LAUNCH_LATE p ∧ Reg.TIM_LAUNCH_SENT p ≤ Reg.TIM_LAUNCH_DROPPED p := by
      unfold Reg.TIM_LAUNCH_LATE Reg.TIM_LAUNCH_SENT Reg.TIM_LAUNCH_DROPPED
      omega
    generalize s.setLaunchQ p rest = u at hexec hframe hqueue hrd
    clear_value late period
    refine ⟨fun h => congrArg Host.Outcome.next (hexec.trans (if_pos h)), fun h => ?_, fun h0 h => ?_⟩
    · refine ⟨_, congrArg Host.Outcome.next (hexec.trans ((if_neg (by omega)).trans (if_pos h))), count_launching hframe _ _, (launchQ_count ..).trans hqueue, ?_⟩
      rw [count_rd_self, hrd _ (hne _ hlate.2)]
    · have hsent : (u.count (Reg.TIM_LAUNCH_SENT p)).rd (Reg.TIM_LAUNCH_SENT p) = satInc (s.rd (Reg.TIM_LAUNCH_SENT p)) := by
        rw [count_rd_self, hrd _ (hne _ (Nat.le_refl _))]
      have hkept : (u.count (Reg.TIM_LAUNCH_SENT p)).rd (Reg.TIM_LAUNCH_LATE p) = s.rd (Reg.TIM_LAUNCH_LATE p) := by
        rw [count_rd_ne _ _ hsl, hrd _ (hne _ hlate.1)]
      have hcount := count_launching hframe (Reg.TIM_LAUNCH_SENT p) 1
      have hqsent : (u.count (Reg.TIM_LAUNCH_SENT p)).launchQ p = rest := (launchQ_count ..).trans hqueue
      generalize u.count (Reg.TIM_LAUNCH_SENT p) = v at hexec hsent hkept hcount hqsent
      refine ⟨_, congrArg Host.Outcome.next (hexec.trans ((if_neg (by omega)).trans (if_neg (by omega)))), ?_⟩
      by_cases hl : period ≤ 100 * late
      · rw [if_pos (decide_eq_true hl), if_pos hl]
        exact ⟨count_launching hcount _ _, (launchQ_count ..).trans hqsent, (count_rd_ne _ _ hsl.symm).trans hsent, (count_rd_self ..).trans (congrArg (satInc ·) hkept)⟩
      · rw [if_neg (by simpa using hl), if_neg hl]
        exact ⟨hcount, hqsent, hsent, hkept⟩

end Sys2Proof.Machine
end

section
/-!
PROOF. O51: opening a context, its keys, attestation and certificates (R347 to R354, R361, R366, R373, R400, R431).
-/

namespace Sys2Proof.Machine
open Sys2Proof.Claims

namespace State
variable {s : State}

/-! Opening (R347 to R350). -/

/-- The registers of SEC that opening writes. -/
def openRegs (s : State) (prot : Bool) : State :=
  (((s.count Reg.SEC_EPOCH).wrB Reg.SEC_CTX_STATUS 3 prot).wrB Reg.SEC_CTX_STATUS 11 false).wr64 Reg.SEC_VERSION_MAX 0

theorem openRegs_protected (s : State) (prot : Bool) : (s.openRegs prot).isProtected = prot := by
  have h (u : State) : ((u.wrB Reg.SEC_CTX_STATUS 11 false).wr64 Reg.SEC_VERSION_MAX 0).isProtected = u.isProtected := by
    rw [isProtected, rdB_congr (wr64_rd_ne (k := Reg.SEC_VERSION_MAX) (j := Reg.SEC_CTX_STATUS) _ 0 (by decide) (by decide)),
      rdB_wrB_ne _ _ (by decide) fun _ => by decide, isProtected]
  exact (h _).trans (rdB_wrB_self _ _ (by decide) prot)

theorem openRegs_epoch (s : State) (prot : Bool) : (s.openRegs prot).rd Reg.SEC_EPOCH = satInc (s.rd Reg.SEC_EPOCH) := by
  unfold openRegs
  rw [wr64_rd_ne (k := Reg.SEC_VERSION_MAX) (j := Reg.SEC_EPOCH) _ 0 (by decide) (by decide), wrB_rd_ne _ _ _ (by decide),
    wrB_rd_ne _ _ _ (by decide), count_rd_self]

theorem openRegs_frame (s : State) (prot : Bool) : ∃ g, s.openRegs prot = { s with regs := g } := by
  have hbit (u : State) (k i : Nat) (b : Bool) : ∃ g, u.wrB k i b = { u with regs := g } := ⟨_, rfl⟩
  have hpair (u : State) (k : Nat) (v : DWord) : ∃ g, u.wr64 k v = { u with regs := g } := ⟨_, rfl⟩
  obtain ⟨g0, h0⟩ : ∃ g, s.count Reg.SEC_EPOCH = { s with regs := g } := ⟨_, rfl⟩
  unfold openRegs
  rw [h0]
  obtain ⟨g1, h1⟩ := hbit { s with regs := g0 } Reg.SEC_CTX_STATUS 3 prot
  obtain ⟨g2, h2⟩ := hbit { s with regs := g1 } Reg.SEC_CTX_STATUS 11 false
  rw [h1, h2]
  exact hpair { s with regs := g2 } ..

/-- The stores of SEC and of memory that opening clears. -/
def openStores (s : State) (r : Nat) (owner : List Byte) : State :=
  { s with
    mem := { s.mem with ctr := [], dirty := [] }, joins := 0, ueStop := false,
    sec := { s.sec with opening := some r, owner := owner, nonces := [], keys := [], reqs := 0 } }

theorem openContext_eq (s : State) (r : Nat) (prot : Bool) (owner : List Byte) : s.openContext r prot owner =
    (((s.openRegs prot).openStores r (if prot then owner else [])).setCtx ctxOpening).relimit := rfl

theorem openStores_rd (s : State) (r : Nat) (owner : List Byte) (k : Nat) : (s.openStores r owner).rd k = s.rd k := rfl

/-- Beside a register field and the servo's limit, a state is as it was. -/
theorem setCtx_relimit_frame (s : State) (n : Nat) : ∃ g, (s.setCtx n).relimit = { s with regs := g } := by
  rw [relimit_frame]
  exact ⟨_, rfl⟩

theorem setCtx_relimit_rd (s : State) (n : Nat) {k : Nat} (h : k ≠ Reg.SEC_CTX_STATUS) (h1 : k ≠ Reg.TIM_RATE) (h2 : k ≠ Reg.TIM_STATUS) :
    (s.setCtx n).relimit.rd k = s.rd k := (relimit_rd _ h1 h2).trans (setCtx_rd _ _ h)

theorem setCtx_isProtected (s : State) (n : Nat) : (s.setCtx n).isProtected = s.isProtected :=
  rdB_wrF_ne s (by decide) fun _ => by decide

theorem openContext_rd (s : State) (r : Nat) (prot : Bool) (owner : List Byte) {k : Nat} (h : k ≠ Reg.SEC_CTX_STATUS) (h1 : k ≠ Reg.TIM_RATE)
    (h2 : k ≠ Reg.TIM_STATUS) : (s.openContext r prot owner).rd k = (s.openRegs prot).rd k := by
  rw [openContext_eq, setCtx_relimit_rd _ _ h h1 h2, openStores_rd]

/-- The stores of a context that has been opened. -/
theorem openContext_stores (s : State) (r : Nat) (prot : Bool) (owner : List Byte) : let t := s.openContext r prot owner
    t.rings = s.rings ∧ t.sec.opening = some r ∧ t.sec.keys = [] ∧ t.sec.nonces = [] ∧ t.sec.owner = (if prot then owner else []) ∧
      t.mem.dirty = [] := by
  intro t
  obtain ⟨g, hg⟩ := openRegs_frame s prot
  obtain ⟨g', hg'⟩ := setCtx_relimit_frame (({ s with regs := g } : State).openStores r (if prot then owner else [])) ctxOpening
  have ht : t = { ({ s with regs := g } : State).openStores r (if prot then owner else []) with regs := g' } := by
    rw [← hg', ← hg]
    rfl
  rw [ht]
  exact ⟨rfl, rfl, rfl, rfl, rfl, rfl⟩

theorem openContext_status (s : State) (r : Nat) (prot : Bool) (owner : List Byte) :
    (s.openContext r prot owner).ctx = ctxOpening ∧ (s.openContext r prot owner).isProtected = prot := by
  rw [openContext_eq]
  refine ⟨?_, ?_⟩
  · rw [ctx, rdF_congr (relimit_rd _ (by decide) (by decide))]
    exact setCtx_ctx _ _ (by decide)
  · rw [isProtected, rdB_congr (relimit_rd _ (by decide) (by decide))]
    exact (setCtx_isProtected _ _).trans ((rdB_congr (openStores_rd ..) 3).trans (openRegs_protected s prot))

theorem openContext_counters (s : State) (r : Nat) (prot : Bool) (owner : List Byte) :
    (s.openContext r prot owner).rd Reg.SEC_EPOCH = satInc (s.rd Reg.SEC_EPOCH) ∧ (s.openContext r prot owner).rd64 Reg.SEC_VERSION_MAX = 0 := by
  refine ⟨(openContext_rd _ _ _ _ (by decide) (by decide) (by decide)).trans (openRegs_epoch s prot), ?_⟩
  rw [rd64_congr (openContext_rd _ _ _ _ (by decide) (by decide) (by decide)) (openContext_rd _ _ _ _ (by decide) (by decide) (by decide))]
  exact wr64_rd64 ..

/-! What stands against opening (R349, R352, R400, R431). -/

theorem openRefused_contain {prot owner : Bool} (h : s.rdB Reg.ERR_STATUS 31 = true ∨ s.uePending = true) :
    s.openRefused prot owner = some 400 := if_pos (by rcases h with h | h <;> simp [h])

theorem openRefused_boot {prot owner : Bool} (h31 : s.rdB Reg.ERR_STATUS 31 = false) (hue : s.uePending = false)
    (h : s.rdF Reg.GLB_BOOT_STATUS 8 4 ≠ 0) : s.openRefused prot owner = some 431 :=
  (if_neg (by simp [h31, hue])).trans (if_pos h)

theorem openRefused_entropy {prot owner : Bool} (h31 : s.rdB Reg.ERR_STATUS 31 = false) (hue : s.uePending = false)
    (h8 : s.rdF Reg.GLB_BOOT_STATUS 8 4 = 0) (h : s.rdB Reg.SEC_CTX_STATUS 7 = false) : s.openRefused prot owner = some 352 :=
  (if_neg (by simp [h31, hue])).trans ((if_neg (not_not_intro h8)).trans (if_pos (by rw [h]; rfl)))

/-- With nothing else against it, a protected context needs IDE and an owner key. -/
theorem openRefused_links {prot owner : Bool} (h31 : s.rdB Reg.ERR_STATUS 31 = false) (hue : s.uePending = false)
    (h8 : s.rdF Reg.GLB_BOOT_STATUS 8 4 = 0) (h7 : s.rdB Reg.SEC_CTX_STATUS 7 = true) :
    s.openRefused prot owner = if prot && !(s.ideActive && owner) then some 349 else none :=
  (if_neg (by simp [h31, hue])).trans ((if_neg (not_not_intro h8)).trans (if_neg (by rw [h7]; decide)))

section Open
variable {r : Fin 16} {e : SubEntry} (hrun : Runs s r 0x40 1 e) (hmode : e.param 0 1 ≤ 1) (hlen : e.param 0 1 = 1 → e.len0.toNat = 384)
include hrun hmode hlen

/-- CTX_OPEN with a mode and an owner key of the right form meets the state of the context. -/
theorem exec_ctxOpen (data : List Byte) : exec (.ctxOpen r data none) s = .next (
    if s.ctx = ctxEnding ∨ s.ctx = ctxScrubbing then s.complete r stUnavailable
    else if s.ctx = ctxHalted then s.completeState r
    else if s.ctx ≠ ctxNone then s.completeRefused r 349
    else match s.openRefused (decide (e.param 0 1 = 1)) (decide (e.len0.toNat = 384)) with
      | some rule => s.completeRefused r rule
      | none => s.openContext r (decide (e.param 0 1 = 1)) (fitTo 384 data)) := by
  refine congrArg Host.Outcome.next ((onRing_of_runs hrun _).trans ?_)
  refine (if_neg (Nat.not_lt.mpr hmode)).trans ((if_neg ?_).trans rfl)
  by_cases h : e.param 0 1 = 1
  · simp [hlen h]
  · simp [h]

theorem ctxOpen_refused (data : List Byte) (hctx : s.ctx = ctxNone) {rule : Nat}
    (h : s.openRefused (decide (e.param 0 1 = 1)) (decide (e.len0.toNat = 384)) = some rule) :
    exec (.ctxOpen r data none) s = .next (s.completeRefused r rule) := by
  rw [exec_ctxOpen hrun hmode hlen, h, hctx]
  rfl

theorem ctxOpen_accepted (data : List Byte) (hctx : s.ctx = ctxNone)
    (h : s.openRefused (decide (e.param 0 1 = 1)) (decide (e.len0.toNat = 384)) = none) :
    exec (.ctxOpen r data none) s = .next (s.openContext r (decide (e.param 0 1 = 1)) (fitTo 384 data)) := by
  rw [exec_ctxOpen hrun hmode hlen, h, hctx]
  rfl

end Open

/-! The keys (R348, R353, R354). -/

/-- What the installed keys change: a generation number is drawn, and the state is READY. -/
theorem keysInstalled_results {r : Fin 16} (hopen : s.sec.opening = some r.val) (hctx : s.ctx = ctxOpening)
    (hspare : s.rdB Reg.SEC_CTX_STATUS 8 = true) :
    ∃ u : State, s.keysInstalled = u.completeOp 0x40 r stOk ((s.rd Reg.SEC_EPOCH).setWidth 64) ∧ u.rings = s.rings ∧ u.ctx = ctxReady ∧
      u.rdB Reg.SEC_CTX_STATUS 8 = false ∧ u.keyGen = s.freeCount + 1 ∧ u.freeCount = s.freeCount + 1 ∧ u.sec.session = u.keyGen ∧
      u.sec.opening = none := by
  have hregs (v : State) (b : Bool) : let w := ((v.wrB Reg.SEC_CTX_STATUS 8 false).wrB Reg.SEC_LINKS 6 b).setCtx ctxReady
      w.ctx = ctxReady ∧ w.rdB Reg.SEC_CTX_STATUS 8 = false := by
    refine ⟨setCtx_ctx _ _ (by decide), ?_⟩
    rw [setCtx, rdB_wrF_ne _ (by decide) fun _ => by decide, rdB_congr (wrB_rd_ne _ _ _ (by decide)), rdB_wrB_self _ _ (by decide)]
  unfold keysInstalled
  rw [hopen]
  dsimp only
  rw [if_neg (by simp [hctx, hspare])]
  obtain ⟨hready, hused⟩ := hregs (s.newGen (if s.isProtected then 7 else 5)).2 s.isProtected
  exact ⟨_, rfl, rfl, hready, hused, rfl, rfl, rfl, rfl⟩

/-! Reports, keys and certificates (R355, R361, R366, R373). -/

theorem keepNonce_leaves (s : State) (nonce : List Byte) :
    (s.keepNonce nonce).rings = s.rings ∧ (s.keepNonce nonce).regs = s.regs ∧ (s.keepNonce nonce).out = s.out := by
  unfold keepNonce
  split
  · exact ⟨rfl, rfl, rfl⟩
  · exact ⟨rfl, rfl, rfl⟩

section Commands
variable {r : Fin 16} {e : SubEntry}

theorem exec_attest (hrun : Runs s r 0x41 0 e) (hlen : 1152 ≤ e.len1.toNat) (nonce : List Byte) :
    exec (.attest r nonce none) s = .next (((s.keepNonce nonce).emit (.hostWrite e.addr1 (s.report nonce))).complete r stOk
      (BitVec.ofNat 64 s.reportFlags) (BitVec.ofNat 64 s.ctx)) := by
  refine congrArg Host.Outcome.next ((onRing_of_runs hrun _).trans ?_)
  exact (if_neg (Nat.not_lt.mpr hlen)).trans (if_neg (by decide))

theorem openContext_of_ready (h : s.ctx ∈ [ctxReady, ctxLoaded, ctxRunning]) : OpenContext s ∧ s.ctx ≠ ctxHalted := by
  simp only [List.mem_cons, List.not_mem_nil, or_false] at h
  unfold OpenContext
  rcases h with h | h | h <;> rw [h] <;> decide

theorem exec_keyRelease (hrun : Runs s r 0x42 0 e) (hlen : e.len0.toNat = 384) (hctx : s.ctx ∈ [ctxReady, ctxLoaded, ctxRunning])
    (blob : List Byte) : exec (.keyRelease r blob none) s = .next (s.release r blob) := by
  obtain ⟨hopen, hhalt⟩ := openContext_of_ready hctx
  refine congrArg Host.Outcome.next ((onRing_of_runs hrun _).trans ?_)
  exact (if_neg (not_not_intro hlen)).trans (needsState_of_ok hopen (decide_eq_true hhalt) _ _)

theorem release_accepted {blob m : List Byte} (hm : Config.sessionOpen s.sec.session blob = some m) (hok : s.releaseOk m = true) (r : Nat) :
    let k : RelKey := { id := leAt m 8 4, measure := (m.drop 0x40).take 32, key := (m.drop 0x60).take 32 }
    s.release r blob = ({ s with sec := { s.sec with keys := s.sec.keys ++ [k] } } : State).complete r stOk
      (BitVec.ofNat 64 (leAt m 8 4)) (BitVec.ofNat 64 (s.sec.keys.length + 1)) := by
  intro k
  unfold release
  rw [hm]
  refine (if_pos hok).trans ?_
  dsimp only
  rw [List.length_append]
  rfl

theorem release_refused {blob : List Byte} (h : Config.sessionOpen s.sec.session blob = none ∨
    ∃ m, Config.sessionOpen s.sec.session blob = some m ∧ s.releaseOk m = false) (r : Nat) : s.release r blob = s.completeRefused r 366 := by
  unfold release
  rcases h with h | ⟨m, hm, hok⟩
  · rw [h]
  · rw [hm]
    exact if_neg (by rw [hok]; decide)

theorem exec_keyExport (hrun : Runs s r 0x43 1 e) (hmode : e.param 0 1 ≤ 1) (hlen : 384 ≤ e.len0.toNat)
    (hctx : s.ctx ∈ [ctxReady, ctxLoaded, ctxRunning]) : exec (.keyExport r none) s = .next (s.exportKey r e none) := by
  obtain ⟨hopen, hhalt⟩ := openContext_of_ready hctx
  refine congrArg Host.Outcome.next ((onRing_of_runs hrun _).trans ?_)
  exact (if_neg (Nat.not_lt.mpr hmode)).trans ((if_neg (Nat.not_lt.mpr hlen)).trans (needsState_of_ok hopen (decide_eq_true hhalt) _ _))

theorem exportKey_protected (h : s.isProtected = true) (r : Nat) (e : SubEntry) :
    ∃ bs, s.exportKey r e none = ((s.draw 32).2.emit (.hostWrite e.addr0 bs)).complete r stOk ((s.rd Reg.SEC_EPOCH).setWidth 64) 0 := by
  have hepoch : BitVec.ofNat 64 (s.rd Reg.SEC_EPOCH).toNat = (s.rd Reg.SEC_EPOCH).setWidth 64 := BitVec.ofNat_toNat ..
  rw [← hepoch]
  exact ⟨oaepEncrypt s.sec.owner (s.exportMessage (e.param 0 1)) (s.draw 32).1, if_neg (by rw [h]; decide)⟩

theorem exec_getCert (hrun : Runs s r 0x44 0 e) : exec (.getCert r none) s = .next (
    if !Config.chainVerifies s.flash.cert then s.completeRefused r 355
    else if e.len0.toNat < s.flash.cert.length then s.completeBad r 0x10
    else s.writeAnswer r none e.addr0 s.flash.cert s.flash.cert.length (Config.chainCount s.flash.cert)) :=
  congrArg Host.Outcome.next (onRing_of_runs hrun _)

end Commands

end State

open State in
/-- Settles O51: CTX_OPEN meets the context's state and then the four rules that may refuse it; the other commands each have one
acceptance test. -/
theorem contextKeyResults : Obligations.ContextKeyResults := by
  intro s r e data epoch
  refine ⟨fun hrun hctx hmode hlen => ?opening, fun hrun hmode hlen => ⟨fun h => ?_, fun h => ?_, fun h => ?_⟩, fun hopen hctx hspare => ?keys,
    fun hrun hlen => ?attest, fun hrun hlen hctx => ⟨fun m hm hok => ?_, fun h => ?_⟩, fun hrun hmode hlen hctx => ⟨fun h => ?_, fun h => ?_⟩,
    fun hrun => ⟨fun hv hl => ?_, fun hv => ?_⟩⟩
  case opening =>
    intro prot i
    refine ⟨fun h31 hue h8 h7 hide => ?_, fun h => ctxOpen_refused hrun hmode hlen data hctx (openRefused_contain h),
      fun h31 hue h => ctxOpen_refused hrun hmode hlen data hctx (openRefused_boot h31 hue h),
      fun h31 hue h8 h => ctxOpen_refused hrun hmode hlen data hctx (openRefused_entropy h31 hue h8 h), fun h31 hue h8 h7 hp hide => ?_⟩
    · have hnone : s.openRefused prot (decide (e.len0.toNat = 384)) = none := by
        rw [openRefused_links h31 hue h8 h7]
        refine if_neg fun hc => ?_
        obtain ⟨hp, hc⟩ := Bool.and_eq_true_iff.mp hc
        rw [hide hp, decide_eq_true (hlen (of_decide_eq_true hp))] at hc
        exact absurd hc (by decide)
      obtain ⟨hrings, hop, hkeys, hnonces, howner, hdirty⟩ := openContext_stores s r prot (fitTo 384 data)
      obtain ⟨hopening, hprot⟩ := openContext_status s r prot (fitTo 384 data)
      obtain ⟨hepoch, hversion⟩ := openContext_counters s r prot (fitTo 384 data)
      exact ⟨_, ctxOpen_accepted hrun hmode hlen data hctx hnone, hopening, hprot, hepoch, hversion, running_congr hrings r, hop, hkeys, hnonces,
        howner, hdirty⟩
    · refine ctxOpen_refused hrun hmode hlen data hctx ((openRefused_links h31 hue h8 h7).trans (if_pos ?_))
      rw [hide, show decide (e.param 0 1 = 1) = true from hp]
      rfl
  · rw [exec_ctxOpen hrun hmode hlen]
    simp only [List.mem_cons, List.not_mem_nil, or_false] at h
    rcases h with h | h | h | h <;> rw [h] <;> rfl
  · rw [exec_ctxOpen hrun hmode hlen, h]
    rfl
  · rw [exec_ctxOpen hrun hmode hlen]
    simp only [List.mem_cons, List.not_mem_nil, or_false] at h
    exact congrArg Host.Outcome.next (if_pos h)
  case keys =>
    obtain ⟨u, hu, hrings, hready, hused, hgen, hfree, hsession, hdone⟩ := keysInstalled_results hopen hctx hspare
    exact ⟨u, congrArg Host.Outcome.next hu, running_congr hrings r, hready, hused, hgen, hfree, hsession, hdone⟩
  case attest =>
    obtain ⟨hrings, hregs, hout⟩ := keepNonce_leaves s data
    exact ⟨_, fitTo 384 (Config.identitySign (s.reportBody data)), ⟨exec_attest hrun hlen data, running_congr hrings r⟩, length_fitTo ..,
      congrArg (· ++ _) hout, hregs⟩
  · exact ⟨_, ⟨(exec_keyRelease hrun hlen hctx data).trans (congrArg Host.Outcome.next (release_accepted hm hok r)), running_congr rfl r⟩, rfl, rfl⟩
  · exact (exec_keyRelease hrun hlen hctx data).trans (congrArg Host.Outcome.next (release_refused h r))
  · exact (exec_keyExport hrun hmode hlen hctx).trans (congrArg Host.Outcome.next (if_pos (by rw [h]; rfl)))
  · obtain ⟨bs, hbs⟩ := exportKey_protected h r e
    exact ⟨_, bs, ⟨(exec_keyExport hrun hmode hlen hctx).trans (congrArg Host.Outcome.next hbs), running_congr rfl r⟩, rfl⟩
  · refine ⟨(exec_getCert hrun).trans (congrArg Host.Outcome.next ?_), running_congr rfl r⟩
    exact (if_neg (by rw [hv]; decide)).trans (if_neg (Nat.not_lt.mpr hl))
  · exact (exec_getCert hrun).trans (congrArg Host.Outcome.next (if_pos (by rw [hv]; rfl)))

end Sys2Proof.Machine
end

section
/-!
PROOF. O52: privilege, operator keys and the security of the links (R352, R354, R355, R369, R371, R380, R381, R391).
-/

namespace Sys2Proof.Machine
open Sys2Proof.Claims

/-- A field of three ones has each of its bits set. -/
theorem bit_of_fieldNat_seven {w : Word} {i : Nat} (hi : i < 3) (h : fieldNat w 0 3 = 7) : bit w i = true := by
  have hw : w.extractLsb' 0 3 = 7#3 := BitVec.eq_of_toNat_eq h
  have hbit : (w.extractLsb' 0 3).getLsbD i = true := by
    rw [hw]
    obtain rfl | rfl | rfl : i = 0 ∨ i = 1 ∨ i = 2 := by omega
    all_goals decide
  rw [BitVec.getLsbD_extractLsb'] at hbit
  simpa [hi] using hbit

namespace State
variable {s : State} {r : Fin 16} {e : SubEntry}

/-! Privilege (R355, R380). -/

theorem exec_privChallenge (hrun : Runs s r 0x45 0 e) (hlen : 32 ≤ e.len0.toNat) :
    exec (.privChallenge r none) s = .next ((({ (s.draw 32).2 with sec := { (s.draw 32).2.sec with challenge := some (s.draw 32).1 } } : State).emit
      (.hostWrite e.addr0 (s.draw 32).1)).complete r stOk 0 0) := by
  refine congrArg Host.Outcome.next ((onRing_of_runs hrun _).trans ?_)
  exact if_neg (Nat.not_lt.mpr hlen)

theorem length_draw (s : State) (n : Nat) : (s.draw n).1.length = n := by
  rw [draw]
  dsimp only
  rw [List.length_map, List.length_range]

theorem signCompletion_signed (hrun : s.running r = some e) (status : Byte) (res0 : DWord) (detail : Word) : ∃ mine : List Byte,
    mine.length = 384 ∧ s.signCompletion r status res0 detail = (s.emit (.answer mine)).complete r status res0 0 detail := by
  unfold signCompletion
  rw [hrun]
  exact ⟨_, length_fitTo .., rfl⟩

section Grant
variable {sig key : List Byte} (hrun : Runs s r 0x46 8 e) (hslot : e.param 0 1 ≤ 3) (hzero : e.firstNonzero 0x29 0x2C = none)
  (hsecs : e.param 4 4 ≤ 86400) (hlen : e.len0.toNat = 384)
include hrun hslot hzero hsecs hlen

theorem exec_privGrant : exec (.privGrant r sig key none) s = .next (s.grant r (e.param 0 1) (e.param 4 4) sig key) := by
  refine congrArg Host.Outcome.next ((onRing_of_runs hrun _).trans ?_)
  refine (if_neg (Nat.not_lt.mpr hslot)).trans ?_
  rw [hzero]
  exact (if_neg (Nat.not_lt.mpr hsecs)).trans (if_neg (not_not_intro hlen))

/-- A refused grant is signed as well (R355). -/
theorem privGrant_refused (h : s.grant r (e.param 0 1) (e.param 4 4) sig key = s.signCompletion r stRefused 0 380) :
    ∃ mine, mine.length = 384 ∧ exec (.privGrant r sig key none) s = .next ((s.emit (.answer mine)).completeRefused r 380) := by
  obtain ⟨mine, hmine, hsigned⟩ := signCompletion_signed hrun.1 stRefused 0 380
  exact ⟨mine, hmine, (exec_privGrant hrun hslot hzero hsecs hlen).trans (congrArg Host.Outcome.next (h.trans hsigned))⟩

end Grant

section Grant
variable {slot secs : Nat} {sig key c : List Byte}

theorem grant_without_challenge (h : s.sec.challenge = none) : s.grant r slot secs sig key = s.signCompletion r stRefused 0 380 := by
  unfold grant
  rw [h]

theorem grant_unsigned (hc : s.sec.challenge = some c)
    (h : s.fuse.opkey slot ≠ some (sha256 key) ∨ pssVerify key (s.grantMessage c secs) sig = false) :
    s.grant r slot secs sig key = s.signCompletion r stRefused 0 380 := by
  unfold grant
  rw [hc]
  refine if_neg fun hok => ?_
  obtain ⟨hkey, hsig⟩ := Bool.and_eq_true_iff.mp hok
  rcases h with h | h
  · exact h (of_decide_eq_true hkey)
  · exact Bool.false_ne_true (h.symm.trans hsig)

/-- SEC_PRIV while a grant of `secs` seconds on an operator's slot is in force (R380). -/
def grantWord (slot secs : Nat) : Word := if secs = 0 then 0 else BitVec.ofNat 32 (secs * 2 ^ 8 + slot * 2 ^ 4 + 1)

/-- The state in which a grant completes: privilege is given, or taken back, and the challenge is used up. -/
def granted (s : State) (slot secs : Nat) : State :=
  ({ s with sec := { s.sec with challenge := none, privAt := s.now } } : State).wr Reg.SEC_PRIV (grantWord slot secs)

theorem grant_signed (hc : s.sec.challenge = some c) (hkey : s.fuse.opkey slot = some (sha256 key))
    (hsig : pssVerify key (s.grantMessage c secs) sig = true) :
    s.grant r slot secs sig key = (s.granted slot secs).signCompletion r stOk (BitVec.ofNat 64 secs) 0 := by
  unfold grant
  rw [hc]
  exact if_pos (Bool.and_eq_true_iff.mpr ⟨decide_eq_true hkey, hsig⟩)

theorem granted_rd (s : State) (slot secs : Nat) : (s.granted slot secs).rd Reg.SEC_PRIV = grantWord slot secs := rd_wr_self ..

theorem grantWord_fields (hslot : slot ≤ 3) (hsecs : secs ≤ 86400) : bit (grantWord slot secs) 0 = decide (secs ≠ 0) ∧
    (secs ≠ 0 → fieldNat (grantWord slot secs) 8 24 = secs ∧ fieldNat (grantWord slot secs) 4 4 = slot) := by
  unfold grantWord
  by_cases h : secs = 0
  · subst h
    rw [if_pos rfl]
    exact ⟨by decide, fun hne => absurd rfl hne⟩
  · rw [if_neg h, decide_eq_true h]
    refine ⟨?_, fun _ => ⟨?_, ?_⟩⟩
    · rw [bit, BitVec.getLsbD_ofNat, Nat.testBit_zero]
      simp only [Nat.zero_lt_succ, decide_true, Bool.true_and, decide_eq_true_eq]
      omega
    · rw [fieldNat_ofNat _ (by decide)]
      omega
    · rw [fieldNat_ofNat _ (by decide)]
      omega

theorem granted_frame (s : State) (slot secs : Nat) : ∃ x g, s.granted slot secs = { s with sec := x, regs := g } ∧ x.challenge = none :=
  ⟨_, _, rfl, rfl⟩

end Grant

/-! Operator keys and the CAK (R371, R380, R381). -/

theorem exec_opkeyEnrol (hrun : Runs s r 0x47 1 e) (hslot : e.param 0 1 ≤ 3) (hlen : e.len0.toNat = 384) (m : Master) (key : List Byte) :
    exec (.opkeyEnrol r m key none) s = .next (s.enrol r (e.param 0 1) m (fitTo 384 key)) := by
  refine congrArg Host.Outcome.next ((onRing_of_runs hrun _).trans ?_)
  exact (if_neg (Nat.not_lt.mpr hslot)).trans (if_neg (not_not_intro hlen))

/-- A slot is burned when some entry names it. -/
theorem opkey_eq_none_iff (f : Fuses) (slot : Nat) : f.opkey slot = none ↔ f.opkeys.any (fun e => decide (e.1 = slot)) = false := by
  rw [Fuses.opkey, Option.map_eq_none_iff, List.find?_eq_none, List.any_eq_false]

/-- The slot's fuses are burned with the key's hash. -/
def enrolled (s : State) (slot : Nat) (modulus : List Byte) : State :=
  ({ s with fuse := { s.fuse with opkeys := SMap.insert s.fuse.opkeys slot (sha256 modulus) } } : State).wrB Reg.SEC_OPKEYS slot true

theorem enrolled_results (s : State) {slot : Nat} (h : slot < 32) (modulus : List Byte) : let u := s.enrolled slot modulus
    u.rings = s.rings ∧ u.fuse.opkey slot = some (sha256 modulus) ∧ u.rdB Reg.SEC_OPKEYS slot = true ∧ u.fuse.repair = s.fuse.repair ∧
      u.fuse.minSvn = s.fuse.minSvn :=
  ⟨rfl, congrArg (Option.map Prod.snd) (SMap.find_insert_self s.fuse.opkeys slot (sha256 modulus)), rdB_wrB_self _ _ h true, rfl, rfl⟩

theorem enrol_accepted {slot : Nat} {m : Master} (hm : s.fuse.opkeys = [] ∨ s.privileged m = true) (hslot : s.fuse.opkey slot = none)
    (modulus : List Byte) : s.enrol r slot m modulus = (s.enrolled slot modulus).complete r stOk := by
  refine if_neg ?_
  rw [(opkey_eq_none_iff ..).mp hslot]
  rcases hm with hm | hm <;> simp [hm]

theorem enrol_refused {slot : Nat} {m : Master} (h : (s.fuse.opkeys ≠ [] ∧ s.privileged m = false) ∨ s.fuse.opkey slot ≠ none)
    (modulus : List Byte) : s.enrol r slot m modulus = s.completeRefused r 380 := by
  refine if_pos ?_
  rcases h with ⟨hburned, hm⟩ | h
  · simp [hburned, hm]
  · rw [ne_eq, opkey_eq_none_iff, Bool.not_eq_false] at h
    rw [h, Bool.or_true]

theorem exec_cakSet (hrun : Runs s r 0x48 24 e) (hslot : e.param 0 1 ≤ 1) (hzero : e.firstNonzero 0x29 0x30 = none)
    (hlen : e.len0.toNat = 32) (m : Master) (key : List Byte) : exec (.cakSet r m key none) s = .next (
      if m ≠ .f1 ∨ !s.privileged m then s.completeRefused r 381
      else ({ s with sec := { s.sec with cak := SMap.set [] s.sec.cak (e.param 0 1) (leBytes 16 (e.param 8 16) ++ fitTo 32 key) } } :
        State).complete r stOk) := by
  refine congrArg Host.Outcome.next ((onRing_of_runs hrun _).trans ?_)
  refine (if_neg (Nat.not_lt.mpr hslot)).trans ?_
  rw [hzero]
  exact if_neg (not_not_intro hlen)

/-! Key agreement on a port (R371). -/

theorem free256_frame (s : State) : ∃ n, s.free256.2 = { s with freeCount := n } := by
  have hfree (n : Nat) : ∃ n', ({ s with freeCount := n } : State).free.2 = { s with freeCount := n' } := ⟨_, rfl⟩
  obtain ⟨n1, h1⟩ := hfree s.freeCount
  obtain ⟨n2, h2⟩ := hfree n1
  obtain ⟨n3, h3⟩ := hfree n2
  obtain ⟨n4, h4⟩ := hfree n3
  exact ⟨n4, by rw [free256_snd, h1, h2, h3, h4]⟩

theorem newSak_isSome (s : State) (p : Nat) (key : List Byte) (x : BitVec 256) : ((s.newSak p key x).macSa p).isSome = true := by
  unfold newSak
  exact congrArg Option.isSome (SMap.get_set_self (none : Option MacSa) s.sec.sak p (some _))

/-- A port under key agreement has its bit in SEC_LINKS and a live SAK, and the device has answered. -/
theorem mka_agreed {p : Nat} (hp : p < 2) (h : SMap.get [] s.sec.cak p ≠ []) : ∃ bs, let t := s.mka p true
    OnlyRegs { s with sec := t.sec, freeCount := t.freeCount, out := t.out } t [Reg.SEC_LINKS] ∧ t.rdB Reg.SEC_LINKS (4 + p) = true ∧
      (t.macSa p).isSome = true ∧ t.out = s.out ++ [.answer bs] := by
  obtain ⟨x, hx⟩ : ∃ x, (s.draw 32).2 = { s with sec := x } := ⟨_, rfl⟩
  have hmka : s.mka p true = ((((s.draw 32).2.wrB Reg.SEC_LINKS (4 + p) true).free256.2.free256.2.newSak p (s.draw 32).1
      ((s.draw 32).2.wrB Reg.SEC_LINKS (4 + p) true).free256.2.free256.1).emit
        (.answer (bytesOf 32 ((s.draw 32).2.wrB Reg.SEC_LINKS (4 + p) true).free256.1))) := if_pos (by simp [h])
  rw [hx] at hmka
  obtain ⟨u, hu⟩ : ∃ u, ({ s with sec := x } : State).wrB Reg.SEC_LINKS (4 + p) true = u := ⟨_, rfl⟩
  rw [hu] at hmka
  have hbit : u.rdB Reg.SEC_LINKS (4 + p) = true := by rw [← hu, rdB_wrB_self _ _ (by omega)]
  have hrd (k : Nat) (hk : k ∉ [Reg.SEC_LINKS]) : u.rd k = s.rd k := by
    rw [← hu, wrB_rd_ne _ _ _ (by simpa using hk)]
    rfl
  obtain ⟨g, rfl⟩ : ∃ g, u = { s with sec := x, regs := g } := ⟨_, hu.symm⟩
  obtain ⟨n, hn⟩ := free256_frame { s with sec := x, regs := g }
  obtain ⟨n', hn'⟩ := free256_frame { s with sec := x, regs := g, freeCount := n }
  rw [hmka, hn, hn']
  exact ⟨_, ⟨rfl, hrd⟩, hbit, newSak_isSome .., rfl⟩

theorem mka_without_cak {p : Nat} (h : SMap.get [] s.sec.cak p = []) (valid : Bool) : s.mka p valid = s :=
  if_neg (by simp [h])

theorem mka_invalid (s : State) (p : Nat) : s.mka p false = s := if_neg (by simp)

/-! IDE (R369). -/

theorem ideBit_lt (p : CxlProto) : ideBit p < 3 := by cases p <;> decide

/-- IDE on a protocol starts or stops: its bit, and IDE as a whole while all three are on. -/
theorem setIde_results (s : State) (p : CxlProto) (on : Bool) : let t := s.setIde p on
    OnlyRegs s t [Reg.SEC_LINKS, Reg.SEC_CTX_STATUS] ∧ t.rdB Reg.SEC_LINKS (ideBit p) = on ∧
      (t.ideActive = true ↔ t.rdF Reg.SEC_LINKS 0 3 = 7) ∧ t.ctx = s.ctx := by
  obtain ⟨u, hu⟩ : ∃ u, s.wrB Reg.SEC_LINKS (ideBit p) on = u := ⟨_, rfl⟩
  have honly : OnlyRegs s u [Reg.SEC_LINKS, Reg.SEC_CTX_STATUS] := hu ▸ onlyRegs_wrB s (by decide) _ _
  have hbit : u.rdB Reg.SEC_LINKS (ideBit p) = on := hu ▸ rdB_wrB_self s _ (Nat.lt_trans (ideBit_lt p) (by decide)) on
  have hset : s.setIde p on = u.wrB Reg.SEC_CTX_STATUS 6 (decide (u.rdF Reg.SEC_LINKS 0 3 = 7)) := by rw [setIde, hu]
  have hrd (b : Bool) : (u.wrB Reg.SEC_CTX_STATUS 6 b).rd Reg.SEC_LINKS = u.rd Reg.SEC_LINKS := wrB_rd_ne _ _ _ (by decide)
  intro t
  have ht : t = _ := hset
  rw [ht]
  refine ⟨onlyRegs_trans honly (onlyRegs_wrB u (by decide) _ _), (rdB_congr (hrd _) _).trans hbit, ?_, ?_⟩
  · rw [ideActive, rdB_wrB_self _ _ (by decide), rdF_congr (hrd _), decide_eq_true_eq]
  · rw [ctx, rdF_wrB_ne _ _ (by decide) fun _ => by decide, ctx, rdF_congr (hu ▸ wrB_rd_ne s _ _ (by decide))]

theorem setIde_off (s : State) (p : CxlProto) : (s.setIde p false).ideActive = false := by
  obtain ⟨-, hbit, hactive, -⟩ := setIde_results s p false
  refine Bool.eq_false_iff.mpr fun h => ?_
  have hon : (s.setIde p false).rdB Reg.SEC_LINKS (ideBit p) = true := bit_of_fieldNat_seven (ideBit_lt p) (hactive.mp h)
  exact Bool.false_ne_true (hbit.symm.trans hon)

theorem loseIde_open {p : CxlProto} (h : s.isProtected = false) : s.loseIde p = s.setIde p false := if_neg (by simp [h])

theorem loseIde_protected {p : CxlProto} (hon : s.rdB Reg.SEC_LINKS (ideBit p) = true) (h : s.isProtected = true)
    (hctx : s.ctx ∈ [ctxOpening, ctxReady, ctxLoaded, ctxRunning, ctxHalted]) : s.loseIde p = (s.setIde p false).uncorrectable 0x0B 1 := by
  have hrange : 1 ≤ s.ctx ∧ s.ctx ≤ 5 := by
    simp only [List.mem_cons, List.not_mem_nil, or_false] at hctx
    rcases hctx with hc | hc | hc | hc | hc <;> rw [hc] <;> decide
  exact if_pos (by simp [hon, h, hrange])

end State

open State in
/-- Settles O52: each command and each message of the links' security meets one rule, and what it writes is the status word that
names it. -/
theorem privilegeAndLinkResults : Obligations.PrivilegeAndLinkResults := by
  refine ⟨fun s r e m sig key => ?commands, fun s port p msg => ?links⟩
  case commands =>
    intro slot secs
    refine ⟨fun hrun hlen => ?_, fun hrun hslot hzero hsecs hlen => ⟨fun c hc hkey hsig => ?_, fun hc => ?_, fun c hc h => ?_⟩, ?_,
      fun hrun hslot hlen => ⟨fun hm hfree => ?_, fun h => ?_⟩, fun hrun hslot hzero hlen => ⟨fun hm hpriv => ?_, fun h => ?_⟩⟩
    · exact ⟨_, (s.draw 32).1, ⟨exec_privChallenge hrun hlen, running_congr rfl r⟩, length_draw s 32, rfl, rfl, rfl⟩
    · obtain ⟨x, g, hframe, hused⟩ := granted_frame s slot secs
      have hrd := granted_rd s slot secs
      have hne (k : Nat) (hk : k ∉ [Reg.SEC_PRIV]) : (s.granted slot secs).rd k = s.rd k := rd_wr_ne _ _ (by simpa using hk)
      obtain ⟨hbit, hfields⟩ := grantWord_fields hslot hsecs
      have hexec := (exec_privGrant hrun hslot hzero hsecs hlen).trans (congrArg Host.Outcome.next (grant_signed hc hkey hsig))
      rw [hframe] at hexec hrd hne
      obtain ⟨mine, hmine, hsigned⟩ := signCompletion_signed (s := { s with sec := x, regs := g }) (r := r) (e := e)
        ((running_congr rfl r).trans hrun.1) stOk (BitVec.ofNat 64 secs) 0
      refine ⟨_, mine, ⟨hexec.trans (congrArg Host.Outcome.next hsigned), running_congr rfl r⟩, ⟨rfl, hne⟩, rfl, hmine, hused, ?_, fun h => ?_⟩
      · exact (congrArg (bit · 0) hrd).trans hbit
      · exact ⟨(congrArg (fieldNat · 8 24) hrd).trans (hfields h).1, (congrArg (fieldNat · 4 4) hrd).trans (hfields h).2⟩
    · exact privGrant_refused hrun hslot hzero hsecs hlen (grant_without_challenge hc)
    · exact privGrant_refused hrun hslot hzero hsecs hlen (grant_unsigned hc h)
    · exact ⟨_, rfl, onlyRegs_wr s (by decide) 0, rd_wr_self ..⟩
    · obtain ⟨hrings, hkey, hbit, hrepair, hsvn⟩ := enrolled_results s (Nat.lt_of_le_of_lt hslot (by decide)) (fitTo 384 key)
      exact ⟨_, ⟨(exec_opkeyEnrol hrun hslot hlen m key).trans (congrArg Host.Outcome.next (enrol_accepted hm hfree _)), running_congr hrings r⟩,
        hkey, hbit, hrepair, hsvn⟩
    · exact (exec_opkeyEnrol hrun hslot hlen m key).trans (congrArg Host.Outcome.next (enrol_refused h _))
    · refine ⟨_, ⟨(exec_cakSet hrun hslot hzero hlen m key).trans (congrArg Host.Outcome.next (if_neg ?_)), running_congr rfl r⟩, rfl,
        SMap.get_set_self [] s.sec.cak slot (leBytes 16 (e.param 8 16) ++ fitTo 32 key)⟩
      subst hm
      simp [privileged_f1, hpriv]
    · refine (exec_cakSet hrun hslot hzero hlen m key).trans (congrArg Host.Outcome.next (if_pos ?_))
      by_cases hm : m = .f1
      · subst hm
        exact .inr (by rw [privileged_f1, h.resolve_left (not_not_intro rfl)]; rfl)
      · exact .inl hm
  case links =>
    refine ⟨fun h => ?_, fun h => congrArg Host.Outcome.next (mka_without_cak h true), congrArg Host.Outcome.next (mka_invalid s port),
      ⟨_, length_fitTo .., rfl⟩, ?_, ?_, ?_, rfl, ?_⟩
    · obtain ⟨bs, hregs, hbit, hsak, hout⟩ := mka_agreed port.isLt h
      exact ⟨_, bs, rfl, hregs, hbit, hsak, hout⟩
    · exact ⟨_, rfl, setIde_results s p true⟩
    · obtain ⟨honly, hbit, -, hctx⟩ := setIde_results s p false
      refine ⟨_, honly, hbit, setIde_off s p, hctx, fun hon hprot hc => ?_, fun hprot => ?_⟩
      · have hlost := loseIde_protected hon hprot hc
        exact ⟨congrArg Host.Outcome.next hlost, congrArg Host.Outcome.next hlost⟩
      · have hlost := loseIde_open (p := p) hprot
        exact ⟨congrArg Host.Outcome.next hlost, congrArg Host.Outcome.next hlost⟩
    · exact ⟨_, rfl, ⟨rfl, fun k hk => (wrB_rd_ne _ _ _ (by simpa using hk)).trans rfl⟩, rdB_wrB_self _ _ (by decide) true,
        (rdF_wrB_ne _ _ (by decide) fun _ => by decide).trans rfl⟩
    · exact ⟨_, rfl, onlyRegs_wrB s (by decide) 7 false, rdB_wrB_self _ _ (by decide) false, rdF_wrB_ne _ _ (by decide) fun _ => by decide⟩

end Sys2Proof.Machine
end

section
/-!
PROOF. O55: the pins, the boot phases, and the ROM's choice of firmware (R14, R144, R352, R407, R414, R428 to R437).
-/

namespace Sys2Proof.Machine
open Sys2Proof.Claims

namespace Flash
variable {f g : Flash} {b : Bool}

/-- A boot control record stands outside the slots. -/
theorem slot_writeRecord (f : Flash) (x : BootRec) (b : Bool) : (f.writeRecord x).slot b = f.slot b := by
  unfold writeRecord
  dsimp only
  split <;> rfl

theorem valid_congr (h : g.slot b = f.slot b) (b0 : Bool) (n : Nat) : g.valid b b0 n = f.valid b b0 n := by
  have hbytes : g.bytes b = f.bytes b := by
    funext off n
    rw [bytes, bytes, h]
  unfold valid header
  rw [hbytes]

end Flash

namespace State
variable {s : State}

/-! The phase (R428). -/

theorem setPhase_phase (s : State) {n : Nat} (h : n < 16) : (s.setPhase n).phase = n :=
  (rdF_wrF_self s Reg.GLB_BOOT_STATUS 28 4 n (by decide)).trans (Nat.mod_eq_of_lt h)

theorem setPhase_rd (s : State) (n : Nat) {k : Nat} (h : k ≠ Reg.GLB_BOOT_STATUS) : (s.setPhase n).rd k = s.rd k := wrF_rd_ne _ _ _ _ h

theorem setPhase_rdB (s : State) (n : Nat) {i : Nat} (h : i < 28) : (s.setPhase n).rdB Reg.GLB_BOOT_STATUS i = s.rdB Reg.GLB_BOOT_STATUS i :=
  rdB_wrF_ne s (h.trans (by decide)) fun _ => .inl h

theorem setPhase_rdF (s : State) (n : Nat) {lo l : Nat} (h : lo + l ≤ 28) :
    (s.setPhase n).rdF Reg.GLB_BOOT_STATUS lo l = s.rdF Reg.GLB_BOOT_STATUS lo l := rdF_wrF_ne s _ _ _ _ _ _ (h.trans (by decide)) (.inl h)

/-! POR_L (R414, R417). -/

theorem foldl_emit {α : Type} (f : α → Out) (l : List α) (s : State) :
    l.foldl (fun t o => t.emit (f o)) s = { s with out := s.out ++ l.map f } := by
  induction l generalizing s with
  | nil => rw [List.foldl_nil, List.map_nil, List.append_nil]
  | cons o l ih =>
    rw [List.foldl_cons, ih, List.map_cons, ← List.singleton_append, ← List.append_assoc]
    rfl

/-! The fuses (R352, R428). -/

/-- Each enrolled slot shows in SEC_OPKEYS. -/
theorem foldl_opkeys_rdB {α : Type} (l : List (Nat × α)) (s : State) {i : Nat} (hi : i < 32)
    (h : s.rdB Reg.SEC_OPKEYS i = true ∨ ∃ x ∈ l, x.1 = i) :
    (l.foldl (fun t e => t.wrB Reg.SEC_OPKEYS e.1 true) s).rdB Reg.SEC_OPKEYS i = true := by
  induction l generalizing s with
  | nil =>
    obtain h | ⟨x, hx, -⟩ := h
    · exact h
    · cases hx
  | cons e l ih =>
    refine ih _ ?_
    by_cases he : e.1 = i
    · exact .inl (he ▸ rdB_wrB_self s _ (he ▸ hi) true)
    · obtain h | ⟨x, hx, rfl⟩ := h
      · exact .inl ((rdB_wrB_ne s _ hi fun _ => Ne.symm he).trans h)
      · obtain rfl | hx := List.mem_cons.mp hx
        · exact absurd rfl he
        · exact .inr ⟨x, hx, rfl⟩

theorem foldl_wrB_frame {α : Type} (k : Nat) (f : α → Nat) (l : List α) (s : State) :
    ∃ g, l.foldl (fun t e => t.wrB k (f e) true) s = { s with regs := g } := by
  induction l generalizing s with
  | nil => exact ⟨_, rfl⟩
  | cons e l ih => exact ih _

/-- BOOT_ID is drawn, and the repair rows are those of the fuses. -/
def identified (s : State) : State :=
  (List.range 4).foldl (fun t i => t.wr (Reg.SEC_BOOT_ID i) (BitVec.ofNat 32 (leAt (s.draw 16).1 (4 * i) 4)))
    { (s.draw 16).2 with repair := (s.draw 16).2.fuse.repair }

theorem identified_fuses (s : State) : s.identified.fuse = s.fuse ∧ s.identified.repair = s.fuse.repair := by
  unfold identified
  obtain ⟨x, hx⟩ : ∃ x, (s.draw 16).2 = { s with sec := x } := ⟨_, rfl⟩
  rw [hx]
  obtain ⟨g, hg⟩ := foldl_wr_frame Reg.SEC_BOOT_ID (fun i => BitVec.ofNat 32 (leAt (s.draw 16).1 (4 * i) 4)) (List.range 4)
    { s with sec := x, repair := s.fuse.repair }
  rw [hg]
  exact ⟨rfl, rfl⟩

theorem readFuses_eq (s : State) (ok : Bool) : s.readFuses ok =
    (((s.fuse.opkeys.foldl (fun t e => t.wrB Reg.SEC_OPKEYS e.1 true) s.identified).wrB Reg.SEC_CTX_STATUS 7 ok).fwStatus).setPhase 2 := rfl

theorem fuses_wrB_fwStatus (s : State) (k i n : Nat) (b : Bool) : (((s.wrB k i b).fwStatus).setPhase n).fuse = s.fuse ∧
    (((s.wrB k i b).fwStatus).setPhase n).repair = s.repair := by
  rw [setPhase, wrF_fuse, wrF_repair, fwStatus_frame]
  exact ⟨rfl, rfl⟩

theorem readFuses_results (s : State) (ok : Bool) : let t := s.readFuses ok
    t.phase = 2 ∧ t.fuse = s.fuse ∧ t.repair = s.fuse.repair ∧ t.rdB Reg.SEC_CTX_STATUS 7 = ok ∧
      ∀ x ∈ s.fuse.opkeys, x.1 < 32 → t.rdB Reg.SEC_OPKEYS x.1 = true := by
  obtain ⟨hfuse, hrepair⟩ := identified_fuses s
  intro t
  have ht : t = _ := readFuses_eq s ok
  clear_value t
  subst ht
  have hkeys : ∀ x ∈ s.fuse.opkeys, x.1 < 32 →
      (s.fuse.opkeys.foldl (fun t e => t.wrB Reg.SEC_OPKEYS e.1 true) s.identified).rdB Reg.SEC_OPKEYS x.1 = true :=
    fun x hx hi => foldl_opkeys_rdB _ _ hi (.inr ⟨x, hx, rfl⟩)
  obtain ⟨g, hg⟩ := foldl_wrB_frame Reg.SEC_OPKEYS Prod.fst s.fuse.opkeys s.identified
  generalize s.fuse.opkeys.foldl (fun t e => t.wrB Reg.SEC_OPKEYS e.1 true) s.identified = u at hkeys hg
  obtain ⟨hf, hr⟩ := fuses_wrB_fwStatus u Reg.SEC_CTX_STATUS 7 2 ok
  refine ⟨setPhase_phase _ (by decide), ?_, ?_, ?_, fun x hx hi => ?_⟩
  · rw [hf, hg, ← hfuse]
  · rw [hr, hg, ← hrepair]
  · rw [rdB_congr (setPhase_rd _ _ (by decide)), fwStatus_rdB _ (by decide) fun h => absurd h (by decide)]
    exact rdB_wrB_self _ _ (by decide) ok
  · rw [rdB_congr (setPhase_rd _ _ (by decide)), fwStatus_rdB _ hi fun h => absurd h (by decide),
      rdB_congr (wrB_rd_ne _ _ _ (by decide))]
    exact hkeys x hx hi

/-! Self-test (R144). -/

theorem bistDone_results (s : State) (failed : List Nat) : let t := s.bistDone failed
    t.phase = 3 ∧ t.rdB Reg.GLB_CLK_STATUS 3 = true ∧ t.rdB Reg.GLB_BOOT_STATUS 8 = t.rdB Reg.ARY_STATUS 7 ∧
      (failed = [] → t.rdB Reg.ARY_STATUS 7 = false) := by
  have hary (u : State) (b : Bool) : (((u.wrB Reg.GLB_BOOT_STATUS 8 b).wrB Reg.GLB_CLK_STATUS 3 true).setPhase 3).rdB Reg.ARY_STATUS 7 =
      u.rdB Reg.ARY_STATUS 7 := by
    rw [rdB_congr (setPhase_rd _ _ (by decide)), rdB_congr (wrB_rd_ne _ _ _ (by decide)), rdB_congr (wrB_rd_ne _ _ _ (by decide))]
  refine ⟨setPhase_phase _ (by decide), ?_, ?_, fun h => ?_⟩
  · exact (rdB_congr (setPhase_rd _ _ (by decide)) 3).trans (rdB_wrB_self _ _ (by decide) true)
  · refine Eq.trans ?_ (hary (s.bistResult failed) _).symm
    refine (setPhase_rdB _ _ (by decide)).trans ((rdB_congr (wrB_rd_ne _ _ _ (by decide)) 8).trans ?_)
    exact rdB_wrB_self _ _ (by decide) _
  · subst h
    exact (hary _ _).trans (rdB_wrB_self _ _ (by decide) false)

/-! The firmware that runs (R435, R436). -/

/-- All that the ROM's choice depends on is the same. -/
def SameRom (s t : State) : Prop := t.flash = s.flash ∧ t.boot = s.boot ∧ t.b0 = s.b0 ∧ t.fuse = s.fuse

theorem SameRom.slotValid {t : State} (h : SameRom s t) (b : Bool) : t.slotValid b = s.slotValid b := by
  obtain ⟨hflash, -, hb0, hfuse⟩ := h
  rw [State.slotValid, State.slotValid, hflash, hb0, hfuse]

theorem look_same (s : State) (b : Bool) : SameRom s (s.look b) := ⟨rfl, rfl, rfl, rfl⟩

theorem look_rd (s : State) (b : Bool) {k : Nat} (h : k ≠ Reg.GLB_BOOT_STATUS) : (s.look b).rd k = s.rd k := wrB_rd_ne _ _ _ h

/-- FW_A_BAD and FW_B_BAD after a look at a slot. -/
theorem look_bad (s : State) (b c : Bool) : (s.look b).rdB Reg.GLB_BOOT_STATUS (if c then 13 else 12) =
    if c = b then !s.slotValid b else s.rdB Reg.GLB_BOOT_STATUS (if c then 13 else 12) := by
  unfold look
  by_cases h : c = b
  · subst h
    rw [rdB_wrB_self _ _ (by split <;> decide), if_pos rfl]
  · rw [rdB_wrB_ne _ _ (by split <;> decide) fun _ => by revert h; cases b <;> cases c <;> decide, if_neg h]

/-- What the state of running firmware shows, and what it keeps. -/
theorem runSlot_results (s : State) (b trial : Bool) : let t := s.runSlot b trial
    t.phase = (if s.boot.cold then 4 else 5) ∧ t.boot.slot = some b ∧ t.boot.measure = s.flash.measure b ∧
      t.rd Reg.GLB_FW_SVN = BitVec.ofNat 32 (s.flash.svn b) ∧ t.onTrial = trial ∧ t.transition = trial ∧ t.flash = s.flash ∧
      t.rdB Reg.GLB_FW_STATUS 4 = s.rdB Reg.GLB_FW_STATUS 4 := by
  obtain ⟨x, hx⟩ : ∃ x : BootSt, x = { s.boot with
    slot := some b, measure := s.flash.measure b, kicked := s.timeline,
    staged := if trial then s.flash.measure s.flash.record.active else [] } := ⟨_, rfl⟩
  have hslot : x.slot = some b ∧ x.measure = s.flash.measure b := by rw [hx]; exact ⟨rfl, rfl⟩
  have hrun : s.runSlot b trial = ((((({ s with boot := x } : State).wr Reg.GLB_FW_SVN (BitVec.ofNat 32 (s.flash.svn b))).wrB
      Reg.GLB_BOOT_STATUS 14 b).wrB Reg.GLB_FW_STATUS 3 trial).setTransition trial).setPhase (if s.boot.cold then 4 else 5) := by rw [hx]; rfl
  have hboot (u : State) (v : Word) (n : Nat) : (((((u.wr Reg.GLB_FW_SVN v).wrB Reg.GLB_BOOT_STATUS 14 b).wrB Reg.GLB_FW_STATUS 3
      trial).setTransition trial).setPhase n).boot = u.boot ∧ (((((u.wr Reg.GLB_FW_SVN v).wrB Reg.GLB_BOOT_STATUS 14 b).wrB
      Reg.GLB_FW_STATUS 3 trial).setTransition trial).setPhase n).flash = u.flash := ⟨rfl, rfl⟩
  obtain ⟨hb, hf⟩ := hboot { s with boot := x } (BitVec.ofNat 32 (s.flash.svn b)) (if s.boot.cold then 4 else 5)
  have htrans (u : State) {k : Nat} (h : k ≠ Reg.SEC_CTX_STATUS) : (u.setTransition trial).rd k = u.rd k := wrB_rd_ne _ _ _ h
  intro t
  have ht : t = _ := hrun
  clear_value t
  subst ht
  refine ⟨setPhase_phase _ (by split <;> decide), ?_, ?_, ?_, ?_, ?_, hf, ?_⟩
  · rw [hb]; exact hslot.1
  · rw [hb]; exact hslot.2
  · rw [setPhase_rd _ _ (by decide), htrans _ (by decide), wrB_rd_ne _ _ _ (by decide), wrB_rd_ne _ _ _ (by decide), rd_wr_self]
  · rw [onTrial, rdB_congr (setPhase_rd _ _ (by decide)), rdB_congr (htrans _ (by decide))]
    exact rdB_wrB_self _ _ (by decide) trial
  · rw [transition, rdB_congr (setPhase_rd _ _ (by decide))]
    exact rdB_wrB_self _ _ (by decide) trial
  · rw [rdB_congr (setPhase_rd _ _ (by decide)), rdB_congr (htrans _ (by decide)), rdB_wrB_ne _ _ (by decide) fun _ => by decide,
      rdB_congr (wrB_rd_ne _ _ _ (by decide)), rdB_congr (rd_wr_ne _ _ (by decide))]
    rfl

/-- The state in which the ROM begins to choose. -/
def romStart (s : State) : State := ((s.wrF Reg.GLB_BOOT_STATUS 12 2 0).wrB Reg.GLB_FW_STATUS 4 false).fwStatus

theorem romStart_same (s : State) : SameRom s s.romStart := by
  rw [romStart, fwStatus_frame]
  exact ⟨rfl, rfl, rfl, rfl⟩

/-- The choice by what is staged, and by how many tries are left. -/
theorem chooseSlot_eq (s : State) : s.chooseSlot = match stagedSlot s.romStart.flash.record.staged with
    | none => s.romStart.runActive
    | some b =>
      if 0 < s.romStart.flash.record.tries then
        if s.romStart.slotValid b then
          ((s.romStart.putRecord { s.romStart.flash.record with tries := s.romStart.flash.record.tries - 1 }).look b).runSlot b true
        else ((s.romStart.putRecord { s.romStart.flash.record with tries := s.romStart.flash.record.tries - 1 }).look b).rollBack
      else s.romStart.rollBack := rfl

theorem chooseSlot_of_none (h : stagedSlot s.flash.record.staged = none) : ∃ u, SameRom s u ∧ s.chooseSlot = u.runActive := by
  refine ⟨_, romStart_same s, ?_⟩
  rw [chooseSlot_eq, (romStart_same s).1, h]

theorem chooseSlot_of_trial {b : Bool} (h : stagedSlot s.flash.record.staged = some b) (ht : 0 < s.flash.record.tries)
    (hv : s.slotValid b = true) : ∃ u, SameRom s u ∧
      s.chooseSlot = ((u.putRecord { s.flash.record with tries := s.flash.record.tries - 1 }).look b).runSlot b true := by
  refine ⟨_, romStart_same s, ?_⟩
  rw [chooseSlot_eq, (romStart_same s).1, h]
  dsimp only
  rw [if_pos ht, (romStart_same s).slotValid, if_pos hv]

theorem chooseSlot_of_failed {b : Bool} (h : stagedSlot s.flash.record.staged = some b) (ht : s.flash.record.tries = 0) :
    ∃ u, SameRom s u ∧ s.chooseSlot = u.rollBack := by
  refine ⟨_, romStart_same s, ?_⟩
  rw [chooseSlot_eq, (romStart_same s).1, h]
  dsimp only
  rw [ht, if_neg (Nat.lt_irrefl 0)]

theorem runActive_of_valid (h : s.slotValid s.flash.record.active = true) :
    s.runActive = (s.look s.flash.record.active).runSlot s.flash.record.active false := by
  unfold runActive
  dsimp only
  rw [if_pos h]

/-- The other slot becomes the active one. -/
theorem runActive_of_other (h : s.slotValid s.flash.record.active = false) (ho : s.slotValid (!s.flash.record.active) = true) :
    ∃ u : State, u.flash = s.flash.writeRecord { s.flash.record with active := !s.flash.record.active } ∧ u.boot = s.boot ∧
      s.runActive = u.runSlot (!s.flash.record.active) false := by
  unfold runActive
  dsimp only
  rw [if_neg (ne_true_of_eq_false h), if_pos ho]
  obtain ⟨hflash, hboot, -, -⟩ := look_same s s.flash.record.active
  obtain ⟨hflash', hboot', -, -⟩ := look_same (s.look s.flash.record.active) (!s.flash.record.active)
  generalize (s.look s.flash.record.active).look (!s.flash.record.active) = v at hflash' hboot'
  refine ⟨_, ?_, ?_, rfl⟩
  · rw [logMinor, addEntry_frame, putRecord_frame, hflash', hflash]
  · rw [logMinor, addEntry_frame, putRecord_frame, hboot', hboot]

/-- With no slot valid the device goes to RECOVERY (R437). -/
theorem runActive_of_neither (h : s.slotValid s.flash.record.active = false) (ho : s.slotValid (!s.flash.record.active) = false) :
    let t := s.runActive
    t.phase = 8 ∧ t.boot.slot = none ∧ t.rdB Reg.GLB_BOOT_STATUS 12 = true ∧ t.rdB Reg.GLB_BOOT_STATUS 13 = true := by
  obtain ⟨u, hu⟩ : ∃ u, (s.look s.flash.record.active).look (!s.flash.record.active) = u := ⟨_, rfl⟩
  have hbad (c : Bool) : u.rdB Reg.GLB_BOOT_STATUS (if c then 13 else 12) = true := by
    rw [← hu, look_bad, look_bad, (look_same ..).slotValid, h, ho]
    cases c <;> cases s.flash.record.active <;> rfl
  have hrun : s.runActive = ((((({ u with boot := { u.boot with slot := none, measure := [], staged := [] } } : State).wr Reg.GLB_FW_SVN 0).wrB
      Reg.GLB_FW_STATUS 3 false).setTransition false).setPhase 8) := by
    unfold runActive
    dsimp only
    rw [if_neg (ne_true_of_eq_false h), if_neg (ne_true_of_eq_false ho), hu]
  have hbits (v : State) (c : Bool) (hv : v.rdB Reg.GLB_BOOT_STATUS (if c then 13 else 12) = true) :
      ((((v.wr Reg.GLB_FW_SVN 0).wrB Reg.GLB_FW_STATUS 3 false).setTransition false).setPhase 8).rdB Reg.GLB_BOOT_STATUS
        (if c then 13 else 12) = true := by
    rw [setPhase_rdB _ _ (by split <;> decide), setTransition, rdB_congr (wrB_rd_ne _ _ _ (by decide)), rdB_congr (wrB_rd_ne _ _ _ (by decide)),
      rdB_congr (rd_wr_ne _ _ (by decide))]
    exact hv
  have hslot (v : State) : ((((v.wr Reg.GLB_FW_SVN 0).wrB Reg.GLB_FW_STATUS 3 false).setTransition false).setPhase 8).boot = v.boot := rfl
  intro t
  have ht : t = _ := hrun
  clear_value t
  subst ht
  exact ⟨setPhase_phase _ (by decide), by rw [hslot], hbits _ false (hbad false), hbits _ true (hbad true)⟩

/-- A roll-back leaves nothing staged, and shows it. -/
theorem rollBack_of_valid (h : s.slotValid s.flash.record.active = true) : let t := s.rollBack
    t.phase = (if s.boot.cold then 4 else 5) ∧ t.boot.slot = some s.flash.record.active ∧ t.onTrial = false ∧
      t.rdB Reg.GLB_FW_STATUS 4 = true ∧ t.flash.record = { s.flash.record with seq := s.flash.record.seq + 1, staged := 0, tries := 0 } := by
  obtain ⟨u, hu⟩ : ∃ u, (s.putRecord { s.flash.record with staged := 0, tries := 0 }).wrB Reg.GLB_FW_STATUS 4 true = u := ⟨_, rfl⟩
  have hbit : u.rdB Reg.GLB_FW_STATUS 4 = true := hu ▸ rdB_wrB_self _ _ (by decide) true
  have hrec : u.flash.record = { s.flash.record with seq := s.flash.record.seq + 1, staged := 0, tries := 0 } := by
    rw [← hu, wrB_flash, putRecord_record]
  have hwritten : u.flash = s.flash.writeRecord { s.flash.record with staged := 0, tries := 0 } := by rw [← hu, wrB_flash, putRecord_frame]
  have hboot : u.boot = s.boot := by rw [← hu, wrB_boot, putRecord_frame]
  have hkept : u.b0 = s.b0 ∧ u.fuse = s.fuse := by rw [← hu, wrB_b0, wrB_fuse, putRecord_frame]; exact ⟨rfl, rfl⟩
  have hvalid : u.slotValid u.flash.record.active = true := by
    rw [hrec, slotValid, hwritten, hkept.1, hkept.2, Flash.valid_congr (Flash.slot_writeRecord ..)]
    exact h
  have hrun : s.rollBack = u.runActive := by rw [rollBack, hu]
  obtain ⟨hsame, hsameBoot, -, -⟩ := look_same u u.flash.record.active
  obtain ⟨hphase, hslot, -, -, htrial, -, hflash, hshown⟩ := runSlot_results (u.look u.flash.record.active) u.flash.record.active false
  rw [hrun, runActive_of_valid hvalid]
  refine ⟨hphase.trans (by rw [hsameBoot, hboot]), hslot.trans (by rw [hrec]), htrial, ?_, ?_⟩
  · rw [hshown, rdB_congr (look_rd _ _ (by decide)), hbit]
  · rw [hflash, hsame, hrec]

/-! Calibration, memory training and the scrub of a boot (R14, R407, R430, R431). -/

theorem readStore_results (s : State) : s.readStore.phase = 5 ∧ s.readStore.cal = s.cal.select := by
  refine ⟨setPhase_phase _ (by decide), ?_⟩
  have hlog (u : State) (src : Byte) (cls : Nat) (loc : DWord) : (u.logMinor src cls loc).cal = u.cal := by rw [logMinor, addEntry_frame]
  have hport (u : State) (p : Nat) : (match u.cal.inForce 4 p with
      | some bs =>
        ((u.wr (Reg.TIM_PORT_ILAT p) (BitVec.ofNat 32 (leAt bs 0 4))).wr (Reg.TIM_PORT_ELAT p) (BitVec.ofNat 32 (leAt bs 4 4))).wr
          (Reg.TIM_PORT_ASYM p) (BitVec.ofNat 32 (leAt bs 8 4))
      | none => u).cal = u.cal := by
    split <;> rfl
  have hcal (u : State) : u.calStatus.cal = u.cal := by rw [calStatus_frame]
  unfold readStore
  extract_lets s1 torn base log s2 port
  have hport' (u : State) (p : Nat) : (port u p).cal = u.cal := hport u p
  have hs2 : s2.cal = s.cal.select := by
    refine (hcal _).trans ((wrB_cal ..).trans ?_)
    unfold log
    split
    · exact hlog ..
    · rfl
  rw [setPhase, wrF_cal, hport', hport', hs2]

theorem scrubKey_frame (s : State) : ∃ x n, s.scrubKey = { s with sec := x, freeCount := n } := ⟨_, _, rfl⟩

/-- The scrub of a boot begins; what training found stays shown. -/
theorem beginInit_results (s : State) : let t := s.beginInit
    t.phase = 6 ∧ t.ctx = ctxScrubbing ∧ t.mem = s.mem ∧
      (∀ lo n, lo + n ≤ 28 → t.rdF Reg.GLB_BOOT_STATUS lo n = s.rdF Reg.GLB_BOOT_STATUS lo n) ∧
      ∀ i < 28, t.rdB Reg.GLB_BOOT_STATUS i = s.rdB Reg.GLB_BOOT_STATUS i := by
  obtain ⟨v, hv⟩ : ∃ v, s.beginInit = ((s.scrubKey.wr Reg.SEC_SCRUB_STATUS v).setCtx ctxScrubbing).setPhase 6 := ⟨_, rfl⟩
  obtain ⟨x, n, hkey⟩ := scrubKey_frame s
  have hrd : s.scrubKey.rd Reg.GLB_BOOT_STATUS = s.rd Reg.GLB_BOOT_STATUS := by rw [hkey]; rfl
  have hmem (u : State) : (((u.wr Reg.SEC_SCRUB_STATUS v).setCtx ctxScrubbing).setPhase 6).mem = u.mem := rfl
  have hboot : ((s.scrubKey.wr Reg.SEC_SCRUB_STATUS v).setCtx ctxScrubbing).rd Reg.GLB_BOOT_STATUS = s.rd Reg.GLB_BOOT_STATUS := by
    rw [setCtx_rd _ _ (by decide), rd_wr_ne _ _ (by decide), hrd]
  intro t
  have ht : t = _ := hv
  clear_value t
  subst ht
  refine ⟨setPhase_phase _ (by decide), ?_, ?_, fun lo n h => ?_, fun i h => ?_⟩
  · rw [ctx, rdF_congr (setPhase_rd _ _ (by decide))]
    exact setCtx_ctx _ _ (by decide)
  · exact (hmem _).trans (by rw [hkey])
  · rw [setPhase_rdF _ _ h, rdF_congr hboot]
  · rw [setPhase_rdB _ _ h, rdB_congr hboot]

/-- What memory training found, in GLB_BOOT_STATUS. -/
def trainingShown (s : State) (hbm : BitVec 12) (ddr : BitVec 8) (mm : Bool) : State :=
  (((s.wrF Reg.GLB_BOOT_STATUS 16 12 hbm.toNat).wrB Reg.GLB_BOOT_STATUS 9 (decide (hbm ≠ 0xFFF))).wrB Reg.GLB_BOOT_STATUS 10
    (decide (ddr ≠ 0xFF))).wrB Reg.GLB_BOOT_STATUS 11 mm

theorem trainingShown_results (s : State) (hbm : BitVec 12) (ddr : BitVec 8) (mm : Bool) : let t := s.trainingShown hbm ddr mm
    t.rdF Reg.GLB_BOOT_STATUS 16 12 = hbm.toNat ∧ t.rdB Reg.GLB_BOOT_STATUS 9 = decide (hbm ≠ 0xFFF) ∧
      t.rdB Reg.GLB_BOOT_STATUS 10 = decide (ddr ≠ 0xFF) ∧ t.rdB Reg.GLB_BOOT_STATUS 11 = mm := by
  unfold trainingShown
  refine ⟨?_, ?_, ?_, rdB_wrB_self _ _ (by decide) mm⟩
  · rw [rdF_wrB_ne _ _ (by decide) fun _ => by decide, rdF_wrB_ne _ _ (by decide) fun _ => by decide,
      rdF_wrB_ne _ _ (by decide) fun _ => by decide, rdF_wrF_self _ _ _ _ _ (by decide)]
    exact Nat.mod_eq_of_lt hbm.isLt
  · rw [rdB_wrB_ne _ _ (by decide) fun _ => by decide, rdB_wrB_ne _ _ (by decide) fun _ => by decide, rdB_wrB_self _ _ (by decide)]
  · rw [rdB_wrB_ne _ _ (by decide) fun _ => by decide, rdB_wrB_self _ _ (by decide)]

theorem trained_results (s : State) (hbm : BitVec 12) (ddr : BitVec 8) (mm : Bool) : let t := s.trained hbm ddr mm
    t.phase = 6 ∧ t.ctx = ctxScrubbing ∧ t.mem = s.mem ∧
      (s.boot.cold = true → t.rdF Reg.GLB_BOOT_STATUS 16 12 = hbm.toNat ∧ t.rdB Reg.GLB_BOOT_STATUS 9 = decide (hbm ≠ 0xFFF) ∧
        t.rdB Reg.GLB_BOOT_STATUS 10 = decide (ddr ≠ 0xFF) ∧ t.rdB Reg.GLB_BOOT_STATUS 11 = mm) := by
  cases hc : s.boot.cold with
  | false =>
    have ht : s.trained hbm ddr mm = s.beginInit := if_pos (by rw [hc]; rfl)
    obtain ⟨hphase, hctx, hmem, -, -⟩ := beginInit_results s
    rw [ht]
    exact ⟨hphase, hctx, hmem, fun h => absurd h Bool.false_ne_true⟩
  | true =>
    obtain ⟨u, hu⟩ : ∃ u, s.trainingShown hbm ddr mm = u := ⟨_, rfl⟩
    have hshown := trainingShown_results s hbm ddr mm
    have hmem : u.mem = s.mem := by
      rw [← hu, trainingShown, wrB_mem, wrB_mem, wrB_mem, wrF_mem]
    rw [hu] at hshown
    obtain ⟨n, ht⟩ : ∃ n, s.trained hbm ddr mm = (u.wrF Reg.GLB_TOPOLOGY 20 4 n).beginInit := by
      rw [← hu]
      exact ⟨_, if_neg (by rw [hc]; decide)⟩
    have hrd : (u.wrF Reg.GLB_TOPOLOGY 20 4 n).rd Reg.GLB_BOOT_STATUS = u.rd Reg.GLB_BOOT_STATUS := wrF_rd_ne _ _ _ _ (by decide)
    obtain ⟨hphase, hctx, hkept, hfield, hbit⟩ := beginInit_results (u.wrF Reg.GLB_TOPOLOGY 20 4 n)
    rw [ht]
    refine ⟨hphase, hctx, hkept.trans ((wrF_mem ..).trans hmem), fun _ => ?_⟩
    rw [hfield 16 12 (by decide), hbit 9 (by decide), hbit 10 (by decide), hbit 11 (by decide), rdF_congr hrd, rdB_congr hrd, rdB_congr hrd,
      rdB_congr hrd]
    exact hshown

/-- A line that this boot scrubs (R430). -/
def bootScrubs (s : State) (l : Nat) : Bool := s.boot.cold || isHbm l || decide ((256 * l - ddrBase) / 2 ^ 30 ∈ s.mem.dirty)

/-- The stores once the scrub of a boot is complete. -/
def bootScrubbed (s : State) : State :=
  { s with
    mem := { s.mem with lines := s.mem.lines.filter (fun e => !s.bootScrubs e.1), lost := s.mem.lost.filter (fun l => !s.bootScrubs l) },
    sec := { s.sec with scrub := 0 } }

theorem ready_eq (s : State) : ∃ g, s.ready = (((({ s.bootScrubbed with regs := g } : State).wrB Reg.SEC_CTX_STATUS 3 false).setCtx
    ctxNone).relimit).setPhase 7 := ⟨_, rfl⟩

theorem bootScrubbed_line {l : Nat} (h : s.bootScrubs l = true) (g : SMap Word) :
    ({ s.bootScrubbed with regs := g } : State).line l = Line.blank ∧ l ∉ s.bootScrubbed.mem.lost := by
  refine ⟨?_, ?_⟩
  · refine (SMap.get_filter_key Line.blank (fun j => !s.bootScrubs j) s.mem.lines l).trans ?_
    rw [h]
    rfl
  · simp [bootScrubbed, h]

theorem ready_results (s : State) : s.ready.phase = 7 ∧ s.ready.ctx = ctxNone ∧ s.ready.isProtected = false ∧ s.ready.sec.scrub = 0 ∧
    ∀ l, s.bootScrubs l = true → s.ready.line l = Line.blank ∧ l ∉ s.ready.mem.lost := by
  obtain ⟨g, hg⟩ := ready_eq s
  have hlines {l : Nat} (h : s.bootScrubs l = true) := bootScrubbed_line h g
  have hscrub : ({ s.bootScrubbed with regs := g } : State).sec.scrub = 0 := rfl
  have hlost : ({ s.bootScrubbed with regs := g } : State).mem.lost = s.bootScrubbed.mem.lost := rfl
  generalize ({ s.bootScrubbed with regs := g } : State) = u at hg hlines hscrub hlost
  obtain ⟨g', hframe⟩ : ∃ g', s.ready = { u with regs := g' } := by
    obtain ⟨g1, h1⟩ : ∃ g1, u.wrB Reg.SEC_CTX_STATUS 3 false = { u with regs := g1 } := ⟨_, rfl⟩
    obtain ⟨g2, h2⟩ := setCtx_relimit_frame { u with regs := g1 } ctxNone
    rw [hg, h1, h2]
    exact ⟨_, rfl⟩
  have hstatus : s.ready.rd Reg.SEC_CTX_STATUS = ((u.wrB Reg.SEC_CTX_STATUS 3 false).setCtx ctxNone).rd Reg.SEC_CTX_STATUS := by
    rw [hg, setPhase_rd _ _ (by decide), relimit_rd _ (by decide) (by decide)]
  refine ⟨?_, ?_, ?_, ?_, fun l h => ?_⟩
  · rw [hg]
    exact setPhase_phase _ (by decide)
  · exact (rdF_congr hstatus 0 3).trans (setCtx_ctx _ _ (by decide))
  · exact (rdB_congr hstatus 3).trans ((setCtx_isProtected _ _).trans (rdB_wrB_self _ _ (by decide) false))
  · rw [hframe]
    exact hscrub
  · obtain ⟨hline, hgone⟩ := hlines h
    rw [hframe]
    exact ⟨hline, hlost ▸ hgone⟩

end State

open State in
/-- Settles O55: each phase ends in the state that its one step makes, and the ROM's choice is a case split on what is staged, how many
tries are left, and which slots are valid. -/
theorem bootResults : Obligations.BootResults := by
  intro s
  refine ⟨fun h => ?por, fun h => congrArg Host.Outcome.next (if_pos h), fun hpor hperst => congrArg Host.Outcome.next (if_neg ?_),
    fun ok hcold hphase hpor => ⟨_, congrArg Host.Outcome.next (if_pos ?_), readFuses_results s ok⟩,
    fun failed hphase => ⟨_, congrArg Host.Outcome.next (if_pos hphase), bistDone_results s failed⟩, ?firmware,
    fun hphase => ⟨_, congrArg Host.Outcome.next (if_pos hphase), readStore_results s⟩,
    fun hbm ddr mm hphase => ⟨_, congrArg Host.Outcome.next (if_pos hphase), trained_results s hbm ddr mm⟩, fun hphase => ?ready,
    fun hlo hhi => ⟨fun h => ?_, fun h => ?_⟩, fun hphase h => congrArg Host.Outcome.next (if_pos ⟨hphase, h⟩),
    fun h => congrArg Host.Outcome.next (if_neg fun hc => ne_true_of_eq_false h hc.2)⟩
  case por =>
    intro low
    obtain ⟨b, hb⟩ : ∃ b : BootSt, { s.boot with porLow := false, began := s.now } = b := ⟨_, rfl⟩
    obtain ⟨u, hu⟩ : ∃ u, ({ s with boot := b } : State).wrF Reg.GLB_POWER_STATUS 0 12 0xFFF = u := ⟨_, rfl⟩
    have hexec : exec .porLRise s = .next (u.emit (.pps false s.timeline)).resetOutputs := by
      rw [← hu, ← hb]
      exact congrArg Host.Outcome.next (if_pos h)
    have hfield : u.rdF Reg.GLB_POWER_STATUS 0 12 = 0xFFF := by
      rw [← hu]
      exact rdF_wrF_self _ _ _ _ _ (by decide)
    have hrd (k : Nat) (hk : k ∉ [Reg.GLB_POWER_STATUS]) : u.rd k = s.rd k := by
      rw [← hu, wrF_rd_ne _ _ _ _ (by simpa using hk)]
      rfl
    obtain ⟨g, rfl⟩ : ∃ g, u = { s with boot := b, regs := g } := ⟨_, hu.symm⟩
    have hout : s.out ++ [Out.pps false s.timeline] ++ (List.range 16).map (fun o => Out.trig o false) = s.out ++ low := List.append_assoc ..
    rw [resetOutputs, foldl_emit] at hexec
    refine ⟨_, hexec, ⟨?_, hrd⟩, hfield⟩
    rw [← hout, hb]
    rfl
  · rw [hpor, hperst]
    decide
  · rw [hcold, hpor, decide_eq_true hphase]
    rfl
  case firmware =>
    intro f next hphase
    have hexec : exec .firmwarePhaseComplete s = .next s.chooseSlot := congrArg Host.Outcome.next (if_pos (.inl hphase))
    refine ⟨fun hst hv => ?_, fun b hst htries hv => ?_, fun b hst htries hv => ?_, fun hst hv ho => ?_, fun hst ha hb => ?_⟩
    · obtain ⟨u, hsame, hu⟩ := chooseSlot_of_none hst
      have hact : u.flash.record.active = f.active := by rw [hsame.1]
      have hrun := hu.trans (runActive_of_valid (by rw [hact, hsame.slotValid, hv]))
      obtain ⟨hflash, hboot, -, -⟩ := look_same u u.flash.record.active
      obtain ⟨hph, hslot, hmeas, hsvn, htrial, htrans, hkept, -⟩ := runSlot_results (u.look u.flash.record.active) u.flash.record.active false
      generalize (u.look u.flash.record.active).runSlot u.flash.record.active false = v at hrun hph hslot hmeas hsvn htrial htrans hkept
      rw [hboot, hsame.2.1] at hph
      rw [hflash, hact, hsame.1] at hmeas hsvn
      rw [hact] at hslot
      rw [hflash, hsame.1] at hkept
      exact ⟨_, hexec.trans (congrArg Host.Outcome.next hrun), hph, hslot, hmeas, hsvn, htrial, htrans, hkept⟩
    · obtain ⟨u, hsame, hu⟩ := chooseSlot_of_trial hst htries hv
      obtain ⟨hflash, hboot, -, -⟩ := look_same (u.putRecord { s.flash.record with tries := s.flash.record.tries - 1 }) b
      have hrecord := putRecord_record u { s.flash.record with tries := s.flash.record.tries - 1 }
      have hput : (u.putRecord { s.flash.record with tries := s.flash.record.tries - 1 }).boot = u.boot := by rw [putRecord_frame]
      obtain ⟨hph, hslot, -, -, htrial, htrans, hkept, -⟩ :=
        runSlot_results ((u.putRecord { s.flash.record with tries := s.flash.record.tries - 1 }).look b) b true
      rw [hboot, hput, hsame.2.1] at hph
      rw [hflash] at hkept
      rw [hsame.1] at hrecord
      exact ⟨_, hexec.trans (congrArg Host.Outcome.next hu), hph, hslot, htrial, htrans, (congrArg Flash.record hkept).trans hrecord⟩
    · obtain ⟨u, hsame, hu⟩ := chooseSlot_of_failed hst htries
      obtain ⟨hph, hslot, htrial, hback, hrecord⟩ := rollBack_of_valid (s := u) (by rw [hsame.slotValid, hsame.1, hv])
      generalize u.rollBack = v at hu hph hslot htrial hback hrecord
      rw [hsame.2.1] at hph
      rw [hsame.1] at hslot hrecord
      exact ⟨_, hexec.trans (congrArg Host.Outcome.next hu), hph, hslot, htrial, hback, hrecord⟩
    · obtain ⟨u, hsame, hu⟩ := chooseSlot_of_none hst
      obtain ⟨v, hflash, hboot, hrun⟩ := runActive_of_other (s := u) (by rw [hsame.slotValid, hsame.1, hv]) (by rw [hsame.slotValid, hsame.1, ho])
      obtain ⟨hph, hslot, -, -, -, -, hkept, -⟩ := runSlot_results v (!u.flash.record.active) false
      generalize v.runSlot (!u.flash.record.active) false = w at hrun hph hslot hkept
      rw [hboot, hsame.2.1] at hph
      rw [hsame.1] at hslot hflash
      exact ⟨_, hexec.trans (congrArg Host.Outcome.next (hu.trans hrun)), hph, hslot,
        (congrArg Flash.record (hkept.trans hflash)).trans (Flash.record_writeRecord ..)⟩
    · obtain ⟨u, hsame, hu⟩ := chooseSlot_of_none hst
      have hboth (c : Bool) : u.slotValid c = false := by
        rw [hsame.slotValid]
        cases c with
        | false => exact ha
        | true => exact hb
      obtain ⟨hph, hslot, hbadA, hbadB⟩ := runActive_of_neither (hboth _) (hboth _)
      generalize u.runActive = v at hu hph hslot hbadA hbadB
      exact ⟨_, hexec.trans (congrArg Host.Outcome.next hu), hph, hslot, hbadA, hbadB⟩
  case ready =>
    obtain ⟨hph, hctx, hprot, hscrub, hlines⟩ := ready_results s
    refine ⟨_, congrArg Host.Outcome.next (if_pos hphase), hph, hctx, hprot, hscrub, fun l hl => hlines l ?_⟩
    simpa [bootScrubs, or_assoc] using hl
  · exact congrArg Host.Outcome.next ((if_pos ⟨hlo, hhi⟩).trans (if_pos h))
  · exact ⟨_, congrArg Host.Outcome.next ((if_pos ⟨hlo, hhi⟩).trans (if_neg (ne_true_of_eq_false h))),
      onlyRegs_wrF s (by decide) 28 4 15, setPhase_phase s (by decide)⟩

end Sys2Proof.Machine
end

section
/-!
PROOF. O48: LOAD (R186, R187, R196, R332, R339, R349).
-/

namespace Sys2Proof.Machine
open Sys2Proof.Claims

namespace State
variable {s : State}

/-! The stores that loading leaves to itself: what the controllers and the errors of a memory access never touch. -/

/-- What an image loads beside the array: the image, its host queues, its adaptation. -/
def kept (s : State) : Image × SMap HostQ × Adapt := (s.img, s.hostq, s.adapt)

theorem uncorrectable_kept (s : State) (src : Byte) (loc : DWord) (withheld lost : Bool) :
    (s.uncorrectable src loc withheld lost).kept = s.kept :=
  (congrArg kept (uncorrectable_frame s src loc withheld lost)).trans rfl

theorem logCorrected_kept (s : State) (src : Byte) (loc : DWord) : (s.logCorrected src loc).kept = s.kept := by
  have hirq (u : State) (v : Nat) : (u.irq v).kept = u.kept := (congrArg kept (irq_frame u v)).trans rfl
  unfold logCorrected
  extract_lets ms s1 _ s2
  have h2 : s2.kept = s.kept := by
    unfold s2
    split
    · rfl
    · exact (congrArg kept (addEntry_frame s1 src clsCorrected loc false false false)).trans rfl
  split
  · exact (hirq ..).trans h2
  · exact h2

theorem countFixed_kept (s : State) (l : Nat) (f : Nat × Nat) : (s.countFixed l f).kept = s.kept := by
  unfold countFixed
  dsimp only
  split <;> exact logCorrected_kept ..

theorem countUe_kept (s : State) (l : Nat) : (s.countUe l).kept = s.kept := by
  unfold countUe
  split <;> rfl

theorem readLine_kept (s : State) (l : Nat) (bus : BitVec 2048) (withheld : Bool) : (s.readLine l bus withheld).1.kept = s.kept := by
  have hfixed (fs : List (Nat × Nat)) : (fs.foldl (fun t f => t.countFixed l f) s).kept = s.kept :=
    foldl_leaves kept _ _ s fun t f _ => countFixed_kept t l f
  unfold readLine
  extract_lets x src c s1
  split
  · exact uncorrectable_kept ..
  split
  · exact (uncorrectable_kept ..).trans ((countUe_kept ..).trans (hfixed _))
  · split
    · exact hfixed _
    split
    · exact hfixed _
    split
    · exact hfixed _
    · exact (uncorrectable_kept ..).trans (hfixed _)

theorem writeLine_kept (s : State) (l : Nat) (data : BitVec 2048) : (s.writeLine l data).kept = s.kept := by
  unfold writeLine
  extract_lets c v region m m1 s1 s2
  have h2 : s2.kept = s.kept := rfl
  split
  · exact (uncorrectable_kept ..).trans h2
  · exact h2

theorem writePart_kept (s : State) (l lo : Nat) (bs : List Byte) : (s.writePart l lo bs).kept = s.kept := by
  have hread := readLine_kept s l 0 false
  unfold writePart
  split
  · exact writeLine_kept ..
  · split
    · next heq =>
      rw [heq] at hread
      exact (writeLine_kept ..).trans hread
    · next heq =>
      rw [heq] at hread
      exact hread

theorem writeBytes_kept (s : State) (dpa : Nat) (bs : List Byte) : (s.writeBytes dpa bs).kept = s.kept := by
  unfold writeBytes
  split
  · rfl
  · exact foldl_leaves kept _ _ s fun _ _ _ => writePart_kept ..

/-! Steps that change the array alone, or registers alone. -/

theorem foldl_arr_frame {α : Type} (f : State → α → State) (h : ∀ s x, ∃ a, f s x = { s with arr := a }) (l : List α) (s : State) :
    ∃ a, l.foldl f s = { s with arr := a } := by
  induction l generalizing s with
  | nil => exact ⟨s.arr, rfl⟩
  | cons x l ih =>
    obtain ⟨a, ha⟩ := h s x
    obtain ⟨b, hb⟩ := ih { s with arr := a }
    rw [List.foldl_cons, ha]
    exact ⟨b, hb⟩

theorem foldl_regs_frame {α : Type} (f : State → α → State) (h : ∀ s x, ∃ g, f s x = { s with regs := g }) (l : List α) (s : State) :
    ∃ g, l.foldl f s = { s with regs := g } := by
  induction l generalizing s with
  | nil => exact ⟨s.regs, rfl⟩
  | cons x l ih =>
    obtain ⟨g, hg⟩ := h s x
    obtain ⟨g', hg'⟩ := ih { s with regs := g }
    rw [List.foldl_cons, hg]
    exact ⟨g', hg'⟩

theorem fillDone_frame (s : State) (p : Nat) (f : FillIn) : ∃ a, s.fillDone p f = { s with arr := a } := by
  unfold fillDone
  dsimp only
  split
  · exact ⟨_, rfl⟩
  · exact ⟨_, rfl⟩
  · exact ⟨_, bind_rest ..⟩

theorem storeFill_frame (s : State) (f : FillRec) : ∃ a, s.storeFill f = { s with arr := a } := by
  unfold storeFill
  exact fillDone_frame ..

theorem sramInit_frame (s : State) (p : Parsed) :
    ∃ a, p.sram.foldl (fun t r => r.words.zipIdx.foldl (fun t w => t.sramWrite r.pic (r.word + w.2) w.1) t) s = { s with arr := a } :=
  foldl_arr_frame _ (fun t _ => foldl_arr_frame _ (fun _ _ => ⟨_, rfl⟩) _ t) _ s

theorem loadRows_frame (s : State) : ∃ a, s.loadRows = { s with arr := a } := ⟨_, rfl⟩

/-! The registers that the loader sets (R186, R188, R195). -/

theorem restateLatencies_frame (s : State) : ∃ g, s.restateLatencies = { s with regs := g } :=
  foldl_regs_frame _ (fun _ _ => ⟨_, rfl⟩) _ s

theorem restateLatencies_rd (s : State) {k : Nat} (h : k < 0x0008_1000) : s.restateLatencies.rd k = s.rd k :=
  foldl_leaves (fun t : State => t.rd k) _ _ s fun t x _ => rd_wr_ne t _ (by unfold Reg.ARY_VS_STATED; omega)

/-- Beside its status and the image's stamp, the loader sets what the image's header asks for. -/
theorem loaderRegs_only (s : State) (p : Parsed) :
    OnlyRegs ((s.wr Reg.ARY_LOAD_STATUS 0).wr Reg.ARY_IMAGE_STAMP (BitVec.ofNat 32 (p.h 8 4))) (s.loaderRegs p)
      [Reg.ARY_RATED, Reg.ARY_LEQ0, Reg.ARY_LEQ1, Reg.ARY_ROUND_CFG, Reg.ING_BLOCK_CFG] := by
  unfold loaderRegs
  extract_lets num den h pad s1 s2 s3 s4
  have h2 : OnlyRegs s1 s2 [Reg.ARY_RATED, Reg.ARY_LEQ0, Reg.ARY_LEQ1, Reg.ARY_ROUND_CFG, Reg.ING_BLOCK_CFG] := onlyRegs_wr s1 (by decide) _
  have h3 := onlyRegs_trans h2 (onlyRegs_trans (onlyRegs_wr s2 (k := Reg.ARY_LEQ0) (by decide) (if pad then 0x1111432 else 0))
    (onlyRegs_wr _ (k := Reg.ARY_LEQ1) (by decide) (if pad then 16 else 0)))
  exact onlyRegs_trans h3 (onlyRegs_trans (onlyRegs_wr s3 (k := Reg.ARY_ROUND_CFG) (by decide) _)
    (onlyRegs_wrF s4 (k := Reg.ING_BLOCK_CFG) (by decide) 0 5 p.blockLog))

theorem loaderRegs_frame (s : State) (p : Parsed) : ∃ g, s.loaderRegs p = { s with regs := g } := ⟨_, (loaderRegs_only s p).1⟩

theorem loaderRegs_rd (s : State) (p : Parsed) :
    (s.loaderRegs p).rd Reg.ARY_LOAD_STATUS = 0 ∧ (s.loaderRegs p).rd Reg.ARY_IMAGE_STAMP = BitVec.ofNat 32 (p.h 8 4) := by
  obtain ⟨-, hrd⟩ := loaderRegs_only s p
  refine ⟨?_, ?_⟩
  · rw [hrd _ (by decide), rd_wr_ne _ _ (by decide), rd_wr_self]
  · rw [hrd _ (by decide), rd_wr_self]

/-! The initial contents (R448, R449). -/

theorem initialContents_kept (s : State) (p : Parsed) : (s.initialContents p).kept = s.kept := by
  obtain ⟨a, ha⟩ := sramInit_frame s p
  unfold initialContents
  rw [ha]
  refine foldl_leaves kept _ _ ({ s with arr := a } : State) fun t r _ => ?_
  split
  · rfl
  · exact writeBytes_kept ..

theorem initialContents_rd (s : State) (p : Parsed) {k : Nat} (hk : QuietWord k) : (s.initialContents p).rd k = s.rd k := by
  obtain ⟨a, ha⟩ := sramInit_frame s p
  unfold initialContents
  rw [ha]
  refine foldl_leaves (fun t : State => t.rd k) _ _ ({ s with arr := a } : State) fun t r _ => ?_
  split
  · rfl
  · exact writeBytes_quiet hk ..

/-- Without initial contents of HBM no memory is written. -/
theorem initialContents_frame (s : State) {p : Parsed} (h : ∀ x ∈ p.regions, x.init = noInit) :
    ∃ a, s.initialContents p = { s with arr := a } := by
  obtain ⟨a, ha⟩ := sramInit_frame s p
  unfold initialContents
  rw [ha]
  exact ⟨a, foldl_leaves id _ _ ({ s with arr := a } : State) fun t r hr => if_pos (h r hr)⟩

/-! An image that passes every check (R186, R349). -/

section Loaded
variable (s : State) (p : Parsed) (fills : List FillRec)

/-- The image's fills are stored, and its registers, initial contents and row sums are set. -/
def stored : State := ((fills.foldl storeFill ((s.loaderRegs p).restateLatencies)).initialContents p).loadRows

/-- A part of the state that is neither the array nor a register: only the initial contents of HBM can change it. -/
theorem stored_part {β : Type} (g : State → β) (harr : ∀ s a, g { s with arr := a } = g s) (hregs : ∀ s r, g { s with regs := r } = g s)
    (hinit : ∀ s, g (initialContents s p) = g s) : g (s.stored p fills) = g s := by
  have hrows (u : State) : g u.loadRows = g u := by
    obtain ⟨a, ha⟩ := loadRows_frame u
    rw [ha, harr]
  have hfills (u : State) : g (fills.foldl storeFill u) = g u := by
    obtain ⟨a, ha⟩ := foldl_arr_frame _ storeFill_frame fills u
    rw [ha, harr]
  have hstated (u : State) : g u.restateLatencies = g u := by
    obtain ⟨r, hr⟩ := restateLatencies_frame u
    rw [hr, hregs]
  have hloader : g (s.loaderRegs p) = g s := by
    obtain ⟨r, hr⟩ := loaderRegs_frame s p
    rw [hr, hregs]
  exact (hrows _).trans ((hinit _).trans ((hfills _).trans ((hstated _).trans hloader)))

theorem stored_kept : (s.stored p fills).kept = s.kept :=
  stored_part s p fills kept (fun _ _ => rfl) (fun _ _ => rfl) fun u => initialContents_kept u p

theorem stored_rings (h : ∀ x ∈ p.regions, x.init = noInit) : (s.stored p fills).rings = s.rings :=
  stored_part s p fills State.rings (fun _ _ => rfl) (fun _ _ => rfl) fun u => by
    obtain ⟨a, ha⟩ := initialContents_frame u h
    rw [ha]

theorem stored_rd {k : Nat} (hk : QuietWord k) : (s.stored p fills).rd k = (s.loaderRegs p).rd k := by
  have hrows (u : State) : u.loadRows.rd k = u.rd k := rfl
  have hfills (u : State) : (fills.foldl storeFill u).rd k = u.rd k := by
    obtain ⟨a, ha⟩ := foldl_arr_frame _ storeFill_frame fills u
    rw [ha]
    rfl
  exact (hrows _).trans ((initialContents_rd _ p hk).trans ((hfills _).trans (restateLatencies_rd _ (by unfold QuietWord at hk; omega))))

end Loaded

/-- The state with the image, its host queues and its adaptation. -/
def withImage (s : State) (b : List Byte) (p : Parsed) (vals : List (SeedRec × Nat)) (queues : SMap HostQ) : State :=
  { s with img := s.imageOf p vals ((b.drop 0x60).take 32), hostq := queues, adapt := freshAdapt (p.desc.bind id) }

theorem applyImage_eq (s : State) (b : List Byte) (p : Parsed) (vals : List (SeedRec × Nat)) (queues : SMap HostQ) :
    s.applyImage b p vals queues =
      (((s.withImage b p vals queues).stored p (p.fills.map (patchFill vals))).setAryState aryLoading).setCtx ctxLoaded := rfl

/-- What a loaded image leaves. -/
theorem applyImage_results (s : State) (b : List Byte) (p : Parsed) (vals : List (SeedRec × Nat)) (queues : SMap HostQ) :
    let t := s.applyImage b p vals queues
    ((∀ x ∈ p.regions, x.init = noInit) → t.rings = s.rings) ∧ t.ctx = ctxLoaded ∧ t.aryState = aryLoading ∧
      t.rd Reg.ARY_LOAD_STATUS = 0 ∧ t.rd Reg.ARY_IMAGE_STAMP = BitVec.ofNat 32 (p.h 8 4) ∧
      t.img = s.imageOf p vals ((b.drop 0x60).take 32) ∧ t.hostq = queues ∧ t.adapt = freshAdapt (p.desc.bind id) := by
  have hkept := stored_kept (s.withImage b p vals queues) p (p.fills.map (patchFill vals))
  have hrings := stored_rings (s.withImage b p vals queues) p (p.fills.map (patchFill vals))
  have hstatus := stored_rd (s.withImage b p vals queues) p (p.fills.map (patchFill vals)) (k := Reg.ARY_LOAD_STATUS) (.inr (by decide))
  have hstamp := stored_rd (s.withImage b p vals queues) p (p.fills.map (patchFill vals)) (k := Reg.ARY_IMAGE_STAMP) (.inr (by decide))
  obtain ⟨hzero, hof⟩ := loaderRegs_rd (s.withImage b p vals queues) p
  intro t
  have ht : t = _ := applyImage_eq s b p vals queues
  clear_value t
  subst ht
  generalize (s.withImage b p vals queues).stored p (p.fills.map (patchFill vals)) = u at hkept hrings hstatus hstamp
  have hrd {k : Nat} (hc : k ≠ Reg.SEC_CTX_STATUS) (ha : k ≠ Reg.ARY_STATUS) : ((u.setAryState aryLoading).setCtx ctxLoaded).rd k = u.rd k :=
    (setCtx_rd _ _ hc).trans (wrF_rd_ne _ _ _ _ ha)
  have hparts : ((u.setAryState aryLoading).setCtx ctxLoaded).kept = u.kept := rfl
  obtain ⟨himg, hrest⟩ := Prod.mk.inj (hparts.trans hkept)
  obtain ⟨hhostq, hadapt⟩ := Prod.mk.inj hrest
  refine ⟨hrings, setCtx_ctx _ _ (by decide), ?_, ?_, ?_, himg, hhostq, hadapt⟩
  · exact (rdF_congr (setCtx_rd _ _ (by decide)) 0 3).trans (setAryState_aryState _ _ (by decide))
  · rw [hrd (by decide) (by decide), hstatus, hzero]
  · rw [hrd (by decide) (by decide), hstamp, hof]

/-! The checks, in order (R186). -/

theorem checkImage_of_busy (h : s.aryState ≠ aryIdle) (image seeds : List Byte) : s.checkImage image seeds = .error (.inl ldState) :=
  if_pos (.inl h)

theorem checkImage_of_idle (ha : s.aryState = aryIdle) (hb : s.rdB Reg.ARY_STATUS 7 = false) (image seeds : List Byte) :
    s.checkImage image seeds = match s.parseImage image with
      | .error e => .error (.inl e)
      | .ok p =>
        match s.identityChecks image p <|> planChecks p (s.rd64 Reg.ING_SAMPLE_PERIOD).toNat with
        | some e => .error (.inl e)
        | none =>
          match givenSeeds seeds (p.seeds.map SeedRec.id) with
          | .error off => .error (.inr off)
          | .ok given =>
            match bundleChecks p (p.fills.map (patchFill (seedValues p given))) with
            | some e => .error (.inl e)
            | none => .ok (p, seedValues p given) := by
  unfold checkImage
  rw [if_neg (by simp [ha, hb])] <;> rfl

theorem parseImage_of_header {image : List Byte} (h : headerOk image = false) : s.parseImage image = .error ldFormat :=
  if_pos (.inl (by rw [h]; rfl))

theorem identityChecks_of_measure {image : List Byte} (h : imageMeasure image ≠ (image.drop 0x60).take 32) (p : Parsed) :
    s.identityChecks image p = some ldMeasure := by
  unfold identityChecks
  extract_lets b0stamp
  rw [refuseIf, if_pos (decide_eq_true h)]
  rfl

section Commands
variable {r : Fin 16} {e : SubEntry}

theorem exec_load (hrun : Runs s r 0x01 12 e) (hlen : e.len1.toNat % 16 = 0) (image seeds table : List Byte) :
    exec (.load r image seeds table none) s =
      .next (s.needsState r (decide (s.ctx = ctxReady)) (s.loadImage r image seeds table (e.param 8 4))) :=
  congrArg Host.Outcome.next ((onRing_of_runs hrun _).trans (if_neg (not_not_intro hlen)))

theorem exec_load_ready (hrun : Runs s r 0x01 12 e) (hlen : e.len1.toNat % 16 = 0) (hctx : s.ctx = ctxReady) (image seeds table : List Byte) :
    exec (.load r image seeds table none) s = .next (s.loadImage r image seeds table (e.param 8 4)) := by
  have hopen : OpenContext s := by
    rw [OpenContext, hctx]
    decide
  rw [exec_load hrun hlen, needsState_of_ok hopen (decide_eq_true hctx)]

variable {image seeds : List Byte}

theorem loadImage_refused {w : Nat} (h : s.checkImage image seeds = .error (.inl w)) (r : Nat) (table : List Byte) (n : Nat) :
    s.loadImage r image seeds table n =
      (s.wr Reg.ARY_LOAD_STATUS (BitVec.ofNat 32 w)).complete r stImageRefused 0 0 (BitVec.ofNat 32 w) := by
  unfold loadImage
  rw [h]

theorem loadImage_badSeed {off : Nat} (h : s.checkImage image seeds = .error (.inr off)) (r : Nat) (table : List Byte) (n : Nat) :
    s.loadImage r image seeds table n = s.completeBad r off := by
  unfold loadImage
  rw [h]

theorem loadImage_ok {p : Parsed} {vals : List (SeedRec × Nat)} (h : s.checkImage image seeds = .ok (p, vals)) (r : Nat) (table : List Byte)
    (n : Nat) : s.loadImage r image seeds table n = match hqTableBad table n (queuesNamed p) s.countUsed p.regions with
      | some off => s.completeBad r off
      | none => (s.applyImage image p vals (hqTable table n)).complete r stOk
          (((s.applyImage image p vals (hqTable table n)).rd Reg.ARY_RATED).setWidth 64) (BitVec.ofNat 64 (p.h 6 2)) := by
  unfold loadImage
  rw [h] <;> rfl

end Commands

end State

open State in
/-- Settles O48: LOAD by the context's state, by the outcome of the checks, and by the table; the checks by the first that fails. -/
theorem loadResults : Obligations.LoadResults := by
  intro s r e image seeds table hrun hlen i
  refine ⟨fun p vals hctx hok htable => ?loaded, fun w hctx hw => ?_, fun off hctx hoff => ?_, fun p vals off hctx hok htable => ?_,
    fun hctx => ?_, fun hctx => ?_, fun h => checkImage_of_busy h image seeds, fun ha hb hh => ?_, fun p ha hb hp hm => ?_⟩
  case loaded =>
    obtain ⟨hrings, hctx', hary, hstatus, hstamp, himg, hhostq, hadapt⟩ := applyImage_results s image p vals (hqTable table (e.param 8 4))
    have hload := loadImage_ok hok r table (e.param 8 4)
    rw [htable] at hload
    dsimp only at hload
    generalize s.applyImage image p vals (hqTable table (e.param 8 4)) = t at hload hrings hctx' hary hstatus hstamp himg hhostq hadapt
    refine ⟨t, (exec_load_ready hrun hlen hctx image seeds table).trans (congrArg Host.Outcome.next hload),
      fun hno => running_congr (hrings hno) r, hctx', hary, hstatus, hstamp, by rw [himg]; rfl, by rw [himg]; rfl, by rw [himg]; rfl, hhostq, hadapt,
      ?_, ?_, ?_⟩
    all_goals
      rw [hadapt]
      rfl
  · exact ⟨_, (exec_load_ready hrun hlen hctx image seeds table).trans (congrArg Host.Outcome.next (loadImage_refused hw r table _)),
      onlyRegs_wr s (by decide) _, rd_wr_self ..⟩
  · exact (exec_load_ready hrun hlen hctx image seeds table).trans (congrArg Host.Outcome.next (loadImage_badSeed hoff r table _))
  · have hload := loadImage_ok hok r table (e.param 8 4)
    rw [htable] at hload
    exact (exec_load_ready hrun hlen hctx image seeds table).trans (congrArg Host.Outcome.next hload)
  · refine (exec_load hrun hlen image seeds table).trans (congrArg Host.Outcome.next ?_)
    simp only [List.mem_cons, List.not_mem_nil, or_false] at hctx
    refine needsState_of_not ?_ (decide_eq_false ?_) _ _
    · unfold OpenContext
      rcases hctx with h | h | h <;> rw [h] <;> decide
    · rcases hctx with h | h | h <;> rw [h] <;> decide
  · exact (exec_load hrun hlen image seeds table).trans (congrArg Host.Outcome.next (needsContext_of_closed hctx _ _))
  · rw [checkImage_of_idle ha hb, parseImage_of_header hh]
  · rw [checkImage_of_idle ha hb, hp]
    dsimp only
    rw [identityChecks_of_measure hm]
    rfl

end Sys2Proof.Machine
end
